-- ==== Sys2Proof/Word.lean ====
section
/-! DEFINITION. The words of the block: octets, addresses and sparse tables. -/
namespace Sys2Proof

/-- One octet. -/
abbrev Byte := BitVec 8
/-- A MAC address, first octet most significant. -/
abbrev Mac := BitVec 48
/-- A 32-bit tally, wrapping from 2^32 - 1 to 0 (R218). -/
abbrev Tally := BitVec 32

/-- A sparse table: keys strictly rising, no entry equal to the default. -/
abbrev Tab (α : Type) := List (Nat × α)

namespace Tab

/-- The entry at `k`, or the default `d`. -/
def get {α : Type} (d : α) : Tab α → Nat → α
  | [], _ => d
  | (k', v) :: t, k => if k' = k then v else get d t k

/-- Remove what lies at `k`. -/
def erase {α : Type} : Tab α → Nat → Tab α
  | [], _ => []
  | (k', v) :: t, k => if k' = k then erase t k else (k', v) :: erase t k

/-- Insert the pair at its place in key order, replacing an entry of that key. -/
def insert {α : Type} : Tab α → Nat → α → Tab α
  | [], k, v => [(k, v)]
  | (k', v') :: t, k, v =>
    if k < k' then (k, v) :: (k', v') :: t
    else if k = k' then (k, v) :: t
    else (k', v') :: insert t k v

/-- Write `v` at `k`; writing the default removes the entry. -/
def put {α : Type} [DecidableEq α] (d : α) (t : Tab α) (k : Nat) (v : α) : Tab α :=
  if v = d then erase t k else insert t k v

/-- The canonical form: keys strictly rising, no entry equal to the default. -/
def wf {α : Type} [DecidableEq α] (d : α) : Tab α → Bool
  | [] => true
  | (k, v) :: t => v ≠ d && t.all (fun p => k < p.1) && wf d t

end Tab

end Sys2Proof
end

