-- ==== Sys2Proof/Machine/Types.lean ====
section
/-! DEFINITION. The types of what meets the block from outside: frames, messages, scans, samples and measurements,
as the commands of Syntax.lean carry them. -/
namespace Sys2Proof

/-- The four Ethernet ports (Table 6.1). -/
inductive Port | p0 | p1 | s0 | s1
deriving DecidableEq, Repr

/-- The two groups of field channels (R533). -/
inductive Group | a | b
deriving DecidableEq, Repr

/-- The status pins of class ODH (R88): `ALMn`, `HEALTHY_OUT`, `READY_OUT`. -/
inductive StatusPin | alm (n : Fin 8) | healthy | ready
deriving DecidableEq, Repr

/-- The state memories and queues whose parity a fault of Table 19.7 names (chapter 21, When something breaks; log 124). -/
inductive StateMemory
  | faultState | timeCounter | handleTable | overcurrent | feeder | session | publisher
  /-- the error words and integrator of a Reckoner slot (Table 9.2) -/
  | slot (n : Fin 36)
  /-- the schedule of the Reckoner (Table 9.5) -/
  | schedule
deriving DecidableEq, Repr

/-- The crossing queues whose parity R43 names, and the state memories that keep parity. -/
inductive Crossing
  | portRx (p : Port) | portTx (p : Port) | carryRx (lane : Fin 2) | carryTx (lane : Fin 2)
  | toField (g : Group) (ch : Fin 32) | fromField (ch : Fin 32)
  | toRing (slot : Nat) (sec : Nat) (cnt : Nat) | fromRetention
  | memory (m : StateMemory)
deriving DecidableEq, Repr

/-- What takes a port's link down (R219): loss of block lock or the high bit-error-rate condition of P0 and P1, loss of
synchronisation or an autonegotiation restart of S0 and S1, or RXLOS high. -/
inductive LinkLoss | blockLock | highBer | synchronisation | autonegotiation | rxLos
deriving DecidableEq, Repr

/-- What the link partner of S0 or S1 signals (R213): its speed in Mb/s and whether it runs full duplex. -/
structure LinkPartner where
  mbps : Nat
  fullDuplex : Bool
deriving DecidableEq, Repr

/-- A link that goes down (R219), and one that comes up, with its partner on S0 and S1 (R213). -/
structure PortLoss where
  port : Port
  why : LinkLoss
deriving DecidableEq, Repr
structure PortGain where
  port : Port
  partner : Option LinkPartner
deriving DecidableEq, Repr

/-- The paths of R627. -/
inductive Path | carry | bus
deriving DecidableEq, Repr

/-- The elements of a zone that own a start, a count or an integrator (Tables 11.1, 12.2, R461, R464, R469). -/
inductive Elem
  | e51pA | e51pB | e51pC | e50pA | e50pB | e50pC | e51n | e50n | e46 | e27 | e59 | e81 | e49 | ebc
deriving DecidableEq, Repr

/-- The direction decisions of Table 11.4. -/
inductive DirDec | pA | pB | pC | n
deriving DecidableEq, Repr

/-- A sample index: second and smpCnt (R269). -/
structure SIndex where
  sec : Nat
  cnt : Nat
deriving DecidableEq, Repr

/-- Seconds of the 48-bit second field from a to b, the field taken round (R269 gives a stream the second before 0 where the local time
counter has only begun). -/
def secondsTo (a b : Nat) : Nat := (b + 2 ^ 48 - a % 2 ^ 48) % 2 ^ 48

/-- The order of sample indices. -/
def SIndex.lt (a b : SIndex) : Bool :=
  let d := secondsTo a.sec b.sec
  if d = 0 then a.cnt < b.cnt else d < 2 ^ 47

/-- One result of a plug scan (R144): a bead code, ambiguous, short or stray. -/
inductive Rod | code (c : Fin 32) | ambiguous | short | stray
deriving DecidableEq, Repr

/-- What the converters read in one plug scan (R136, R137, R141): the reference at the plug in µV by 8 × row + phase (an unlisted
one reads 1.000 V), the baseline current of each column and the current of each rod by its linear index, in pA (unlisted: 0). -/
structure ScanReadings where
  mref : Tab Nat
  baseline : Tab Int
  current : Tab Int
deriving DecidableEq, Repr

/-- One I²C transaction as the bus shows it (R243, R244): SDA and SCL at the start, the SCL pulse of the recovery after which SDA is
high (`none` when still low after the ninth), and the octets of the page read, absent after a NACK or a stretch beyond 25 ms. -/
structure I2c where
  sdaLow : Bool
  sclLow : Bool
  freedAfter : Option Nat
  page : Option (List Byte)
deriving DecidableEq, Repr

/-- A cage at the ports step: `MODABS`, and the A0h read of a fitted module. -/
structure CageRead where
  modAbs : Bool
  read : I2c
deriving DecidableEq, Repr

/-- A redundancy trailer or tag as received: an RCT with its LAN identifier and sequence number and whether its suffix
and size field are those of IEC 62439-3 (R227), an HSR tag (R232), or none. -/
inductive RedTag
  | none
  | rct (lan : BitVec 4) (seq : BitVec 16) (suffixOk sizeOk : Bool)
  | hsr (seq : BitVec 16)
deriving DecidableEq, Repr

/-- A PTP Sync or Follow_Up met by the transparent clock of R320. -/
inductive RxPtp
  | none
  | sync (twoStep : Bool) (clock : BitVec 64) (port seq : BitVec 16)
  | followUp (clock : BitVec 64) (port seq : BitVec 16)
deriving DecidableEq, Repr

/-- A frame as it ends at a port (R216). -/
structure RxFrame where
  codingOk : Bool
  size : Nat
  fcsOk : Bool
  dst : Mac
  src : Mac
  /-- the Ethertypes 0x8100 and 0x88A8 met before the frame's own, in order -/
  tags : List (BitVec 16)
  red : RedTag
  ethertype : BitVec 16
  /-- the protocol number of a 0x88B7 frame -/
  proto : BitVec 16
  /-- a PTP peer-delay message (R232) -/
  peerDelay : Bool
  ptp : RxPtp
  /-- this frame is the engine's own HSR supervision frame returning (R256) -/
  ownSupervision : Bool
  /-- the other copy of this PRP frame reaches the core from P0 in the same tick (R23) -/
  twinFromP0 : Bool
  /-- the counter at the start-of-frame delimiter in units of 0.5 ns (R222, R223) -/
  stamp : Nat
deriving DecidableEq, Repr

/-- One ASDU of an SV frame, by field (Table 7.1). -/
structure AsduRaw where
  svId : List Byte
  smpCnt : List Byte
  confRev : List Byte
  smpSynch : List Byte
  smpRate : Option Nat
  smpMod : Option Nat
  seqData : List Byte
  gmIdentity : Option (List Byte)
deriving DecidableEq, Repr

/-- An SV frame as delivered by a port (R258), its fields as read. -/
structure SvFrame where
  src : Mac
  appid : BitVec 16
  length : Nat
  /-- octets from APPID to the end of the APDU -/
  apduOctets : Nat
  reserved1 : BitVec 16
  savPduOk : Bool
  noAsdu : Option Nat
  seqAsduOk : Bool
  asdus : List AsduRaw
  /-- the authentication value of the security extension, when tagged -/
  tag : Option (List Byte)
  /-- the octets the tag is computed over (R592) -/
  signed : List Byte
  /-- the local time counter at the start-of-frame delimiter, in units of 0.5 ns (R222, R223) -/
  rxTime : Int
deriving DecidableEq, Repr

/-- A breaker report GOOSE message (R286, R287). -/
structure BrkMsg where
  src : Mac
  appid : BitVec 16
  gocbRef : List Byte
  timeAllowedToLive : Nat
  stNum : Nat
  sqNum : Nat
  simulation : Bool
  confRev : BitVec 32
  ndsCom : Bool
  numEntries : Nat
  /-- the first member, when it is a bit-string of 2 bits -/
  dbpos : Option (BitVec 2)
  /-- the second member: absent, or present and a bit-string of 13 bits when `some` -/
  quality : Option (Option (BitVec 13))
  /-- octets from the APPID to the end of the APDU, for the digest of R628 -/
  apdu : List Byte
deriving DecidableEq, Repr

/-- A PTP port identity: clock identity and port number. -/
structure PortId where
  clock : BitVec 64
  port : BitVec 16
deriving DecidableEq, Repr

/-- What every PTP message carries (R310). -/
structure PtpHdr where
  version : Nat
  domain : Nat
  src : PortId
  seq : BitVec 16
deriving DecidableEq, Repr

/-- A PTP Sync (R317); times in 2^-16 ns, its receive timestamp in 0.5 ns (R223). -/
structure PtpSync where
  hdr : PtpHdr
  twoStep : Bool
  origin : Int
  correction : Int
  rx : Nat
  /-- the Sync interval in 2^-16 ns -/
  interval : Nat
deriving DecidableEq, Repr

/-- A PTP Follow_Up (R317). -/
structure PtpFollowUp where
  hdr : PtpHdr
  origin : Int
  correction : Int
deriving DecidableEq, Repr

/-- A PTP Announce (R312, R315, R325, R327). -/
structure PtpAnnounce where
  hdr : PtpHdr
  gmIdentity : BitVec 64
  priority1 : Nat
  clockClass : Nat
  clockAccuracy : Nat
  variance : Nat
  priority2 : Nat
  stepsRemoved : Nat
  alternateMaster : Bool
  ptpTimescale : Bool
  utcOffset : Int
  utcOffsetValid : Bool
  leap61 : Bool
  leap59 : Bool
  /-- the announce interval of logMessageInterval, in core ticks -/
  interval : Nat
deriving DecidableEq, Repr

/-- A received Pdelay_Resp or Pdelay_Resp_Follow_Up, with the timestamp it brings (2^-16 ns) and the engine's own
receive timestamp in 0.5 ns (Pdelay_Resp only). -/
structure PtpPdelay where
  hdr : PtpHdr
  stamp : Int
  correction : Int
  rx : Nat
deriving DecidableEq, Repr

/-- A PTP message the engine sends (Table 8.2, R309): 2 Pdelay_Req, 3 Pdelay_Resp, 10 Pdelay_Resp_Follow_Up. -/
structure PtpOut where
  messageType : Nat
  dst : Mac
  src : Mac
  hdr : PtpHdr
  /-- the timestamp field, in 2^-16 ns -/
  stamp : Int
  /-- requestingPortIdentity of a response -/
  requesting : Option PortId
deriving DecidableEq, Repr

/-- A value of a current or voltage channel with its quality word, as received (R259, R275). -/
structure ChanSample where
  value : Int
  quality : BitVec 14
deriving DecidableEq, Repr

/-- What upsets one lane as it takes a sample (R397, R400): its logic falsifies a word it produces, by quantity and kind; or a bit of its
memories has flipped, in word q of the window entry (10 and 11 the angles of V1 and I1, 12 the frequency word), channel ch of the filter
span's entry, or the entry of the raw frequencies, so many samples back. -/
inductive LaneUpset
  | word (q kind : Nat) (mask : BitVec 40)
  | window (back q : Nat) (bit : Fin 40)
  | span (back ch : Nat) (bit : Fin 40)
  | raw (back : Nat) (bit : Fin 40)
deriving DecidableEq, Repr

/-- What upsets lane X and lane Y at a sample. -/
structure Lanes where
  x : Option LaneUpset
  y : Option LaneUpset
deriving DecidableEq, Repr

/-- What the two lanes make of check-pattern samples (R398, R412): the results of lane X and of lane Y, the signature at the end of a
pattern, and whether every memory read with good parity. -/
structure PatternRun where
  x : Nat
  y : Nat
  signature : Option Nat
  parityOk : Bool
deriving DecidableEq, Repr

/-- The conversion codes of one converter set (R509): the 18-bit codes, or none when the conversion failed (CONVF). -/
abbrev ConvSet := Option (List Int)

/-- A heartbeat body (Table 16.6). -/
structure HeartbeatBody where
  hformat : Byte
  sideUid : Byte
  engine : Byte
  pair : Byte
  hflags : Byte
  timeq : Byte
  time : Byte
  hbseq : BitVec 32
  fp : BitVec 64
  jseq : BitVec 64
deriving DecidableEq, Repr

/-- The header of a carry frame as received (R618, R619): lane, SEQ, ACKN, whether the CRC and the form are good. -/
structure CarryHdr where
  lane : Fin 2
  seq : BitVec 16
  ackn : BitVec 16
  valid : Bool
deriving DecidableEq, Repr

/-- A HELLO payload (Table 16.4). -/
structure HelloBody where
  sideUid : Byte
  straps : List Byte
  carryMac : Mac
  macBase : Mac
  fingerprint : Option (BitVec 256)
  pairId : Option Nat
  engine : Byte
  pair : Byte
  restarted : Bool
  jseq : Nat
  lastCrc : BitVec 32
deriving DecidableEq, Repr

/-- An ACCEPT frame (Table 16.4, R619): its header, whether its sender is the Active, and whether its sender must resync; and the JSEQ before
the first entry that the partner's journal segments bring (Table 16.12, step 2). -/
structure AcceptFrame where
  hdr : CarryHdr
  active : Bool
  resync : Bool
  last : Nat
deriving DecidableEq, Repr

/-- A REFUSE frame (Tables 16.4, 16.5). -/
structure RefuseFrame where
  hdr : CarryHdr
  code : Fin 6
deriving DecidableEq, Repr

/-- A receipt record (Table 16.7). -/
structure ReceiptRec where
  kind : Fin 4
  slot : Nat
  secLo : Nat
  bitmap : BitVec 8
  first : Nat
  digest : BitVec 16
deriving DecidableEq, Repr

/-- One ASDU lent (Table 16.4, LEND): its sample index, smpSynch and eight channels. -/
structure LentAsdu where
  idx : SIndex
  smpSynch : Nat
  chans : List ChanSample
deriving DecidableEq, Repr

/-- What a LEND frame carries: ASDU records of an admitted slot, a whole SV frame of a candidate slot, or a breaker
message. -/
inductive LendBody
  | asdus (r : ReceiptRec) (l : List LentAsdu)
  | svFrame (r : ReceiptRec) (f : SvFrame)
  | breaker (r : ReceiptRec) (m : BrkMsg)
deriving DecidableEq, Repr

/-- The digest and identity of a stream as an ADMIT record names them. -/
structure StreamIdent where
  src : Mac
  svId : List Byte
  confRev : BitVec 32
  noAsdu : Nat
  smpRate : Option Nat
  smpMod : Option Nat
deriving DecidableEq, Repr

/-- A decision record (Table 16.8). -/
inductive DecisionRec
  | index (i : SIndex) (timeq : Byte)
  | admission (slot : Nat) (gen : Nat) (ident : StreamIdent) (sec : Nat) (first : SIndex)
  | destroy (slot : Nat) (i : SIndex)
  | missing (slot : Nat) (first : SIndex) (count : Nat)
  | jump (slot : Nat) (sec : Nat) (first : SIndex) (refix : Bool)
  | refuseLend (slot : Nat) (i : SIndex)
  /-- MODEL: Table 16.8 prints channel, filtered state and index; `valid` is whether the input is valid from that index on (R454, R456, R485;
  log 154) -/
  | input (ch : Fin 32) (state valid : Bool) (i : SIndex)
  /-- MODEL: an input's state and validity as agreement begins, from which the changes that INPUT records bring go on (R633, log 160) -/
  | present (ch : Fin 32) (state valid : Bool)
  /-- MODEL: Table 16.8 prints no record for a breaker slot's decisions (R289, R292, R454; log 138): the message of these numbers, with the
  core tick in which it reached the Active (R268), the expiry of its status, its destruction -/
  | breaker (slot : Nat) (stNum sqNum tick : Nat) (i : SIndex)
  | brkExpired (slot : Nat) (i : SIndex)
  | brkDestroyed (slot : Nat) (i : SIndex)
deriving DecidableEq, Repr

/-- The two timestamps of a TIME frame, with this unit's own (R331), in 2^-16 ns. -/
structure TimeBody where
  partnerTx : Int
  partnerRx : Int
  ownTx : Int
  ownRx : Int
  leaderTimeq : Byte
  leaderState : Nat
deriving DecidableEq, Repr

/-- A downstream coupler frame (Table 14.2) is 64 bits; so is an upstream frame (Table 14.3). -/
abbrev CouplerWord := BitVec 64

/-- The diagnostics of R572. -/
inductive OutDiag | overLoad | openWire | readback
deriving DecidableEq, Repr

/-- What the core reads of the MRAM at the journal check otherwise than it was written (R692, R693, Table 4.6): whether each control copy
passes its CRC, the pages whose header fails its PCRC, the JSEQ of entries that fail their ECRC, the rod octets of the bank in use that
read wrong, with the bits that are wrong, and whether the persisted θ is valid. -/
structure JournalFind where
  copyA : Bool
  copyB : Bool
  badPages : List Nat
  badEntries : List Nat
  damage : Tab Byte
  thetaOk : Bool
deriving DecidableEq, Repr

/-- The read-backs of the commit protocol (Table 17.5): steps 1, 3 and 5 of the first attempt and of the repeat. -/
structure CommitReads where
  first : Bool
  second : Bool
deriving DecidableEq, Repr

/-- One recall request frame (Table 18.1). -/
structure RecallReq where
  src : Mac
  rformat : Byte
  op : Byte
  session : Byte
  tag : Byte
  sgen : BitVec 16
  reserved : BitVec 16
  param : List Byte
deriving DecidableEq, Repr

/-- A fault's key (R722): block and class as the code with detail 0, scope code and instance. -/
structure FaultKey where
  code : Nat
  scope : Nat
  inst : Nat
deriving DecidableEq, Repr

/-- A key loader transaction as the pads show it (R762, R763): the bits clocked in (most significant first), whether
an edge interval exceeded 1.0 ms or `KL_SEL` was low for more than 10 ms. -/
structure KlTransaction where
  bits : List Bool
  timeout : Bool
deriving DecidableEq, Repr

/-- A journal entry as the carry link brings it (JENTRY): its number and its header and payload octets after JSEQ. -/
structure CarriedEntry where
  jseq : Nat
  body : List Byte
deriving DecidableEq, Repr

end Sys2Proof
end

