-- ==== Sys2Proof/Machine/Parts.lean ====
section
/-! DEFINITION. The parts of the state that commands carry from one unit of a pair to the other (R641): breaker slots, zone evaluators
and publications. Each field's default is its value at reset. -/
namespace Sys2Proof.Machine

/-- One pipeline sample of a zone trace (R678). -/
structure TraceRec where
  opr : Nat
  str : Nat
  cmd : Nat
  arSt : Nat
  q : Nat
deriving DecidableEq, Repr

/-- Judging a tally over 1.0 s intervals: its last value, intervals in succession with and without a rise. -/
structure Rise where
  last : Nat := 0
  up : Nat := 0
  quiet : Nat := 0
deriving DecidableEq, Repr

/-- The states of a slot (R260). -/
inductive SlotPhase
  | free
  /-- candidate: frames of the run so far, and smpCnt (or sqNum) of the last -/
  | candidate (run : Nat) (last : Nat)
  | admitted
deriving DecidableEq, Repr

/-- A breaker slot (R286 to R290). -/
structure BrkSlot where
  phase : SlotPhase := .free
  /-- the last generation (R302), and whether the slot has been admitted since the entry to Starting (R262) -/
  gen : Nat := 63
  used : Bool := false
  /-- core tick at which a message formed the candidate on the free slot, while its run has one message (R268, R288) -/
  formedAt : Option Nat := none
  src : Mac := 0
  gocbRef : List Byte := []
  confRev : BitVec 32 := 0
  /-- stNum and sqNum of the last message used -/
  stNum : Nat := 0
  sqNum : Nat := 0
  /-- Dbpos of the status: 0 intermediate, 1 open, 2 closed, 3 bad (R289) -/
  dbpos : BitVec 2 := 0
  quality : Option (BitVec 13) := none
  /-- the status has expired (R290) -/
  expired : Bool := false
  /-- tallies by word 1 to 6 of Table 15.7 -/
  tally : Tab Tally := []
  intruder : Rise := {}
deriving DecidableEq, Repr

/-- One element or element phase (R416 to R429, R459): started, operating, integrator J, count c, samples without start,
samples frozen, samples left of a peak-path hold. -/
structure El where
  started : Bool := false
  operate : Bool := false
  j : Nat := 0
  c : Nat := 0
  idle : Nat := 0
  frozen : Nat := 0
  peak : Nat := 0
deriving DecidableEq, Repr

/-- Direction results (R432 to R434). -/
inductive Dir | undecided | forward | reverse
deriving DecidableEq, Repr

/-- One direction decision (R431 to R438). -/
structure DirSt where
  raw : Dir := .undecided
  rawRun : Nat := 0
  confirmed : Dir := .undecided
  unavailable : Bool := false
  /-- V_pol of the last 2 × N_fc samples, newest first: real and imaginary part, usable for memory (R435) -/
  hist : List (Int × Int × Bool) := []
  /-- samples in succession with the live V_pol at 100 V or above (R435) -/
  liveRun : Nat := 0
  armed : Bool := false
  /-- the memory phasor in use, its f_r - f_nom in 0.01 Hz, and samples left -/
  mem : Option (Int × Int × Int) := none
  memLeft : Nat := 0
  /-- the confirmed direction was confirmed while memory was in use (R436) -/
  latched : Bool := false
  /-- samples unavailable, and available, in succession (Table 11.7) -/
  unavailRun : Nat := 0
  availRun : Nat := 0
  /-- unavailable for 1.0 s, and not available for 1.0 s since: what the Restrict of Table 11.7 freezes -/
  restricted : Bool := false
deriving DecidableEq, Repr

/-- Breaker status (Table 12.1). -/
inductive BrkStatus | opened | closed | intermediate | bad | invalid
deriving DecidableEq, Repr

/-- 50BF states (Table 12.4). -/
inductive BfState | idle | timing | operated
deriving DecidableEq, Repr

/-- 79 states (Table 12.5). -/
inductive ArState | open | ready | reclaim | waitOpen | dead | close | lockout
deriving DecidableEq, Repr

/-- A zone's dataset as last formed (Tables 15.2, 15.3): the entries other than measurands. -/
structure Dataset where
  trip : Bool := false
  start : Bool := false
  bf : Bool := false
  close : Bool := false
  lockout : Bool := false
  /-- bit n of the bit-strings at bit n -/
  q : Nat := 0
  opr : Nat := 0
  str : Nat := 0
  phs : Nat := 0
  dir : Nat := 0
  arSt : Nat := 7
  arShot : Nat := 0
deriving DecidableEq, Repr

/-- A zone evaluator (chapters 11 and 12). -/
structure Zone where
  /-- the elements by `Elem` number -/
  el : Tab El := []
  /-- the direction decisions: 67P phases A, B, C, and 67N -/
  dir : Tab DirSt := []
  /-- the breaker status in effect and samples it has been intermediate (R454, R457) -/
  brk : BrkStatus := .invalid
  interm : Nat := 0
  /-- the status of this zone's breaker has been known since the zone started (R498) -/
  known : Bool := false
  /-- samples in succession: position bad, 52a/52b invalid, 27/59/81 frozen and not frozen, blocked under R279 -/
  badRun : Nat := 0
  inputRun : Nat := 0
  voltRun : Nat := 0
  voltOk : Nat := 0
  syncRun : Nat := 0
  /-- θ and its test-mode copy, 2^-60 per LSB; whether θ has a value (R464, R467, R482) -/
  theta : Nat := 0
  thetaCopy : Nat := 0
  thetaOk : Bool := false
  /-- cold-load pickup: samples open, armed, samples of restore time left (R470) -/
  openRun : Nat := 0
  armed : Bool := false
  restore : Nat := 0
  /-- trip command, samples since it rose (R474) -/
  trip : Bool := false
  tripFor : Nat := 0
  /-- close command (R475) -/
  close : Bool := false
  /-- 50BF: state, count, samples of false criterion, current part (R477, R478) -/
  bf : BfState := .idle
  bfC : Nat := 0
  bfFalse : Nat := 0
  bfCurrent : Bool := false
  /-- 79: state, k, timer, samples closed in Lockout (R479) -/
  ar : ArState := .open
  arK : Nat := 0
  arTimer : Nat := 0
  lockRun : Nat := 0
  /-- test mode, and samples all flagged and not flagged TST in succession (R481) -/
  test : Bool := false
  tstRun : Nat := 0
  cleanRun : Nat := 0
  /-- the blocking input as last applied (R472) -/
  block : Bool := false
  /-- the dataset of the last sample (R583) -/
  ds : Dataset := {}
  /-- the verdict trace of the last 1.0 s of pipeline samples, newest first (R678) -/
  trace : List TraceRec := []
deriving DecidableEq, Repr

/-- A publication: zone 0 to 255, or the summary at 256 (R583 to R590, R600). -/
structure Publication where
  stNum : Nat := 0
  sqNum : Nat := 0
  /-- time of the state change: its sample index (zones) and its UTC seconds, 24-bit fraction and TimeQuality (R584) -/
  idx : SIndex := ⟨0, 0⟩
  tSec : Nat := 0
  tFrac : Nat := 0
  timeq : Nat := 0
  /-- the time of the state change and of the next retransmission, in ns of the local counter's scale (R588) -/
  tc : Nat := 0
  due : Nat := 0
  /-- the datSet and allData octets of this stNum, with confRev and the number of entries (R586) -/
  datSet : List Byte := []
  confRev : Nat := 0
  entries : Nat := 0
  allData : List Byte := []
  /-- T1 and T0 in ms as they were at the state change (R605), and the number of the next retransmission (R588) -/
  t1 : Nat := 2
  t0 : Nat := 1000
  nth : Nat := 1
  /-- retransmissions run -/
  running : Bool := false
deriving DecidableEq, Repr

end Sys2Proof.Machine
end

