-- ==== Sys2Proof/Syntax.lean ====
section
/-! DEFINITION. The commands of the block: one constructor per row of spec/opcode_table.json, with what the outside
contributes to the step as operands. -/
namespace Sys2Proof

/-- The commands (opcode_table.json). A command that names the end of a wait asserts that wait (log 1). -/
inductive Instr
  -- power and start-up
  | vbatApplied
  /-- whether the hold-up store can carry the flush (R126) -/
  | vinGood (holdUpOk : Bool)
  /-- 16 samples of the voltage on the contact of each of the 12 straps, in µV (R65) -/
  | strapsDecided (readings : List (List Nat))
  | laneSelfTestDone (run : PatternRun)
  | journalCheck (find : JournalFind)
  /-- the scans in order; `none`: the plug was absent or a seating loop opened (R142) -/
  | startUpPlugRead (scans : List (Option ScanReadings))
  | portsStep (cages : List CageRead)
  | partnerAbsent
  | vinLow
  | vinFailed
  | nresetInAccepted
  | nresetInReleased
  | domainLost (d : Fin 11)
  | corePllUnlock
  /-- the reading in mV, `none` when absent (R116) -/
  | vbatCheck (mv : Option Nat)
  | vbatLowErase
  | vbatBelowRetentionMin
  | fieldSupplyLost (g : Group)
  | fieldSupplyRestored (g : Group)
  | statusPinCurrentLimit (pin : StatusPin)
  | crossingQueueParity (x : Crossing)
  -- the plug
  | plugScanStart
  | scanEnd (r : ScanReadings)
  /-- the two loop resistances in ohms, `none` open, and 16 samples of the voltage on PLG_TYPE in µV (R61, R62) -/
  | presenceCheck (det1 det2 : Option Nat) (type : List Nat)
  | commitInAsserted
  | commitInReleased
  | holdComplete
  | quiescenceMet
  | commitDecision
  | commitBoundary
  | quiescenceTimeout
  -- ports
  | frameReceived (p : Port) (f : RxFrame)
  | prpEntryForgotten (station : Bool) (src : Mac)
  | linkDown (loss : PortLoss)
  /-- what the partner of S0 or S1 signals (R213); P0 and P1 have none -/
  | linkUp (gain : PortGain)
  | moduleRemoved (p : Port)
  | moduleInserted (p : Port) (read : I2c)
  | transmitterFault (p : Port)
  | a2hPoll (p : Port) (retry read : I2c)
  | prpSupervisionSend
  | tallyInterval
  | ringOpen (p : Port)
  -- streams
  | svFrame (p : Port) (f : SvFrame)
  | frameOverdue (slot : Fin 1026)
  | streamDestroyed (slot : Fin 1024)
  | streamNotAdmitted (slot : Fin 1024)
  | breakerMessage (p : Port) (m : BrkMsg)
  | breakerStatusExpired (slot : Fin 256)
  | breakerDestroyed (slot : Fin 256)
  -- time
  | sync (p : Port) (m : PtpSync)
  | followUp (p : Port) (m : PtpFollowUp)
  | followUpTimeout (p : Port)
  | announce (p : Port) (m : PtpAnnounce)
  | masterLost (p : Port) (src : PortId)
  | pdelayReqSend (p : Port)
  /-- its receive timestamp in ns, and whether half a nanosecond more (R223) -/
  | pdelayReq (p : Port) (h : PtpHdr) (rx : Nat) (half : Bool)
  | pdelayResp (p : Port) (m : PtpPdelay)
  | pdelayRespFollowUp (p : Port) (m : PtpPdelay)
  | ptpDiscarded (p : Port)
  | holdoverExpiry
  | leapSecond
  | ppsEdge
  | twinUpdate
  /-- setpoint minus temperature in mK (Table 9.2) -/
  | ovenUpdate (err : Int)
  | ovenInSpec
  -- Reckoner
  | coilUpdate (ch : Fin 32)
  | pickEnd (ch : Fin 32)
  | followingError (slot : Fin 36)
  -- local analogue
  /-- the smpCnt and second of the trigger, the code set of each of the 16 primaries, and those of K0 and K1 -/
  | adcTrigger (idx : SIndex) (prim : List ConvSet) (k0 k1 : ConvSet)
  /-- the input, the whole microsecond after the last trigger at which the check would start, and of primary and checker, whether the
  conversion completed (Table 13.6) and its code -/
  | urgentCheck (input : Fin 16) (start : Nat) (primDone chkDone : Bool) (prim chk : Int)
  /-- the measured reference in units of 2^-24 of 4.096 V (R513) -/
  | referenceMonitor (v : Nat)
  -- pipeline and zones
  | sampleRelease (lanes : Lanes)
  | checkPattern (lanes : Nat × Nat) (signature : Option Nat) (parityOk : Bool)
  | directionConfirmed (z : Fin 256) (d : DirDec)
  | memoryExpiry (z : Fin 256) (d : DirDec)
  | freezeLimit (z : Fin 256) (e : Elem)
  | definiteDelayExpiry (z : Fin 256) (e : Elem)
  | definiteResetExpiry (z : Fin 256) (e : Elem)
  | intermediateTimeout (z : Fin 256)
  | tripMinimumExpiry (z : Fin 256)
  | bfTimerExpiry (z : Fin 256)
  | deadTimeExpiry (z : Fin 256)
  | reclaimExpiry (z : Fin 256)
  | openTimerExpiry (z : Fin 256)
  | closePulseEnd (z : Fin 256)
  | closeFailure (z : Fin 256)
  | coldLoadArmed (z : Fin 256)
  | coldLoadEnd (z : Fin 256)
  | testModeEntry (z : Fin 256)
  | testModeExit (z : Fin 256)
  | thermalPersist
  -- publishing
  /-- the publication: a zone, or 256 for the summary; whether the read-back matches (R585, R610) -/
  | stnumPersisted (pub : Fin 257) (ok : Bool)
  | retransmissionDue (pub : Fin 257)
  | processTransmit
  | statusFramePeriodic
  | statusFrameOnChange
  -- the pair
  | helloSend
  | hello (h : CarryHdr) (b : HelloBody)
  /-- the frame; and at a fresh formation, what the partner's segments of R641 step 2 bring: its entries, and its persisted stNum values
  (R623) -/
  | accept (f : AcceptFrame) (journal : List CarriedEntry) (stnums : List (Nat × Nat))
  | refuse (f : RefuseFrame)
  | carryHeartbeatSend
  | busHeartbeatSend
  | heartbeat (h : CarryHdr) (b : HeartbeatBody)
  | busHeartbeat (p : Port) (dst : Mac) (b : HeartbeatBody)
  | pathSilent (p : Path)
  | receipt (h : CarryHdr) (rs : List ReceiptRec)
  | lend (h : CarryHdr) (b : LendBody)
  | lendTimeout (slot : Fin 1024) (idx : SIndex)
  | unagreedRelease (slot : Fin 1024) (idx : SIndex)
  | decision (h : CarryHdr) (ds : List DecisionRec)
  | timeExchange (h : CarryHdr) (b : TimeBody)
  | swapTimer
  | swapPropose (h : CarryHdr) (ns : SIndex)
  | swapAgree (h : CarryHdr) (ns : SIndex)
  | swapDecline (h : CarryHdr)
  | swapRetry
  | swapAtIndex
  | jentry (h : CarryHdr) (e : CarriedEntry)
  | jcheck (h : CarryHdr) (jseq : Nat) (ecrc : BitVec 32)
  /-- the JSEQ before the first entry that the partner's segments bring, and those entries; and from an Active its SV slots (slot, generation, identity, next index), its breaker slots,
  its stNum values, and n0 -/
  | resync (h : CarryHdr) (last : Nat) (journal : List CarriedEntry) (slots : List (Nat × Nat × StreamIdent × SIndex))
      (brks : List (Nat × Machine.BrkSlot)) (stnums : List (Nat × Nat)) (n0 : SIndex)
  /-- the state of every zone and publication at the end of n1 - 1, the pair-node sequence, and n1 -/
  | snapshot (h : CarryHdr) (zones : List (Nat × Machine.Zone)) (pubs : List (Nat × Machine.Publication)) (pairSeq : BitVec 16) (n1 : SIndex)
  | rejoinTimeout
  | carryRetransmit (lane : Fin 2)
  | carryLaneUp (lane : Fin 2)
  | carryLinkLost
  -- journal
  | journalCommit (reads : CommitReads)
  | tokenRefill
  | suppressionSummary (code zone : Nat)
  | marksEntry
  | periodicSnapshot
  | recordClose (rec : Nat)
  | nandWriteComplete (rec : Nat) (ok : Bool)
  -- recall
  | opOpen (p : Port) (r : RecallReq)
  | opClose (p : Port) (r : RecallReq)
  | opEntries (p : Port) (r : RecallReq)
  | opAck (p : Port) (r : RecallReq)
  | opRecord (p : Port) (r : RecallReq)
  | opDone (p : Port) (r : RecallReq)
  | malformedRequest (p : Port) (r : RecallReq)
  | unlistedRequest (p : Port) (r : RecallReq)
  | recallServe (readOk : Bool)
  | sessionIdleTimeout (sess : Fin 8)
  -- faults
  | ackInAccepted
  | ackInputAccepted
  | faultReactionComplete (k : FaultKey)
  | causeGoneRetest (k : FaultKey)
  -- field channels
  /-- the channels whose downstream frame of this frame start is corrupted -/
  | couplerFrameStart (g : Group) (corrupted : List (Fin 32))
  /-- the bits of the latched frame that arrive inverted -/
  | upstreamFrameReceived (ch : Fin 32) (errors : CouplerWord)
  /-- the terminal voltage and the group supply, in mV -/
  | inputSample (ch : Fin 32) (mv vf : Nat)
  | chatterEnd (ch : Fin 32)
  | openWireInput (ch : Fin 32) (below : Bool)
  | shortDecision (ch : Fin 32) (bothLegs : Bool)
  | hardShort (ch : Fin 32) (bothLegs : Bool)
  | retry (ch : Fin 32)
  | overTemperature (ch : Fin 32)
  | overTemperatureRestart (ch : Fin 32)
  | demagEnd (ch : Fin 32)
  | tcsPulse (ch : Fin 32)
  | tcsPulseEnd (ch : Fin 32) (mv vf : Nat)
  | outputDiagnostic (ch : Fin 32) (d : OutDiag) (present : Bool)
  | downstreamFrameLoss (ch : Fin 32)
  | couplerFault (ch : Fin 32)
  | clockCouplerStop (g : Group)
  | fieldSideStart (g : Group)
  -- the seal
  | hatchOpened
  | meshEvent
  | eraseReadbackFailure
  | hatchReport (isOpen : Bool)
  | meshMonitorTest (follows : Bool)
  | portLive (supplyOk : Bool)
  | load (t : KlTransaction)
  | eraseCommand (t : KlTransaction)
  | check (t : KlTransaction)
  | transactionDiscarded (t : KlTransaction)
  | transactionTimeout
  | portBusyEnd
  -- rows added at the table's end
  | syncReceiptTimeout (p : Port)
  | carryLaneDown (lane : Fin 2)
  | heartbeatLanSilent (p : Port)
  /-- the mean of the terminal current over the period that ends, in 0.5 mA, as the field side measures it -/
  | pwmPeriodStart (ch : Fin 32) (mean : Nat)
deriving DecidableEq, Repr

end Sys2Proof
end

