-- ==== Sys2Proof/Decode.lean ====
section
/-! DEFINITION. The word decoder. No row of spec/opcode_table.json gives a command any bits, so no word spells a command. -/
namespace Sys2Proof

/-- The command a word spells by the table's bits: none, since the table gives bits to no row (log 9). -/
def decodeTableWord (nbits w : Nat) : Option Instr :=
  match nbits, w with
  | _, _ => none

end Sys2Proof
end

