-- ==== Sys2Proof/Machine/Bits.lean ====
section
/-! DEFINITION. Splitting numbers into octets and joining them (R656), rounding, limits, roots. -/
namespace Sys2Proof

/-- The low `n` octets of `v`, most significant first. -/
def octets : Nat → Nat → List Byte
  | 0, _ => []
  | n + 1, v => BitVec.ofNat 8 (v / 256 ^ n) :: octets n v

/-- The number that a list of octets spells, most significant first. -/
def ofOctets (bs : List Byte) : Nat := bs.foldl (fun a b => a * 256 + b.toNat) 0

/-- `n` zero octets. -/
def zeros (n : Nat) : List Byte := List.replicate n 0#8

/-- Nearest integer to `n / d`, a half rounding upward (R346, R509). -/
def roundDiv (n : Int) (d : Nat) : Int := (2 * n + d) / (2 * d : Int)

/-- Limit `x` to the range from `lo` to `hi`. -/
def clampInt (lo hi x : Int) : Int := if x < lo then lo else if hi < x then hi else x

/-- The square root of `n`, rounded to the nearest integer. -/
def sqrtNearest (n : Nat) : Nat :=
  let r := Nat.sqrt n
  if n ≤ r * r + r then r else r + 1

/-- Parity of the low n bits of a number: how many are one, modulo 2. -/
def parityOf : Nat → Nat → Nat
  | 0, _ => 0
  | n + 1, v => (v % 2 + parityOf n (v / 2)) % 2

/-- A 40-bit two's complement word, and the value it spells. -/
def word40 (v : Int) : Nat := (v % 2 ^ 40).toNat
def int40 (n : Nat) : Int := if n < 2 ^ 39 then (n : Int) else (n : Int) - 2 ^ 40

/-- Division rounded up. -/
def ceilDiv (n d : Nat) : Nat := (n + d - 1) / d

end Sys2Proof
end

