-- ==== Sys2Proof/Machine/Trig.lean ====
section
/-! DEFINITION. Trigonometry in integers: the point of the unit circle at a fraction of a turn, to 200 fractional bits, and from it
the coefficient tables (R380), rotations (R435), the arctangent (R385) and the fiftieth root of the curves (R418). -/
namespace Sys2Proof.Machine

/-- One, in the fixed point of the circle. -/
def circleOne : Nat := 2 ^ 200

/-- 2π in that fixed point. -/
def twoPi : Nat := 10096689509235987743946820282484873672429286842977325943070736

/-- Cosine and sine of x by their power series, from term x^k / k! on. -/
def circleSeries (x : Int) : Nat → Nat → Int → Int × Int → Int × Int
  | 0, _, _, a => a
  | left + 1, k, term, (c, s) =>
    circleSeries x left (k + 1) (term * x / (circleOne * (k + 1)))
      (match k % 4 with
        | 0 => (c + term, s)
        | 1 => (c, s + term)
        | 2 => (c - term, s)
        | _ => (c, s - term))

/-- Cosine and sine of p / q of a turn, in 2^-200 (log 6). -/
def circle (p : Int) (q : Nat) : Int × Int :=
  let half := (2 * p + q) % (2 * q) - q
  circleSeries (twoPi * half / (2 * q)) 72 0 circleOne (0, 0)

/-- Product of two complex numbers. -/
def cMul (a b : Int × Int) : Int × Int := (a.1 * b.1 - a.2 * b.2, a.1 * b.2 + a.2 * b.1)

/-- The conjugate. -/
def cConj (a : Int × Int) : Int × Int := (a.1, -a.2)

/-- A product of two points of the circle's fixed point, in that fixed point. -/
def cScaled (a b : Int × Int) : Int × Int := let p := cMul a b; (p.1 / circleOne, p.2 / circleOne)

/-- A value v of the circle in Q1.17: the exact value where there is one, else the code below it or, when `up`, the one above (R380). -/
def coefficient (v : Int) (up : Bool) : Int :=
  let near := roundDiv (v * 2 ^ 17) circleOne
  if (v * 2 ^ 17 - near * circleOne).natAbs < 2 ^ 100 then near
  else v * 2 ^ 17 / circleOne + (if up then 1 else 0)

/-- atan(2^-i) in units of 2^-64 turn, for i from 0 to 39. -/
def atanTable : List Int :=
  [2305843009213693952, 1361218612134873190, 719230530580881038, 365092647525521947, 183254791493294829,
   91716730292036216, 45869556482713130, 22936177926750895, 11468263948075831, 5734153847876408,
   2867079658191483, 1433540170878135, 716770128161890, 358385069421298, 179192535378193, 89596267772540,
   44798133896700, 22399066949654, 11199533474990, 5599766737515] ++
  [2799883368760, 1399941684380, 699970842190, 349985421095, 174992710548, 87496355274, 43748177637,
   21874088818, 10937044409, 5468522205, 2734261102, 1367130551, 683565276, 341782638, 170891319, 85445659,
   42722830, 21361415, 10680707, 5340354]

/-- Rotate (x, y) step by step onto the x axis; the angle gathered, in units of 2^-64 turn. -/
def cordic : List Int → Nat → Int → Int → Int → Int
  | [], _, _, _, acc => acc
  | a :: t, i, x, y, acc =>
    if 0 ≤ y then cordic t (i + 1) (x + y / 2 ^ i) (y - x / 2 ^ i) (acc + a)
    else cordic t (i + 1) (x - y / 2 ^ i) (y + x / 2 ^ i) (acc - a)

/-- The angle of (re, im), 0 < re, in 2^-24 turn, from an estimate g in 2^-64 turn: the side of the middle between the two codes next to
the estimate on which the point lies decides (R385, log 12). -/
def roundAngle (re im g : Int) : Int :=
  let code := g / 2 ^ 40
  let middle := circle (2 * code + 1) (2 ^ 25)
  if 0 ≤ im * middle.1 - re * middle.2 then code + 1 else code

/-- The four-quadrant arctangent of (im, re) in units of 2^-24 turn, from -2^23 to 2^23 - 1 (R385). -/
def angle24 (re im : Int) : Int :=
  let estimate := fun (x y : Int) => cordic atanTable 0 (x * 2 ^ 32) (y * 2 ^ 32) 0
  let raw :=
    if im = 0 then (if 0 ≤ re then 0 else 2 ^ 23)
    else if re = 0 then (if 0 ≤ im then 2 ^ 22 else -(2 ^ 22))
    else if 0 ≤ re then roundAngle re im (estimate re im)
    else roundAngle (-re) (-im) (estimate (-re) (-im)) + 2 ^ 23
  (raw + 2 ^ 23) % 2 ^ 24 - 2 ^ 23

/-- The largest x, of the next `bits` bits below x, whose fiftieth power is at most n. -/
def root50Step (n : Nat) : Nat → Nat → Nat
  | 0, x => x
  | bits + 1, x => root50Step n bits (if (x + 2 ^ bits) ^ 50 ≤ n then x + 2 ^ bits else x)

/-- The fiftieth root of a / b, 1 ≤ a / b < 2^50, in 2^-100. -/
def root50 (a b : Nat) : Nat := root50Step (a * 2 ^ 5000 / b) 101 0

end Sys2Proof.Machine
end

