-- ==== Sys2Proof/Machine/State.lean ====
section
/-! DEFINITION. The state of the block: every register, queue, timer, mode and pin the spec gives it, as plain data.
Each field's default is its value at reset; index-keyed data is a sparse table whose unlisted entries hold the default. -/
namespace Sys2Proof.Machine

/-- Why a command stops. -/
inductive Fault
  /-- the operands cannot come from the hardware (WellFormed refuses them); raised by every meaning whose operands
  WellFormed restricts; safe: no such command can arrive -/
  | illFormed
deriving DecidableEq, Repr

/-- Why a command is refused. -/
inductive Refusal
  /-- the command has no meaning yet; raised by exec's arms only; safe -/
  | notModelled (mnemonic : String)
deriving DecidableEq, Repr

/-! Chapters 1 to 3: engine, identity, retention of settings -/

/-- The engine states of Table 1.6. -/
inductive EngineState | off | retention | starting | withheld | serving | withdrawn
deriving DecidableEq, Repr

/-- The start causes of R107. -/
inductive StartCause | fromOff | fromRetention | nreset | internalRestart
deriving DecidableEq, Repr

/-- What Starting waits for next (Table 3.3). -/
inductive StartStep | straps | laneTest | journal | plug | ports | pairing
deriving DecidableEq, Repr

/-- The causes of Withheld (Table 1.7). -/
inductive WithheldCause | straps | plug | pairing
deriving DecidableEq, Repr

/-- Engine state, supplies and domains (chapters 1 and 3). -/
structure Power where
  /-- engine state (R25); reset: no domain is powered -/
  engine : EngineState := .off
  /-- VIN is good (R90) -/
  vinGood : Bool := false
  /-- VBAT is present (R26, R116) -/
  vbat : Bool := false
  /-- domains D0 to D10 switched on (Table 3.2), ascending -/
  domOn : List Nat := []
  /-- supervised domains lost and not restored (R98, R100), ascending -/
  domLost : List Nat := []
  /-- start cause (R107) -/
  startCause : StartCause := .fromOff
  /-- the step of Table 3.3 that Starting waits for -/
  step : StartStep := .straps
  /-- cause of Withheld, as far as judged (Table 1.7) -/
  withheldBy : Option WithheldCause := none
  /-- COMMIT_IN has committed an image since Withheld was entered (Table 1.7) -/
  recommitted : Bool := false
  /-- the lane self-test has passed (R127, R732) -/
  laneTestPassed : Bool := false
  /-- every block except D0 is held in reset by nRESET_IN (R111) -/
  inReset : Bool := false
  /-- core PLL locked (R40) -/
  pllLocked : Bool := false
  /-- status pins switched off in current limit, with the tick at which each is retried (R88) -/
  pinsOff : List (StatusPin × Nat) := []
  /-- VBAT as last read by the check, in mV (R116) -/
  vbatMv : Option Nat := none
  /-- the hold-up store, as measured at the last entry to Starting, can carry the flush (R126, log 148) -/
  holdUpOk : Bool := true
  /-- tick at which VIN was last good (Table 8.7) -/
  vinGoodAt : Nat := 0
  /-- parity errors in succession on the status word of the retention domain (R43) -/
  retentionErrors : Nat := 0
  /-- core tick of the last of them -/
  retentionAt : Nat := 0
deriving DecidableEq, Repr

/-- One fuse copy (R74, R75, R83, R87). -/
structure Fuse where
  ok : Bool := true
  oui : BitVec 24 := 0
  serial : BitVec 32 := 0
  issue : Byte := 0
  macBase : Mac := 0
deriving DecidableEq, Repr

/-- Straps and fuses (chapter 2). -/
structure Ident where
  /-- the 12 strap nibbles FLT[3] CODE[2:0] in the order of Table 2.9 (R79) -/
  straps : List Nat := List.replicate 12 0
  /-- the straps have been decided since the entry to Starting (R55, R80) -/
  decided : Bool := false
  /-- fuse copies 1 and 2 (R74) -/
  fuse1 : Fuse := {}
  fuse2 : Fuse := {}
deriving DecidableEq, Repr

/-- Rod octets STATUS[7:5] CODE[4:0] by linear index (R147). -/
abbrev Rods := Tab Byte

/-- The MRAM persistence area outside journal and record store (R147, R585, R467, R85, R325). -/
structure Nvm where
  /-- strap nibbles recorded at the previous Starting (R85) -/
  straps : Option (List Nat) := none
  /-- the last received currentUtcOffset, while MRAM holds one (R325) -/
  utcOffset : Option Int := none
  /-- the two image banks (R147, R152) -/
  bank0 : Option Rods := none
  bank1 : Option Rods := none
  /-- the CRC-32 written with each bank (R147) -/
  crc0 : BitVec 32 := 0
  crc1 : BitVec 32 := 0
  /-- the bank pointer (R147) -/
  pointer : Bool := false
  /-- persisted stNum of zone 0 to 255, and of the summary at 256 (R17, R601); unlisted: none persisted (0) -/
  stNum : Tab Nat := []
  /-- persisted θ of each zone, 2^-60 per LSB (R464, R467) -/
  theta : Tab Nat := []
  /-- the zones for which MRAM holds no valid θ (R467); none: it holds no valid θ at all -/
  thetaLack : Option (List Nat) := none
  /-- the last power-fail or reset flush completed (R107) -/
  flushDone : Bool := false
deriving DecidableEq, Repr

/-! Chapter 4: the plug -/

/-- A read image: one result per rod, unlisted rods open (code 0) (R144). -/
abbrev Image := Tab Rod

/-- The COMMIT_IN hold (R149 to R151). -/
inductive Hold
  /-- COMMIT_IN released -/
  | idle
  /-- asserted, the hold is timed: whether it is still valid, and the rescans completed within it -/
  | timing (valid : Bool) (rescans : Nat)
  /-- asserted, and the hold has completed or is not timed -/
  | spent
deriving DecidableEq, Repr

/-- The commit in progress (R151 to R153). -/
inductive Commit
  | none
  /-- waiting for quiescence with the stable image validated at the hold -/
  | waiting (img : Image)
  /-- the new committed image is being written to the inactive bank -/
  | writing (new : Rods)
  /-- the read-back has matched: the commit decision -/
  | decided (new : Rods)
deriving DecidableEq, Repr

/-- The plug reader (chapter 4). -/
structure Plug where
  /-- the plug is present (R62) -/
  present : Bool := false
  /-- milliseconds a seating loop has been open or the type wrong (Table 4.6) -/
  absentMs : Nat := 0
  /-- a scan is in progress (R141) -/
  scanning : Bool := false
  /-- a seating loop has opened during this scan, or D8 was lost in it (R142, log 125) -/
  scanBroken : Bool := false
  /-- the last read image, none before the first and after a discarded scan (R144, R145) -/
  last : Option Image := none
  /-- the stable image (R145) -/
  stable : Option Image := none
  /-- rescans in succession without two identical (Table 4.6) -/
  unstableRun : Nat := 0
  /-- scans in succession discarded by MREF_S (Table 4.6) -/
  mrefRun : Nat := 0
  /-- the committed image in force, none while there is none (R147, R170) -/
  image : Option Rods := none
  /-- the hold on COMMIT_IN (R149) -/
  hold : Hold := .idle
  /-- the commit in progress (R151) -/
  commit : Commit := .none
  /-- the image in force before the last commit, and the first sample index evaluated with the new one (R34) -/
  earlier : Option (Rods × SIndex) := none
  /-- while a sample of before the boundary is evaluated with the image before it, the image in force (R34, R605) -/
  now : Option Rods := none
  /-- the changed zones that restart at their first sample of the new image, ascending (R34, R156, R165) -/
  restarts : List Nat := []
deriving DecidableEq, Repr

/-! Chapter 19: faults -/

/-- The fault states of Table 19.2 other than Clear, whose faults are not listed. -/
inductive FaultPhase | reacting | present | gone
deriving DecidableEq, Repr

/-- One fault that is not Clear (R722). -/
structure FaultRec where
  /-- CODE with its detail (R736) -/
  code : Nat
  /-- scope code and instance (Table 19.6) -/
  scope : Nat
  inst : Nat
  /-- level 1 Note to 4 Withdraw (Table 19.1) -/
  level : Nat
  phase : FaultPhase
  /-- acknowledged, in Present (Table 19.2) -/
  acked : Bool
  /-- the cause has gone while Reacting (Table 19.3) -/
  causeGone : Bool
  /-- the cause went in the tick of an arising and is to be tested again (R740) -/
  retest : Bool
  /-- merges since the fault left Clear, saturating at 65,535 (R724, Table 19.5) -/
  merges : Nat
  /-- JSEQ of the first entry of this fault committed since it left Clear, 0 before (Table 19.5) -/
  raiseJseq : Nat
  /-- the handle its entry carries, 0xFFFF for none (R736) -/
  handle : Nat
deriving DecidableEq, Repr

/-- The fault states (chapter 19). -/
structure Faults where
  /-- the faults that are not Clear, by key number -/
  recs : Tab FaultRec := []
  /-- SEQ of each block's status word (Table 19.4) -/
  seq : Tab Nat := []
deriving DecidableEq, Repr

/-! Chapter 17: journal, records and ring -/

/-- An entry before it has its number (Table 17.3). -/
structure Entry where
  code : Nat
  sev : Nat
  pair : Bool
  test : Bool
  mono : Bool
  kind : Nat
  timeq : Nat
  sec : Nat
  ns : Nat
  idx : SIndex
  zone : Nat
  handle : Nat
  origin : Nat
  fp : Nat
  payload : List Byte
  /-- the fault whose entry this is (RAISEJSEQ, R736) -/
  fault : Option FaultKey
deriving DecidableEq, Repr

/-- A committed entry (R659). -/
structure Committed where
  jseq : Nat
  prevCrc : BitVec 32
  ecrc : BitVec 32
  entry : Entry
deriving DecidableEq, Repr

/-- A page of the journal that holds entries (R655, Table 17.2). -/
structure Page where
  sev : Nat
  gen : Nat
  /-- entries in JSEQ order, oldest first -/
  entries : List Committed
  /-- next offset in octets -/
  used : Nat
  /-- bit h: allow-list position h has marked the page (R669) -/
  marks : BitVec 8
  /-- PFIRST and PCRC of its header (Table 17.2) -/
  first : Nat := 0
  pcrc : BitVec 32 := 0
deriving DecidableEq, Repr

/-- A control copy (R664). -/
structure Ctl where
  jseq : Nat
  page : Nat
  offset : Nat
  ecrc : BitVec 32
  /-- open page and next offset of each severity S0 to S3 -/
  opens : List (Option (Nat × Nat))
  free : Nat
  /-- the CRC-32 of the copy -/
  crc : BitVec 32 := 0
deriving DecidableEq, Repr

/-- A token bucket (R666, R667): tokens used, and what has been suppressed. -/
structure Bucket where
  used : Nat := 0
  /-- severity of the suppressed entries -/
  sev : Nat := 0
  suppressed : Nat := 0
  firstSec : Nat := 0
  firstNs : Nat := 0
  lastSec : Nat := 0
  lastNs : Nat := 0
deriving DecidableEq, Repr

/-- A record of the history ring (Table 17.9): 8 mantissas, scales and quality nibbles, GEN, SEC_LO and PRES. -/
structure RingRec where
  mant : List Int := []
  scale : List Nat := []
  qual : List Nat := []
  gen : Nat := 0
  secLo : Nat := 0
  pres : Nat := 0
deriving DecidableEq, Repr

/-- A zone of a disturbance record. -/
structure RecZone where
  zone : Nat
  /-- last trigger and the index after which no trigger extends it -/
  lastTrigger : SIndex
  trace : List TraceRec
deriving DecidableEq, Repr

/-- A disturbance record that is pending (R676 to R679). -/
structure DrRecord where
  recno : Nat
  zones : List RecZone
  /-- bits of Z.DR_MASK that have fired -/
  fired : Nat
  first : SIndex
  trigger : SIndex
  last : SIndex
  /-- the streams carried: slot (or 0x400 + local stream), handle, and the first index it is carried from -/
  streams : List (Nat × Nat × SIndex)
  timeq : Nat
  fp : Nat
  flags : Nat
  /-- its body is complete and its index entry has been queued -/
  closed : Bool
  /-- the severity of its index entry -/
  sev : Nat
  /-- its own copy of the ring records of its streams, by position × 2^64 + absolute index (R675, R676) -/
  copies : Tab RingRec := []
deriving DecidableEq, Repr

/-- A record body in the NAND store (R680). -/
structure Stored where
  recno : Nat
  sev : Nat
  block : Nat
  blocks : Nat
  body : List Byte
  /-- the write has completed -/
  written : Bool
  /-- JSEQ of its index entry, 0 before it is committed -/
  jseq : Nat
  marks : BitVec 8
  /-- MODEL: the last committed JSEQ as the body was written, which tells its epoch (R704) -/
  atJseq : Nat := 0
deriving DecidableEq, Repr

/-- Journal, record store and ring (chapter 17). -/
structure Journal where
  /-- last committed JSEQ and its ECRC (R659, R656) -/
  jseq : Nat := 0
  lastCrc : BitVec 32 := 0
  /-- taken pages by page number 0 to 8,191 (R655) -/
  pages : Tab Page := []
  /-- PGEN last used for each page (Table 17.2) -/
  gens : Tab Nat := []
  /-- open page of each severity S0 to S3 (R655) -/
  opens : List (Option Nat) := [none, none, none, none]
  /-- control copies A and B (R664) -/
  ctlA : Option Ctl := none
  ctlB : Option Ctl := none
  /-- the commit queue, in the order of queueing (R662) -/
  queue : List Entry := []
  /-- waiting S3 entries with their holder: zone 0 to 255, or 256 + block (R662) -/
  holds : List (Nat × Entry) := []
  /-- token buckets by code × 65,536 + zone (R666); unlisted: full -/
  buckets : Tab Bucket := []
  /-- the latest sample index released at stage 6 since the entry to Starting (R660) -/
  latest : SIndex := ⟨0, 0⟩
  /-- the indices of the last 64 unit snapshots, with their trigger bit, newest first (R672) -/
  snapAt : List (Nat × SIndex) := []
  /-- zone snapshots whose index the zone has not reached (R673): zone, trigger bit, index -/
  snapDue : List (Nat × Nat × SIndex) := []
  /-- guarantee conditions in force, bit c - 1 for code c (R654) -/
  suspended : BitVec 8 := 0
  /-- the commit path is stopped at an S3 entry that finds no page (R689) -/
  stalled : Bool := false
  /-- the history ring by position × 130,816 + record (R674) -/
  ring : Tab RingRec := []
  /-- the last record number used (Table 17.10) -/
  recno : Nat := 0
  /-- pending records, in order of opening (R677) -/
  records : List DrRecord := []
  /-- the record store (R680) -/
  store : List Stored := []
  /-- retired NAND blocks (Table 17.12) -/
  retired : Nat := 0
deriving DecidableEq, Repr

/-! Chapter 6: ports -/

/-- A PRP or HSR duplicate-table entry (R228): highest number, bit i of the window marks highest - i, last arrival. -/
structure PrpEntry where
  highest : BitVec 16
  window : BitVec 128
  seen : Nat
deriving DecidableEq, Repr

/-- One of P0, P1, S0, S1. -/
structure PortSt where
  /-- link up (R219, R220) -/
  up : Bool := false
  /-- MODABS high (R219) -/
  modAbs : Bool := true
  /-- TXDIS held low (R237) -/
  txEnabled : Bool := false
  /-- SGMII rather than 1000BASE-X (R212) -/
  sgmii : Bool := false
  /-- A0h has been read since the insertion (R240, R257) -/
  a0hRead : Bool := false
  /-- external calibration: every diagnostic value is unknown (R241) -/
  extCal : Bool := false
  /-- failed recoveries and failed transactions in succession (R245) -/
  recFails : Nat := 0
  txnFails : Nat := 0
  /-- the five diagnostic values, none while unknown (R241, R245) -/
  values : Option (List Nat) := none
  /-- what the last complete read shows of each diagnostic flag and threshold crossing, high and low of each quantity (R242) -/
  warn : List Bool := []
  alarm : List Bool := []
  /-- RXLOS took the link down and has not been low since (R219, Table 2.4) -/
  rxLos : Bool := false
  /-- receive timestamp of the last frame delivered, in 2^-16 ns (R222, chapter 6, worked example) -/
  lastRx : Option Int := none
  /-- transmit timestamp of the last frame sent, in 2^-16 ns (R222) -/
  lastTx : Option Int := none
  /-- a parity error has struck the crossing queue to the port: the next frame on it ends with an inverted FCS (R43) -/
  txBad : Bool := false
  /-- PRP_WRONG_LAN over the intervals (R255) -/
  wrongLan : Rise := {}
  /-- the forwarding queue whose frames leave on this port, oldest first: octets and start tick (R234) -/
  fwd : List (Nat × Nat) := []
  /-- the held two-step residence sums of the frames that leave on this port, oldest first (R320) -/
  sums : List (BitVec 64 × BitVec 16 × BitVec 16 × Nat) := []
  /-- core tick of the last crossing-queue parity error (R43) -/
  parityAt : Option Nat := none
deriving DecidableEq, Repr

/-- The ports and the redundancy layer (chapter 6). -/
structure Ports where
  p0 : PortSt := {}
  p1 : PortSt := {}
  s0 : PortSt := {}
  s1 : PortSt := {}
  /-- duplicate tables of the process bus and of the station bus by source MAC (R228) -/
  prpProcess : Tab PrpEntry := []
  prpStation : Tab PrpEntry := []
  /-- next sequence numbers: process MAC, station MAC, HSR, pair node (R226, R636) -/
  seqProcess : BitVec 16 := 0
  seqStation : BitVec 16 := 0
  seqHsr : BitVec 16 := 0
  seqPair : BitVec 16 := 0
deriving DecidableEq, Repr

/-! Chapter 7: streams -/

/-- What a sample index brings to stage 6. -/
inductive SampleKind | received | substituted | missing
deriving DecidableEq, Repr

/-- A sample of a stream on its way to stage 6, or in its substitution history: values and quality words (R275). -/
structure Sample where
  slot : Nat
  idx : SIndex
  kind : SampleKind
  chans : List ChanSample
  /-- the stream-block flag (R394) -/
  blocked : Bool
  /-- the sample follows a jump, or a time step on a local stream (Table 10.4) -/
  jumped : Bool
  /-- it came to the intake before its turn in the order of R24, and waits there for others (R33, log 157) -/
  early : Bool := false
deriving DecidableEq, Repr

/-- An SV slot (R260 to R277). -/
structure SvSlot where
  phase : SlotPhase := .free
  /-- the last generation (R302), and whether the slot has been admitted since the entry to Starting (R262) -/
  gen : Nat := 63
  used : Bool := false
  /-- core tick at which a frame formed the candidate on the free slot, while its run has one frame (R268) -/
  formedAt : Option Nat := none
  /-- core tick of the last consistent frame (R295) -/
  heardAt : Option Nat := none
  ident : StreamIdent := { src := 0, svId := [], confRev := 0, noAsdu := 0, smpRate := none, smpMod := none }
  /-- the next expected smpCnt e and its second (R269, R270) -/
  next : SIndex := ⟨0, 0⟩
  /-- the first index of the admission's run of three (Table 7.4a) -/
  since : SIndex := ⟨0, 0⟩
  /-- the first ASDU passed to the pipeline since the admission or the last jump (R272) -/
  first : SIndex := ⟨0, 0⟩
  /-- indices declared missing that a late ASDU can still name, newest first (Table 7.4a) -/
  missed : List SIndex := []
  /-- missing indices in succession (R272), and whether one of them was not substituted (R273) -/
  run : Nat := 0
  gap : Bool := false
  /-- on-time samples still needed to end the block; 0: not blocked (R273) -/
  blockLeft : Nat := 0
  /-- the last full-cycle window of samples passed on, newest first (R272) -/
  hist : List Sample := []
  /-- the second is to be fixed again from the next consistent frame (R340) -/
  refix : Bool := false
  /-- at a unit that follows, the index from which a refix applies: as counted so far, and anew (R340) -/
  turn : Option (SIndex × SIndex) := none
  /-- smpSynch and gmIdentity last read (R277, R278) -/
  smpSynch : Nat := 0
  gm : Option (List Byte) := none
  /-- the index the slot has to release or miss next at stage 6 (R791) -/
  due : SIndex := ⟨0, 0⟩
  /-- tallies by word 1 to 10 of Table 15.7 -/
  tally : Tab Tally := []
  /-- INTRUDER and SV_AUTH_FAIL over the intervals (Table 7.7) -/
  intruder : Rise := {}
  authFail : Rise := {}
deriving DecidableEq, Repr

/-- The stream catcher (chapter 7). -/
structure Streams where
  /-- SV slots 0 to 1,023 -/
  sv : Tab SvSlot := []
  /-- breaker slots 0 to 255 -/
  brk : Tab BrkSlot := []
  /-- samples queued at the pipeline intake, oldest first (R21, R33) -/
  intake : List Sample := []
deriving DecidableEq, Repr

/-! Chapter 8: time -/

/-- The time states of Table 8.3. -/
inductive TimeState | unsynchronised | acquiring | locked | tracking | holdover | freeRunning
deriving DecidableEq, Repr

/-- A foreign master on a port (R312): last Announce, its tick, and whether it is qualified. -/
structure Master where
  src : PortId
  ann : PtpAnnounce
  seen : Nat
  qualified : Bool
deriving DecidableEq, Repr

/-- PTP on P0 or P1 (R312 to R317). -/
structure PtpPort where
  masters : List Master := []
  /-- sequence number of the last Pdelay_Req and its transmit timestamp t1 in 2^-16 ns (R314) -/
  reqSeq : BitVec 16 := 0
  t1 : Int := 0
  /-- responders to the outstanding request, and the first response (R314) -/
  responders : List PortId := []
  resp : Option PtpPdelay := none
  outstanding : Bool := false
  /-- the last five completed measurements, newest first, and whether the last three requests completed -/
  delays : List Int := []
  completed : List Bool := []
  /-- requests with exactly one responder still needed after one with several (R314) -/
  soleNeeded : Nat := 0
  /-- a two-step Sync waiting for its Follow_Up (R317) -/
  sync : Option PtpSync := none
  /-- a Sync of the best master has arrived within three Sync intervals (R313) -/
  syncOk : Bool := false
  /-- the last Sync of each source: its core tick and its Sync interval in core ticks (R313) -/
  syncs : List (PortId × Nat × Nat) := []
  /-- the last offset formed on this port (R315) -/
  offset : Option Int := none
  /-- tick since which the port has had link up and no valid link delay (Table 8.7) -/
  noDelaySince : Option Nat := none
deriving DecidableEq, Repr

/-- The time block (chapter 8). -/
structure Time where
  /-- SEC, NS, FRAC and residue (Table 8.1) -/
  sec : Nat := 0
  ns : Nat := 0
  frac : Nat := 0
  residue : Nat := 0
  state : TimeState := .unsynchronised
  p0 : PtpPort := {}
  p1 : PtpPort := {}
  /-- the selected port and master (R315): P1 rather than P0 -/
  selected : Option (Bool × PortId) := none
  /-- a step has occurred in this monotonic epoch (R306, R328) -/
  stepped : Bool := false
  /-- offsets in succession within 100 ns, above 1 µs and above 10 µs (R319, Table 8.3, Table 8.4) -/
  within100 : Nat := 0
  over1us : Nat := 0
  over10us : Nat := 0
  /-- the counter second in which CLK last updated (R318) -/
  clkSec : Option Nat := none
  /-- ticks at which Locked, Tracking, Holdover and Serving were entered -/
  lockedAt : Nat := 0
  /-- Locked or Tracking has been entered since the entry to Starting (Table 8.7) -/
  settled : Bool := false
  trackingAt : Nat := 0
  holdoverAt : Nat := 0
  servingAt : Nat := 0
  /-- currentUtcOffset in use (R325) -/
  utcOffset : Int := 37
  /-- LeapSecondsKnown (R323) -/
  leapKnown : Bool := false
  /-- the armed leap second: true leap61, false leap59, and the TAI second that is its UTC midnight by the offset in force (R327) -/
  leap : Option (Bool × Nat) := none
  /-- the counter second up to which PPS_OUT gives no edge, and the one that its last edge began (R329) -/
  noPpsTo : Option Nat := none
  ppsSec : Option Nat := none
  /-- phase of the oscillator of 10MHZ_OUT, in 2^-32 ns of its 100 ns (Table 8.6) -/
  nco : Nat := 0
  /-- the oven is within specification, has been, and since when it is out (R324, Table 8.7) -/
  ovenIn : Bool := false
  ovenWas : Bool := false
  ovenOutAt : Nat := 0
  /-- Syncs in succession apart by more than 250 ns, and within it (Table 8.7) -/
  lanApart : Nat := 0
  lanClose : Nat := 0
  /-- the partner's time as last reported: state, whether it leads (LEAD), TimeQuality, offset from it in 2^-16 ns (R330, R331) -/
  partnerState : TimeState := .unsynchronised
  partnerLead : Bool := true
  partnerTimeq : Byte := 0
  twinOffset : Option Int := none
  /-- tick since which the counters have been more, or at most, 200 ns apart (Table 8.7) -/
  twinApartAt : Option Nat := none
  twinCloseAt : Option Nat := none
deriving DecidableEq, Repr

/-! Chapter 9: Reckoner -/

/-- The integrator, output and following-error timer (in update intervals) of a slot (Table 9.1, R349). -/
structure Loop where
  i : Int := 0
  u : Int := 0
  fe : Nat := 0
deriving DecidableEq, Repr

/-- The COIL states of Table 9.4. -/
inductive CoilPhase | idle | pick | approach | hold | frozen
deriving DecidableEq, Repr

/-- A COIL slot. -/
structure Coil where
  phase : CoilPhase := .idle
  loop : Loop := {}
  /-- updates of Pick counted, the last current measured in Pick (R357, R359) -/
  picked : Nat := 0
  mPick : Nat := 0
  /-- a current reading has arrived since the previous update (R360) -/
  fresh : Bool := false
  /-- a commit has changed the image, and the slot has not updated since (R366) -/
  due : Bool := false
deriving DecidableEq, Repr

/-- The Reckoner (chapter 9); slot 3 SPARE has no state beyond its output 0 (R354). -/
structure Reckoner where
  clk : Loop := {}
  oven : Loop := {}
  twin : Loop := {}
  /-- the last OVEN error in mK (Table 17.7) -/
  ovenErr : Int := 0
  /-- COIL00 to COIL31 -/
  coil : Tab Coil := []
deriving DecidableEq, Repr

/-! Chapter 10: pipeline -/

/-- One pipeline sample in the windows of a position: the sample words of the 8 channels, of 3I0 and of 3V0, their flags, and
what later samples need of it. -/
structure PSample where
  idx : SIndex
  x : List Int
  fl : List Nat
  /-- angles of V1 and I1, the frequency word and whether it was valid -/
  angV1 : Int
  angI1 : Int
  fword : Nat
  fvalid : Bool
  /-- the parity kept with each word of x, the two angles and the frequency word (R400) -/
  par : List Nat
deriving DecidableEq, Repr

/-- A received sample in the span of the decimation filter: its eight words with flags, its block flag, and the parity kept with each
word (R378, R400). -/
structure SpanRec where
  idx : SIndex
  words : List (Int × Nat)
  blocked : Bool
  par : List Nat
deriving DecidableEq, Repr

/-- The frequency source (R389): none, V1 or I1. -/
inductive FreqSource | none | v1 | i1
deriving DecidableEq, Repr

/-- What a pipeline sample leaves for a zone that reaches its index later (R445): its index, the source of its frequency word (R389),
the frequency in effect, its stream-block flag and its words. -/
structure PastRec where
  idx : SIndex
  source : FreqSource
  fr : Nat
  blocked : Bool
  words : Tab (Int × Nat)
  /-- samples of the full-cycle window formed then (R404) -/
  filled : Nat := 0
deriving DecidableEq, Repr

/-- A sample of a zone's main stream that waits for the zone's voltage stream to reach its index (R445, log 31). -/
structure ZoneWait where
  zone : Nat
  pos : Nat
  sample : PastRec
deriving DecidableEq, Repr

/-- The pipeline state of one position: SV slot 0 to 1,023, LS0 at 1,024, LS1 at 1,025. -/
structure Pipe where
  /-- the span of received samples of the decimation filter, newest first (R378) -/
  span : List SpanRec := []
  /-- pipeline samples, newest first, up to 5 × N_fc (R380, R393) -/
  win : List PSample := []
  /-- samples formed since the admission, counted to N_fc (R404) -/
  filled : Nat := 0
  /-- V1 and I1 qualify (R389) -/
  v1Ok : Bool := false
  i1Ok : Bool := false
  source : FreqSource := .none
  /-- f_raw × N_fc of the samples with this source, newest first, up to 4 × N_fc, in 2^-24 Hz; none out of range
  (R390, R391) -/
  raws : List (Option Int) := []
  /-- the parity kept with each of them (R400) -/
  rawPar : List Nat := []
  /-- the frequency word; 0 before the first sample (then f_nom is held) (R391) -/
  fword : Nat := 0
  fvalid : Bool := false
  /-- the frequency in effect in 0.01 Hz, 0 for f_nom, and samples since it was last renewed (R381) -/
  fr : Nat := 0
  frAge : Nat := 0
  /-- the words of the newest pipeline sample by quantity and kind, with their flags (R386, R392) -/
  words : Tab (Int × Nat) := []
  /-- the newest pipeline sample's index and its stream-block flag (R394) -/
  idx : SIndex := ⟨0, 0⟩
  blocked : Bool := false
  /-- the samples before the newest, newest first (R445, log 31) -/
  past : List PastRec := []
  /-- samples with, and without, OVF under R399 in succession, and the core tick of the last one with it (Table 10.6) -/
  ovfRun : Nat := 0
  ovfFree : Nat := 0
  ovfAt : Nat := 0
deriving DecidableEq, Repr

/-! Chapters 11 and 12: zones -/

/-! Chapter 13: local analogue -/

/-- Plausibility counts of an input (R518, R532). -/
structure AdcIn where
  fails : Nat := 0
  passes : Nat := 32
  /-- plausibility-invalid -/
  invalid : Bool := false
deriving DecidableEq, Repr

/-- One copy of the calibration fuses (R510): f_off and g of primary p at p, of K0 on input i at 16 + i, of K1 at 32 + i. -/
structure Calib where
  ok : Bool := true
  off : Tab Int := []
  gain : Tab Int := []
deriving DecidableEq, Repr

/-- The local analogue section (chapter 13). -/
structure Adc where
  inputs : Tab AdcIn := []
  /-- the sequence result registers SQR00 to SQR31 (Table 13.2) -/
  sqr : Tab (BitVec 32) := []
  cal1 : Calib := {}
  cal2 : Calib := {}
  /-- REF_OK, the monitor readings of the last 2.0 ms, newest first, and the one before (R513, R514) -/
  refOk : Bool := false
  refReads : List Nat := []
  /-- g_ref in 2^-24 (R509, Table 13.3) -/
  gRef : Nat := 16777216
  /-- the g_ref of the last reading, which applies from the next trigger (R513) -/
  gRefNext : Nat := 16777216
  /-- tick at which D7 became good, and since which REF_OK has its value (Table 13.6) -/
  d7At : Nat := 0
  refAt : Nat := 0
  /-- converters with a fault: P00 to P15, K0 at 16, K1 at 17 (Table 13.6) -/
  convFault : List Nat := []
  /-- inputs whose urgent check is requested, with the core tick of the request, in order (R520, R521, R525) -/
  urgent : List (Nat × Nat) := []
  /-- since the last trigger, converters on which an urgent check has started (P00 to P15, K0 at 16, K1 at 17) and the whole microsecond
  after the trigger (R521, R522) -/
  flight : List (Nat × Nat) := []
  /-- core tick of the last request of each input (R525) -/
  asked : Tab Nat := []
  /-- change windows: the quantity of LS0 (0 to 7) or LS1 (8 to 15), the first index, and the triggers left (R526) -/
  change : List (Nat × SIndex × Nat) := []
  /-- the decided commit's row 5 has come into use at the trigger of its sample boundary (R526) -/
  rowNew : Bool := false
  /-- the runs of indices produced, first and last index, newest first, and whether the counter has stepped since the last trigger (R528) -/
  produced : List (SIndex × SIndex) := []
  stepped : Bool := false
  /-- URGENT_DROP of each converter over the intervals (Table 13.6) -/
  drops : Tab Rise := []
deriving DecidableEq, Repr

/-! Chapter 14: field channels -/

/-- One field channel: its core side and its field side. -/
structure Channel where
  /-- core side: FSEQ of the last downstream frame sent (Table 14.2) -/
  fseq : Nat := 0
  /-- the downstream frame of this period is not sent (R43) -/
  holdDown : Bool := false
  /-- the last valid upstream frame (R552) -/
  up : Option CouplerWord := none
  /-- valid upstream frames in succession, and the coupler fault (R574, Table 14.8) -/
  upRun : Nat := 0
  coupler : Bool := false
  /-- the input state in effect for the zones (R454), in a formed pair as the Active's records give it (R633), and whether the input is
  invalid (R456) -/
  state : Bool := false
  invalid : Bool := false
  /-- tick since which DIAG over-load, over-temperature and readback have their value (Table 14.8) -/
  overLoadAt : Nat := 0
  overTempAt : Nat := 0
  readbackAt : Nat := 0
  /-- field side: the upstream frame latched at the last frame start (Table 14.1); 0 before the first -/
  sent : CouplerWord := 0
  /-- the last valid downstream frame (R540) -/
  down : Option CouplerWord := none
  /-- no valid downstream frame for 16 frame periods (R573) -/
  downLost : Bool := false
  /-- valid frames that command the output since the field supply was restored (R122); 2 when it may conduct -/
  cmdRun : Nat := 0
  /-- raw state, counter and filtered state of the input stage (R542, R543) -/
  raw : Bool := false
  count : Nat := 0
  filtered : Bool := false
  /-- input samples taken, numbers of the samples of the last changes of the filtered state, newest first (R544) -/
  samples : Nat := 0
  changes : List Nat := []
  chatter : Bool := false
  held : Bool := false
  /-- the input stage is folded back to 0.8 mA (R541) -/
  folded : Bool := false
  /-- samples in succession at or above 0.05 × V_F, and the open-wire report of an input or output (R545, R572) -/
  above : Nat := 0
  openWire : Bool := false
  /-- the high-side switch is on (R550), and the tick since which the channel's switch conducts throughout (R549) -/
  on : Bool := false
  condAt : Nat := 0
  /-- blanking code in use since the last turn-on (R562, R568) -/
  blank : Nat := 3
  /-- LATCH and RETRY (Table 14.3, R569), and short decisions on both legs in the sequence (R570) -/
  latch : Nat := 0
  retry : Nat := 0
  twoLeg : Bool := false
  /-- over-temperature shut-down (R571), and the tick in which it last opened the output (R565) -/
  hot : Bool := false
  hotAt : Option Nat := none
  /-- demagnetising: none, fast, or slow (R553, R554) -/
  demag : Option Bool := none
  /-- diagnostics over-load and readback mismatch (R572) -/
  overLoad : Bool := false
  readback : Bool := false
  /-- trip-circuit supervision: a pulse is running, open and intact pulses in succession, failed (R556, R557) -/
  pulse : Bool := false
  opens : Nat := 0
  intacts : Nat := 0
  tcsFailed : Bool := false
  /-- PWM: on-time in quarter-cycles, and the mean current of the last complete period (R551, R552) -/
  pwm : Nat := 0
  curr : Nat := 0
  /-- terminal voltage in V (Table 14.3) -/
  vterm : Nat := 0
deriving DecidableEq, Repr

/-- The field side of a group. -/
structure GroupSt where
  /-- the field side has started and passed its check (R577) -/
  running : Bool := false
  /-- its clock coupler has stopped or its check has failed (R575); and it has since the entry to Starting, which the fault outlasts a new
  start of the field side (Table 14.8) -/
  stopped : Bool := false
  halted : Bool := false
  /-- V_F in mV as last measured (R533) -/
  vf : Nat := 0
  /-- VF_OK (Table 14.3) -/
  vfOk : Bool := false
  /-- tick since which V_F is above 155 V, and since which it is at most 150 V (Table 14.8) -/
  overAt : Option Nat := none
  underAt : Option Nat := none
deriving DecidableEq, Repr

/-- The field section (chapter 14). -/
structure Field where
  ch : Tab Channel := []
  a : GroupSt := {}
  b : GroupSt := {}
  /-- tick up to which downstream frames carry ACK (R537) -/
  ackTo : Nat := 0
deriving DecidableEq, Repr

/-! Chapter 15: publishing -/

/-- A frame of the process transmit queue (R793). -/
inductive TxFrame
  /-- GOOSE: publication, stNum, whether it carries the state change, pair-node number (R636), destination, tag control,
  APPID, goosePdu -/
  | goose (pub stNum : Nat) (change : Bool) (seq : BitVec 16) (dst tci appid : Nat) (pdu : List Byte)
  /-- PRP or HSR supervision, of the pair node with its number, or of the process MAC -/
  | supervision (pairNode : Bool) (seq : BitVec 16)
deriving DecidableEq, Repr

/-- The publisher (chapter 15). -/
structure Publisher where
  pubs : Tab Publication := []
  /-- the process transmit queue, oldest first (R793, R798) -/
  queue : List TxFrame := []
  /-- state changes and supervision frames that wait for a place (R798) -/
  waiting : List TxFrame := []
  /-- frames of the summary GOOSE that wait for their stNum to be persisted (R601) -/
  station : List TxFrame := []
  /-- SSEQ of the next status frame (Table 15.6) -/
  sseq : BitVec 32 := 0
  /-- the next tally page (R599) -/
  page : Nat := 0
  /-- the key fields of the last status frame (R598) -/
  lastKey : List Nat := []
  /-- the level on ACK_IN as the last acceptance or status frame found it (Table 15.6, R598) -/
  ackIn : Bool := false
  /-- the summary dataset of the last state change (R600) -/
  summary : List Nat := []
  /-- publishing is stopped by R594 -/
  stopped : Bool := false
  /-- the publication whose stNum write the MRAM port had begun when the latest state change arose (R792) -/
  writing : Option Nat := none
  /-- in a formed pair, the retransmissions (by publication) and pair-node supervision frames (256) of an index that has not ended, in the
  order in which they enter the queue (R589, R636, R793) -/
  due : List (SIndex × Nat) := []
  /-- publications whose last stNum write failed its read-back: it is not made again (R610) -/
  writeFailed : List Nat := []
deriving DecidableEq, Repr

/-! Chapter 16: the pair -/

/-- The pair states of Table 16.1. -/
inductive PairState | solo | pairing | active | standby | shadow | rejoining
deriving DecidableEq, Repr

/-- SWAP kinds (Table 16.4). -/
inductive SwapKind | propose | agree | decline
deriving DecidableEq, Repr

/-- What a carry frame brings (Table 16.4). -/
inductive CarryMsg
  | idle
  /-- a segment of a payload longer than its frame may have (R618, R621) -/
  | part (type : Nat) (octets : List Byte)
  | hello (b : HelloBody)
  | accept (ownActive : Bool) (resync : Bool)
  | refuse (code : Nat)
  | heartbeat (b : HeartbeatBody)
  | receipt (rs : List ReceiptRec)
  | lend (b : LendBody)
  | decision (ds : List DecisionRec)
  | time (tx rx : Int)
  | swap (k : SwapKind) (ns : SIndex)
  | jentry (e : CarriedEntry)
  | jcheck (jseq : Nat) (ecrc : BitVec 32)
  /-- sequence number and ECRC of each entry, by which the journals are compared (Table 16.12, step 1) -/
  | resync (chain : List (Nat × BitVec 32))
  /-- what the Active sends the rejoiner: its entries after the last common one, its admitted slots, its breaker slots, the persisted stNum
  values, and n0 (steps 2 and 3) -/
  | resyncState (last : Nat) (journal : List CarriedEntry) (slots : List (Nat × Nat × StreamIdent × SIndex)) (brks : List (Nat × BrkSlot))
      (stnums : List (Nat × Nat)) (n0 : SIndex)
  /-- the zones, the publications and the pair-node sequence at n1 (step 5) -/
  | snapshot (n1 : SIndex) (zones : List (Nat × Zone)) (pubs : List (Nat × Publication)) (pairSeq : BitVec 16)
deriving DecidableEq, Repr

/-- TYPE of a carry frame (Table 16.4). -/
def carryType : CarryMsg → Nat
  | .idle => 0x00
  | .part t _ => t
  | .hello _ => 0x01
  | .accept _ _ => 0x02
  | .refuse _ => 0x03
  | .heartbeat _ => 0x10
  | .receipt _ => 0x11
  | .lend _ => 0x12
  | .decision _ => 0x13
  | .time _ _ => 0x14
  | .swap _ _ => 0x15
  | .jentry _ => 0x20
  | .jcheck _ _ => 0x21
  | .resync _ => 0x22
  | .resyncState _ _ _ _ _ _ => 0x22
  | .snapshot _ _ _ _ => 0x23

/-- The lane of a type (Table 16.4). -/
def carryLane (m : CarryMsg) : Fin 2 := if carryType m < 0x20 then 0 else 1

/-- The header of a carry frame as sent (Table 16.3): SEQ, ACKN, and the flags RETX and ONELANE; TYPE and LEN are those of what it brings. -/
structure CarryTx where
  seq : BitVec 16
  ackn : BitVec 16
  retx : Bool
  oneLane : Bool
deriving DecidableEq, Repr

/-- One lane of the carry link (R617 to R620). -/
structure Lane where
  up : Bool := false
  /-- SEQ of the next new frame sent, and the next SEQ expected -/
  txSeq : BitVec 16 := 0
  rxSeq : BitVec 16 := 0
  /-- sent and unacknowledged frames, oldest first (R620) -/
  unacked : List (BitVec 16 × CarryMsg) := []
  /-- frames that wait for a place among the 64 -/
  waiting : List CarryMsg := []
  /-- frames discarded (R619) and sent again (R620), and the sum over the intervals (Table 16.13) -/
  discarded : Nat := 0
  resent : Nat := 0
deriving DecidableEq, Repr

/-- A sample or message on its way through input agreement (R628 to R632). -/
structure Held where
  sample : Sample
  digest : BitVec 16
  /-- received by this unit rather than lent to it -/
  own : Bool
  /-- held by this unit, and confirmed by the partner's receipt -/
  held : Bool
  confirmed : Bool
  /-- the whole frame, while its slot is a candidate (Table 16.4) -/
  frame : Option SvFrame := none
deriving DecidableEq, Repr

/-- A breaker message on its way through input agreement. -/
structure HeldBrk where
  slot : Nat
  msg : BrkMsg
  confirmed : Bool
  /-- the core tick in which it came (R268) -/
  tick : Nat := 0
deriving DecidableEq, Repr

/-- What is decided of a breaker slot (R289, R290, R292). -/
inductive BrkAct | message (m : BrkMsg) (tick : Nat) | expired | destroyed
deriving DecidableEq, Repr

/-- A swap in progress (Table 16.10). -/
inductive Swap
  | none
  | proposed (ns : SIndex)
  | agreed (ns : SIndex)
  /-- declined or abandoned at the Active: tried again after 1.0 s -/
  | retry
deriving DecidableEq, Repr

/-- A rejoin in progress (Table 16.12). -/
inductive Rejoin
  | none
  /-- steps 1 and 2: journals compared -/
  | journals
  /-- step 3 done: agreement runs from n0 -/
  | agreeing (n0 : SIndex)
deriving DecidableEq, Repr

/-- What the partner last said of itself, by HELLO or by a heartbeat on either path (R623, R624, R637). -/
structure PartnerSays where
  engine : Nat := 0
  pair : Nat := 1
  restarted : Bool := false
  jseq : Nat := 0
deriving DecidableEq, Repr

/-- What a SNAPSHOT brings (Table 16.12, step 5). -/
structure SnapBody where
  n1 : SIndex
  zones : List (Nat × Zone)
  pubs : List (Nat × Publication)
  pairSeq : BitVec 16
deriving DecidableEq, Repr

/-- The pair logic (chapter 16). -/
structure Pair where
  state : PairState := .solo
  lane0 : Lane := {}
  lane1 : Lane := {}
  /-- the carry link is up: both lanes are; and it has been lost, and no lane has come up since (R617, log 93) -/
  carryUp : Bool := false
  carryLost : Bool := false
  /-- ticks at which one lane went down, and both came up (Table 16.13) -/
  oneDownAt : Option Nat := none
  bothUpAt : Nat := 0
  /-- the last HELLO of the partner; pairing has been accepted -/
  hello : Option HelloBody := none
  /-- the ports on which the pair-node frames of the role left in withdrawing still leave (R37, R607) -/
  leftPorts : List Port := []
  accepted : Bool := false
  /-- the partner is absent (R613) -/
  absent : Bool := false
  /-- a pairing frame or a process-bus heartbeat of the partner has arrived since the entry to Starting (R106) -/
  heard : Bool := false
  told : PartnerSays := {}
  /-- the PAIR code of the partner as this unit takes it in its own role, and its published fingerprint -/
  partnerState : Nat := 1
  partnerFp : BitVec 64 := 0
  /-- the carry path and the bus path are silent (R627) -/
  carrySilent : Bool := true
  busSilent : Bool := true
  /-- partner heard on LAN A and on LAN B within G.PARTNER_LOST -/
  heardA : Bool := false
  heardB : Bool := false
  /-- HBSEQ of the last heartbeat sent on each path -/
  hbCarry : BitVec 32 := 0
  hbBus : BitVec 32 := 0
  /-- RESTARTED and UNAGREED of HFLAGS -/
  restarted : Bool := true
  unagreed : Bool := false
  /-- the Active publishes on both LANs after an unagreed release (R630) -/
  bothLans : Bool := false
  /-- samples and messages in input agreement, and partner receipts that found none (R629) -/
  held : List Held := []
  heldBrk : List HeldBrk := []
  /-- at a unit that decides, the samples of candidate slots' frames that the partner has not confirmed (R629) -/
  candidates : List Held := []
  /-- SV slots to be destroyed at an index that this unit has not reached (R292, Table 16.8) -/
  svDue : List (Nat × SIndex) := []
  receipts : List ReceiptRec := []
  /-- decisions on breaker slots that name a later index (R454): slot, decision, index -/
  brkDue : List (Nat × BrkAct × SIndex) := []
  /-- input records that name a later index (R633): channel, state, whether it is valid, index -/
  inputs : List (Fin 32 × Bool × Bool × SIndex) := []
  /-- the agreed TimeQuality octet and the index it was agreed for (Table 16.8) -/
  agreed : SIndex × Byte := (⟨0, 0⟩, 0)
  /-- the octets agreed, each with the first index it holds from, newest first, the last 64 (Table 16.8, R584) -/
  agreedFrom : List (SIndex × Byte) := []
  /-- per channel: tick since which the readings differ, or 0; and since which they agree (Table 16.13) -/
  inputDiffer : Tab Nat := []
  inputEqualAt : Nat := 0
  /-- tick of the last digest mismatch -/
  digestAt : Option Nat := none
  /-- settings split (R638) -/
  split : Bool := false
  /-- the swap timer's start, the tick of its expiry while the swap is due, and the swap -/
  swapFrom : Nat := 0
  swapDue : Option Nat := none
  swap : Swap := .none
  /-- the rejoin, its start, and rejoins restarted in succession -/
  rejoin : Rejoin := .none
  rejoinAt : Nat := 0
  /-- a snapshot that waits for its index n1 (Table 16.12, step 6) -/
  snapDue : Option SnapBody := none
  rejoinRuns : Nat := 0
  /-- pair entries the Standby holds for their JENTRY, and unit entries it has sent for numbering (R661) -/
  pairEntries : List Entry := []
  unitEntries : List Entry := []
  /-- entries numbered by the Active that wait at the Standby for its commit path: JSEQ, the entry, and whether it has been compared -/
  numbered : List (Nat × Entry × Bool) := []
  /-- timestamps of the TIME exchange, in 2^-16 ns (R331) -/
  lastTx : Int := 0
  lastRx : Int := 0
  /-- CRC failures and retransmissions over the intervals -/
  crcRise : Rise := {}
  /-- core tick of the last crossing-queue parity error of the carry link (R43) -/
  parityAt : Option Nat := none
deriving DecidableEq, Repr

/-! Chapter 18: recall -/

/-- The session states of Table 18.5. -/
inductive SessionState | free | idle | queued | serving
deriving DecidableEq, Repr

/-- One recall session (R698). -/
structure Session where
  state : SessionState := .free
  sgen : BitVec 16 := 0
  host : Nat := 0
  mac : Mac := 0
  cursor : Nat := 0
  /-- the request queued -/
  request : Option RecallReq := none
  /-- TAG and tick of the OPEN that opened it (R711) -/
  openTag : Byte := 0
  openAt : Nat := 0
  /-- tick at which it became QUEUED (R705) -/
  queuedAt : Nat := 0
deriving DecidableEq, Repr

/-- The recall service (chapter 18). -/
structure Recall where
  sessions : Tab Session := []
  /-- the service token (R705) -/
  token : Nat := 0
  /-- acknowledged JSEQ ranges by host position, whose pages may still be incomplete (R701, R703) -/
  acks : List (Nat × Nat × Nat) := []
  /-- marks waiting: host position, record rather than page range, FIRST or RECNO, LAST (R703) -/
  waiting : List (Nat × Bool × Nat × Nat) := []
  unlisted : Rise := {}
  /-- core tick up to which no response leaves after a session parity error (Table 18.9) -/
  mutedTo : Nat := 0
deriving DecidableEq, Repr

/-! Chapter 20: the seal -/

/-- A loaded key slot (Table 20.1); a slot that is not listed is empty. -/
structure KeySlot where
  key : BitVec 256
  kcv : BitVec 24
  par : BitVec 10
deriving DecidableEq, Repr

/-- The seal (chapter 20). -/
structure Seal where
  /-- loaded slots 0 to 15 -/
  keys : Tab KeySlot := []
  /-- the result register (Table 20.8) -/
  result : BitVec 32 := 0
  /-- the staging buffer, zeroed outside a transaction (R765, R770) -/
  staging : BitVec 256 := 0
  /-- the retention event register (R753) -/
  evHatch : Bool := false
  evMesh : Bool := false
  evVbatLow : Bool := false
  evRestart : Bool := true
  discards : Nat := 0
  loadMap : BitVec 16 := 0
  /-- tamper latch (R757) -/
  latch : Bool := false
  /-- hatch switch open, hatch reported open (R754, R758) -/
  hatchOpen : Bool := false
  hatchReported : Bool := false
  /-- an erase has completed with the hatch open continuously since (R759) -/
  erased : Bool := false
  /-- the mesh reads intact (R755) -/
  meshOk : Bool := true
  /-- the port is held not live until the next hatch opening (R785) -/
  heldOff : Bool := false
  /-- the port is live, busy (R759, R764) -/
  live : Bool := false
  busy : Bool := false
  /-- KL_CLK is ignored until KL_SEL has been high (R766) -/
  ignoring : Bool := false
deriving DecidableEq, Repr

/-! What leaves the block, and the whole state -/

/-- What leaves the block at its contacts. -/
inductive Output
  /-- an Ethernet frame, from the destination address to the octet before the FCS -/
  | frame (p : Port) (octets : List Byte)
  /-- a PTP message -/
  | ptp (p : Port) (m : PtpOut)
  /-- a frame forwarded under HSR, with what is added to its correctionField in 2^-16 ns (R320, R233) -/
  | forwarded (p : Port) (f : RxFrame) (added : Nat)
  /-- a forwarded frame or a frame being sent ended with an inverted FCS (R43, R233, R235) -/
  | aborted (p : Port)
  /-- a carry frame on a lane: its header, what it brings, and its octets (Table 16.3) -/
  | carry (lane : Fin 2) (h : CarryTx) (m : CarryMsg) (octets : List Byte)
  /-- a pulse on PPS_OUT (R329) -/
  | pps
  /-- an I²C bus recovery of n SCL pulses, and whether a STOP ended it (R244) -/
  | i2cRecovery (p : Port) (pulses : Nat) (stop : Bool)
  /-- a carry frame ended with an inverted CRC (R43) -/
  | carryAborted (lane : Fin 2)
  /-- the bits of a key loader transaction on KL_DOUT (R760, R764) -/
  | klDout (bits : List Bool)
deriving DecidableEq, Repr

/-- The state of the module. -/
structure State where
  /-- MODEL: the commands that wait, first in, first out -/
  pending : List Instr := []
  /-- MODEL: what left the block in the last command -/
  out : List Output := []
  /-- MODEL: core ticks of 2.5 ns -/
  now : Nat := 0
  /-- MODEL: the free-value counter -/
  free : Nat := 0
  power : Power := {}
  ident : Ident := {}
  nvm : Nvm := {}
  plug : Plug := {}
  faults : Faults := {}
  journal : Journal := {}
  ports : Ports := {}
  streams : Streams := {}
  time : Time := {}
  reck : Reckoner := {}
  /-- pipeline positions: SV slots 0 to 1,023, LS0 and LS1 -/
  pipes : Tab Pipe := []
  /-- lane Y's own memories of the positions; `pipes` are lane X's (R396) -/
  pipesY : Tab Pipe := []
  /-- zones 0 to 255 -/
  zones : Tab Zone := []
  /-- samples that wait for a voltage stream, in the order of their main streams (R445, log 31) -/
  waits : List ZoneWait := []
  adc : Adc := {}
  field : Field := {}
  pub : Publisher := {}
  pair : Pair := {}
  recallSvc : Recall := {}
  sealSt : Seal := {}
  /-- tallies of tally pages 0, 1 and 2 by page × 64 + word (Table 15.7), wrapping (R218) -/
  tally : Tab Tally := []
  /-- JQ_REFUSED and the intake tally over the intervals (Table 17.12, Table 10.6) -/
  refusedRise : Rise := {}
  intakeRise : Rise := {}
  /-- tick of the last ring error (Table 17.12) -/
  ringErrAt : Option Nat := none
deriving DecidableEq, Repr

/-- The module as delivered, without supply (R828): Off, factory MRAM, empty key slots. -/
def State.reset : State := {}

end Sys2Proof.Machine
end

