-- ==== Sys2Proof/Config.lean ====
section
/-! DEFINITION. What the module's logic fixes and the spec does not spell out: uninterpreted constants with no body. -/
namespace Sys2Proof.Config

/-- A fresh value the spec leaves open, taken at the state's free-value counter (log 3). -/
opaque freeValue : Nat → Nat
/-- Whether an inexact value whose rounding the spec leaves open is rounded upward (log 4). -/
opaque roundUp : Int → Nat → Bool
/-- Coefficient j of the first half of the decimation filter for factor D, in Q1.17 (R377 gives properties, not values; log 5). -/
opaque firFree : (d j : Nat) → Int
/-- Whether a Q1.17 coefficient that is not exact is the code above its value: sine rather than cosine, nominal frequency, pipeline
rate, pipeline smpCnt (R380 states no rounding; log 6). -/
opaque coefficientUp : (sine : Bool) → (fnom rate smpCnt : Nat) → Bool
/-- The signature of the check pattern for a nominal frequency and a rate, fixed in the logic (R398, R412; log 136). -/
opaque checkSignature : (fnom rate : Nat) → Nat
/-- Where in the relative precision of 2^-32 that R420 allows the stored breakpoint j of a curve lies (log 7). -/
opaque curveError : (curve j : Nat) → Nat

/-- The fixed internal latency of a port (Table 19.6), receiving or sending, that a timestamp is corrected by, in 0.5 ns; set at
manufacture (R222; log 128). -/
opaque portLatency : (port : Nat) → (sending : Bool) → Int
/-- Class and detail (the low 10 bits) of the CODE of an entry to which the spec gives none, by the model's number for the
entry (log 13). -/
opaque entryLow : Nat → Nat
/-- The payload layout of an entry whose content the spec names and whose layout it does not give (log 13). -/
opaque payloadLayout : Nat → List Nat → List (BitVec 8)
/-- The content that a payload of such an entry spells under its layout (log 13). -/
opaque payloadContent : Nat → List (BitVec 8) → List Nat

/-- The payload of a carry frame, where Table 16.4 names its content and gives no layout (R618; log 159). -/
opaque carryLayout : Machine.CarryMsg → List (BitVec 8)

end Sys2Proof.Config
end

