-- ==== Sys2Proof/Machine/Hash.lean ====
section
/-! DEFINITION. The published algorithms the spec names and does not spell out: SHA-256 (FIPS 180-4), HMAC (RFC 2104),
the Ethernet FCS CRC-32 (IEEE 802.3), CRC-16 (R539) and FLOAT32 (IEEE 754). PRESUMED (log 11). -/
namespace Sys2Proof.Machine

/-- The first 32 bits of the fractional part of the k-th root of p, the root's bits found from the highest down. -/
def rootBits (k p : Nat) : Nat :=
  (List.range 35).foldr (fun j r => if (r + 2 ^ j) ^ k ≤ p * 2 ^ (32 * k) then r + 2 ^ j else r) 0 % 2 ^ 32

/-- The primes from which FIPS 180-4 takes its constants: the first 64. -/
def shaPrimes : List Nat :=
  (List.range 312).filter (fun n => 2 ≤ n && [2, 3, 5, 7, 11, 13, 17].all (fun d => n == d || n % d != 0))

/-- The 64 round constants, of the cube roots. -/
def shaK : List Nat := shaPrimes.map (rootBits 3)

/-- The chaining value of SHA-256 in two halves of four words, each newest first: what a round turns into A and E. -/
structure ShaHalves where
  a : List Nat
  e : List Nat

/-- The initial value, of the square roots of the first eight primes. -/
def shaStart : ShaHalves :=
  { a := (shaPrimes.take 4).map (rootBits 2), e := ((shaPrimes.drop 4).take 4).map (rootBits 2) }

/-- A word turned right by each of some amounts and shifted right by each of others, all of it added without carry. -/
def shaMix (x : Nat) (turns shifts : List Nat) : Nat :=
  (turns.map (fun n => x / 2 ^ n + x % 2 ^ n * 2 ^ (32 - n)) ++ shifts.map (fun n => x / 2 ^ n)).foldl Nat.xor 0

/-- One round: the words K and W come in added together. -/
def ShaHalves.turn (h : ShaHalves) (kw : Nat) : ShaHalves :=
  let a := fun i => h.a.getD i 0
  let e := fun i => h.e.getD i 0
  let choose := Nat.xor (e 2) (e 0 &&& Nat.xor (e 1) (e 2))
  let most := (a 0 &&& a 1) ||| (a 2 &&& (a 0 ||| a 1))
  let into := e 3 + choose + shaMix (e 0) [6, 11, 25] [] + kw
  { a := (into + most + shaMix (a 0) [2, 13, 22] []) % 2 ^ 32 :: h.a.take 3, e := (a 3 + into) % 2 ^ 32 :: h.e.take 3 }

/-- Round after round over the constants that are left, the last 16 words of the schedule newest first: the oldest goes in, and the next
word of the schedule comes on. -/
def shaRounds : List Nat → List Nat → ShaHalves → ShaHalves
  | [], _, h => h
  | k :: ks, w, h =>
    let at_ := fun i => w.getD i 0
    let next := (at_ 15 + shaMix (at_ 14) [7, 18] [3] + at_ 6 + shaMix (at_ 1) [17, 19] [10]) % 2 ^ 32
    shaRounds ks (next :: w.take 15) (h.turn (k + at_ 15))

/-- Add two halves word by word. -/
def addWords (x y : List Nat) : List Nat := List.zipWith (fun p q => (p + q) % 2 ^ 32) x y

/-- The 512-bit blocks of a padded message from octet i on, n of them: each block's rounds are added to what they began with. -/
def shaBlocks : Nat → List Byte → ShaHalves → ShaHalves
  | 0, _, h => h
  | n + 1, m, h =>
    let w := (List.range 16).map (fun j => ofOctets ((m.drop (60 - 4 * j)).take 4))
    let t := shaRounds shaK w h
    shaBlocks n (m.drop 64) { a := addWords h.a t.a, e := addWords h.e t.e }

/-- SHA-256 as a number of 256 bits. -/
def sha256 (m : List Byte) : Nat :=
  let blocks := (m.length + 72) / 64
  let h := shaBlocks blocks (m ++ 0x80#8 :: zeros (64 * blocks - m.length - 9) ++ octets 8 (8 * m.length)) shaStart
  (h.a ++ h.e).foldl (fun x v => x * 2 ^ 32 + v) 0

/-- HMAC-SHA256 with a key of 32 octets. -/
def hmac (key : BitVec 256) (m : List Byte) : Nat :=
  let k := octets 32 key.toNat ++ zeros 32
  sha256 (k.map (· ^^^ 0x5c#8) ++ octets 32 (sha256 (k.map (· ^^^ 0x36#8) ++ m)))

/-- One octet of the reflected CRC-32. -/
def crc32Octet (c : Nat) (b : Byte) : Nat :=
  (List.range 8).foldl (fun c _ => if c % 2 = 1 then Nat.xor (c / 2) 0xEDB88320 else c / 2) (Nat.xor c b.toNat)

/-- CRC-32 computed as the Ethernet FCS (R656). -/
def crc32 (m : List Byte) : Nat := Nat.xor (m.foldl crc32Octet (2 ^ 32 - 1)) (2 ^ 32 - 1)

/-- One octet of the CRC-16 of R539. -/
def crc16Octet (c : Nat) (b : Byte) : Nat :=
  (List.range 8).foldl (fun c _ => if 32768 ≤ c then Nat.xor (2 * c % 65536) 0x1021 else 2 * c)
    (Nat.xor c (256 * b.toNat))

/-- CRC-16, polynomial 0x1021, initial value 0xFFFF, most significant bit first (R539). -/
def crc16 (m : List Byte) : Nat := m.foldl crc16Octet 0xFFFF

/-- Round n / d to the nearest integer, a half to even. -/
def roundEven (n d : Nat) : Nat :=
  let q := n / d
  let r := n % d
  if 2 * r < d then q else if d < 2 * r then q + 1 else q + q % 2

/-- The FLOAT32 nearest to ±n / d, as its 32 bits. -/
def float32 (neg : Bool) (n d : Nat) : Nat :=
  if n = 0 then 0
  else
    let sign := if neg then 2 ^ 31 else 0
    -- exponent e with 2^e ≤ n / d < 2^(e + 1), held as e + 160
    let e := (Nat.log2 (n * 2 ^ 160 / d))
    let m := if e ≤ 160 + 23 then roundEven (n * 2 ^ (160 + 23 - e)) d else roundEven n (d * 2 ^ (e - 160 - 23))
    -- a mantissa that rounds up to 2^24 carries into the exponent by the addition below
    sign + (e + 127 - 160) * 2 ^ 23 + (m - 2 ^ 23)

end Sys2Proof.Machine
end

