-- ==== Sys2Proof/Machine/Operands.lean ====
section
/-! DEFINITION. Straps, beads, global settings and zone settings: what the commands read as settings (chapters 2, 4, 5). -/
namespace Sys2Proof.Machine

/-! Straps (chapter 2) -/

/-- The resistance that a voltage in µV on an STR contact shows, through 24.9 kΩ to 1.250 V (R65): ohms as a fraction with a
positive denominator; none when it is infinite. -/
def strapOhms (uv : Nat) : Option (Nat × Nat) := if uv < 1250000 then some (24900 * uv, 1250000 - uv) else none

/-- A resistance lies from lo to hi ohms. -/
def ohmsFrom (r : Nat × Nat) (lo hi : Nat) : Bool := lo * r.2 ≤ r.1 && r.1 ≤ hi * r.2

/-- The accepted bands of codes 1 to 6, in ohms (Table 2.8). -/
def strapBands : List (Nat × Nat) := [(5880, 6500), (11800, 13000), (23700, 26100), (47400, 52400), (95000, 105000), (190000, 210000)]

/-- The strap band a resistance falls in (Table 2.8); `none` is an infinite resistance. -/
def strapBand (r : Option (Nat × Nat)) : Option Nat :=
  match r with
  | none => some 7
  | some r =>
    if r.1 < 100 * r.2 then some 0
    else if 2000000 * r.2 < r.1 then some 7
    else ((strapBands.zipIdx 1).find? (fun b => ohmsFrom r b.1.1 b.1.2)).map (·.2)

/-- Where each accepted band of codes 0 to 6 begins, in ohms (Table 2.8). -/
def strapBandStart : List Nat := [0, 5880, 11800, 23700, 47400, 95000, 190000]

/-- CODE announced for a faulted strap: the highest code from 0 to 6 whose band begins at or below the mean (R79). -/
def strapFaultCode (readings : List (Option (Nat × Nat))) : Nat :=
  if readings.any (·.isNone) then 6
  else
    let total := readings.foldl (fun (a : Nat × Nat) r => let q := r.getD (0, 1); (a.1 * q.2 + q.1 * a.2, a.2 * q.2)) (0, 1)
    (strapBandStart.filter (fun b => b * readings.length * total.2 ≤ total.1)).length - 1

/-- The nibble FLT[3] CODE[2:0] of a strap from its 16 samples in µV (R65, R66, R79). -/
def strapNibble (samples : List Nat) : Nat :=
  let readings := samples.map strapOhms
  match readings with
  | [] => 8
  | r :: rest =>
    match strapBand r with
    | some c => if rest.all (fun q => strapBand q == some c) then c else 8 + strapFaultCode readings
    | none => 8 + strapFaultCode readings

/-- The valid codes of strap k of Table 2.9 (R68). -/
def strapValid (k code : Nat) : Bool :=
  match k with
  | 0 => code == 7 || code == 1 || code == 2
  | 1 => code == 7 || code == 1
  | 2 => code == 7 || code == 1 || code == 2 || code == 3
  | 3 => code == 7 || code == 1 || code == 2
  | 4 => code < 8
  | 5 => code == 7 || code == 1 || code == 2
  | 6 => code == 7 || code == 1 || code == 2
  | 7 => code < 8
  | 8 => code < 8
  | 9 => code == 7
  | 10 => code == 7 || code == 1
  | 11 => code == 7
  | _ => false

/-- The nibble of strap k. -/
def strap (s : State) (k : Nat) : Nat := s.ident.straps.getD k 15

/-- Which straps concern each kind of R72: faulted, invalid code, member of an invalid combination (R69, R70). -/
def strapsKind (ns : List Nat) (kind : Nat) : List Nat :=
  let at_ := fun k => ns.getD k 15
  match kind with
  | 0 => (List.range 12).filter (fun k => 8 ≤ at_ k)
  | 1 => (List.range 12).filter (fun k => at_ k < 8 && !strapValid k (at_ k))
  | _ =>
    let twin := at_ 0 == 1 || at_ 0 == 2
    let lan := twin && at_ 3 != 7
    let adc := twin && at_ 5 != 7
    (if lan || adc then [0] else []) ++ (if lan then [3] else []) ++ (if adc then [5] else [])

/-- Every kind of strap fault present (R72), in its order. -/
def strapsKinds (ns : List Nat) : List Nat := (List.range 3).filter (fun k => strapsKind ns k ≠ [])

/-- Strapped as a twin side (Table 2.9). -/
def isTwin (s : State) : Bool := strap s 0 == 1 || strap s 0 == 2

/-- SIDE of Table 2.11: 0 Solo, 1 side A, 2 side B, 3 ST_PAIR invalid. -/
def side (s : State) : Nat :=
  if strap s 0 == 7 then 0 else if strap s 0 == 1 then 1 else if strap s 0 == 2 then 2 else 3

/-- The unit identity (R73). -/
def uid (s : State) : Nat := 8 * (strap s 8 % 8) + strap s 7 % 8

/-- SIDE_UID (Table 2.11). -/
def sideUid (s : State) : Nat := 64 * side s + uid s

/-- The nominal frequency in Hz by ST_FREQ. -/
def fNom (s : State) : Nat := if strap s 1 == 1 then 60 else 50

/-- The pipeline rate in samples per second by ST_RATE. -/
def strapRate (s : State) : Nat :=
  match strap s 2 with
  | 1 => 4800
  | 2 => 12800
  | 3 => 14400
  | _ => 4000

/-- HSR by ST_LAN; single LAN on P0 by ST_LAN. -/
def isHsr (s : State) : Bool := strap s 3 == 1
def isSingleLan (s : State) : Bool := strap s 3 == 2
def isPrp (s : State) : Bool := strap s 3 == 7

/-- Local analogue inputs by ST_ADC. -/
def adcInputs (s : State) : Nat :=
  match strap s 5 with
  | 1 => 8
  | 2 => 16
  | _ => 0

/-- The fuse copy in use (R74), if any passes. -/
def fuse (s : State) : Option Fuse :=
  if s.ident.fuse1.ok then some s.ident.fuse1 else if s.ident.fuse2.ok then some s.ident.fuse2 else none

/-! Beads (chapters 4 and 5) -/

/-- The nominal resistance of code n in ohms (Table 4.2). -/
def beadNominal (n : Nat) : Nat :=
  ([1000, 1270, 1580, 2000, 2490, 3160, 4020, 4990, 6340, 7870].getD ((n - 1) % 10) 0) * 10 ^ ((n - 1) / 10)

/-- A current of i pA at a reference of m µV is within p per cent of the nominal conductance of code n, limits included (R136, R139). -/
def beadWithin (p i m n : Nat) : Bool :=
  let got := i * beadNominal n
  let nom := 1000000 * m
  (got - nom) * 100 ≤ p * nom && (nom - got) * 100 ≤ p * nom

/-- Bead decoding of a rod whose column current above the baseline is i pA at a reference of m µV: its resistance is m / i MΩ (R139). -/
def beadDecode (i m : Nat) : Rod :=
  if 2000 * m < i then .short
  else if 5 * i ≤ m then .code 0
  else
    match (List.range 31).find? (fun n => beadWithin 7 i m (n + 1)) with
    | some n => .code (Fin.ofNat 32 (n + 1))
    | none => if (List.range 31).any (fun n => beadWithin 12 i m (n + 1)) then .ambiguous else .stray

/-- MREF_S in µV as measured in the phase that converts a rod (R136, R141): column c is converted in phase c div 16. -/
def scanMref (x : ScanReadings) (k : Nat) : Nat := Tab.get 1000000 x.mref (8 * (k / 128) + k % 128 / 16)

/-- MREF_S is outside 0.990 V to 1.010 V at some row (R142). -/
def scanMrefBad (x : ScanReadings) : Bool := x.mref.any (fun p => p.1 < 1024 && (p.2 < 990000 || 1010000 < p.2))

/-- What a rod measures: its current less the baseline of its column (R137), decoded. -/
def scanRod (x : ScanReadings) (k : Nat) : Rod :=
  beadDecode (Tab.get 0 x.current k - Tab.get 0 x.baseline (k % 128)).toNat (scanMref x k)

/-- The read image of a scan (R144), row by row: without a current, without a baseline below zero, a rod is open. -/
def imageOf (x : ScanReadings) : Image :=
  let low := (x.baseline.filter (fun p => p.1 < 128 && p.2 < 0)).map (·.1)
  let keys := x.current.map (·.1) ++ (low.map (fun c => (List.range 128).map (fun j => 128 * j + c))).flatten
  keys.foldl (fun t k => if k < 16384 then Tab.put (.code 0) t k (scanRod x k) else t) []

/-- The rod of an image. -/
def imageRod (img : Image) (k : Nat) : Rod := Tab.get (.code 0) img k

/-- The image names no code at this rod. -/
def rodUnreadable (r : Rod) : Bool :=
  match r with
  | .code _ => false
  | _ => true

/-- The octet of a rod with STATUS 0b000; an unreadable rod gives code 0. -/
def rodOctet (r : Rod) : Byte :=
  match r with
  | .code c => BitVec.ofNat 8 c.val
  | _ => 0

/-- The rod octet FP_STABLE hashes (R148). -/
def rodStableOctet (r : Rod) : Byte :=
  match r with
  | .code c => BitVec.ofNat 8 c.val
  | .ambiguous => 0xE1#8
  | .short => 0xE2#8
  | .stray => 0xE3#8

/-- The rods of an image as read, with STATUS 0b000 throughout. -/
def imageRods (img : Image) : Rods :=
  img.foldl (fun t p => Tab.put 0 t p.1 (rodOctet p.2)) []

/-- The octets of a stable image with STATUS 0b000 assumed throughout, as FP_STABLE hashes them and as they are compared with the
committed image (R148, Table 4.6): an unreadable rod equals no committed octet. -/
def stableRods (img : Image) : Rods :=
  img.foldl (fun t p => Tab.put 0 t p.1 (rodStableOctet p.2)) []

/-- CODE of rod k (R147). -/
def rodCode (r : Rods) (k : Nat) : Nat := (Tab.get 0#8 r k).toNat % 32

/-- STATUS of rod k (Table 4.4). -/
def rodStatus (r : Rods) (k : Nat) : Nat := (Tab.get 0#8 r k).toNat / 32

/-- The value of the n beads from rod k (R171, R172); 0 when the setting is unset. -/
def beads (r : Rods) (k n : Nat) : Nat :=
  (List.range n).foldl (fun a i => a * 32 + rodCode r (k + i)) 0

/-- The value of a setting, or its default when unset (R173). -/
def beadsOr (r : Rods) (k n d : Nat) : Nat := if beads r k n = 0 then d else beads r k n

/-- Sum of the codes of n rods from rod k. -/
def codeSum (r : Rods) (k n : Nat) : Nat := (List.range n).foldl (fun a i => a + rodCode r (k + i)) 0

/-- Every one of n rods from rod k is open. -/
def rodsOpen (r : Rods) (k n : Nat) : Bool := codeSum r k n == 0

/-- The rod octets of a committed image in linear index order (R148). -/
def rodOctets (r : Rods) : List Byte :=
  ((List.range 16384).foldl (fun (a : List Byte × Rods) k =>
    match a.2 with
    | (k', v) :: t => if k' = k then (v :: a.1, t) else (0 :: a.1, a.2)
    | [] => (0 :: a.1, [])) (([] : List Byte), r)).1.reverse

/-! Global settings (Tables 5.2 to 5.8) -/

def gPairId (r : Rods) : Option Nat := if beads r 8 8 = 0 then none else some (beads r 8 8)
def gSvBase (r : Rods) : Nat := beads r 128 4
/-- The SV window size (R181); 0 with no window. -/
def gSvSize (r : Rods) : Nat := if rodCode r 145 = 0 then beads r 132 2 else 1024
def gSvProfile (r : Rods) : Nat := rodCode r 134
/-- G.SV_TOLERANCE: missing samples in succession that are substituted. -/
def gSvTolerance (r : Rods) : Nat := beadsOr r 135 1 3 - 1
/-- G.SV_DESTROY in ms. -/
def gSvDestroy (r : Rods) : Nat := 100 * beadsOr r 136 2 10
def gBrkBase (r : Rods) : Nat := beads r 138 4
def gBrkSize (r : Rods) : Nat := beads r 142 2
/-- G.PTP_HOLDOVER in s. -/
def gPtpHoldover (r : Rods) : Nat := 120 * beadsOr r 144 1 15
def gPubBase (r : Rods) : Nat := beads r 256 4
def gVlanId (r : Rods) : Nat := beads r 260 3
def gVlanPrio (r : Rods) : Nat := beadsOr r 263 1 5 - 1
/-- G.GOOSE_T1 in ms. -/
def gGooseT1 (r : Rods) : Nat := beadsOr r 264 1 2
/-- G.GOOSE_T0 in ms. -/
def gGooseT0 (r : Rods) : Nat := 500 * beadsOr r 265 1 2
def gAuthGoose (r : Rods) : Option Nat := if rodCode r 266 = 0 then none else some (rodCode r 266 - 1)
def gAuthSv (r : Rods) : Option Nat := if rodCode r 267 = 0 then none else some (rodCode r 267 - 1)
def gAuthFallback (r : Rods) : Bool := rodCode r 268 == 1
def gAuthSvRequire (r : Rods) : Bool := rodCode r 269 == 1

/-- Rod k of channel cc (R183). -/
def chRod (r : Rods) (cc k : Nat) : Nat := rodCode r (384 + 8 * cc + k)
def chIsInput (r : Rods) (cc : Nat) : Bool := chRod r cc 0 == 1
def chIsOutput (r : Rods) (cc : Nat) : Bool := chRod r cc 0 == 2

/-- Pair mode of a couple (R185). -/
inductive PairMode | single | parallel | twoPole
deriving DecidableEq, Repr

/-- The pair mode of the couple of channel cc (R185). -/
def pairMode (r : Rods) (cc : Nat) : PairMode :=
  let e := 2 * (cc / 2)
  let o := e + 1
  let both := chIsOutput r e && chIsOutput r o
  if both && (chRod r e 3 == 2 || chRod r o 3 == 2) then .twoPole
  else if both && chRod r e 3 == 1 && chRod r o 3 == 1 then .parallel
  else .single

/-- The couple is in parallel or two-pole mode. -/
def coupled (r : Rods) (cc : Nat) : Bool := pairMode r cc != .single

/-- The channel whose rods 1 and 4 to 7 apply to cc (R186). -/
def chOwner (r : Rods) (cc : Nat) : Nat := if coupled r cc then 2 * (cc / 2) else cc

/-- A couple's settings fault of R185. -/
def coupleFault (r : Rods) (m : Nat) : Bool :=
  chRod r (2 * m) 3 != chRod r (2 * m + 1) 3
    || ((chRod r (2 * m) 3 != 0 || chRod r (2 * m + 1) 3 != 0) && !(chIsOutput r (2 * m) && chIsOutput r (2 * m + 1)))

/-- The settings fault of R187. DESIGN CHOICE (log 162): it reads the owner's rod (R186), so that DEMAG 1 on the even channel of a parallel
couple raises it on both channels. -/
def demagFault (r : Rods) (cc : Nat) : Bool := chRod r (chOwner r cc) 6 == 1 && chIsOutput r cc && pairMode r cc != .twoPole

/-- Filter count limit in ms, by the owner's rod 1 (R186). -/
def chFilter (r : Rods) (cc : Nat) : Nat := if chRod r (chOwner r cc) 1 = 0 then 4 else chRod r (chOwner r cc) 1
/-- Pick time of an output in ms. -/
def chPick (r : Rods) (cc : Nat) : Nat := if chRod r (chOwner r cc) 1 = 0 then 50 else 5 * chRod r (chOwner r cc) 1
def chChatter (r : Rods) (cc : Nat) : Bool := chRod r cc 2 % 2 == 1
def chOpenWire (r : Rods) (cc : Nat) : Bool := chRod r cc 2 / 2 % 2 == 1
def chInverted (r : Rods) (cc : Nat) : Bool := chRod r cc 2 / 4 % 2 == 1
/-- Hold current in 0.1 A, 0 for no regulation. -/
def chHold (r : Rods) (cc : Nat) : Nat := chRod r (chOwner r cc) 4
/-- Blanking in 0.5 ms. -/
def chBlank (r : Rods) (cc : Nat) : Nat := if chRod r (chOwner r cc) 5 = 0 then 4 else chRod r (chOwner r cc) 5
/-- Slow demagnetisation in effect (R187). -/
def chSlow (r : Rods) (cc : Nat) : Bool := chRod r (chOwner r cc) 6 == 1 && pairMode r cc == .twoPole
def chTcs (r : Rods) (cc : Nat) : Bool := chRod r (chOwner r cc) 7 == 1

def gSeqCh (r : Rods) (e : Nat) : Nat := rodCode r (640 + 3 * e)
def gSeqConv (r : Rods) (e : Nat) : Nat := beadsOr r (641 + 3 * e) 1 1 - 1
def gSeqLs (r : Rods) (e : Nat) : Nat := rodCode r (642 + 3 * e)
/-- A trim code as a signed multiple of 0.01 %. -/
def trim (c : Nat) : Int := if c ≤ 15 then (c : Int) else -((c : Int) - 15)
def gOfs (r : Rods) (a : Nat) : Int := trim (rodCode r (736 + a))
def gGain (r : Rods) (a : Nat) : Int := trim (rodCode r (752 + a))

def gSnapSet (r : Rods) (x : Nat) : Nat := rodCode r (768 + 2 * x)
def gSnapTrig (r : Rods) (x : Nat) : Nat := beadsOr r (769 + 2 * x) 1 1
/-- G.SNAP_PERIOD in minutes. -/
def gSnapPeriod (r : Rods) : Nat := beadsOr r 800 1 15
/-- A rod that names a field channel (R177). -/
def channelOf (c : Nat) : Option Nat := if c = 0 then none else some (c - 1)
/-- G.SNAP_INPUT and G.ACK_INPUT, ignored when they name no input (R194). -/
def inputChannel (r : Rods) (k : Nat) : Option Nat :=
  match channelOf (rodCode r k) with
  | some cc => if chIsInput r cc then some cc else none
  | none => none
def gSnapInput (r : Rods) : Option Nat := inputChannel r 801
def gAckInput (r : Rods) : Option Nat := inputChannel r 923
def gOverwrite (r : Rods) : Bool := rodCode r 802 == 1
def gRlBlock (r : Rods) (v : Nat) : Nat := beads r (803 + 3 * v) 2
def gRlDepth (r : Rods) (v : Nat) : Nat := rodCode r (805 + 3 * v)
def gHostMac (r : Rods) (h : Nat) : Nat := beads r (816 + 10 * h) 10
/-- The override depth of a block (R190). -/
def gDepthOf (r : Rods) (block : Nat) : Option Nat :=
  match (List.range 4).find? (fun v => gRlBlock r v == block && gRlBlock r v != 0 && gRlDepth r v != 0) with
  | some v => some (gRlDepth r v)
  | none => none

/-- First rod of the COIL settings of channel cc (Table 5.8). -/
def coilRod (cc : Nat) : Nat := if cc < 16 then 896 else 908
def gCoilKp (r : Rods) (cc : Nat) : Nat := beadsOr r (coilRod cc) 4 0x1000
def gCoilKi (r : Rods) (cc : Nat) : Nat := beadsOr r (coilRod cc + 4) 4 0x0200
def gCoilUmax (r : Rods) (cc : Nat) : Nat := if rodCode r (coilRod cc + 8) = 0 then 0x7FFF else 0x0400 * rodCode r (coilRod cc + 8)
def gCoilFeLim (r : Rods) (cc : Nat) : Nat := if rodCode r (coilRod cc + 9) = 0 then 0x1000 else 0x0200 * rodCode r (coilRod cc + 9)
/-- FE_TIME in ms. -/
def gCoilFeTime (r : Rods) (cc : Nat) : Nat := beadsOr r (coilRod cc + 10) 1 10
/-- G.SWAP_PERIOD in hours. -/
def gSwapPeriod (r : Rods) : Nat := beadsOr r 920 1 8
/-- G.PARTNER_LOST in ms. -/
def gPartnerLost (r : Rods) : Nat := beadsOr r 921 1 4
def gFoTcs (r : Rods) : Bool := rodCode r 922 % 2 == 1
def gFoSfp (r : Rods) : Bool := rodCode r 922 / 2 % 2 == 1

/-! The global check (R195, R196, Table 5.9) -/

/-- The value of check bead r (R195). -/
def globalCheck (r : Rods) (row : Nat) : Nat :=
  (codeSum r (128 * row) (if row = 0 then 120 else 128) + 7 + row) % 31 + 1

/-- N is unset or lies from lo to hi. -/
def unsetOr (n lo hi : Nat) : Bool := n == 0 || (lo ≤ n && n ≤ hi)

/-- Rods that must be open: reserved rods of rows 0, 1, 2, 6 and 7. -/
def reservedOpen (r : Rods) : Bool :=
  rodCode r 7 == 0 && rodsOpen r 16 104 && rodsOpen r 146 110 && rodsOpen r 270 114 && rodCode r 815 == 0
    && rodCode r 907 == 0 && rodCode r 919 == 0 && rodsOpen r 924 100

/-- Rows 3 and 4: the rods of one channel have valid codes and stand where R184 allows. -/
def chValid (r : Rods) (cc : Nat) : Bool :=
  let c := chRod r cc
  c 0 ≤ 2 && c 2 ≤ 7 && c 3 ≤ 2 && c 5 ≤ 16 && c 6 ≤ 1 && c 7 ≤ 1
    && (c 0 != 0 || rodsOpen r (385 + 8 * cc) 7) && (c 0 == 1 || c 2 == 0) && (c 0 == 2 || rodsOpen r (387 + 8 * cc) 5)

/-- Settings of rows 0 to 7 lie in their ranges (R174), the required ones set. -/
def globalRanges (r : Rods) : Bool :=
  rodCode r 0 == 1 && beads r 1 6 != 0
    && unsetOr (beads r 128 4) 0x4000 0x7FFF && rodCode r 134 ≤ 2 && rodCode r 135 ≤ 3 && unsetOr (beads r 136 2) 1 100
    && unsetOr (beads r 138 4) 1 0x3FFF && unsetOr (beads r 142 2) 1 256 && rodCode r 145 ≤ 1
    && beads r 256 4 != 0 && beads r 256 4 ≤ 0x3F00 && beads r 260 3 ≤ 4094 && rodCode r 263 ≤ 8 && rodCode r 264 ≤ 16
    && rodCode r 265 ≤ 20 && rodCode r 266 ≤ 16 && rodCode r 267 ≤ 16 && rodCode r 268 ≤ 1 && rodCode r 269 ≤ 1
    && (List.range 32).all (chValid r)
    && (List.range 32).all (fun e => gSeqCh r e ≤ 16 && rodCode r (641 + 3 * e) ≤ 24 && gSeqLs r e ≤ 16)
    && (List.range 32).all (fun a => rodCode r (736 + a) ≤ 30)
    && rodCode r 802 ≤ 1 && (List.range 4).all (fun v => gRlBlock r v ≤ 0x16)
    && (List.range 8).all (fun h => gHostMac r h < 2 ^ 48 && gHostMac r h / 2 ^ 40 % 2 == 0)
    && [896, 900, 908, 912].all (fun k => beads r k 4 ≤ 0x7FFF)
    && rodCode r 920 ≤ 24 && unsetOr (rodCode r 921) 4 16 && rodCode r 922 ≤ 3

/-- "Half a window" of Table 5.9. -/
def halfWindow (r : Rods) : Bool :=
  let base := beads r 128 4 != 0
  let size := beads r 132 2 != 0
  let full := rodCode r 145 != 0
  (base && !size && !full) || ((size || full) && !base) || (size && full) || ((beads r 138 4 != 0) != (beads r 142 2 != 0))

/-- "Window bounds" of Table 5.9. -/
def windowBounds (r : Rods) : Bool :=
  (gSvSize r != 0 && 0x7FFF < gSvBase r + gSvSize r - 1) || (gBrkSize r != 0 && 0x3FFF < gBrkBase r + gBrkSize r - 1)
    || (gBrkSize r != 0 && gPubBase r ≤ gBrkBase r + gBrkSize r - 1 && gBrkBase r ≤ gPubBase r + 255)

/-- "Orphan qualifier" of Table 5.9. -/
def orphanQualifier (r : Rods) : Bool :=
  (List.range 32).any (fun e => gSeqCh r e == 0 && !rodsOpen r (641 + 3 * e) 2)
    || (List.range 16).any (fun x => gSnapSet r x == 0 && rodCode r (769 + 2 * x) != 0)
    || (List.range 4).any (fun v => gRlBlock r v == 0 && gRlDepth r v != 0)
    || (rodCode r 269 != 0 && rodCode r 267 == 0)

/-- Two values of the list, both other than 0, are equal. -/
def anyTwice : List Nat → Bool
  | [] => false
  | x :: t => (x != 0 && t.contains x) || anyTwice t

/-- "Duplicate" of Table 5.9. -/
def globalDuplicate (r : Rods) : Bool :=
  anyTwice ((List.range 32).map (gSeqLs r)) || anyTwice ((List.range 4).map (gRlBlock r)) || anyTwice ((List.range 8).map (gHostMac r))

/-- The conditions of Table 5.9 on readable rods. -/
def globalRowsFail (r : Rods) : Bool :=
  (List.range 8).any (fun row => rodCode r (120 + row) != globalCheck r row)
    || !globalRanges r || !reservedOpen r || halfWindow r || windowBounds r || orphanQualifier r || globalDuplicate r

/-- The global rows of an image fail (R196). -/
def globalFails (img : Image) : Bool :=
  img.any (fun p => p.1 < 1024 && rodUnreadable p.2) || globalRowsFail (imageRods img)

/-! The zone block (Table 5.10) -/

/-- Linear index of rod k of zone z (R197). -/
def zoneIndex (z k : Nat) : Nat := 1024 + 60 * z + k
/-- The code of rod k of zone z. -/
def zRod (r : Rods) (z k : Nat) : Nat := rodCode r (zoneIndex z k)
/-- The value of a two-bead zone setting. -/
def zTwo (r : Rods) (z k : Nat) : Nat := beads r (zoneIndex z k) 2

/-- The zone check formula (R202). -/
def zoneCheck (r : Rods) (z : Nat) : Nat := (codeSum r (zoneIndex z 0) 59 + 7) % 31 + 1

/-- Rods 0 to 58 are open and the check rod is open or carries code 8 (R146, Table 5.11). -/
def zoneAbsentRods (r : Rods) (z : Nat) : Bool :=
  rodsOpen r (zoneIndex z 0) 59 && (zRod r z 59 == 0 || zRod r z 59 == 8)

/-- A zone block of an image is failed (R146). -/
def zoneFailed (img : Image) (r : Rods) (z : Nat) : Bool :=
  img.any (fun p => zoneIndex z 0 ≤ p.1 && p.1 ≤ zoneIndex z 59 && rodUnreadable p.2)
    || (!zoneAbsentRods r z && zRod r z 59 != zoneCheck r z)

def zSource (r : Rods) (z b : Nat) : Bool := zRod r z 4 / 2 ^ b % 2 == 1
/-- U_I in mA (Table 5.1). -/
def zUnitI (r : Rods) (z : Nat) : Nat := [1000, 100, 200, 500, 1000, 2000, 5000, 10000, 20000, 50000].getD (zRod r z 5) 0
/-- U_V in units of 10 mV (Table 5.1). -/
def zUnitV (r : Rods) (z : Nat) : Nat := [1000, 100, 200, 500, 1000, 2000, 5000, 10000].getD (zRod r z 6) 0

/-- The stream a slot setting of value N names: SV slot, or 1,024 and 1,025 for LS0 and LS1 (R200). -/
def zStream (r : Rods) (z k : Nat) : Option Nat :=
  let n := zTwo r z k
  if n = 0 then none
  else if zSource r z 2 then some (1023 + n)
  else if zSource r z 4 then some n
  else some (n - 1)
def zMain (r : Rods) (z : Nat) : Option Nat := zStream r z 0
def zVolt (r : Rods) (z : Nat) : Option Nat := zStream r z 2

/-- A current setting in mA, 0 when off (R175). -/
def zCurrent (r : Rods) (z k : Nat) : Nat := zTwo r z k * zUnitI r z
/-- A voltage setting in 10 mV, 0 when off. -/
def zVoltage (r : Rods) (z k : Nat) : Nat := zTwo r z k * zUnitV r z
def z51pOn (r : Rods) (z : Nat) : Bool := zTwo r z 7 != 0
def z50pOn (r : Rods) (z : Nat) : Bool := zTwo r z 13 != 0
def z51nOn (r : Rods) (z : Nat) : Bool := zTwo r z 16 != 0
def z50nOn (r : Rods) (z : Nat) : Bool := zTwo r z 21 != 0
def z46On (r : Rods) (z : Nat) : Bool := zTwo r z 24 != 0
def z27On (r : Rods) (z : Nat) : Bool := zTwo r z 30 != 0
def z59On (r : Rods) (z : Nat) : Bool := zTwo r z 33 != 0
def z81On (r : Rods) (z : Nat) : Bool := zRod r z 36 != 0
def z49On (r : Rods) (z : Nat) : Bool := zTwo r z 39 != 0
def zBcOn (r : Rods) (z : Nat) : Bool := zRod r z 41 != 0
def zClpOn (r : Rods) (z : Nat) : Bool := zRod r z 42 != 0
def zBfOn (r : Rods) (z : Nat) : Bool := zRod r z 44 != 0
def z79On (r : Rods) (z : Nat) : Bool := zRod r z 45 != 0
def z67pOn (r : Rods) (z : Nat) : Bool := zRod r z 27 != 0
def z67nOn (r : Rods) (z : Nat) : Bool := zRod r z 28 != 0
/-- Curve 1 to 8 of a curve rod. -/
def zCurve (r : Rods) (z k : Nat) : Nat := beadsOr r (zoneIndex z k) 1 1
/-- N of a time multiplier, dial or operate time. -/
def zTms (r : Rods) (z k : Nat) : Nat := beadsOr r (zoneIndex z k) 2 100
/-- 46 is inverse-time; its multiplier in units of 0.05, or its delay in s. -/
def z46Inverse (r : Rods) (z : Nat) : Bool := zRod r z 26 ≤ 20
def z46Mult (r : Rods) (z : Nat) : Nat := if zRod r z 26 = 0 then 10 else zRod r z 26
/-- Z.51P_RESET code: 0 instantaneous, 1 to 30 definite, 31 disc emulation (R199). -/
def zReset (r : Rods) (z : Nat) : Nat := zRod r z 12
/-- 67 direction of mode rod k: forward (else reverse), also on 50, and (n - 1) mod 4 for the angle. -/
def z67Forward (r : Rods) (z k : Nat) : Bool := (zRod r z k - 1) / 4 % 2 == 0
def z67On50 (r : Rods) (z k : Nat) : Bool := zRod r z k ≤ 8
def z67Angle (r : Rods) (z k : Nat) : Nat := (zRod r z k - 1) % 4
def z67nNegSeq (r : Rods) (z : Nat) : Bool := zRod r z 29 % 2 == 1
/-- Voltage memory in quarter seconds; m = 0 takes the default 0.5 s (log 40). -/
def zMemory (r : Rods) (z : Nat) : Nat := if zRod r z 29 / 2 = 0 then 2 else zRod r z 29 / 2
/-- Z.DR_LENGTH in ms. -/
def zDrPre (r : Rods) (z : Nat) : Nat :=
  if zRod r z 57 = 0 then 200 else [100, 200, 500, 1000].getD ((zRod r z 57 - 1) / 7) 200
def zDrPost (r : Rods) (z : Nat) : Nat :=
  if zRod r z 57 = 0 then 1000 else [500, 1000, 2000, 3000, 5000, 10000, 15000].getD ((zRod r z 57 - 1) % 7) 1000
def zDrMask (r : Rods) (z : Nat) : Nat := zRod r z 56
/-- Severity of the zone's disturbance records (Z.RECORD_CLASS). -/
def zRecordSev (r : Rods) (z : Nat) : Nat := if zRod r z 58 = 1 then 2 else 3
/-- Z.GOOSE_FORM: 0 compact, 1 element form, 2 with measurands, 4 suppressed. -/
def zForm (r : Rods) (z : Nat) : Nat := zRod r z 55

/-- The channel a zone rod names, with its couple when it is coupled (R178): the channel and whether it is a couple. -/
def zChannel (r : Rods) (z k : Nat) : Option Nat := channelOf (zRod r z k)
/-- The channels an output rod names (R178). -/
def namedChannels (r : Rods) (c : Option Nat) : List Nat :=
  match c with
  | none => []
  | some cc => if coupled r cc then [2 * (cc / 2), 2 * (cc / 2) + 1] else [cc]
/-- The zone has a breaker source (R201). -/
def zHasBreaker (r : Rods) (z : Nat) : Bool := zRod r z 52 != 0 || z < gBrkSize r

/-- A TMS value lies in the range of its curve (Table 5.10). -/
def tmsValid (curve n : Nat) : Bool :=
  n == 0 || (if curve ≤ 4 then n ≤ 150 else if curve ≤ 7 then n ≤ 750 else n ≤ 1000)

/-- Every setting of the block has a valid code or value (R174). -/
def zoneRanges (r : Rods) (z : Nat) : Bool :=
  let c := zRod r z
  c 5 ≤ 9 && c 6 ≤ 7 && c 9 ≤ 8 && c 18 ≤ 8 && tmsValid (zCurve r z 9) (zTwo r z 10) && tmsValid (zCurve r z 18) (zTwo r z 19)
    && c 27 ≤ 16 && c 28 ≤ 16 && c 29 ≤ 15 && c 36 ≤ 30 && c 37 ≤ 30 && c 41 ≤ 28 && c 42 ≤ 28 && c 45 ≤ 4
    && (c 55 ≤ 2 || c 55 == 4) && c 57 ≤ 28 && c 58 ≤ 1

/-- A slot setting names a stream that exists (Table 5.12). -/
def zSlotOk (r : Rods) (z k : Nat) : Bool :=
  match zStream r z k with
  | none => true
  | some n => if zSource r z 2 then zTwo r z k ≤ 2 else n < gSvSize r

/-- A qualifying rod is fitted while its function is off (Table 5.12). -/
def zOrphan (r : Rods) (z : Nat) : Bool :=
  let f := fun k n => !rodsOpen r (zoneIndex z k) n
  (f 12 1 && !(z51pOn r z || z51nOn r z || (z46On r z && z46Inverse r z))) || (f 9 3 && !z51pOn r z) || (f 15 1 && !z50pOn r z)
    || (f 18 3 && !z51nOn r z) || (f 23 1 && !z50nOn r z) || (f 26 1 && !z46On r z) || (f 29 1 && !(z67pOn r z || z67nOn r z))
    || (f 32 1 && !z27On r z) || (f 35 1 && !z59On r z) || (f 37 1 && !z81On r z) || (f 38 1 && !z49On r z)
    || (f 43 1 && !zBfOn r z) || (f 46 3 && !z79On r z) || (f 53 1 && zRod r z 52 == 0) || (f 57 1 && zDrMask r z == 0)

/-- An invalid condition of Table 5.12 holds. `adc` is the number of local analogue inputs by ST_ADC. -/
def zoneInvalid (adc : Nat) (r : Rods) (z : Nat) : Bool :=
  let mode67 := fun k on51 on50 => zRod r z k != 0 && ((!on51 && !on50) || (9 ≤ zRod r z k && !on51))
  let named := fun k (p : Nat → Bool) =>
    match zChannel r z k with
    | none => false
    | some cc => !p cc
  (zTwo r z 0 == 0 && !rodsOpen r (zoneIndex z 2) 57) || !zoneRanges r z || !zSlotOk r z 0 || !zSlotOk r z 2
    || (zSource r z 4 && zSource r z 2) || (zSource r z 2 && adc == 0)
    || ((z27On r z || z59On r z || z81On r z || z67pOn r z || z67nOn r z) && zTwo r z 2 == 0)
    || mode67 27 (z51pOn r z) (z50pOn r z) || mode67 28 (z51nOn r z) (z50nOn r z) || zOrphan r z
    || ((zBfOn r z || z79On r z) && !zHasBreaker r z)
    || named 49 (chIsOutput r) || named 50 (chIsOutput r) || named 51 (chIsOutput r)
    || named 52 (chIsInput r) || named 53 (chIsInput r) || named 54 (chIsInput r)

/-- Zone judgements (Table 5.11). -/
inductive Judge | absent | blocked | invalid | enabled
deriving DecidableEq, Repr

/-- The judgement of zone z of a committed image (Table 5.11). -/
def judge (adc : Nat) (r : Rods) (z : Nat) : Judge :=
  if rodStatus r (zoneIndex z 0) = 2 then .blocked
  else if zoneAbsentRods r z then .absent
  else if zoneInvalid adc r z then .invalid
  else .enabled

/-- The zone is judged Enabled in the image in force. -/
def zEnabled (s : State) (z : Nat) : Bool :=
  match s.plug.image with
  | some r => judge (adcInputs s) r z == .enabled
  | none => false

/-- The Enabled zones of an image, ascending. -/
def enabledZones (adc : Nat) (r : Rods) : List Nat := (List.range 256).filter (fun z => judge adc r z == .enabled)

/-- The close output of the zone conflicts with a trip output of an Enabled zone (Table 5.12, R788). -/
def closeConflict (adc : Nat) (r : Rods) (z : Nat) : Bool :=
  let c := namedChannels r (zChannel r z 51)
  c ≠ [] && (enabledZones adc r).any (fun y =>
    (namedChannels r (zChannel r y 49) ++ namedChannels r (zChannel r y 50)).any (c.contains ·))

/-- Building a committed image from a stable image against the earlier committed image (R155). -/
def buildZone (img : Image) (fresh : Rods) (old : Option Rods) (z : Nat) : Rods :=
  let idx := (List.range 60).map (zoneIndex z)
  if zoneFailed img fresh z then
    match old with
    | some o =>
      if rodStatus o (zoneIndex z 0) = 2 then idx.map (fun k => (k, 0x40#8))
      else idx.map (fun k => (k, BitVec.ofNat 8 (32 + rodCode o k)))
    | none => idx.map (fun k => (k, 0x40#8))
  else (idx.map (fun k => (k, BitVec.ofNat 8 (rodCode fresh k)))).filter (fun p => p.2 != 0)

/-- The new committed image (R155): rods 0 to 1,023 as read, then the zone blocks. -/
def buildImage (img : Image) (old : Option Rods) : Rods :=
  let fresh := imageRods img
  fresh.filter (fun p => p.1 < 1024) ++ ((List.range 256).map (buildZone img fresh old)).flatten

/-- The image in force, or an empty one while there is none (every setting then reads as unset). -/
def rods (s : State) : Rods := s.plug.image.getD []

/-- The rods of zone z differ between two images. -/
def zoneRodsDiffer (a b : Rods) (z : Nat) : Bool :=
  (List.range 60).any (fun k => Tab.get 0#8 a (zoneIndex z k) != Tab.get 0#8 b (zoneIndex z k))

/-- The global rows differ between two images. -/
def globalDiffer (a b : Rods) : Bool := a.filter (fun p => p.1 < 1024) != b.filter (fun p => p.1 < 1024)

/-- A zone that changes between two images: its rods or its judgement (R156, R207). -/
def zoneChanged (adc : Nat) (a b : Rods) (z : Nat) : Bool :=
  zoneRodsDiffer a b z || judge adc a z != judge adc b z

/-- Channels that an Enabled zone names in Z.BREAKER, Z.52B or Z.BLOCK. -/
def zoneInputs (adc : Nat) (r : Rods) : List Nat :=
  ((enabledZones adc r).map (fun z => [52, 53, 54].filterMap (zChannel r z))).flatten

/-- The input of G.ACK_INPUT, none where the role is ignored (R194, Table 21.1). -/
def ackInput (s : State) : Option Nat := (gAckInput (rods s)).filter (fun cc => !(zoneInputs (adcInputs s) (rods s)).contains cc)

/-- The input of G.SNAP_INPUT, none where the role is ignored (R194, Table 21.1). -/
def snapInput (s : State) : Option Nat :=
  (gSnapInput (rods s)).filter (fun cc => gAckInput (rods s) != some cc && !(zoneInputs (adcInputs s) (rods s)).contains cc)

/-- A global role of an input is ignored (R194, Table 21.1). -/
def globalRoleFault (s : State) : Bool :=
  (rodCode (rods s) 801 != 0 && (snapInput s).isNone) || (rodCode (rods s) 923 != 0 && (ackInput s).isNone)

end Sys2Proof.Machine
end

