-- ==== Sys2Proof/Machine/Flags.lean ====
section
/-! DEFINITION. What is computed from the state whenever it is shown: TimeQuality (R323), the fault table (Table 19.7),
block status words (Table 19.4), the pins (R731 to R733) and the fingerprints (R148). -/
namespace Sys2Proof.Machine

/-! The fault table (Table 19.7) -/

/-- Code of a row brought to the block the table prints: PORT-P0 for the ports, FIELD-A for FIELD-B, detail 0. -/
def faultRowCode (code : Nat) : Nat :=
  let c := code / 64 * 64
  let b := code / 1024
  if 7 ≤ b && b ≤ 9 then c - (b - 6) * 1024
  else if b = 15 then c - 1024
  else c

/-- Level, escalation ceiling and pins of the rows of Table 19.7 by block and class; the pins of the three rows that give
a pin "at Alarm" hold from Alarm up. -/
def faultTable : List (Nat × Nat × Nat × List Nat) :=
  [(0x0500, 2, 2, [4]), (0x0540, 2, 2, [4]), (0x0580, 1, 1, []), (0x05C0, 4, 4, []), (0x0600, 1, 1, []),
   (0x0640, 4, 4, []), (0x0680, 2, 2, []), (0x06C0, 4, 4, []), (0x0700, 1, 1, []), (0x0740, 4, 4, []),
   (0x0900, 2, 2, [7]), (0x0940, 2, 2, [7]), (0x0980, 2, 2, [7]), (0x09C0, 2, 2, [7]), (0x0A00, 2, 2, [7]),
   (0x0A40, 1, 1, [])] ++
  [(0x0D00, 2, 2, [1]), (0x0D40, 2, 2, [1]), (0x0D80, 2, 2, [1]), (0x0DC0, 1, 1, []), (0x0E00, 1, 2, [1]),
   (0x0E40, 2, 2, [1]), (0x0E80, 2, 2, [1]), (0x0EC0, 2, 2, [1]), (0x0F00, 2, 2, [1]), (0x0F40, 4, 4, [1]),
   (0x1100, 2, 2, [1]), (0x1140, 2, 2, [1]), (0x1180, 2, 2, [3]), (0x11C0, 4, 4, [])] ++
  [(0x1500, 2, 2, [4]), (0x1540, 2, 2, [4]), (0x1580, 2, 2, [4]), (0x15C0, 2, 2, [4]), (0x1600, 2, 2, [4]),
   (0x1640, 3, 3, [4]), (0x1680, 2, 2, [4]), (0x16C0, 2, 2, [4]), (0x1700, 2, 2, [4]), (0x1740, 2, 2, [4]),
   (0x1780, 2, 2, [4]), (0x1900, 2, 2, [2]), (0x1940, 2, 2, [2]), (0x1980, 2, 2, [2]), (0x19C0, 2, 2, [2]),
   (0x1A00, 2, 2, [2]), (0x1A40, 2, 2, [2])] ++
  [(0x2900, 2, 2, [5]), (0x2940, 2, 2, [5]), (0x2980, 1, 2, [5]), (0x29C0, 2, 2, [5]), (0x2D00, 3, 3, [2]),
   (0x2D40, 2, 2, [2]), (0x2D80, 2, 2, [2]), (0x2DC0, 2, 2, [2]), (0x2E00, 2, 2, [1]), (0x2E40, 4, 4, []),
   (0x3100, 4, 4, []), (0x3140, 4, 4, []), (0x3180, 4, 4, []), (0x31C0, 2, 2, [2]), (0x3200, 1, 1, [])] ++
  [(0x3500, 3, 3, [4]), (0x3540, 2, 2, [4]), (0x3580, 3, 3, []), (0x35C0, 3, 3, []), (0x3600, 2, 2, [3]),
   (0x3640, 2, 2, [3]), (0x3680, 2, 2, [3]), (0x36C0, 2, 2, [6]), (0x3700, 2, 2, [2]), (0x3740, 4, 4, []),
   (0x3900, 2, 2, [3]), (0x3940, 2, 2, [3]), (0x3980, 2, 2, [3]), (0x39C0, 2, 2, [3]), (0x3A00, 2, 3, [3]),
   (0x3A40, 2, 2, [3]), (0x3A80, 2, 2, [3]), (0x3AC0, 2, 3, [3]), (0x3B00, 2, 2, [3]), (0x3B40, 2, 2, [3]),
   (0x3B80, 2, 2, [4])] ++
  [(0x4100, 3, 3, []), (0x4140, 3, 3, []), (0x4180, 3, 3, []), (0x41C0, 3, 3, []), (0x4200, 2, 2, [4]),
   (0x4240, 1, 1, []), (0x4280, 1, 1, []), (0x42C0, 3, 3, []), (0x4500, 1, 2, [6]), (0x4540, 2, 2, [6]),
   (0x4580, 2, 2, [6]), (0x45C0, 2, 2, [6]), (0x4600, 4, 4, [6]), (0x4640, 2, 2, [6]), (0x4900, 2, 2, [6]),
   (0x4940, 2, 2, [6]), (0x4980, 2, 2, [6]), (0x49C0, 1, 2, [6]), (0x4A00, 2, 2, [6])] ++
  [(0x4D00, 1, 1, []), (0x4D40, 2, 2, [6]), (0x4D80, 2, 2, [6]), (0x5100, 2, 2, [2]), (0x5140, 2, 2, [2]),
   (0x5180, 4, 4, []), (0x51C0, 4, 4, []), (0x5500, 2, 2, [5]), (0x5540, 2, 2, [5]), (0x5580, 2, 2, [5]),
   (0x55C0, 2, 2, [5]), (0x5600, 2, 2, [5]), (0x5640, 2, 2, [5, 4]), (0x5680, 2, 2, [5, 4]), (0x56C0, 2, 2, [5]),
   (0x5700, 2, 2, [5]), (0x5740, 2, 2, [5]), (0x5780, 2, 2, [5]), (0x57C0, 1, 1, [5]), (0x5900, 2, 2, [2]),
   (0x5940, 2, 2, [2]), (0x5980, 2, 2, [2])]

/-- The row of a code: level, ceiling, pins. A code the table does not give counts as a Note without pins; no meaning
raises one. -/
def faultRow (code : Nat) : Nat × Nat × List Nat :=
  match faultTable.find? (fun r => r.1 == faultRowCode code) with
  | some r => r.2
  | none => (1, 1, [])

/-- Level at a raise (Table 19.7, with G.FO_TCS and G.FO_SFP). -/
def raiseLevel (s : State) (code : Nat) : Nat :=
  let c := faultRowCode code
  if c = 0x3A80 && gFoTcs (rods s) then 3
  else if c = 0x5900 && gFoSfp (rods s) then 1
  else (faultRow code).1

/-- The pins a fault names at a level (Table 19.7); ALM0 from Restrict up (R731). -/
def faultPins (code detail level : Nat) : List Nat :=
  let c := faultRowCode code
  let row :=
    if (c = 0x0E00 || c = 0x4500 || c = 0x49C0) && level < 2 then []
    else if c = 0x0640 then (if detail = 2 then [2] else if detail = 5 then [6] else [])
    else if c = 0x0680 then (if detail = 3 then [5] else if detail = 4 then [6] else if detail = 8 then [4] else [])
    else (faultRow code).2.2
  if 3 ≤ level then 0 :: row else row

/-- Rows whose cause is gone at an acknowledgement, that is, once the reaction is complete (R725). -/
def goneAtOnce (code : Nat) : Bool :=
  [0x0E00, 0x16C0, 0x45C0, 0x4640, 0x4900, 0x5600, 0x3680, 0x36C0, 0x0900, 0x4D40, 0x4D80].contains (faultRowCode code)

/-- The number under which a fault's key is kept (R722). -/
def keyNum (k : FaultKey) : Nat := k.code / 64 * 65536 + k.scope * 4096 + k.inst

/-- The record of a fault, none when it is Clear. -/
def faultGet (s : State) (k : FaultKey) : Option FaultRec :=
  match s.faults.recs.find? (fun p => p.1 == keyNum k) with
  | some p => some p.2
  | none => none

/-- The fault's cause is present (R720). -/
def causePresent (r : FaultRec) : Bool :=
  match r.phase with
  | .reacting => !r.causeGone
  | .present => true
  | .gone => false

/-- A fault of this key is not Clear. -/
def faultRaised (s : State) (k : FaultKey) : Bool := (faultGet s k).isSome

/-- A fault of this key stands with its cause present. -/
def faultStands (s : State) (k : FaultKey) : Bool :=
  match faultGet s k with
  | some r => causePresent r
  | none => false

/-- Shorthand for the key of a unit-scope fault. -/
def keyU (code : Nat) : FaultKey := { code := code, scope := 0, inst := 0 }

/-! Block status words and pins -/

/-- Block of a code. -/
def blockOf (code : Nat) : Nat := code / 1024

/-- The faults of a block that are not Clear. -/
def blockFaults (s : State) (b : Nat) : List FaultRec := (s.faults.recs.map (·.2)).filter (fun r => blockOf r.code == b)

/-- The status word of a block (Table 19.4). -/
def statusWord (s : State) (b : Nat) : Nat :=
  let l := blockFaults s b
  let level := (l.map (·.level)).foldl max 0
  let bit := fun (p : FaultRec → Bool) => if l.any p then 1 else 0
  level * 8192 + bit (fun r => r.phase == .reacting) * 4096
    + bit (fun r => r.phase != .present || !r.acked) * 2048 + bit (fun r => r.phase == .gone) * 1024
    + min l.length 63 * 16 + Tab.get 0 s.faults.seq b % 16

/-- ALMn is logically active (R731). -/
def almActive (s : State) (n : Nat) : Bool :=
  s.faults.recs.any (fun p => (faultPins p.2.code (p.2.code % 64) p.2.level).contains n)

/-- A Withdraw-level fault is raised. -/
def withdrawRaised (s : State) : Bool := s.faults.recs.any (fun p => p.2.level == 4)

/-- HEALTHY_OUT is logically active (R732). -/
def healthyOut (s : State) : Bool :=
  !withdrawRaised s && (match s.power.engine with
    | .withheld | .serving => true
    | .starting => s.power.laneTestPassed
    | _ => false)

/-- READY_OUT is logically active (R733). -/
def readyOut (s : State) : Bool := s.power.engine == .serving

/-- ALMn conducts (R53, R55): polarity by ST_ALMPOL once the straps are decided, else off. -/
def almConducts (s : State) (n : Nat) : Bool :=
  if !s.ident.decided then false
  else if strap s 10 == 7 then !almActive s n && (s.power.engine != .off && s.power.engine != .retention)
  else if strap s 10 == 1 then almActive s n
  else false

/-- Electrical state of a status pin (R53, R54, R88): a pin switched off in current limit does not conduct until it is retried. -/
def pinConducts (s : State) (p : StatusPin) : Bool :=
  !s.power.pinsOff.any (fun x => x.1 == p && decide (s.now < x.2)) && (match p with
    | .alm n => almConducts s n.val
    | .healthy => healthyOut s
    | .ready => readyOut s)

/-! Time (chapter 8) -/

/-- ClockFailure (R323). -/
def clockFailure (s : State) : Bool :=
  faultRaised s (keyU 0x0F40) || (match faultGet s { code := 0x1100, scope := 10, inst := 0 } with
    | some r => r.code % 64 == 0
    | none => false)

/-- The TimeQuality octet of a state (Table 8.5). -/
def timeqOctet (t : TimeState) (leapKnown failure : Bool) : Nat :=
  (match t with
    | .locked => 0x18
    | .tracking => 0x38
    | .holdover => 0x13
    | _ => 0x3F) + (if leapKnown then 0x80 else 0) + (if failure then 0x40 else 0)

/-- TIME code of a state (Table 15.6). -/
def timeCode (t : TimeState) : Nat :=
  match t with
  | .unsynchronised => 0
  | .acquiring => 1
  | .locked => 2
  | .tracking => 3
  | .holdover => 4
  | .freeRunning => 5

/-- The time state a TIME code names. -/
def timeOfCode (n : Nat) : TimeState :=
  match n with
  | 1 => .acquiring
  | 2 => .locked
  | 3 => .tracking
  | 4 => .holdover
  | 5 => .freeRunning
  | _ => .unsynchronised

/-- Rank of a time state (R330), higher first. -/
def timeRank (t : TimeState) : Nat :=
  match t with
  | .locked => 5
  | .tracking => 4
  | .holdover => 3
  | .acquiring => 2
  | .freeRunning => 1
  | .unsynchronised => 0

/-- A pair is formed, seen from this unit (R613): it is Standby, or Active with a Standby partner that is not absent. -/
def formed (s : State) : Bool :=
  s.pair.state == .standby || (s.pair.state == .active && !s.pair.absent && s.pair.accepted && s.pair.partnerState == 3)

/-- This unit leads time in a formed pair (R330): by the rank of the time states, the Active at a tie. A partner that does not set LEAD follows,
and reports this unit's own state while its TWIN runs (R331): its report then ranks nothing (log 129). -/
def timeLeads (s : State) : Bool :=
  if !s.time.partnerLead then true
  else if timeRank s.time.state = timeRank s.time.partnerState then s.pair.state == .active
  else decide (timeRank s.time.partnerState < timeRank s.time.state)

/-- The port's own state. -/
def portGet (s : State) (p : Port) : PortSt :=
  match p with
  | .p0 => s.ports.p0
  | .p1 => s.ports.p1
  | .s0 => s.ports.s0
  | .s1 => s.ports.s1

/-- Number of a port (Table 19.6). -/
def portNum (p : Port) : Nat :=
  match p with
  | .p0 => 0
  | .p1 => 1
  | .s0 => 2
  | .s1 => 3

/-- The port is in use (R238): P1 and the process ports by ST_LAN, both station ports always. -/
def portInUse (s : State) (p : Port) : Bool :=
  match p with
  | .p1 => !isSingleLan s
  | _ => true

/-- PTP on P0 or P1. -/
def ptpGet (s : State) (p1 : Bool) : PtpPort := if p1 then s.time.p1 else s.time.p0

/-- Insert into an ascending list. -/
def insertAsc (x : Int) : List Int → List Int
  | [] => [x]
  | y :: t => if x ≤ y then x :: y :: t else y :: insertAsc x t

/-- Median of up to five measurements; of an even number, the mean of the two middle ones (log 14). -/
def median (l : List Int) : Int :=
  let m := l.foldl (fun t x => insertAsc x t) []
  let n := m.length
  if n = 0 then 0
  else if n % 2 = 1 then m.getD (n / 2) 0
  else roundDiv (m.getD (n / 2 - 1) 0 + m.getD (n / 2) 0) 2

/-- The link delay of a port is valid (R314). -/
def delayValid (t : PtpPort) : Bool :=
  t.delays ≠ [] && t.completed.contains true && median t.delays ≤ 10000 * 65536 && t.soleNeeded == 0

/-- The station is eligible on P0 or P1 (R313). -/
def eligible (s : State) (p1 : Bool) : Bool :=
  let t := ptpGet s p1
  let p : Port := if p1 then .p1 else .p0
  (portGet s p).up && portInUse s p && t.masters.any (·.qualified) && delayValid t && t.syncOk

/-- The unit has a time base (Table 8.3). -/
def hasBase (t : TimeState) : Bool := t != .unsynchronised

/-- The carry link carries frames: at least on one lane, on which the TWIN exchanges go on (R621, log 93). -/
def carryRuns (s : State) : Bool := !s.pair.carryLost && (s.pair.lane0.up || s.pair.lane1.up)

/-- The TWIN slot runs (R331). -/
def twinRuns (s : State) : Bool :=
  formed s && carryRuns s && !timeLeads s && !eligible s false && !eligible s true && hasBase s.time.partnerState

/-- The time state and TimeQuality octet the unit reports (R323, R331). -/
def reportedTime (s : State) : TimeState := if twinRuns s then s.time.partnerState else s.time.state
def reportedTimeq (s : State) : Nat :=
  if twinRuns s then s.time.partnerTimeq.toNat else timeqOctet s.time.state s.time.leapKnown (clockFailure s)

/-- Reading of the counter as entries take it: seconds and nanoseconds (Table 17.3). -/
def counterTime (s : State) : Nat × Nat := (s.time.sec, s.time.ns)

/-- Sample time of an index at a rate, rounded to the nearest nanosecond (R308, R657). -/
def sampleTime (rate : Nat) (i : SIndex) : Nat × Nat :=
  let ns := (roundDiv (i.cnt * 1000000000) rate).toNat
  (i.sec + ns / 1000000000, ns % 1000000000)

/-- A sample index as an absolute count at a rate (R674). -/
def absIndex (rate : Nat) (i : SIndex) : Nat := i.sec * rate + i.cnt

/-- The second before and the second d after, of the 48-bit second field. -/
def secondBefore (sec : Nat) : Nat := (sec + 2 ^ 48 - 1) % 2 ^ 48
def secondAfter (sec d : Nat) : Nat := (sec + d) % 2 ^ 48

/-- The index n samples after i. -/
def addIndex (rate : Nat) (i : SIndex) (n : Nat) : SIndex :=
  ⟨(i.sec + (i.cnt + n) / rate) % 2 ^ 48, (i.cnt + n) % rate⟩

/-- The index with smpCnt c nearest to i, at most half a second off. -/
def nearIndex (rate : Nat) (i : SIndex) (c : Nat) : SIndex :=
  let d := (c + rate - i.cnt) % rate
  if 2 * d ≤ rate then addIndex rate i d else ⟨if c ≤ i.cnt then i.sec else secondBefore i.sec, c⟩

/-! Fingerprints (R148) -/

/-- The full fingerprint of an image. -/
def fullFp (r : Rods) : Nat := sha256 (rodOctets r)

/-- The published fingerprint in force, 0 while there is no image. -/
def publishedFp (s : State) : Nat :=
  match s.plug.image with
  | some r => fullFp r / 2 ^ 192
  | none => 0

/-- FP_STABLE: of the latest stable image (R148), 0 with none. -/
def stableFp (s : State) : Nat :=
  match s.plug.stable with
  | some img => fullFp (stableRods img) / 2 ^ 192
  | none => 0

/-- Engine code (Table 15.6). -/
def engineCode (e : EngineState) : Nat :=
  match e with
  | .starting => 1
  | .withheld => 2
  | .serving => 3
  | .withdrawn => 4
  | _ => 0

/-- Pair code (Table 16.1). -/
def pairCode (p : PairState) : Nat :=
  match p with
  | .solo => 0
  | .pairing => 1
  | .active => 2
  | .standby => 3
  | .shadow => 4
  | .rejoining => 5

/-- D0 to D10 is on and good (Table 3.2). -/
def domainGood (s : State) (d : Nat) : Bool := s.power.domOn.contains d && !s.power.domLost.contains d

/-- D5 holds MRAM and the record store (Table 3.2): nothing is written while it is lost. -/
def storeOn (s : State) : Bool := domainGood s 5

/-- The core runs: Starting, Withheld, Serving or Withdrawn, outside a reset (Table 1.6, R111). -/
def coreRuns (s : State) : Bool :=
  !s.power.inReset && (match s.power.engine with
    | .off | .retention => false
    | _ => true)

/-- A port delivers what it receives: its link is up, and it is in use (R41, R220, R236). -/
def rxOpen (s : State) (p : Port) : Bool := coreRuns s && (portGet s p).up && portInUse s p

/-- The unit protects (Table 1.8). -/
def serving (s : State) : Bool := s.power.engine == .serving

end Sys2Proof.Machine
end

