-- ==== Sys2Proof/Machine/Ops.lean ====
section
/-! DEFINITION. The operations the commands share: tallies, journal entries on their way to the queue (R657, R662, R666,
R667), the life of a fault (Table 19.3), snapshots (R670 to R673), the guarantee's conditions (R654) and the engine's
states (Table 1.7). -/
namespace Sys2Proof.Machine

/-- Core ticks in a second (CLK_CORE, 400 MHz). -/
def ticksPerSec : Nat := 400000000

/-- A meaning: the effect `f` on everything but the queue, with what leaves the block gathered anew. -/
def run (f : State → State) (s : State) : Host.Outcome State Fault Refusal :=
  .next { f { s with out := [] } with pending := s.pending }

/-- A meaning guarded by well-formed operands. -/
def runIf (ok : Bool) (f : State → State) (s : State) : Host.Outcome State Fault Refusal :=
  if ok then run f s else .fault .illFormed

/-- Something leaves the block. -/
def emit (s : State) (o : Output) : State := { s with out := s.out ++ [o] }

/-- A fresh value the spec leaves open (log 3). -/
def freshValue (s : State) : Nat := Config.freeValue s.free
/-- The state after a fresh value has been taken. -/
def tookFresh (s : State) : State := { s with free := s.free + 1 }

/-- Add n to a tally (R218): page, word (Table 15.7). -/
def tallyAdd (s : State) (page word n : Nat) : State :=
  { s with tally := Tab.put 0 s.tally (page * 64 + word) (Tab.get 0 s.tally (page * 64 + word) + BitVec.ofNat 32 n) }

/-- Read a tally. -/
def tallyGet (s : State) (page word : Nat) : Nat := (Tab.get 0 s.tally (page * 64 + word)).toNat

/-- Judge a tally at the end of an interval (R255, Table 17.12): intervals in succession with and without a rise. -/
def Rise.judge (r : Rise) (value : Nat) : Rise :=
  if value = r.last then { r with up := 0, quiet := r.quiet + 1 } else { last := value, up := r.up + 1, quiet := 0 }

/-! Journal entries -/

/-- CODE of an entry to which the spec gives none, in the block's own class and detail (log 13). -/
def ownCode (block kind : Nat) : Nat := block * 1024 + Config.entryLow kind % 1024

/-- Payload of an entry whose layout the spec does not give, at most 960 octets (log 13). -/
def ownPayload (kind : Nat) (content : List Nat) : List Byte := (Config.payloadLayout kind content).take 960

/-- No zone, no handle. -/
def none16 : Nat := 0xFFFF

/-- A unit entry: the time of its unit's counter, the latest index released (R657, R660). DESIGN CHOICE (log 126): its origin is the UID
of the straps last decided, all 0 before the first, also for an entry queued in Starting before the straps are decided. -/
def unitEntry (s : State) (code sev kind zone handle : Nat) (payload : List Byte) : Entry :=
  { code := code, sev := sev, pair := false, test := false, mono := !s.time.stepped, kind := kind, timeq := reportedTimeq s,
    sec := s.time.sec, ns := s.time.ns, idx := s.journal.latest, zone := zone, handle := handle, origin := sideUid s,
    fp := publishedFp s, payload := payload, fault := none }

/-- The octet agreed for an index (Table 16.8); of an index before those kept, the last one. -/
def agreedOctet (s : State) (i : SIndex) : Nat :=
  (((s.pair.agreedFrom.find? (fun p => !i.lt p.1)).map (·.2)).getD s.pair.agreed.2).toNat

/-- The TimeQuality octet of an index (R584, Table 17.3): the agreed one in a formed pair, else the unit's own. -/
def indexTimeq (s : State) (i : SIndex) : Nat := if formed s then agreedOctet s i else reportedTimeq s

/-- An octet is agreed for an index (Table 16.8). -/
def noteAgreed (s : State) (i : SIndex) (o : Byte) : State :=
  { s with pair := { s.pair with
    agreed := (i, o)
    agreedFrom := if (s.pair.agreedFrom.head?.map (·.2)) == some o then s.pair.agreedFrom else ((i, o) :: s.pair.agreedFrom).take 64 } }

/-- An entry of a sample index: the TimeQuality of that index, and the sample time, but for an entry of a lone unit that names no zone, which
takes the counter's reading (R657; DEDUCED for a twin outside a pair, log 150). -/
def indexEntry (s : State) (rate : Nat) (i : SIndex) (code sev kind zone handle : Nat) (test : Bool) (payload : List Byte) :
    Entry :=
  { code := code, sev := sev, pair := formed s, test := test, mono := !s.time.stepped, kind := kind,
    timeq := indexTimeq s i,
    sec := if !formed s && zone == none16 then s.time.sec else (sampleTime rate i).1,
    ns := if !formed s && zone == none16 then s.time.ns else (sampleTime rate i).2, idx := i, zone := zone, handle := handle,
    origin := sideUid s, fp := publishedFp s, payload := payload, fault := none }

/-- The holder at which an S3 entry waits: its zone, or 256 + its block (R662). -/
def entryHolder (e : Entry) : Nat := if e.zone < 256 then e.zone else 256 + blockOf e.code

/-- FLAGS of Table 17.3. -/
def entryFlags (e : Entry) : Nat :=
  e.sev * 64 + (if e.pair then 32 else 0) + (if e.test then 16 else 0) + (if e.mono then 8 else 0) + e.kind

/-- Octets 0 to 59 of an entry's header (Table 17.3). -/
def entryHeader (jseq prevCrc : Nat) (e : Entry) : List Byte :=
  octets 8 jseq ++ octets 2 e.code ++ octets 1 (entryFlags e) ++ octets 1 e.timeq ++ octets 6 e.sec ++ octets 4 e.ns
    ++ octets 6 e.idx.sec ++ octets 2 e.idx.cnt ++ octets 2 e.zone ++ octets 2 e.handle ++ octets 1 e.origin ++ zeros 1
    ++ octets 2 e.payload.length ++ zeros 2 ++ octets 8 e.fp ++ octets 4 prevCrc ++ zeros 8

/-- ECRC: CRC-32 over octets 0 to 59 followed by the payload (Table 17.3). -/
def entryCrc (jseq prevCrc : Nat) (e : Entry) : Nat := crc32 (entryHeader jseq prevCrc e ++ e.payload)

/-- The number that octets i to i + n - 1 of a list spell. -/
def field (l : List Byte) (i n : Nat) : Nat := ofOctets ((l.drop i).take n)

/-- An entry as the carry link brings it: the header from CODE on, then the payload (Table 16.4, JENTRY). -/
def carriedOf (jseq prevCrc : Nat) (e : Entry) : CarriedEntry :=
  { jseq := jseq, body := (entryHeader jseq prevCrc e).drop 8 ++ e.payload }

/-- The entry a carried body spells (Table 17.3). -/
def entryOf (c : CarriedEntry) : Entry :=
  let b := c.body
  let f := field b 2 1
  { code := field b 0 2, sev := f / 64, pair := f / 32 % 2 == 1, test := f / 16 % 2 == 1, mono := f / 8 % 2 == 1,
    kind := f % 4, timeq := field b 3 1, sec := field b 4 6, ns := field b 10 4, idx := ⟨field b 14 6, field b 20 2⟩,
    zone := field b 22 2, handle := field b 24 2, origin := field b 26 1, fp := field b 32 8,
    payload := (b.drop 52).take (field b 28 2), fault := none }

/-- Entries in the commit queue of a unit; at a Standby, also those sent for numbering (R661, R799). -/
def queueLoad (s : State) : List Entry := s.journal.queue ++ s.pair.unitEntries

/-- The header of a frame sent on a lane (Table 16.3): ACKN is the SEQ before the one expected there, ONELANE tells that a lane is down. -/
def carryTx (s : State) (lane : Fin 2) (seq : BitVec 16) (retx : Bool) : CarryTx :=
  { seq := seq, ackn := (if lane = 0 then s.pair.lane0.rxSeq else s.pair.lane1.rxSeq) - 1, retx := retx
    oneLane := !(s.pair.lane0.up && s.pair.lane1.up) }

/-- A message joins those that wait for a place: on the lane that remains, a lane 0 type goes before every lane 1 type (R621). -/
def waitBehind (l : List CarryMsg) (m : CarryMsg) : List CarryMsg :=
  if carryLane m = 0 then l.takeWhile (fun x => carryLane x == 0) ++ m :: l.dropWhile (fun x => carryLane x == 0) else l ++ [m]

/-- The 32 octets of a heartbeat body (Table 16.6). -/
def heartbeatOctets (b : HeartbeatBody) : List Byte :=
  [b.hformat, b.sideUid, b.engine, b.pair, b.hflags, b.timeq, b.time, 0#8] ++ octets 4 b.hbseq.toNat ++ octets 8 b.fp.toNat
    ++ octets 8 b.jseq.toNat ++ zeros 4

/-- The payload of a carry frame (Table 16.4): laid out where the spec gives it, else as the module's logic lays it out (log 159). -/
def carryPayload (m : CarryMsg) : List Byte :=
  match m with
  | .idle => []
  | .part _ o => o
  | .heartbeat b => heartbeatOctets b
  | .jcheck j crc => octets 8 j ++ octets 4 crc.toNat
  | m => Config.carryLayout m

/-- The octets of a carry frame (Table 16.3). -/
def carryFrame (h : CarryTx) (m : CarryMsg) : List Byte :=
  let p := carryPayload m
  let body := octets 1 (carryType m) ++ octets 1 ((if h.retx then 1 else 0) + (if h.oneLane then 2 else 0)) ++ octets 2 p.length
    ++ octets 2 h.seq.toNat ++ octets 2 h.ackn.toNat ++ p
  body ++ octets 4 (crc32 body)

/-- A carry frame as it leaves (R618). -/
def carryOut (lane : Fin 2) (h : CarryTx) (m : CarryMsg) : Output := .carry lane h m (carryFrame h m)

/-- A message in frames: a lane 1 type is cut into segments of at most 1,024 octets, or of 256 where both lanes' types share a lane (R618,
R621). -/
def carryParts (oneLane : Bool) (m : CarryMsg) : List CarryMsg :=
  let k := if oneLane then 256 else 1024
  let p := carryPayload m
  if carryLane m = 0 || p.length ≤ k then [m]
  else (List.range (ceilDiv p.length k)).map (fun i => .part (carryType m) ((p.drop (k * i)).take k))

/-- Send a carry frame on a lane: its SEQ, kept until acknowledged; beyond 64 it waits (R620). Lane 1 types use lane 0
while lane 1 is down, and the other way about (R621). -/
def carryPut (s : State) (lane : Fin 2) (m : CarryMsg) : State :=
  let use0 := if lane = 0 then (s.pair.lane0.up || !s.pair.lane1.up) else (s.pair.lane0.up && !s.pair.lane1.up)
  let l := if use0 then s.pair.lane0 else s.pair.lane1
  let put := fun (x : Lane) (t : State) =>
    if use0 then { t with pair := { t.pair with lane0 := x } } else { t with pair := { t.pair with lane1 := x } }
  if !l.up then s
  else if 64 ≤ l.unacked.length then put { l with waiting := waitBehind l.waiting m } s
  else emit (put { l with txSeq := l.txSeq + 1, unacked := l.unacked ++ [(l.txSeq, m)] } s)
    (carryOut (if use0 then 0 else 1) (carryTx s (if use0 then 0 else 1) l.txSeq false) m)

/-- Send a message, in as many frames as it takes. -/
def carrySend (s : State) (lane : Fin 2) (m : CarryMsg) : State :=
  (carryParts (!(s.pair.lane0.up && s.pair.lane1.up)) m).foldl (fun s p => carryPut s lane p) s

/-- The journals of the two units run together: the pair is formed, or a rejoin has passed its second step (R641, R661). -/
def sharesJournal (s : State) : Bool := formed s || (match s.pair.rejoin with
  | .agreeing _ => true
  | _ => false)

/-- The partner numbers this unit's entries (R641, R661). -/
def numberedByPartner (s : State) : Bool := s.pair.state == .standby || (s.pair.state == .rejoining && sharesJournal s)

/-- Place an accepted entry: the commit queue, or the numbering by the Active (R661). -/
def placeEntry (s : State) (e : Entry) : State :=
  if numberedByPartner s && !e.pair then
    carrySend { s with pair := { s.pair with unitEntries := s.pair.unitEntries ++ [e] } } 1 (.jentry (carriedOf 0 0 e))
  else { s with journal := { s.journal with queue := s.journal.queue ++ [e] } }

/-- Whether an entry finds its hold full (R689). -/
def entryLost (s : State) (e : Entry) : Bool :=
  e.sev == 3 && 64 ≤ (queueLoad s).length && 16 ≤ (s.journal.holds.filter (fun h => h.1 == entryHolder e)).length

/-- An entry meets the commit queue (R662): it enters, waits at its source, or is refused; a lost one is tallied. -/
def queueEntry (s : State) (e : Entry) : State :=
  let q := queueLoad s
  if e.sev < 3 then
    if 64 ≤ q.length || 48 ≤ (q.filter (fun x => x.sev < 3)).length then tallyAdd s 1 32 1 else placeEntry s e
  else if 64 ≤ q.length then
    if entryLost s e then tallyAdd s 1 41 1
    else { s with journal := { s.journal with holds := s.journal.holds ++ [(entryHolder e, e)] } }
  else placeEntry s e

/-- The bucket key of an entry (R666). -/
def bucketKey (e : Entry) : Nat := e.code * 65536 + e.zone

/-- The depth of an entry's bucket (R666, G.RLv_DEPTH). -/
def bucketDepth (s : State) (e : Entry) : Nat :=
  match gDepthOf (rods s) (blockOf e.code) with
  | some d => d
  | none => if e.sev = 2 then 16 else 8

/-- Entries the limiter never limits (R666); pair entries are limited by the Active alone (R667). -/
def unlimited (s : State) (e : Entry) : Bool :=
  e.sev == 3 || e.code == 0x4480 || (s.power.engine == .withdrawn && (blockOf e.code == 1 || blockOf e.code == 2))

/-- A suppression summary (Table 17.4) for a key with what its bucket has counted. -/
def summaryEntry (s : State) (code zone : Nat) (b : Bucket) : Entry :=
  unitEntry s 0x4480 b.sev 3 zone none16
    (octets 2 code ++ octets 2 zone ++ octets 4 (min b.suppressed (2 ^ 32 - 1)) ++ octets 6 b.firstSec ++ octets 4 b.firstNs
      ++ octets 6 b.lastSec ++ octets 4 b.lastNs)

/-- Rate limiting (R666, R667): an entry takes a token or is suppressed and counted; the key's summary goes ahead. -/
def limitEntry (s : State) (e : Entry) : State :=
  if unlimited s e then queueEntry s e
  else
    let k := bucketKey e
    let b := Tab.get {} s.journal.buckets k
    let put := fun (x : Bucket) (t : State) => { t with journal := { t.journal with buckets := Tab.put {} t.journal.buckets k x } }
    if bucketDepth s e ≤ b.used then
      put { b with suppressed := b.suppressed + 1, sev := e.sev, lastSec := e.sec, lastNs := e.ns,
                   firstSec := if b.suppressed = 0 then e.sec else b.firstSec,
                   firstNs := if b.suppressed = 0 then e.ns else b.firstNs } s
    else
      let s1 := put { used := b.used + 1, sev := e.sev } s
      queueEntry (if b.suppressed = 0 then s1 else queueEntry s1 (summaryEntry s1 e.code e.zone b)) e

/-- A block queues an entry: in Withdrawn only POWER and SEAL (Table 1.8); a Standby holds its pair entries (R661). -/
def submitEntry (s : State) (e : Entry) : State :=
  if s.power.engine == .withdrawn && !(blockOf e.code == 1 || blockOf e.code == 2) then s
  else if e.pair && s.pair.state == .standby then { s with pair := { s.pair with pairEntries := s.pair.pairEntries ++ [e] } }
  else limitEntry s e

/-! Snapshots of unit quantities (R670 to R673) -/

/-- The codes of the unit groups U1 to U4 (R671). -/
def unitGroup (g : Nat) : List Nat :=
  match g with
  | 0 => [0x80, 0x81, 0x82, 0x83]
  | 1 => [0x84, 0x85, 0x86, 0x87]
  | 2 => (List.range 16).map (0xA0 + ·)
  | _ => (List.range 16).map (0xB0 + ·)

/-- The codes of a unit template, at most 24 (R671). -/
def unitTemplate (n : Nat) : List Nat :=
  if n = 16 then unitGroup 0 ++ unitGroup 1
  else (((List.range 4).filter (fun g => (n - 16) / 2 ^ g % 2 == 1)).map unitGroup).flatten.take 24

/-- CURR of a channel, in 0.5 mA, from its last valid upstream frame (Table 14.3). -/
def chCurr (s : State) (cc : Nat) : Nat :=
  match (Tab.get {} s.field.ch cc).up with
  | some w => w.toNat / 2 ^ 32 % 2 ^ 16
  | none => 0

/-- Pages that hold entries, and the free page count (R655, R668). -/
def freePages (s : State) : Nat := 8192 - s.journal.pages.length

/-- A supply in mV as 2^-8 V (Table 17.7); the rounding is not stated (log 4). -/
def supplyWord (mv : Nat) : Nat := (256 * mv + (if 256 * mv % 1000 != 0 && Config.roundUp (256 * mv) 1000 then 999 else 0)) / 1000

/-- The word and flag octet of a unit quantity (Tables 17.7, 17.8); "no source" where nothing gives it. -/
def unitQuantity (s : State) (code : Nat) : Int × Nat :=
  if code = 0x80 then
    match s.time.selected with
    | some (p1, _) => (match (ptpGet s p1).offset with
      | some o => (o, 0)
      | none => (0, 0x80))
    | none => (0, 0x80)
  else if code = 0x81 then (s.reck.clk.u + s.reck.twin.u, 0)
  else if code = 0x82 then (s.reck.ovenErr, 0)
  else if code = 0x83 then (timeCode (reportedTime s) * 256 + reportedTimeq s, 0)
  else if code = 0x84 then (supplyWord s.field.a.vf, 0)
  else if code = 0x85 then (supplyWord s.field.b.vf, 0)
  else if code = 0x86 then (freePages s, 0)
  else if code = 0x87 then (s.journal.records.length, 0)
  else (chCurr s (code - 0xA0), if (Tab.get {} s.field.ch (code - 0xA0)).up.isSome then 0 else 0x80)

/-- A quantity in a snapshot payload (R673). -/
def snapQuantity (code : Nat) (w : Int × Nat) : List Byte := octets 1 code ++ octets 1 w.2 ++ [0#8] ++ octets 5 (word40 w.1)

/-- Payload of a snapshot (R673): set, template, trigger bit and count, each two octets (log 41). -/
def snapPayload (set template trigger : Nat) (qs : List (Nat × (Int × Nat))) : List Byte :=
  octets 2 set ++ octets 2 template ++ octets 2 trigger ++ octets 2 qs.length
    ++ (qs.map (fun q => snapQuantity q.1 q.2)).flatten

/-- Snapshot sets whose trigger bit t is enabled and whose template is a unit template (R672). -/
def snapSets (r : Rods) (t : Nat) (unit : Bool) : List Nat :=
  (List.range 16).filter (fun x => gSnapSet r x != 0 && gSnapTrig r x / 2 ^ t % 2 == 1 && (decide (16 ≤ gSnapSet r x) == unit))

/-- Unit snapshots of a trigger at an index (R672, R673): S2 when an S3 event triggers them, else S1; once per index and trigger. -/
def unitSnapshots (s : State) (t : Nat) (i : SIndex) : State :=
  if s.journal.snapAt.contains (t, i) then s
  else
  let s := { s with journal := { s.journal with snapAt := ((t, i) :: s.journal.snapAt).take 64 } }
  (snapSets (rods s) t true).foldl (fun s x =>
    let n := gSnapSet (rods s) x
    submitEntry s (unitEntry s (0x4440 + x) (if t = 0 then 2 else 1) 1 none16 none16
      (snapPayload x n t ((unitTemplate n).map (fun c => (c, unitQuantity s c)))))) s

/-! Faults (chapter 19) -/

/-- Severity of a fault entry (R736, Table 19.1). -/
def faultSev (event level : Nat) : Nat :=
  if event ≥ 4 then 1 else if level = 1 then 1 else if level = 4 then 3 else 2

/-- Store a fault record. -/
def faultPut (s : State) (k : FaultKey) (r : FaultRec) : State :=
  { s with faults := { s.faults with recs := Tab.insert s.faults.recs (keyNum k) r } }

/-- SEQ of the block's status word, + 1 modulo 16 (Table 19.4). -/
def faultSeq (s : State) (k : FaultKey) : State :=
  let b := blockOf k.code
  { s with faults := { s.faults with seq := Tab.put 0 s.faults.seq b ((Tab.get 0 s.faults.seq b + 1) % 16) } }

/-- The entry of a fault event (R736, Table 19.5); RAISEJSEQ is the record's at the commit (log 42). -/
def faultEntry (s : State) (k : FaultKey) (r : FaultRec) (event : Nat) (data : List Byte) : Entry :=
  { unitEntry s r.code (faultSev event r.level) 0 (if r.scope = 1 then r.inst else none16) r.handle
      (octets 1 event ++ octets 1 r.level ++ octets 1 r.scope ++ [0#8] ++ octets 2 r.inst ++ octets 2 r.merges
        ++ octets 8 r.raiseJseq ++ (data ++ zeros 16).take 16) with fault := some k }

/-- The entries that waited for the partner's number return to the unit's own commit queue (R661). -/
def reclaimEntries (s : State) : State :=
  { s with
    journal := { s.journal with queue := s.journal.queue ++ s.pair.pairEntries ++ s.pair.unitEntries }
    pair := { s.pair with pairEntries := [], unitEntries := [] } }

/-- A fault moves to Reacting, or ends, with an entry (Table 19.3). -/
def reactPlain (s : State) (k : FaultKey) (r : FaultRec) (event : Nat) (data : List Byte) : State :=
  submitEntry (faultSeq (faultPut s k r) k) (faultEntry s k r event data)

/-- A fault's condition arises (Table 19.3), with `re` moving it to Reacting. -/
def ariseWith (re : State → FaultKey → FaultRec → Nat → List Byte → State) (s : State) (k : FaultKey) (detail handle : Nat)
    (data : List Byte) : State :=
  let code := k.code / 64 * 64 + detail
  match faultGet s k with
  | none =>
    re s k { code := code, scope := k.scope, inst := k.inst, level := raiseLevel s k.code, phase := .reacting, acked := false,
             causeGone := false, retest := false, merges := 0, raiseJseq := 0, handle := handle } 1 data
  | some r =>
    let again := { r with code := code, phase := .reacting, acked := false, causeGone := false, retest := false }
    let merged := { r with code := code, merges := min (r.merges + 1) 65535, causeGone := false, retest := false }
    -- "—" in Table 19.7 is the level of the row, which stays that of the raise (R741)
    let ceiling := if (faultRow k.code).2.1 = (faultRow k.code).1 then r.level else (faultRow k.code).2.1
    let up := if r.level < ceiling then re s k { again with level := r.level + 1 } 2 data else re s k again 3 data
    if r.level = 4 then s
    else
      match r.phase with
      | .reacting => faultPut s k merged
      | .present =>
        if r.acked then re s k again 3 data
        else if r.level < ceiling then up
        else faultPut s k merged
      | .gone => up

/-- The S3-lost fault of an entry (R689); its own entry is S2 and is never lost. -/
def raiseLost (s : State) (e : Entry) : State :=
  ariseWith reactPlain s (if e.zone < 256 then { code := 0x45C0, scope := 1, inst := e.zone } else keyU 0x45C0) 0 none16 []

/-- A block queues an entry; one that is lost raises 0x45C0 with its zone, or with the unit (R689). -/
def journalEntry (s : State) (e : Entry) : State :=
  let lost := entryLost s e && (!e.pair || s.pair.state != .standby) && s.power.engine != .withdrawn
  let s := submitEntry s e
  if lost then raiseLost s e else s

/-- A fault becomes Clear. -/
def faultClear (s : State) (k : FaultKey) (r : FaultRec) : State :=
  submitEntry (faultSeq { s with faults := { s.faults with recs := Tab.erase s.faults.recs (keyNum k) } } k)
    (faultEntry s k r 5 [])

/-- The cause of a fault has gone (Table 19.3). -/
def causeGone (s : State) (k : FaultKey) : State :=
  match faultGet s k with
  | none => s
  | some r =>
    if r.level = 4 then s
    else
      match r.phase with
      | .reacting => faultPut s k { r with causeGone := true }
      | .present =>
        if r.acked then faultClear s k r
        else
          let r' := { r with phase := .gone }
          reactPlain s k r' 4 []
      | .gone => s

/-- A fault of unit scope loses its cause. -/
def causeGoneU (s : State) (code : Nat) : State := causeGone s (keyU code)

/-! A unit that becomes unfit (Tables 1.7, 9.4, 16.2) -/

/-- A COIL slot. -/
def coilGet (s : State) (cc : Nat) : Coil := Tab.get {} s.reck.coil cc
def coilPut (s : State) (cc : Nat) (c : Coil) : State := { s with reck := { s.reck with coil := Tab.put {} s.reck.coil cc c } }

/-- The slot goes to Idle (Table 9.4); its following-error fault loses its cause (Table 9.5). -/
def coilIdle (s : State) (cc : Nat) : State := causeGone (coilPut s cc { due := (coilGet s cc).due }) { code := 0x1180, scope := 10, inst := 4 + cc }

/-- Every COIL slot goes to Idle: the engine is not Serving (Table 9.4). -/
def coilsIdle (s : State) : State := (List.range 32).foldl coilIdle s

/-- The TWIN slot has stopped (R353): its integrator is handed to CLK when a port has become eligible, and cleared; its timer is held
(R350), and its following-error fault loses its cause (Table 9.5). -/
def twinStopped (s : State) (handover : Bool) : State :=
  let clk := if handover then
      { s.reck.clk with i := clampInt (-32767 * 2 ^ 15) (32767 * 2 ^ 15) (s.reck.clk.i + s.reck.twin.i) }
    else s.reck.clk
  causeGone { s with reck := { s.reck with clk := clk, twin := { i := 0, u := 0, fe := s.reck.twin.fe } } }
    { code := 0x1140, scope := 10, inst := 2 }

/-- The ports on which a twin's pair-node frames leave (R635): its own LAN while formed; both at an Active otherwise; those queued before the unit
withdrew, on the ports of then (R37, R607). -/
def pairPorts (s : State) : List Port :=
  if s.pair.state == .active && (!formed s || s.pair.bothLans) then [.p0, .p1]
  else if formed s then (if side s = 1 then [.p0] else [.p1])
  else if s.power.engine == .withdrawn then s.pair.leftPorts
  else []

/-- The state Withdrawn, in a twin Pairing (Tables 1.7, 16.2): a commit in progress is cancelled (R166), the hold stops being valid (R150),
zone retransmissions end (Table 1.8, R607). -/
def enterWithdrawn (s : State) : State :=
  let s := reclaimEntries s
  { s with
    power := { s.power with engine := .withdrawn }
    pair := { s.pair with state := if s.pair.state == .solo then .solo else .pairing, accepted := false, hello := none, swap := .none, rejoin := .none, leftPorts := pairPorts s }
    plug := { s.plug with
      -- a commit that has been decided is neither waiting nor being written (R166): it takes effect at its boundary
      commit := (match s.plug.commit with
        | .decided n => .decided n
        | _ => .none)
      hold := (match s.plug.hold with
        | .timing _ n => .timing false n
        | h => h) }
    pub := { s.pub with pubs := s.pub.pubs.map (fun p => if p.1 < 256 then (p.1, { p.2 with running := false }) else p) } }

/-- A unit becomes unfit: Withdrawn, its COIL slots idle (Table 9.4), its TWIN slot stopped (R331, R353). -/
def withdraw (s : State) : State :=
  let twin := twinRuns s
  let s := coilsIdle (enterWithdrawn s)
  if twin then twinStopped s false else s

/-- A fault moves to Reacting; at Withdraw, the unit snapshots of the S3 event and the state Withdrawn follow
(R672, R721). -/
def react (s : State) (k : FaultKey) (r : FaultRec) (event : Nat) (data : List Byte) : State :=
  if r.level = 4 then
    let s := journalEntry (faultSeq (faultPut s k r) k) (faultEntry s k r event data)
    if coreRuns s then withdraw (unitSnapshots s 0 s.journal.latest) else s
  else reactPlain s k r event data

/-- A fault's condition arises (Table 19.3). -/
def arise (s : State) (k : FaultKey) (detail handle : Nat) (data : List Byte) : State := ariseWith react s k detail handle data

/-- A fault of unit scope arises. -/
def ariseU (s : State) (code detail : Nat) : State := arise s (keyU code) detail none16 []

/-- A condition is judged: it arises where it was not standing, and its cause goes where it was. -/
def judgeFault (s : State) (k : FaultKey) (detail handle : Nat) (present : Bool) : State :=
  if present then (if faultStands s k then s else arise s k detail handle []) else (if faultStands s k then causeGone s k else s)

/-- A fault arises and its cause goes in the same tick (R740): the cause-gone is tested again in the next tick. -/
def ariseAndGone (s : State) (k : FaultKey) (detail : Nat) (data : List Byte) : State :=
  let s := arise s k detail none16 data
  match faultGet s k with
  | some r => faultPut s k { r with retest := true }
  | none => s

/-- The reaction of a fault is complete (R723, R725, Table 19.3). -/
def reactionComplete (s : State) (k : FaultKey) : State :=
  match faultGet s k with
  | none => s
  | some r =>
    if r.level = 4 || r.phase != .reacting then s
    else if r.causeGone then faultSeq (faultPut s k { r with phase := .gone }) k
    else
      let s := faultPut s k { r with phase := .present, acked := false }
      if goneAtOnce k.code then causeGone s k else s

/-- An accepted acknowledgement acts on one fault (Table 19.3). -/
def ackFault (s : State) (k : FaultKey) : State :=
  match faultGet s k with
  | none => s
  | some r =>
    if r.level = 4 then s
    else
      match r.phase with
      | .reacting => s
      | .present => faultPut s k { r with acked := true }
      | .gone => faultClear s k r

/-- The key a record stands under. -/
def recKey (r : FaultRec) : FaultKey := { code := r.code / 64 * 64, scope := r.scope, inst := r.inst }

/-- An acknowledgement is accepted from a source: 0 for ACK_IN, 1 + n for channel Fn (R729, R730). -/
def acceptAck (s : State) (source : Nat) : State :=
  match s.power.engine with
  | .withheld | .serving | .withdrawn =>
    let s := (s.faults.recs.map (fun p => recKey p.2)).foldl ackFault s
    submitEntry { s with field := { s.field with ackTo := s.now + 400000 } }
      (unitEntry s 0x04C0 1 0 none16 none16 (octets 1 source ++ zeros 7))
  | _ => s

/-! The delivery guarantee (R654) -/

/-- Whether condition c (1 to 7) is in force (R654). -/
def guaranteeCondition (s : State) (c : Nat) : Bool :=
  match c with
  | 1 => (s.pair.state == .active || s.pair.state == .standby || s.pair.state == .shadow || s.pair.state == .rejoining)
      && (s.pair.carryLost || s.pair.busSilent || s.pair.absent)
  | 2 => s.pair.state == .shadow
  | 3 => s.pair.state == .rejoining
  | 4 => s.pair.split
  | 5 => faultStands s (keyU 0x56C0)
  | 6 => faultRaised s (keyU 0x4A00)
  | 7 => faultStands s (keyU 0x4580)
  | _ => false

/-- Guarantee entry (R654, Table 17.4). -/
def guaranteeEntry (s : State) (restored : Bool) (c map : Nat) : Entry :=
  unitEntry s (if restored then 0x4482 else 0x4481) 2 0 none16 none16 (octets 1 c ++ octets 1 map ++ zeros 6)

/-- Compare condition c with the bitmap kept, and journal its beginning, or the end of the last one (R654). -/
def syncCondition (s : State) (c : Nat) : State :=
  let now := guaranteeCondition s c
  let was := s.journal.suspended.toNat / 2 ^ (c - 1) % 2 == 1
  if now == was then s
  else
    let map := if now then s.journal.suspended.toNat + 2 ^ (c - 1) else s.journal.suspended.toNat - 2 ^ (c - 1)
    let s := { s with journal := { s.journal with suspended := BitVec.ofNat 8 map } }
    if now then submitEntry s (guaranteeEntry s false c map)
    else if map = 0 then submitEntry s (guaranteeEntry s true c map)
    else s

/-- Journal every guarantee condition that has begun or ended (R654). -/
def syncGuarantee (s : State) : State := if coreRuns s then [1, 2, 3, 4, 5, 6, 7].foldl syncCondition s else s

/-! Engine states (Table 1.7) -/

/-- Every core block at its state after an entry to Starting (R108, R218, R302, R306, R371, R411, R452, R497, R744):
what D0, MRAM, the fuses, the NAND store and the field side hold stays. -/
def startCore (s : State) : State :=
  { s with
    ident := { s.ident with decided := false }
    plug := { present := s.plug.present, hold := (if s.plug.hold = .idle then .idle else .spent) }
    faults := {}
    journal := { s.journal with
      queue := [], holds := [], buckets := [], latest := ⟨0, 0⟩, suspended := 0, stalled := false, ring := [], snapAt := [], snapDue := [] }
    ports := {}
    streams := {}
    time := {}
    reck := {}
    pipes := []
    pipesY := []
    zones := []
    waits := []
    adc := { cal1 := s.adc.cal1, cal2 := s.adc.cal2 }
    field := { s.field with
      ackTo := 0
      -- the stop of a clock coupler ends with its fault (Table 14.8)
      a := { s.field.a with stopped := false, halted := false }
      b := { s.field.b with stopped := false, halted := false }
      ch := s.field.ch.map (fun p => (p.1, { p.2 with
        fseq := 0, holdDown := false, up := none, upRun := 0, coupler := false, state := false, invalid := false,
        overLoadAt := 0, overTempAt := 0, readbackAt := 0 })) }
    pub := {}
    pair := { state := if isTwin s then .pairing else .solo }
    recallSvc := {}
    tally := []
    refusedRise := {}
    intakeRise := {}
    ringErrAt := none }

/-- The fuse copies as they are read in Starting (R83, R87). DESIGN CHOICE (log 126): the origin of the fault's entry is as `unitEntry`
says. -/
def judgeFuses (s : State) : State :=
  match s.ident.fuse1.ok, s.ident.fuse2.ok with
  | false, false => ariseU s 0x05C0 0
  | true, true => if s.ident.fuse1 = s.ident.fuse2 then s else ariseU s 0x0580 0
  | _, _ => s

/-- Entry to Starting (R64, R103, R112): the hold-up store as just measured is judged (R126), the fuse copies are read (R83, R87). -/
def enterStarting (s : State) (cause : StartCause) (domains : List Nat) : State :=
  -- the heater holds its last duty while D6 stays up (R371)
  let duty := if (cause == .nreset || cause == .internalRestart) && domainGood s 6 then s.reck.oven.u else 0
  let s := startCore s
  let s := { s with
    reck := { s.reck with oven := { i := duty * 2 ^ 15, u := duty, fe := 0 } }
    adc := { s.adc with d7At := s.now, refAt := s.now } }
  let s := { s with power := { s.power with
    engine := .starting, startCause := cause, step := .straps, withheldBy := none, recommitted := false, laneTestPassed := false, inReset := false,
    domOn := domains, domLost := [], pllLocked := true, retentionErrors := 0, retentionAt := 0, pinsOff := [] } }
  judgeFuses (if s.power.holdUpOk then s else ariseU s 0x4A00 0)

/-- The hold on COMMIT_IN is timed from the end of Starting when the contact is asserted (R121). -/
def holdAfterStarting (s : State) : State :=
  match s.plug.hold with
  | .idle => s
  | _ => { s with plug := { s.plug with hold := .timing (s.plug.present && s.plug.stable.isSome) 0 } }

/-- Starting ends in Withheld for a cause (Table 1.7). -/
def enterWithheld (s : State) (c : WithheldCause) : State :=
  let s := { s with power := { s.power with engine := .withheld, withheldBy := some c, recommitted := false } }
  holdAfterStarting s

end Sys2Proof.Machine
end

