-- ==== Sys2Proof/Machine/Words.lean ====
section
/-! DEFINITION. The words of Table 10.1 as the zones take them (R386, R388, R414), with the flags of Table 10.4; zone
measurands (R587) and zone snapshot quantities (Table 17.7). -/
namespace Sys2Proof.Machine

/-- Flag bits of a word (Table 17.8). -/
def fINV : Nat := 1
def fTST : Nat := 2
def fSUB : Nat := 4
def fQST : Nat := 8
def fDER : Nat := 16
def fOVF : Nat := 32
def fNOANG : Nat := 64

/-- A flag octet carries a flag. -/
def hasFlag (fl f : Nat) : Bool := Nat.land fl f != 0

/-- Key of a position and absolute index in a record's own copies (R675). -/
def copyKey (pos a : Nat) : Nat := pos * 2 ^ 64 + a

/-- Index i has ended: every admitted SV slot and local stream has released or missed it (R791). -/
def indexEnded (s : State) (i : SIndex) : Bool :=
  s.streams.sv.all (fun p => p.2.phase != .admitted || i.lt p.2.due)

/-- Pipeline state of a position: SV slot, or 1,024 and 1,025 for LS0 and LS1. -/
def pipeGet (s : State) (pos : Nat) : Pipe := Tab.get {} s.pipes pos
def pipePut (s : State) (pos : Nat) (p : Pipe) : State := { s with pipes := Tab.put {} s.pipes pos p }

/-- The memories of a position in both lanes. -/
def lanesPut (s : State) (pos : Nat) (x y : Pipe) : State :=
  { s with pipes := Tab.put {} s.pipes pos x, pipesY := Tab.put {} s.pipesY pos y }

/-- The state of a position cleared in both lanes (R404); what is left tells when it last showed OVF (Table 10.6). -/
def pipeClear (s : State) (pos : Nat) : State := lanesPut s pos { ovfAt := (pipeGet s pos).ovfAt } {}

/-! Quantities: 0 to 2 IA IB IC, 3 IN, 4 to 6 VA VB VC, 7 VN, 8 3I0, 9 3V0, 10 to 12 I1 I2 I0, 13 to 15 V1 V2 V0,
16 to 18 VAB VBC VCA, 19 frequency. Kinds: 0 sample, 1 to 4 full-cycle re, im, magnitude, angle, 5 to 8 half-cycle,
9 peak, 10 rms, 11 frequency. -/

/-- The quantity is a current. -/
def isCurrent (q : Nat) : Bool := q ≤ 3 || q == 8 || (10 ≤ q && q ≤ 12)

/-- A word of a table of words; one not yet formed is invalid, the frequency at its nominal value (R391). -/
def wordIn (fnom : Nat) (t : Tab (Int × Nat)) (q kind : Nat) : Int × Nat :=
  match t.find? (fun x => x.1 == q * 16 + kind) with
  | some x => x.2
  | none => (if q = 19 then ((fnom * 2 ^ 24 : Nat) : Int) else 0, fINV)

/-- The newest word of a quantity and kind of a position, with its flags. -/
def pipeWord (s : State) (pos q kind : Nat) : Int × Nat := wordIn (fNom s) (pipeGet s pos).words q kind

/-- The newest sample of a position, as later indices keep it. -/
def Pipe.newest (p : Pipe) : PastRec :=
  { idx := p.idx, source := p.source, fr := p.fr, blocked := p.blocked, words := p.words, filled := p.filled }

/-- A position as it stood at one of its samples. -/
def Pipe.upTo (p : Pipe) (r : PastRec) : Pipe :=
  if p.idx = r.idx then p
  else { p with idx := r.idx, source := r.source, fr := r.fr, blocked := r.blocked, words := r.words, filled := r.filled
                win := p.win.dropWhile (fun x => x.idx != r.idx), past := (p.past.dropWhile (fun x => x.idx != r.idx)).tail }

/-- What a part of the machine does, seen by it at a sample of a position. -/
def atSample (s : State) (pos : Nat) (r : PastRec) (f : State → State) : State :=
  { f { s with pipes := Tab.put {} s.pipes pos ((pipeGet s pos).upTo r) } with pipes := s.pipes }

/-- The local analogue section runs: D7 good and the straps decided for it (step 5 of Table 3.3, R532). -/
def adcRuns (s : State) : Bool := coreRuns s && domainGood s 7 && s.ident.decided && adcInputs s != 0

/-- A stream position delivers samples: an admitted SV slot, or a local stream. -/
def posRuns (s : State) (pos : Nat) : Bool :=
  if pos < 1024 then (Tab.get {} s.streams.sv pos).phase == .admitted else adcRuns s

/-- The sample of a position at an index, where it has been formed and is kept (R445, log 31). -/
def sampleAt (s : State) (pos : Nat) (i : SIndex) : Option PastRec :=
  ((pipeGet s pos).newest :: (pipeGet s pos).past).find? (fun x => x.idx == i)

/-- The sample of a zone's voltage stream at the index of its main stream; with no main stream, its newest (R445). -/
def voltSample (s : State) (z : Nat) : Option PastRec :=
  match zVolt (rods s) z, zMain (rods s) z with
  | some pos, some main => sampleAt s pos (pipeGet s main).idx
  | some pos, none => some (pipeGet s pos).newest
  | none, _ => none

/-- Negation of a word of a kind: parts and samples change sign, angles turn by half, magnitudes stay. -/
def negWord (kind : Nat) (v : Int) : Int :=
  if kind = 4 || kind = 8 then (v + 2 ^ 40) % 2 ^ 40 - 2 ^ 39
  else if kind = 3 || kind = 7 || kind = 9 || kind = 10 then v
  else -v

/-- A word as zone z takes it: CT polarity reversal negates currents (R388). -/
def zoneWord (s : State) (z q kind : Nat) (w : Int × Nat) : Int × Nat :=
  if isCurrent q && zSource (rods s) z 0 then (negWord kind w.1, w.2) else w

/-- The neutral current of a zone (R414) and its residual voltage. -/
def zNeutral (r : Rods) (z : Nat) : Nat := if zSource r z 1 then 3 else 8
def zResidual (r : Rods) (z : Nat) : Nat := if zSource r z 3 then 7 else 9

/-- A word of the main stream, and of the voltage stream at the main stream's index, invalid where that has not been formed (R445, log 31);
with no stream, no source. -/
def mainWord (s : State) (z q kind : Nat) : Int × Nat :=
  match zMain (rods s) z with
  | some pos => zoneWord s z q kind (pipeWord s pos q kind)
  | none => (0, 0x80)
def voltWord (s : State) (z q kind : Nat) : Int × Nat :=
  match zVolt (rods s) z with
  | none => (0, 0x80)
  | some pos => zoneWord s z q kind (match voltSample s z with
    | some x => wordIn (fNom s) x.words q kind
    | none => let w := pipeWord s pos q kind; (w.1, w.2 ||| fINV))

/-- A word is invalid for the zone: INV, or TST outside test mode (Table 10.4). -/
def badFlags (test : Bool) (fl : Nat) : Bool := hasFlag fl 0x80 || hasFlag fl fINV || (hasFlag fl fTST && !test)

/-- The six measurands of Table 15.2 with their flag octets: I_A, I_B, I_C, I_N, V_1, F. -/
def zoneMeasurands (s : State) (z : Nat) : List (Int × Nat) :=
  [mainWord s z 0 3, mainWord s z 1 3, mainWord s z 2 3, mainWord s z (zNeutral (rods s) z) 3, voltWord s z 13 3, voltWord s z 19 11]

/-- Units per A, per V, per Hz of the six measurands. -/
def measurandUnits : List Nat := [256000, 256000, 256000, 256000, 25600, 16777216]

/-- A measurand as FLOAT32 (R587). -/
def measurandFloat (w : Int × Nat) (unit : Nat) : Nat :=
  if hasFlag w.2 0x80 then 0 else float32 (decide (w.1 < 0)) w.1.natAbs unit

/-- Quality of a measurand, bit n of the bit-string in bit n (R587): validity in bits 0 and 1, invalid 2, questionable 3. -/
def measurandQuality (test : Bool) (fl : Nat) : Nat :=
  let bad := badFlags test fl
  let quest := hasFlag fl fSUB || hasFlag fl fQST || hasFlag fl fOVF || (hasFlag fl fTST && test)
  (if bad then 2 + 2 ^ 6 else if quest then 3 else 0)
    + (if hasFlag fl fSUB then 2 ^ 10 else 0) + (if hasFlag fl fQST then 2 ^ 9 else 0) + (if hasFlag fl fOVF then 2 ^ 2 else 0)
    + (if hasFlag fl fTST then 2 ^ 11 else 0)

/-- A slot's handle (R260): generation and slot. -/
def handleOf (gen slot : Nat) : Nat := gen * 1024 + slot

/-- The handle an entry gives a slot: the last one, none before the first admission (R262, Table 17.3). -/
def slotHandle (used : Bool) (gen slot : Nat) : Nat := if used then handleOf gen slot else none16

/-- The S-handle of a zone's main stream, which its entries concern (R262, Table 17.14); a local stream has none (R291). -/
def zoneHandle (s : State) (z : Nat) : Nat :=
  match zMain (rods s) z with
  | some p => if p < 1024 then slotHandle (Tab.get {} s.streams.sv p).used (Tab.get {} s.streams.sv p).gen p else none16
  | none => none16

/-- Codes of the zone groups Z1 to Z4 (R671). -/
def zoneGroup (g : Nat) : List Nat :=
  match g with
  | 0 => (List.range 8).map (0x01 + ·)
  | 1 => (List.range 9).map (0x09 + ·)
  | 2 => (List.range 7).map (0x12 + ·)
  | _ => (List.range 12).map (0x19 + ·)

/-- The codes of zone template n, 1 to 15, at most 24 (R671). -/
def zoneTemplate (n : Nat) : List Nat := (((List.range 4).filter (fun g => n / 2 ^ g % 2 == 1)).map zoneGroup).flatten.take 24

/-- A zone. -/
def zoneGet (s : State) (z : Nat) : Zone := Tab.get {} s.zones z
def zonePut (s : State) (z : Nat) (x : Zone) : State := { s with zones := Tab.put {} s.zones z x }

/-- Q of Table 17.6: bit n of the bit-string in bit 12 - n. -/
def reverse13 (q : Nat) : Nat := (List.range 13).foldl (fun a n => a + (if q / 2 ^ n % 2 = 1 then 2 ^ (12 - n) else 0)) 0

/-- A zone quantity (Table 17.7) with its flag octet. -/
def zoneQuantity (s : State) (z code : Nat) : Int × Nat :=
  let r := rods s
  let x := zoneGet s z
  let cur := fun (i : Nat) => if i = 3 then zNeutral r z else i
  let state := fun (v : Nat) => (((v : Nat) : Int), 0)
  if code ≤ 0x04 then mainWord s z (cur (code - 1)) 3
  else if code ≤ 0x08 then mainWord s z (cur (code - 5)) 4
  else if code ≤ 0x0B then voltWord s z (4 + (code - 0x09)) 3
  else if code ≤ 0x0E then voltWord s z (4 + (code - 0x0C)) 4
  else if code ≤ 0x11 then voltWord s z (16 + (code - 0x0F)) 3
  else if code ≤ 0x14 then mainWord s z (10 + (code - 0x12)) 3
  else if code ≤ 0x17 then voltWord s z (13 + (code - 0x15)) 3
  else if code = 0x18 then voltWord s z 19 11
  -- J of 51P A, B, C, 51N, 46: elements 0, 1, 2, 6, 8
  else if code ≤ 0x1D then state (Tab.get {} x.el ([0, 1, 2, 6, 8].getD (code - 0x19) 0)).j
  else if code = 0x1E then state (x.theta / 2 ^ 32)
  else if code = 0x1F then state (if 0 < x.restore then 2 else if x.armed then 1 else 0)
  else if code = 0x20 then state (x.ds.arSt * 256 + x.arK)
  else if code = 0x21 then
    state ((match x.bf with
      | .idle => 0
      | .timing => 1
      | .operated => 2) * 2 ^ 30 + x.bfC % 65536)
  else if code = 0x22 then state x.ds.dir
  else if code = 0x23 then state (x.ds.opr * 65536 + x.ds.str)
  else state (reverse13 x.ds.q)

/-- The pipeline rate and windows (Table 10.2). -/
def decim (s : State) : Nat :=
  match strap s 2 with
  | 2 => 4
  | 3 => 3
  | _ => 1
def pipeRate (s : State) : Nat := strapRate s / decim s
def nFc (s : State) : Nat := pipeRate s / fNom s
def nHc (s : State) : Nat := nFc s / 2
/-- Taps of the decimation filter (Table 10.2). -/
def taps (s : State) : Nat :=
  match strap s 2 with
  | 2 => 65
  | 3 => 49
  | _ => 1

/-- The sample index of a pipeline sample: that of its centre input sample (R378). -/
def receivedIndex (s : State) (i : SIndex) : SIndex := ⟨i.sec, i.cnt * decim s⟩

/-- Zone snapshots of a trigger at a received index (R672, R673): pair entries of the zone. -/
def zoneSnapshotsAt (s : State) (z t : Nat) (i : SIndex) : State :=
  (snapSets (rods s) t false).foldl (fun s x =>
    let n := gSnapSet (rods s) x
    submitEntry s (indexEntry s (strapRate s) i (0x4440 + x) (if t = 0 then 2 else 1) 1 z (zoneHandle s z) (zoneGet s z).test
      (snapPayload x n t ((zoneTemplate n).map (fun c => (c, zoneQuantity s z c)))))) s

/-- Zone snapshots of a trigger at a pipeline sample. -/
def zoneSnapshots (s : State) (z t : Nat) (idx : SIndex) : State := zoneSnapshotsAt s z t (receivedIndex s idx)

/-- The first sample of a position at or after a received index, of those kept. -/
def sampleFrom (s : State) (pos : Nat) (i : SIndex) : Option PastRec :=
  (((pipeGet s pos).newest :: (pipeGet s pos).past).takeWhile (fun x => !(receivedIndex s x.idx).lt i)).getLast?

/-- A zone's snapshots of a trigger at index i take the words of i (R673): at once where its main stream has formed them, or forms none; else
when the zone evaluates that index. -/
def zoneSnapshotsWhen (s : State) (t : Nat) (i : SIndex) (z : Nat) : State :=
  match (if serving s then (zMain (rods s) z).filter (posRuns s) else none) with
  | none => zoneSnapshotsAt s z t i
  | some pos =>
    let waits := s.waits.any (fun w => w.zone == z && !(receivedIndex s w.sample.idx).lt i)
    match sampleFrom s pos i with
    | some r => if waits then { s with journal := { s.journal with snapDue := s.journal.snapDue ++ [(z, t, i)] } }
      else atSample s pos r (fun s => zoneSnapshotsAt s z t i)
    | none => { s with journal := { s.journal with snapDue := s.journal.snapDue ++ [(z, t, i)] } }

/-- The snapshots that waited for zone z to reach index i are taken. -/
def dueSnapshots (s : State) (z : Nat) (i : SIndex) : State :=
  let mine := fun (d : Nat × Nat × SIndex) => d.1 == z && !i.lt d.2.2
  (s.journal.snapDue.filter mine).foldl (fun s d => zoneSnapshotsAt s z d.2.1 d.2.2)
    { s with journal := { s.journal with snapDue := s.journal.snapDue.filter (fun d => !mine d) } }

/-- Snapshots of every Enabled zone and of the unit, of a trigger that names no zone (R672). -/
def allSnapshots (s : State) (t : Nat) (i : SIndex) : State :=
  unitSnapshots ((match s.plug.image with
    | some r => enabledZones (adcInputs s) r
    | none => []).foldl (fun s z => zoneSnapshotsWhen s t i z) s) t i

end Sys2Proof.Machine
end

