-- ==== Sys2Proof/Machine/Overcurrent.lean ====
section
/-! DEFINITION. The overcurrent elements of a zone: pickups, integrators, counters, directions, freezing (chapter 11). -/
namespace Sys2Proof.Machine

/-- What one zone evaluation works on: the state whose words and settings it reads, the zone number, and the zone as it
stands in this sample after its input and status changes (R454). -/
structure ZoneCtx where
  s : State
  z : Nat
  x : Zone
  /-- every element of the zone is frozen: stream block, window not full, or a Restrict on the local streams -/
  hold : Bool
  /-- `Z.BLOCK` is active; the elements that depend on it are restricted (Table 3.2) -/
  block : Bool
  blockLost : Bool
  /-- the voltage stream cannot be used: absent, not full, its block flag, or R279 -/
  voltHold : Bool

/-- Settings of the zone. -/
def ZoneCtx.r (c : ZoneCtx) : Rods := rods c.s

/-- Elements by number: 0 to 2 51P, 3 to 5 50P, 6 51N, 7 50N, 8 46, 9 27, 10 59, 11 81, 12 49, 13 broken conductor. -/
def elemNum (e : Elem) : Nat :=
  match e with
  | .e51pA => 0
  | .e51pB => 1
  | .e51pC => 2
  | .e50pA => 3
  | .e50pB => 4
  | .e50pC => 5
  | .e51n => 6
  | .e50n => 7
  | .e46 => 8
  | .e27 => 9
  | .e59 => 10
  | .e81 => 11
  | .e49 => 12
  | .ebc => 13

/-- The element is set. -/
def elemOn (r : Rods) (z n : Nat) : Bool :=
  if n ≤ 2 then z51pOn r z else if n ≤ 5 then z50pOn r z
  else match n with
    | 6 => z51nOn r z
    | 7 => z50nOn r z
    | 8 => z46On r z
    | 9 => z27On r z
    | 10 => z59On r z
    | 11 => z81On r z
    | 12 => z49On r z
    | 13 => zBcOn r z
    | _ => false

/-- Element n of a zone. -/
def elGet (x : Zone) (n : Nat) : El := Tab.get {} x.el n
def elPut (x : Zone) (n : Nat) (e : El) : Zone := { x with el := Tab.put {} x.el n e }

/-- The start verdict and the operate verdict: a frozen element shows none (R439). -/
def elStart (x : Zone) (n : Nat) : Bool := (elGet x n).started && (elGet x n).frozen == 0
def elOperate (x : Zone) (n : Nat) : Bool := (elGet x n).operate && (elGet x n).frozen == 0

/-- First rod of the pickup of an overcurrent element. -/
def pickupRod (n : Nat) : Nat :=
  if n ≤ 2 then 7 else if n ≤ 5 then 13
  else match n with
    | 6 => 16
    | 7 => 21
    | _ => 24

/-- Twice the cold-load multiplier in effect: 2 while cold-load pickup is not active (R471). -/
def coldTwice (r : Rods) (z : Nat) (x : Zone) : Nat :=
  if x.restore = 0 then 2 else [3, 4, 5, 6].getD ((zRod r z 42 - 1) / 7) 2

/-- The pickup in effect I_s as a magnitude word (R415, R471). -/
def pickup (c : ZoneCtx) (n : Nat) : Nat := zCurrent c.r c.z (pickupRod n) * 256 * coldTwice c.r c.z c.x / 2

/-- Delay of 50P and 50N in ms; the rod of an element's delay. -/
def delay50 (r : Rods) (z n : Nat) : Nat := 10 * zRod r z (if n ≤ 5 then 15 else 23)

/-- The quantity of an overcurrent element. -/
def elemQuantity (c : ZoneCtx) (n : Nat) : Nat :=
  if n ≤ 2 then n else if n ≤ 5 then n - 3 else if n ≤ 7 then zNeutral c.r c.z else 11

/-- The operating magnitude of an overcurrent element with its flags (Table 11.1). -/
def elemMag (c : ZoneCtx) (n : Nat) : Int × Nat :=
  let half := (3 ≤ n && n ≤ 5 || n == 7) && delay50 c.r c.z n == 0
  mainWord c.s c.z (elemQuantity c n) (if half then 7 else 3)

/-! Curves (R418 to R425) -/

/-- tr × 100 of Table 11.2. -/
def curveTr (curve : Nat) : Nat := [1350, 4730, 8000, 12000, 485, 2160, 2910].getD (curve - 1) 0

/-- The curve of an integrator element and T × 100 s: 51P, 51N by their rods (R176), 46 by `Z.46_TIME` (R425); curve 8 is
definite time. -/
def elemCurve (r : Rods) (z n : Nat) : Nat × Nat :=
  let scaled := fun (c t : Nat) => (c, if 5 ≤ c && c ≤ 7 then 2 * t else t)
  if n ≤ 2 then scaled (zCurve r z 9) (zTms r z 10)
  else if n = 6 then scaled (zCurve r z 18) (zTms r z 19)
  else if z46Inverse r z then (2, 5 * z46Mult r z) else (8, 100 * (zRod r z 26 - 20))

/-- The multiple of pickup, 24 fractional bits, limited to 40 (R419). -/
def multiple (mag : Int) (is : Nat) : Nat := min (mag.toNat * 2 ^ 24 / is) (40 * 2 ^ 24)

/-- A and B of a curve in 10^-4 s, and p in fiftieths (Table 11.2). -/
def curveConstants (curve : Nat) : Nat × Nat × Nat :=
  [(1400, 0, 1), (135000, 0, 50), (800000, 0, 100), (1200000, 0, 50), (515, 1140, 1), (196100, 4910, 100), (282000, 1217, 100)].getD
    (curve - 1) (1, 0, 50)

/-- M^p - 1 at M = 1 + j / 64, in 2^-100 (R418). -/
def curvePower (p j : Nat) : Nat :=
  let m := 64 + j
  (if p = 1 then root50 m 64 else if p = 50 then m * 2 ^ 100 / 64 else m * m * 2 ^ 100 / 4096) - 2 ^ 100

/-- r at M = 1 + j / 64, in 2^-64 per second: 1 / (A / (M^p - 1) + B), to the relative precision of 2^-32 that R420 allows the stored
value (log 7). -/
def curveBreak (curve j : Nat) : Nat :=
  let k := curveConstants curve
  let x := curvePower k.2.2 j
  let r := 10000 * x * 2 ^ 64 / (k.1 * 2 ^ 100 + k.2.1 * x)
  let e := r / 2 ^ 32
  r + (Config.curveError curve j + e) % (2 * e + 1) - e

/-- r(M) × 2^82 by linear interpolation between breakpoints (R420). -/
def curveRate (curve m : Nat) : Nat :=
  let j := (m - 2 ^ 24) / 2 ^ 18
  let f := (m - 2 ^ 24) % 2 ^ 18
  (2 ^ 18 - f) * curveBreak curve j + f * curveBreak curve (j + 1)

/-- Δ of R421. -/
def curveStep (rate curve t100 m : Nat) : Nat :=
  if curve = 8 then ceilDiv (2 ^ 40 * 100) (t100 * rate)
  else min (roundDiv (2 ^ 40 * 100 * curveRate curve m : Nat) (2 ^ 82 * t100 * rate)).toNat (2 ^ 40)

/-- Δr of disc emulation (Table 11.3, R424). -/
def discStep (rate curve t100 m : Nat) : Nat :=
  if curve = 8 then ceilDiv (2 ^ 40 * 100) (t100 * rate)
  else (roundDiv (2 ^ 40 * 10000 * (2 ^ 48 - m * m) : Nat) (2 ^ 48 * t100 * curveTr curve * rate)).toNat

/-- The reset characteristic of an integrator element (Table 11.3); definite-time 46 resets at once (R425). -/
def elemReset (r : Rods) (z n : Nat) : Nat := if n = 8 && !z46Inverse r z then 0 else zReset r z

/-- One sample of the reset characteristic without start. -/
def resetStep (rate mode curve t100 m : Nat) (e : El) : El :=
  if mode = 0 then {}
  else if mode = 31 then { ({} : El) with j := e.j - discStep rate curve t100 m }
  else if mode * (rate / 10) ≤ e.idle + 1 then {} else { ({} : El) with j := e.j, idle := e.idle + 1 }

/-- One sample of an integrator element (R416, R421 to R423). The start sample of a definite-time curve adds nothing to
an empty integrator, so that the phase operates exactly T × rate_p samples after it (DEDUCED, log 23). -/
def integrate (rate mode curve t100 is : Nat) (wrongDir : Bool) (mag : Int) (e : El) : El :=
  let again := e.frozen == 0 && e.started
  let start := !wrongDir && (if again then decide (19 * (is : Int) ≤ 20 * mag) else decide ((is : Int) ≤ mag))
  let m := if wrongDir then 0 else multiple mag is
  if start then
    let e' := { e with started := true, frozen := 0, idle := 0, operate := e.operate && e.frozen == 0 }
    if e'.operate || m < 2 ^ 24 || (curve = 8 && !e.started && e.j = 0) then e'
    else
      let d := curveStep rate curve t100 m
      if 2 ^ 40 ≤ e.j + d then { e' with j := 2 ^ 40 - 1, operate := true } else { e' with j := e.j + d }
  else resetStep rate mode curve t100 m e

/-! Freezing and counters (R427, R440, R459) -/

/-- One frozen sample (R440): verdicts and the peak hold dropped, J and c held, cleared after 1.0 s. -/
def freezeStep (rate : Nat) (e : El) : El :=
  if rate ≤ e.frozen then { ({} : El) with frozen := e.frozen + 1 } else { e with operate := false, peak := 0, frozen := e.frozen + 1 }

/-- One sample of a started element with a counter (R427, R459): `start` and `stay` are the conditions to start and to stay
started, `delay` its delay in samples. -/
def countStep (delay : Nat) (start stay : Bool) (e : El) : El :=
  let on := if e.frozen == 0 && e.started then stay else start
  if on then
    let c := if e.started then e.c + 1 else 0
    { ({} : El) with started := true, c := c, operate := decide (delay ≤ c), peak := e.peak }
  else {}

/-- The peak path qualifies (R428): two samples in succession of one sign, each at least √8 × I_s. -/
def peakQualifies (c : ZoneCtx) (q is : Nat) : Bool :=
  match zMain c.r c.z with
  | none => false
  | some pos =>
    match (pipeGet c.s pos).win with
    | a :: b :: _ =>
      let x := a.x.getD q 0
      let y := b.x.getD q 0
      decide (0 < x * y) && decide (8 * (is * is : Int) ≤ x * x) && decide (8 * (is * is : Int) ≤ y * y)
    | _ => false

/-- One sample of 50P or 50N (R426 to R429, R437). -/
def instantaneous (c : ZoneCtx) (n : Nat) (wrongDir controlled : Bool) (mag : Int) (e : El) : El :=
  let is := pickup c n
  let delay := delay50 c.r c.z n * pipeRate c.s / 1000
  let peakOn := n ≤ 5 && delay50 c.r c.z n == 0 && !controlled
  let hit := peakOn && peakQualifies c (n - 3) is
  let left := if hit then nHc c.s + 1 else e.peak
  let onPeak := peakOn && 0 < left
  let e := countStep delay (!wrongDir && decide ((is : Int) ≤ mag) || onPeak)
    (!wrongDir && decide (19 * (is : Int) ≤ 20 * mag) || onPeak) e
  { e with peak := if onPeak then left - 1 else 0, operate := e.operate || onPeak }

/-! Directions (R430 to R438) -/

/-- Directional control of an element (R430): the mode rod, when its decision controls it. -/
def controlRod (r : Rods) (z n : Nat) : Option Nat :=
  if n ≤ 2 then (if z67pOn r z then some 27 else none)
  else if n ≤ 5 then (if z67pOn r z && z67On50 r z 27 then some 27 else none)
  else if n = 6 then (if z67nOn r z then some 28 else none)
  else if n = 7 then (if z67nOn r z && z67On50 r z 28 then some 28 else none)
  else none

/-- Decision of an element: 0 to 2 phases of 67P, 3 67N. -/
def elemDecision (n : Nat) : Nat := if n ≤ 5 then n % 3 else 3

/-- A direction decision. -/
def dirGet (x : Zone) (d : Nat) : DirSt := Tab.get {} x.dir d
def dirPut (x : Zone) (d : Nat) (v : DirSt) : Zone := { x with dir := Tab.put {} x.dir d v }

/-- The decision runs. -/
def decisionOn (r : Rods) (z d : Nat) : Bool := if d = 3 then z67nOn r z else z67pOn r z

/-- The elements a decision controls. -/
def controlled (r : Rods) (z d : Nat) : List Nat :=
  (if d = 3 then [6, 7] else [d, d + 3]).filter (fun n => elemOn r z n && (controlRod r z n).isSome)

/-- Operating quantity; polarising quantity and whether it is negated (Table 11.4). -/
def opQuantity (r : Rods) (z d : Nat) : Nat := if d < 3 then d else if z67nNegSeq r z then 11 else zNeutral r z
def polQuantity (r : Rods) (z d : Nat) : Nat :=
  match d with
  | 0 => 17
  | 1 => 18
  | 2 => 16
  | _ => if z67nNegSeq r z then 14 else zResidual r z

/-- Least polarising magnitude (Table 11.4). -/
def polMin (r : Rods) (z d : Nat) : Int := if d = 3 && z67nNegSeq r z then 50 * 25600 else 100 * 25600

/-- Characteristic angle in degrees (Table 5.10). -/
def charAngle (r : Rods) (z d : Nat) : Int :=
  if d < 3 then [30, 45, 60, 75].getD (z67Angle r z 27) 0 else [-90, -60, -45, 0].getD (z67Angle r z 28) 0

/-- The raw result from the angles in 2^-40 turn (R432). -/
def rawDirection (iop vpol theta : Int) : Dir :=
  let turn : Int := 360 * 2 ^ 40
  let d := (360 * (iop - vpol) - theta * 2 ^ 40 + turn / 2) % turn - turn / 2
  if (d.natAbs : Int) ≤ 85 * 2 ^ 40 then .forward else if 95 * 2 ^ 40 ≤ (d.natAbs : Int) then .reverse else .undecided

/-- The smallest pickup in effect among the elements a decision controls (R433). -/
def leastPickup (c : ZoneCtx) (d : Nat) : Nat :=
  match (controlled c.r c.z d).map (pickup c) with
  | [] => 0
  | a :: t => t.foldl min a

/-- A memory phasor after n samples of turning by 2π × (f_r - f_nom) / rate_p, df being f_r - f_nom in 0.01 Hz (R435): the parts with
the circle's fractional bits, of which the angle alone is used. -/
def turned (rate : Nat) (df : Int) (n : Nat) (a b : Int) : Int × Int := cMul (a, b) (circle (df * n) (100 * rate))

/-- The samples for which memory is used (R435). -/
def memorySamples (c : ZoneCtx) : Nat := zMemory c.r c.z * pipeRate c.s / 4

/-- Memory and live voltage of a 67P decision for this sample (R435): the decision with its memory advanced, and the phasor
to use, if any. -/
def memoryStep (c : ZoneCtx) (re im mag : Int) (fl : Nat) (v : DirSt) : DirSt × Option (Int × Int) :=
  let live := decide (2560000 ≤ mag)
  let usable := live && !hasFlag fl fINV && !hasFlag fl fTST && !hasFlag fl fSUB
  let nfc := nFc c.s
  let older := v.hist[2 * nfc - 1]?
  let v := { v with hist := ((re, im, usable) :: v.hist).take (2 * nfc) }
  if live then
    let run := min (v.liveRun + 1) nfc
    ({ v with liveRun := run, armed := v.armed || decide (nfc ≤ run), mem := none, memLeft := 0 }, some (re, im))
  else
    let fr := ((voltSample c.s c.z).map (·.fr)).getD 0
    let df : Int := if fr = 0 then 0 else (fr : Int) - 100 * fNom c.s
    let v := { v with liveRun := 0 }
    match v.mem with
    | some (a, b, df) =>
      if v.memLeft = 0 then ({ v with mem := none, latched := v.latched || v.confirmed != .undecided }, none)
      else ({ v with memLeft := v.memLeft - 1 }, some (turned (pipeRate c.s) df (memorySamples c - v.memLeft) a b))
    | none =>
      match older with
      | some (a, b, true) =>
        if v.armed then
          ({ v with mem := some (a, b, df), memLeft := memorySamples c - 1, armed := false }, some (turned (pipeRate c.s) df 0 a b))
        else (v, none)
      | _ => ({ v with armed := false }, none)

/-- The decision is unavailable (R438): memory and latch cleared. -/
def unavailableDir (v : DirSt) : DirSt :=
  { ({} : DirSt) with unavailable := true, unavailRun := v.unavailRun + 1, restricted := v.restricted }

/-- One sample of a direction decision (R432 to R438). -/
def directionStep (c : ZoneCtx) (d : Nat) (v : DirSt) : DirSt :=
  let q := polQuantity c.r c.z d
  let kind := fun k => voltWord c.s c.z q k
  if c.voltHold || badFlags c.x.test (kind 3).2 then
    let v := unavailableDir v
    { v with restricted := v.restricted || decide (pipeRate c.s < v.unavailRun) }
  else
    let v := { v with unavailable := false, unavailRun := 0, availRun := v.availRun + 1 }
    let v := { v with restricted := v.restricted && decide (v.availRun ≤ pipeRate c.s) }
    let iq := opQuantity c.r c.z d
    let imag := mainWord c.s c.z iq 3
    let iang := mainWord c.s c.z iq 4
    let small := decide (10 * imag.1 < (leastPickup c d : Int))
    let live := decide (polMin c.r c.z d ≤ (kind 3).1)
    let r := if d < 3 then
        let m := memoryStep c (kind 1).1 (kind 2).1 (kind 3).1 (kind 3).2 v
        (m.1, if live then some (kind 4) else m.2.map (fun p => (angle24 p.1 p.2 * 2 ^ 16, 0)))
      else (v, if live then some (negWord 4 (kind 4).1, (kind 4).2) else none)
    let v := r.1
    let raw := match r.2 with
      | none => Dir.undecided
      | some a => if small || hasFlag a.2 fNOANG || hasFlag iang.2 fNOANG then .undecided else rawDirection iang.1 a.1 (charAngle c.r c.z d)
    let run := if raw = v.raw then v.rawRun + 1 else 1
    let confirmed := if v.latched then (if small then .undecided else v.confirmed) else if nHc c.s / 2 ≤ run then raw else v.confirmed
    { v with raw := raw, rawRun := run, confirmed := confirmed, latched := v.latched && !small }

/-- All decisions of a zone. -/
def directionsStep (c : ZoneCtx) : Zone :=
  (List.range 4).foldl (fun x d => if decisionOn c.r c.z d then dirPut x d (directionStep c d (dirGet x d)) else x) c.x

/-! One overcurrent element in one sample (R413, R439) -/

/-- A Restrict of the zone's polarising decisions stands (Table 11.7): detail 0 67P, 1 67N, either in one key (R722); which decisions it
concerns, each of them keeps. -/
def polRestricted (s : State) (z : Nat) : Bool := faultStands s { code := 0x3580, scope := 1, inst := z }

/-- The flags of the words an overcurrent element uses. -/
def overFlags (c : ZoneCtx) (n : Nat) : Nat :=
  let f := (elemMag c n).2
  if 3 ≤ n && n ≤ 5 && delay50 c.r c.z n == 0 && (controlRod c.r c.z n).isNone then f ||| (mainWord c.s c.z (n - 3) 0).2 else f

/-- The decision that controls an element is unavailable (R438), or the Restrict of Table 11.7 concerns it. -/
def dirFrozen (c : ZoneCtx) (n : Nat) : Bool :=
  let v := dirGet c.x (elemDecision n)
  (controlRod c.r c.z n).isSome && (v.unavailable || (v.restricted && polRestricted c.s c.z))

/-- An overcurrent element is frozen in this sample (R440, Table 11.5). -/
def overHeld (c : ZoneCtx) (n : Nat) : Bool := c.hold || c.blockLost || badFlags c.x.test (overFlags c n) || dirFrozen c n

/-- One sample of an overcurrent element (Table 11.5, R446, R447): blocked, frozen, or evaluated. -/
def overStep (c : ZoneCtx) (n : Nat) (e : El) : El :=
  if c.block then {}
  else if overHeld c n then freezeStep (pipeRate c.s) e
  else
    let mag := (elemMag c n).1
    let wrong := match controlRod c.r c.z n with
      | none => false
      | some k => (dirGet c.x (elemDecision n)).confirmed != (if z67Forward c.r c.z k then .forward else .reverse)
    if (3 ≤ n && n ≤ 5) || n == 7 then instantaneous c n wrong (controlRod c.r c.z n).isSome mag e
    else
      let cv := elemCurve c.r c.z n
      integrate (pipeRate c.s) (elemReset c.r c.z n) cv.1 cv.2 (pickup c n) wrong mag e

/-- All overcurrent elements of a zone. -/
def overElements (c : ZoneCtx) : Zone :=
  (List.range 9).foldl (fun x n => if elemOn c.r c.z n then elPut x n (overStep c n (elGet x n)) else x) c.x

end Sys2Proof.Machine
end

