-- ==== Sys2Proof/Machine/Pipeline.lean ====
section
/-! DEFINITION. The measurement pipeline: conversion, decimation, windows, phasors, sequence components, frequency and word
flags of one position (chapter 10), and the history ring (R374, R375, Table 17.9). -/
namespace Sys2Proof.Machine

/-! Channel samples (R374, R392, Table 7.5) -/

/-- The bound of a sample word (Table 10.1), and of a phasor part or magnitude. -/
def sampleMax : Int := (2 ^ 31 - 1) * 256
def partMax : Int := 2 ^ 39 - 1

/-- Hold a value within a bound; whether it lay beyond it (R377, R399). -/
def saturate (hi v : Int) : Int × Bool := (clampInt (-hi) hi v, decide (v < -hi) || decide (hi < v))

/-- The engine word of a sampled value, and whether R374's one exception applies. -/
def engineWord (v : Int) : Int × Bool := if v = -2 ^ 31 then (-sampleMax, true) else (v * 256, false)

/-- A bit of a quality word. -/
def qBit (q : BitVec 14) (n : Nat) : Bool := q.getLsbD n

/-- Flags of a channel from its quality (Tables 7.5, 10.4); the order of the detail bits is that of IEC 61850-7-3
(PRESUMED, log 19). -/
def qualityFlags (q : BitVec 14) : Nat :=
  let validity := q.toNat % 4
  let invalid := validity == 1 || validity == 2 || qBit q 12 || qBit q 4 || qBit q 6 || qBit q 7 || qBit q 8
  let quest := validity == 3 || qBit q 10 || qBit q 2 || qBit q 3 || qBit q 5 || qBit q 9
  (if invalid then fINV else 0) + (if qBit q 11 then fTST else 0)
    + (if !invalid && !qBit q 11 && quest then fQST else 0) + (if qBit q 13 then fDER else 0)

/-- Flags of a channel sample at stage 6 (Table 10.4). -/
def channelFlags (smp : Sample) (c : ChanSample) : Nat :=
  let invalid := smp.kind == .missing || smp.jumped
  (qualityFlags c.quality ||| (if invalid then fINV else 0)) ||| (if smp.kind = .substituted then fSUB else 0)

/-- Channel i of a sample. -/
def chan (smp : Sample) (i : Nat) : ChanSample := smp.chans.getD i { value := 0, quality := 1 }

/-- The eight words and flag octets of a received sample. -/
def sampleWords (smp : Sample) : List (Int × Nat) :=
  (List.range 8).map (fun i =>
    let w := engineWord (chan smp i).value
    (w.1, channelFlags smp (chan smp i) ||| (if w.2 then fOVF else 0)))

/-! History ring (R375, R674) -/

/-- The smallest scale whose mantissa, rounded to nearest, fits 24 bits (Table 17.9). -/
def ringScale (v : Int) : Int × Nat :=
  let fit := fun (s : Nat) => let m := roundDiv v (16 ^ s); (-8388608 ≤ m && m ≤ 8388607 : Bool)
  let s := ((List.range 4).find? fit).getD 3
  (roundDiv v (16 ^ s), s)

/-- The quality nibble of a channel (Table 17.9). -/
def ringQuality (smp : Sample) (c : ChanSample) : Nat :=
  c.quality.toNat % 4 + (if qBit c.quality 11 then 4 else 0) + (if smp.kind = .substituted then 8 else 0)

/-- The ring record of a received-rate sample; a missing index is written as missing. -/
def ringRecOf (gen : Nat) (smp : Sample) : RingRec :=
  if smp.kind = .missing then { gen := gen % 64, secLo := smp.idx.sec % 256, pres := 2 }
  else
    let l := (List.range 8).map (chan smp)
    let m := l.map (fun c => ringScale c.value)
    { mant := m.map (·.1), scale := m.map (·.2), qual := l.map (ringQuality smp), gen := gen % 64,
      secLo := smp.idx.sec % 256, pres := 1 }

/-- Generation of a position: of its slot, 0 for a local stream. -/
def posGen (s : State) (pos : Nat) : Nat := if pos < 1024 then (Tab.get {} s.streams.sv pos).gen else 0

/-- An open record covers a position at an index (R676). -/
def covers (r : DrRecord) (pos : Nat) (i : SIndex) : Bool :=
  !r.closed && !r.last.lt i && r.streams.any (fun x => x.1 == pos && !i.lt x.2.2)

/-- A record of the ring is written at a position and index, and copied by every open record that covers it (R675). DESIGN CHOICE (log 153):
of the 1.0 s that R676 gives, the copy is made at once. -/
def ringPut (s : State) (pos : Nat) (i : SIndex) (x : RingRec) : State :=
  let a := absIndex (strapRate s) i
  { s with journal := { s.journal with
    ring := Tab.put {} s.journal.ring (pos * 130816 + a % 130816) x
    records := s.journal.records.map (fun r => if covers r pos i then { r with copies := Tab.insert r.copies (copyKey pos a) x } else r) } }

/-- Write a sample to the ring; without D4 nothing is written (Table 3.2). -/
def ringWrite (s : State) (smp : Sample) : State :=
  if !domainGood s 4 then s else ringPut s smp.slot smp.idx (ringRecOf (posGen s smp.slot) smp)

/-! Decimation (R376 to R379) -/

/-- The taps of a symmetric filter that sum to 2^17, from the taps before its centre (R377). -/
def firWhole (half : List Int) : List Int := half ++ (2 ^ 17 - 2 * half.sum) :: half.reverse

/-- The response of a symmetric filter at f Hz, from 2^17 at DC, with the circle's 200 fractional bits: its middle tap, and the pairs of taps
outward from it. -/
def firResponse (h : List Int) (rate f : Nat) : Int :=
  let w := circle f rate
  h.getD (h.length / 2) 0 * circleOne
    + ((h.drop (h.length / 2 + 1)).foldl (fun (p : (Int × Int) × Int) a => (cScaled p.1 w, p.2 + 2 * a * p.1.1)) (w, 0)).2

/-- What the response can add between two frequencies 2 Hz apart, as firResponse counts: by its second derivative, at most
Σ |hᵢ| i², over eight times the squared step of 4π / rate. -/
def firSlack (h : List Int) (rate : Nat) : Nat :=
  20 * (h.zipIdx.map (fun p => p.1.natAbs * ((p.2 : Int) - (h.length / 2 : Nat)).natAbs ^ 2)).sum * circleOne / rate ^ 2 + 1

/-- The limits of a filter, in steps of 2 Hz: Q1.17, ±0.05 dB up to `pass`, -60 dB from `stop` (R377), and ±0.01 % up to `fine`, as far as the
rms of harmonics up to 15 is accurate (R403, log 5). -/
def firMeets (rate fine pass stop : Nat) (h : List Int) : Bool :=
  let unit : Int := (2 ^ 17 * circleOne : Nat)
  let m : Int := firSlack h rate
  h.all (fun x => -(2 ^ 17) ≤ x && x < 2 ^ 17) && (List.range (rate / 4 + 1)).all (fun k =>
    let g := firResponse h rate (2 * k)
    (fine < 2 * k || (9999 * unit ≤ 10000 * (g - m) && 10000 * (g + m) ≤ 10001 * unit))
      && (pass < 2 * k || (994260 * unit ≤ 1000000 * (g - m) && 1000000 * (g + m) ≤ 1005773 * unit))
      && (2 * k < stop || 1000 * ((g.natAbs : Int) + m) ≤ unit))

/-- A filter for factor d: the free one where it meets R377 and R403, else one that does (log 5). -/
def firChoice (rate fine pass stop d : Nat) (half : List Int) : List Int :=
  let h := firWhole ((List.range half.length).map (Config.firFree d))
  if firMeets rate fine pass stop h then h else firWhole half

/-- The 65 taps for D = 4, and the 49 for D = 3 (Table 10.2). -/
def firTaps4 : List Int :=
  firChoice 12800 750 750 1600 4
    [52, 8, -26, -73, -108, -99, -23, 112, 261, 349, 300, 76, -287, -667, -889, -785, -280, 542, 1422, 1987, 1874, 898, -825, -2822, -4344,
     -4561, -2831, 1051, 6707, 13202, 19247, 23530]
def firTaps3 : List Int :=
  firChoice 14400 900 1100 2400 3
    [23, -21, -64, -78, -7, 152, 303, 280, -32, -547, -938, -782, 118, 1446, 2367, 1934, -234, -3395, -5698, -4919, 335, 9610, 20409, 29077]
def firTaps (d : Nat) : List Int := if d = 4 then firTaps4 else firTaps3

/-- A flag beside those of Table 17.8, within the windows alone: the OVF that comes with it is that of R399, not of R374 (Table 10.6). -/
def fSAT : Nat := 256

/-- The flags with OVF under R399 where a value has been held. -/
def heldFlags (beyond : Bool) (fl : Nat) : Nat := if beyond then fl ||| (fOVF ||| fSAT) else fl

/-- A pipeline sample on its way into the windows: index, words and flags of the 8 channels, block flag. -/
structure PipeIn where
  idx : SIndex
  words : List (Int × Nat)
  blocked : Bool
deriving DecidableEq, Repr

/-- The decimated channel of a span, newest first (R377). -/
def firOut (d : Nat) (xs : List Int) : Int × Bool :=
  saturate sampleMax (((List.zipWith (· * ·) xs (firTaps d)).sum + 2 ^ 16) / 2 ^ 17)

/-- The pipeline index of a decimated sample (R378): its centre input sample, at the pipeline rate. -/
def decimIndex (s : State) (i : SIndex) : SIndex :=
  let h := (taps s - 1) / 2
  if h ≤ i.cnt then ⟨i.sec, (i.cnt - h) / decim s⟩ else ⟨secondBefore i.sec, (i.cnt + strapRate s - h) / decim s⟩

/-- A decimated sample from a full span whose newest sample is at a decimation instant (R378, R379). -/
def decimate (s : State) (span : List SpanRec) : Option PipeIn :=
  match span with
  | [] => none
  | newest :: _ =>
    let h := (taps s - 1) / 2
    if span.length < taps s || (newest.idx.cnt + strapRate s - h) % decim s != 0 then none
    else
      let ws := span.map (·.words)
      let chans := (List.range 8).map (fun i =>
        let col := ws.map (fun w => w.getD i (0, fINV))
        let y := firOut (decim s) (col.map (·.1))
        (y.1, heldFlags y.2 ((col.map (·.2)).foldl (· ||| ·) 0)))
      some { idx := decimIndex s newest.idx, words := chans, blocked := span.any (·.blocked) }

/-! Windows and words (R380 to R387, R392, R393, R399) -/

/-- The words of the 8 channels, of 3I0 and of 3V0 (Table 10.3). -/
def tenWords (ws : List (Int × Nat)) : List (Int × Nat) :=
  let g := fun i => ws.getD i (0, fINV)
  let sum := fun (a : Nat) =>
    let y := saturate partMax ((g a).1 + (g (a + 1)).1 + (g (a + 2)).1)
    (y.1, heldFlags y.2 ((g a).2 ||| (g (a + 1)).2 ||| (g (a + 2)).2))
  ws ++ [sum 0, sum 4]

/-- The flags of INV and TST that reach a word for N_fc samples, and the other flags within a window of n (R393). -/
def windowFlags (nfc n : Nat) (win : List PSample) (q : Nat) : Nat :=
  let fl := fun (p : PSample) => p.fl.getD q fINV
  ((win.take nfc).foldl (fun a p => a ||| (fl p &&& (fINV ||| fTST))) 0)
    ||| ((win.take n).foldl (fun a p => a ||| (fl p &&& (fSUB ||| fQST ||| fDER ||| fOVF ||| fSAT))) 0)

/-- The samples of channel q over the newest n of a window. -/
def series (win : List PSample) (n q : Nat) : List Int := (win.take n).map (fun p => p.x.getD q 0)

/-- Words of a phasor from its parts (R385, R399): re, im, magnitude, angle, with flags. -/
def phasorWords (re im : Int) (fl : Nat) : List (Int × Nat) :=
  let a := saturate partMax re
  let b := saturate partMax im
  let fl := heldFlags (a.2 || b.2) fl
  let m := saturate partMax (sqrtNearest (a.1 * a.1 + b.1 * b.1).toNat)
  let small := decide (m.1 < 2048)
  [(a.1, fl), (b.1, fl), (m.1, heldFlags m.2 fl),
   (if small then 0 else angle24 a.1 b.1 * 2 ^ 16, if small then fl ||| fNOANG else fl)]

/-- The Q1.17 coefficients cos θ and sin θ at a pipeline smpCnt (R380): θ is 2π × f_nom × smpCnt / rate. -/
def coefficients (fnom rate cnt : Nat) : Int × Int :=
  let p := circle (fnom * cnt) rate
  (coefficient p.1 (Config.coefficientUp false fnom rate cnt), coefficient p.2 (Config.coefficientUp true fnom rate cnt))

/-- The sum of w^0 to w^(n - 1), from z on, in the circle's fixed point. -/
def powerSum (w : Int × Int) : Nat → Int × Int → Int × Int → Int × Int
  | 0, _, a => a
  | n + 1, z, a => powerSum w n (cScaled z w) (a.1 + z.1, a.2 + z.2)

/-- √2 in the circle's fixed point. -/
def root2 : Nat := Nat.sqrt (2 * circleOne * circleOne)

/-- The correction of R380 for n samples and a frequency in effect of f × 0.01 Hz: a and b, the sums over the window of
e^(j(ω_nom - ω)iT) and e^(j(ω_nom + ω)iT), by which a sinusoid Y at that frequency comes as (a Y + b Y*) / √2. -/
structure Correction where
  a : Int × Int
  b : Int × Int
def correctionOf (fnom rate n f : Nat) : Correction :=
  let sum := fun (p : Int) => powerSum (circle p (100 * rate)) n (circleOne, 0) (0, 0)
  { a := sum ((100 * fnom : Nat) - (f : Int)), b := sum ((100 * fnom : Nat) + (f : Int)) }

/-- The phasor whose sums C and S are formed with the newest sample's coefficients `co` at the reference (R380): turned by -θ₀,
corrected (what makes a sinusoid's result exact, in 200 fractional bits; log 6), turned back and rounded. -/
def phasorOf (k : Correction) (co : Int × Int) (c s : Int) : Int × Int :=
  let z := cMul (c, -s) co
  let u := cMul (cConj k.a) z
  let v := cMul k.b (cConj z)
  let y := cMul (u.1 - v.1, u.2 - v.2) (cConj co)
  let size := fun (p : Int × Int) => p.1 * p.1 + p.2 * p.2
  let unit := ((size k.a - size k.b) * 2 ^ 51).toNat
  (roundDiv (y.1 * root2) unit, roundDiv (y.2 * root2) unit)

/-- The phasor of a channel over its newest samples (R380, R382), with the coefficients of each, newest first. -/
def fourier (k : Correction) (co : List (Int × Int)) (xs : List Int) : Int × Int :=
  phasorOf k (co.headD (0, 0)) ((List.zipWith (fun x p => x * p.1) xs co).sum) ((List.zipWith (fun x p => x * p.2) xs co).sum)

/-- The largest absolute sample (R383). -/
def peakOf (l : List Int) : Int := l.foldl (fun a x => max a (x.natAbs : Int)) 0

/-- The rms of a window of n, rounded to nearest (R384). -/
def rmsOf (n : Nat) (l : List Int) : Int :=
  let sum := (l.map (fun x => x.natAbs * x.natAbs)).sum
  let r := Nat.sqrt (sum / n)
  if 4 * sum < n * ((2 * r + 1) * (2 * r + 1)) then r else r + 1

/-- floor(√3 × q). -/
def floorRoot3 (q : Int) : Int := if 0 ≤ q then (Nat.sqrt (3 * q.natAbs * q.natAbs) : Int) else -(Nat.sqrt (3 * q.natAbs * q.natAbs) : Int) - 1

/-- (p + √3 q) / 6 rounded to nearest (R387; DEDUCED, log 20). -/
def seqPart (p q : Int) : Int := (p + 3 + floorRoot3 q) / 6

/-- The sequence phasor k (1, 2, or 0) of three phase phasors (R387). -/
def sequencePhasor (k : Nat) (a b c : Int × Int) : Int × Int :=
  if k = 0 then (roundDiv (a.1 + b.1 + c.1) 3, roundDiv (a.2 + b.2 + c.2) 3)
  else
    -- a = 1∠120°: B turns forward and C backward for k = 1, the other way about for k = 2
    let u := if k = 1 then b else c
    let v := if k = 1 then c else b
    (seqPart (2 * a.1 - u.1 - v.1) (v.2 - u.2), seqPart (2 * a.2 - u.2 - v.2) (u.1 - v.1))

/-- The frequency source (R389); V1 and I1 are judged while their channels carry no INV (DEDUCED, log 21). -/
def freqSource (p : Pipe) (v1 i1 : Int × Nat) : Pipe :=
  let vInv := hasFlag v1.2 fINV
  let iInv := hasFlag i1.2 fINV
  let v := if vInv then p.v1Ok else if p.v1Ok then decide (2304000 ≤ v1.1) else decide (2560000 ≤ v1.1)
  let i := if iInv then p.i1Ok else if p.i1Ok then decide (1152000 ≤ i1.1) else decide (1280000 ≤ i1.1)
  let src := if v && !vInv then FreqSource.v1 else if i && !iInv then FreqSource.i1 else FreqSource.none
  { p with v1Ok := v, i1Ok := i, source := src }

/-- f_raw × N_fc in 2^-24 Hz from the angle words of the source now and N_fc samples earlier (R390); none out of the range
of R391. -/
def freqRaw (fnom rate nfc : Nat) (now before : Int) : Option Int :=
  let d := (now / 2 ^ 16 - before / 2 ^ 16 + 2 ^ 23) % 2 ^ 24 - 2 ^ 23
  let f := (fnom * 2 ^ 24 * nfc : Int) + d * rate
  let nom := (fnom * 2 ^ 24 * nfc : Int)
  if 4 * nom ≤ 5 * f && 5 * f ≤ 6 * nom then some f else none

/-- The frequency word of a new sample (R390, R391, R407): `old` is the source before it, `now` the new sample's words. -/
def freqStep (fnom rate nfc : Nat) (old : FreqSource) (p : Pipe) (angV1 angI1 : Int) (prior : Option PSample) : Pipe :=
  let raws := if old = p.source then p.raws else []
  let raw := match p.source, prior with
    | .v1, some b => some (freqRaw fnom rate nfc angV1 b.angV1)
    | .i1, some b => some (freqRaw fnom rate nfc angI1 b.angI1)
    | _, _ => none
  let raws := match raw with
    | none => []
    | some f => if f.isNone && old != p.source then [] else (f :: raws).take (4 * nfc)
  let valid := raws.length == 4 * nfc && raws.all (·.isSome)
  let sum := (raws.map (·.getD 0)).foldl (· + ·) 0
  { p with raws := raws, fvalid := valid,
           fword := if valid then (roundDiv sum (4 * nfc * nfc)).toNat else if p.fword = 0 then fnom * 2 ^ 24 else p.fword }

/-- The frequency in effect for a new sample (R381): the word N_fc samples earlier, held for 2 s. -/
def freqInEffect (rate : Nat) (p : Pipe) (prior : Option PSample) : Pipe :=
  match prior with
  | some b =>
    if b.fvalid then { p with fr := (roundDiv (b.fword * 100) (2 ^ 24)).toNat, frAge := 0 }
    else if 2 * rate ≤ p.frAge then { p with fr := 0 } else { p with frAge := p.frAge + 1 }
  | none => if 2 * rate ≤ p.frAge then { p with fr := 0 } else { p with frAge := p.frAge + 1 }

/-- The parity kept with a word (R400). -/
def parityOfWord (v : Int) : Nat := parityOf 40 (word40 v)

/-- The words of a window entry that later samples read (R400). -/
def recWords (r : PSample) : List Int := r.x ++ [r.angV1, r.angI1, (r.fword : Int)]

/-- The parity kept with a raw frequency. -/
def rawParity (x : Option Int) : Nat := (x.map parityOfWord).getD 0

/-- All words of a position for a pipeline sample (R386): its state with the new windows and words, and whether a word carries OVF
under R399. -/
def formWords (s : State) (p : Pipe) (i : PipeIn) : Pipe × Bool :=
  let fnom := fNom s
  let rate := pipeRate s
  let nfc := nFc s
  let nhc := nHc s
  let prior := p.win[nfc - 1]?
  let past := if p.words = [] then [] else (p.newest :: p.past).take 64
  let p := freqInEffect rate p prior
  let fr := if p.fr = 0 then fnom * 100 else p.fr
  let ten := tenWords i.words
  let cur : PSample := { idx := i.idx, x := ten.map (·.1), fl := ten.map (·.2), angV1 := 0, angI1 := 0, fword := 0, fvalid := false,
                         par := [] }
  let win := cur :: p.win
  let co := (win.take nfc).map (fun y => coefficients fnom rate y.idx.cnt)
  let kf := correctionOf fnom rate nfc fr
  let kh := correctionOf fnom rate nhc fr
  let full := fun (q : Nat) => windowFlags nfc nfc win q
  let channel := fun (q : Nat) =>
    let xs := series win nfc q
    let f := fourier kf co xs
    let h := fourier kh (co.take nhc) (xs.take nhc)
    let hf := windowFlags nfc nhc win q
    let r := saturate partMax (rmsOf nfc xs)
    (([ (cur.x.getD q 0, windowFlags nfc 1 win q) ] ++ phasorWords f.1 f.2 (full q) ++ phasorWords h.1 h.2 hf
      ++ [(peakOf (xs.take nhc), hf), (r.1, heldFlags r.2 (full q))]).zipIdx.map (fun w => (q * 16 + w.2, w.1)))
  let single := ((List.range 10).map channel).flatten
  let part := fun (q : Nat) => ((wordIn fnom single q 1).1, (wordIn fnom single q 2).1)
  let three := fun (a : Nat) => full a ||| full (a + 1) ||| full (a + 2)
  let derived := fun (q : Nat) (v : Int × Int) (fl : Nat) => (phasorWords v.1 v.2 fl).zipIdx.map (fun w => (q * 16 + 1 + w.2, w.1))
  let seqs := fun (q a : Nat) => ((List.range 3).map (fun j =>
    derived (q + j) (sequencePhasor ((j + 1) % 3) (part a) (part (a + 1)) (part (a + 2))) (three a))).flatten
  let diff := fun (q a b : Nat) => derived q ((part a).1 - (part b).1, (part a).2 - (part b).2) (full a ||| full b)
  let words := single ++ seqs 10 0 ++ seqs 13 4 ++ diff 16 4 5 ++ diff 17 5 6 ++ diff 18 6 4
  let word := wordIn fnom words
  let old := p.source
  let p := freqSource p (word 13 3) (word 10 3)
  let p := freqStep fnom rate nfc old p (word 13 4).1 (word 10 4).1 prior
  let fbase := match p.source with
    | .v1 => [4, 5, 6]
    | .i1 => [0, 1, 2]
    | .none => []
  let ffl := fbase.foldl (fun a q => a ||| windowFlags nfc (5 * nfc) win q) (if p.fvalid then 0 else fINV)
  let words := words ++ [(19 * 16 + 11, ((p.fword : Int), ffl))]
  let cur := { cur with angV1 := (word 13 4).1, angI1 := (word 10 4).1, fword := p.fword, fvalid := p.fvalid }
  let cur := { cur with par := (recWords cur).map parityOfWord }
  ({ p with rawPar := p.raws.map rawParity, win := (cur :: p.win).take (5 * nfc), filled := min (p.filled + 1) nfc, past := past,
            words := words.map (fun w => (w.1, (w.2.1, w.2.2 % fSAT))), idx := i.idx, blocked := i.blocked },
   words.any (fun w => hasFlag w.2.2 fSAT))

/-- The window of a position is full (R404). -/
def windowFull (s : State) (pos : Nat) : Bool := decide (nFc s ≤ (pipeGet s pos).filled)

/-- Key of the saturation fault of a slot. -/
def keySat (pos : Nat) : FaultKey := { code := 0x3200, scope := 2, inst := pos }

/-- Saturation fault (Table 10.6): it stands from 1.0 s of OVF under R399 to 1.0 s without; of network slots alone, as the
scope of Table 19.6 has no local stream (log 22). -/
def saturation (s : State) (pos : Nat) (sat : Bool) : State :=
  let p := pipeGet s pos
  let rate := pipeRate s
  let p := if sat then { p with ovfRun := p.ovfRun + 1, ovfFree := 0, ovfAt := s.now }
    else { p with ovfRun := 0, ovfFree := p.ovfFree + 1 }
  let s := pipePut s pos p
  if 1024 ≤ pos then s
  else if rate < p.ovfRun && !faultStands s (keySat pos) then arise s (keySat pos) 0 (posGen s pos * 1024 + pos) []
  else if rate < p.ovfFree && faultStands s (keySat pos) then causeGone s (keySat pos)
  else s

/-- A position that forms no words shows no OVF: 1.0 s after the last one, at the next interval, the cause has gone (log 135). -/
def saturationQuiet (s : State) : State :=
  (((s.faults.recs.map (·.2)).filter (fun r => r.code / 64 == 0x3200 / 64)).map (·.inst)).foldl (fun s pos =>
    if ticksPerSec ≤ s.now - (pipeGet s pos).ovfAt && faultStands s (keySat pos) then causeGone s (keySat pos) else s) s

/-! Two lanes (R396, R397, R400) -/

/-- A word with a bit of its memory flipped. -/
def flipBit (bit : Nat) (v : Int) : Int := int40 (word40 v ^^^ 2 ^ bit)

/-- The memories of a lane after what has upset them. -/
def upsetMemory (u : Option LaneUpset) (p : Pipe) : Pipe :=
  match u with
  | some (.window back q bit) => { p with win := p.win.modify back (fun r =>
      if q = 10 then { r with angV1 := flipBit bit.val r.angV1 }
      else if q = 11 then { r with angI1 := flipBit bit.val r.angI1 }
      else if q = 12 then { r with fword := word40 (flipBit bit.val r.fword) }
      else { r with x := r.x.modify q (flipBit bit.val) }) }
  | some (.raw back bit) => { p with raws := p.raws.modify back (fun x => x.map (flipBit bit.val)) }
  | some (.span back ch bit) =>
    { p with span := p.span.modify back (fun r => { r with words := r.words.modify ch (fun w => (flipBit bit.val w.1, w.2)) }) }
  | _ => p

/-- Every word of the memories reads with the parity kept with it (R400). -/
def memoryOk (p : Pipe) : Bool :=
  p.win.all (fun r => r.par == (recWords r).map parityOfWord) && p.rawPar == p.raws.map rawParity && p.span.all (fun r => r.par == r.words.map (fun w => parityOfWord w.1))

/-- The words a lane shows, after what has upset its logic. -/
def upsetWords (u : Option LaneUpset) (l : Tab (Int × Nat)) : Tab (Int × Nat) :=
  match u with
  | some (.word q kind mask) =>
    l.map (fun w => if w.1 = q * 16 + kind then (w.1, (int40 (word40 w.2.1 ^^^ mask.toNat), w.2.2)) else w)
  | _ => l

/-- What one lane makes of a sample: its memories, the words it shows, the index of the pipeline sample if it formed one, whether a word
carries OVF under R399, and whether its memories read with good parity. -/
structure LaneOut where
  pipe : Pipe
  words : Tab (Int × Nat)
  idx : Option SIndex
  sat : Bool
  parityOk : Bool

/-- One lane takes a sample of a position: conversion, decimation, words. An unbound slot's sample is converted alone (R294). -/
def laneTake (s : State) (p : Pipe) (u : Option LaneUpset) (formed : Bool) (smp : Sample) : LaneOut :=
  let p := upsetMemory u p
  let ok := memoryOk p
  let own := sampleWords smp
  let plain := upsetWords u (own.zipIdx.map (fun w => (w.2 * 16, w.1)))
  if !formed then { pipe := p, words := plain, idx := none, sat := false, parityOk := ok }
  else
    let span := ({ idx := smp.idx, words := own, blocked := smp.blocked, par := own.map (fun w => parityOfWord w.1) } :: p.span).take (taps s)
    let input := if decim s = 1 then some { idx := smp.idx, words := own, blocked := smp.blocked : PipeIn } else decimate s span
    let p := if decim s = 1 then p else { p with span := span }
    match input with
    | none => { pipe := p, words := plain, idx := none, sat := false, parityOk := ok }
    | some i =>
      let r := formWords s p i
      let w := upsetWords u r.1.words
      { pipe := { r.1 with words := w }, words := w, idx := some i.idx, sat := r.2, parityOk := ok }

/-- The first word on which two lanes differ: quantity, kind and the XOR of the values (R397, R410). -/
def laneDiffer (x y : Tab (Int × Nat)) : Option (Nat × Nat × Nat) :=
  ((x.zip y).find? (fun p => p.1.2 != p.2.2)).map (fun p => (p.1.1 / 16, p.1.1 % 16, word40 p.1.2.1 ^^^ word40 p.2.2.1))

end Sys2Proof.Machine
end

