-- ==== Sys2Proof/Machine/Feeder.lean ====
section
/-! DEFINITION. The feeder elements of a zone: breaker status, cold-load pickup, 27, 59, 81, 49, broken conductor, 50BF and
79, as functions of the zone in one sample (chapter 12). -/
namespace Sys2Proof.Machine

/-! Inputs and breaker status (R454 to R457, Table 12.1) -/

/-- Cause present at a group-lost fault of the channel's group (Table 3.2, R575). -/
def groupLost (s : State) (cc : Nat) : Bool :=
  faultStands s { code := 0x3B00 + 0x400 * (cc / 16), scope := 5, inst := cc / 16 }

/-- Open-wire detection reports the input (R456, Table 14.3), or a coupler fault stands for it (R574). -/
def wireOpen (s : State) (cc : Nat) : Bool :=
  (Tab.get {} s.field.ch cc).coupler || (match (Tab.get {} s.field.ch cc).up with
    | some w => w.getLsbD 56
    | none => false)

/-- This unit's own input is invalid (R456). -/
def inputBad (s : State) (cc : Nat) : Bool := groupLost s cc || wireOpen s cc

/-- An input is invalid as the zones take it: from the sample index to which the change belongs (R454), in a formed pair as the Active has
it (R633, R485; log 34). -/
def inputInvalid (s : State) (cc : Nat) : Bool := (Tab.get {} s.field.ch cc).invalid

/-- A Restrict stands on the input's part of this unit (Table 3.2, R720, R726). -/
def inputRestricted (s : State) (cc : Nat) : Bool :=
  s.pair.state != .standby && (groupLost s cc || (match faultGet s { code := 0x3AC0 + 0x400 * (cc / 16), scope := 4, inst := cc } with
    | some f => causePresent f && f.level == 3
    | none => false))

/-- The state of an input as the zones take it. -/
def inputState (s : State) (cc : Nat) : Bool := (Tab.get {} s.field.ch cc).state

/-- The inputs a zone names for its breaker. -/
def breakerInputs (r : Rods) (z : Nat) : List Nat :=
  match zChannel r z 52 with
  | none => []
  | some a => match zChannel r z 53 with
    | none => [a]
    | some b => [a, b]

/-- The status of a breaker slot for a zone (Table 12.1, Table 7.5). -/
def slotStatus (s : State) (z : Nat) (test : Bool) : BrkStatus :=
  let b := Tab.get {} s.streams.brk z
  let bad := match b.quality with
    | some q => badFlags test (qualityFlags (q.setWidth 14))
    | none => false
  if b.phase != .admitted || b.expired || bad then .invalid
  else match b.dbpos.toNat with
    | 0 => .intermediate
    | 1 => .opened
    | 2 => .closed
    | _ => .bad

/-- The breaker status from its source (Table 12.1). -/
def sourceStatus (s : State) (z : Nat) (test : Bool) : BrkStatus :=
  match breakerInputs (rods s) z with
  | [] => slotStatus s z test
  | a :: t =>
    if (a :: t).any (inputInvalid s) then .invalid
    else match t with
      | [] => if inputState s a then .closed else .opened
      | b :: _ => match inputState s a, inputState s b with
        | false, true => .opened
        | true, false => .closed
        | false, false => .intermediate
        | true, true => .bad

/-- The status is known. -/
def statusKnown (b : BrkStatus) : Bool := b == .opened || b == .closed
/-- The status is bad or invalid. -/
def statusBad (b : BrkStatus) : Bool := b == .bad || b == .invalid

/-- The breaker status takes effect in this sample (R454, R457). -/
def statusStep (s : State) (z : Nat) (x : Zone) : Zone :=
  let b := sourceStatus s z x.test
  let run := if b = .intermediate then x.interm + 1 else 0
  { x with brk := if b = .intermediate && pipeRate s < run then .bad else b, interm := run }

/-- A zone that starts takes the status its source has then (R498). -/
def statusNow (s : State) (z : Nat) (x : Zone) : Zone :=
  let b := sourceStatus s z x.test
  let run := if b = .intermediate then x.interm else 0
  { x with brk := if b = .intermediate && pipeRate s < run then .bad else b, interm := run }

/-- The blocking input is active (R472). -/
def blockActive (s : State) (z : Nat) : Bool :=
  match zChannel (rods s) z 54 with
  | some cc => inputState s cc && !inputInvalid s cc
  | none => false

/-! Cold-load pickup (R470, R471, R498) -/

/-- Cold time in samples. -/
def coldTime (s : State) (z : Nat) : Nat := [1, 2, 5, 10, 20, 30, 60].getD ((zRod (rods s) z 42 - 1) % 7) 1 * 60 * pipeRate s

/-- One sample of cold-load pickup, after the status; a restore time that runs out while the status is not known ends in the first
sample in which it is (DEDUCED, log 145). -/
def coldStep (s : State) (z : Nat) (x : Zone) : Zone :=
  let x := { x with restore := if statusKnown x.brk then x.restore - 1 else max (min x.restore 1) (x.restore - 1) }
  let first := !x.known && statusKnown x.brk
  let x := if first then { x with known := true, armed := x.brk == .opened } else x
  if !zClpOn (rods s) z then { x with armed := false, restore := 0, openRun := 0 }
  else match x.brk with
    | .opened => { x with openRun := min (x.openRun + 1) (coldTime s z + 1), armed := x.armed || decide (coldTime s z < x.openRun + 1) }
    | .closed => if x.armed then { x with openRun := 0, armed := false, restore := coldTime s z / 10 } else { x with openRun := 0 }
    | _ => x

/-! What one evaluation works on -/

/-- A Restrict on the local streams stands for a local position (Tables 13.6, 3.2). -/
def localRestricted (s : State) (pos : Nat) : Bool :=
  1024 ≤ pos && (faultStands s (keyU 0x4100) || faultStands s (keyU 0x41C0) || faultStands s (keyU 0x42C0))

/-- A position cannot be used by any element: not full, blocked, or restricted (R394, R404, R720). -/
def posHeld (s : State) (pos : Nat) : Bool := !windowFull s pos || (pipeGet s pos).blocked || localRestricted s pos

/-- Two positions are mutually synchronised (R278). -/
def synchronised (s : State) (a b : Nat) : Bool :=
  let x := Tab.get {} s.streams.sv a
  let y := Tab.get {} s.streams.sv b
  if a = b || (1024 ≤ a && 1024 ≤ b) then true
  else if a < 1024 && b < 1024 then
    x.smpSynch != 0 && x.smpSynch == y.smpSynch && (x.gm.isNone || y.gm.isNone || x.gm == y.gm)
  else (if a < 1024 then x else y).smpSynch == 2 && reportedTime s == .locked

/-- The main and voltage streams differ and are not mutually synchronised (R279). -/
def unsynchronised (s : State) (z : Nat) : Bool :=
  match zMain (rods s) z, zVolt (rods s) z with
  | some m, some v => !synchronised s m v
  | _, _ => false

/-- The context of zone z, with the zone as it stands. -/
def zoneCtx (s : State) (z : Nat) (x : Zone) : ZoneCtx :=
  let main := zMain (rods s) z
  { s := s, z := z, x := x, block := x.block
    hold := (match main with
      | some p => posHeld s p
      | none => true)
    blockLost := (match zChannel (rods s) z 54 with
      | some cc => inputRestricted s cc
      | none => false)
    voltHold := (match zVolt (rods s) z with
      | some v => !windowFull s v || localRestricted s v || ((voltSample s z).map (·.blocked)).getD false || (main != some v && unsynchronised s z)
      | none => true) }

/-! 27, 59, 81 (R458 to R463) -/

/-- The three phase-to-phase magnitudes, and the flags they carry. -/
def lineMags (c : ZoneCtx) : List Int := [16, 17, 18].map (fun q => (voltWord c.s c.z q 3).1)
def lineFlags (c : ZoneCtx) : Nat := [16, 17, 18].foldl (fun a q => a ||| (voltWord c.s c.z q 3).2) 0
/-- The largest of three magnitudes. -/
def largest (l : List Int) : Int := l.foldl max 0

/-- Table 12.2: starts and stays started. -/
def start27 (us : Int) (l : List Int) : Bool := l.all (fun m => decide (m < us)) && l.any (fun m => decide (us ≤ 10 * m))
def stay27 (us : Int) (l : List Int) : Bool := decide (100 * largest l < 103 * us) && l.any (fun m => decide (us ≤ 10 * m))
def start59 (us : Int) (l : List Int) : Bool := l.any (fun m => decide (us ≤ m))
def stay59 (us : Int) (l : List Int) : Bool := decide (97 * us ≤ 100 * largest l)

/-- A delay of n × 0.1 s in samples, with its default n. -/
def tenths (s : State) (n d : Nat) : Nat := (if n = 0 then d else n) * (pipeRate s / 10)

/-- Threshold and dropout words of 81 (R461); over-frequency codes count from 16. -/
def freqThreshold (fnom code : Nat) : Int :=
  if code ≤ 15 then roundDiv ((5 * fnom - code : Int) * 2 ^ 24) 5 else roundDiv ((5 * fnom + (code - 15) : Int) * 2 ^ 24) 5
def freqDropout (fnom code : Nat) : Int :=
  if code ≤ 15 then roundDiv ((50 * fnom - 10 * code + 1 : Int) * 2 ^ 24) 50
  else roundDiv ((50 * fnom + 10 * (code - 15) - 1 : Int) * 2 ^ 24) 50

/-- 81 is start-only (R463). -/
def startOnly81 (r : Rods) (z : Nat) : Bool := decide (16 ≤ zRod r z 37)
/-- Delay of 27, 59 or 81 in samples. -/
def voltDelay (s : State) (z n : Nat) : Nat :=
  let k := zRod (rods s) z
  if n = 9 then tenths s (k 32) 10 else if n = 10 then tenths s (k 35) 10
  else tenths s (if startOnly81 (rods s) z then k 37 - 15 else k 37) 5

/-- The frequency word's source is V1 (R461). -/
def freqFromV1 (c : ZoneCtx) : Bool :=
  match voltSample c.s c.z with
  | some x => x.source == .v1
  | none => false

/-- 27, 59 or 81 is frozen for want of its words (R461, R484), the Restrict of Table 12.8 apart. -/
def voltUnusable (c : ZoneCtx) (n : Nat) : Bool :=
  c.hold || c.voltHold
    || (if n = 11 then badFlags c.x.test (voltWord c.s c.z 19 11).2 || !freqFromV1 c else badFlags c.x.test (lineFlags c))

/-- A Restrict on an input freezes 27, 59 or 81 (Table 3.2). -/
def voltInputLost (c : ZoneCtx) (n : Nat) : Bool := c.blockLost || (n == 9 && (breakerInputs c.r c.z).any (inputRestricted c.s))

/-- A Restrict freezes 27, 59 or 81 (Tables 3.2, 12.8). -/
def voltRestricted (c : ZoneCtx) (n : Nat) : Bool := voltInputLost c n || faultStands c.s { code := 0x35C0, scope := 1, inst := c.z }

/-- One sample of 27, 59 or 81. -/
def voltStep (c : ZoneCtx) (n : Nat) (e : El) : El :=
  if c.block || (n = 9 && c.x.brk = .opened) then {}
  else if voltUnusable c n || voltRestricted c n then freezeStep (pipeRate c.s) e
  else
    let delay := voltDelay c.s c.z n
    if n = 11 then
      let code := zRod c.r c.z 36
      let f := (voltWord c.s c.z 19 11).1
      let t := freqThreshold (fNom c.s) code
      let d := freqDropout (fNom c.s) code
      if code ≤ 15 then countStep delay (decide (f ≤ t)) (decide (f < d)) e else countStep delay (decide (t ≤ f)) (decide (d < f)) e
    else
      let us : Int := zVoltage c.r c.z (if n = 9 then 30 else 33) * 256
      let l := lineMags c
      if n = 9 then countStep delay (start27 us l) (stay27 us l) e else countStep delay (start59 us l) (stay59 us l) e

/-! 49 (R464 to R468) -/

/-- τ × rate_p. -/
def thermalK (s : State) (z : Nat) : Nat :=
  (if zRod (rods s) z 38 = 0 then 600 else 120 * zRod (rods s) z 38) * pipeRate s

/-- θ after a sample at current i, in 2^-60 (R464). -/
def thermalNext (k f i theta : Nat) : Nat :=
  let q := 1024 * 2 ^ 60
  if 1024 * (f * f) ≤ i * i then (roundDiv (theta * (k - 1) + q : Nat) k).toNat
  else (roundDiv (theta * (k - 1) * (f * f) + i * i * 2 ^ 60 : Nat) (k * (f * f))).toNat

/-- q of the first sample as θ (R467). -/
def thermalFirst (f i : Nat) : Nat :=
  if 1024 * (f * f) ≤ i * i then 1024 * 2 ^ 60 else (roundDiv (i * i * 2 ^ 60 : Nat) (f * f)).toNat

/-- The verdicts of 49 for a θ (R465). -/
def thermalVerdict (theta : Nat) (e : El) : El :=
  { e with started := (if e.started then decide (85 * 2 ^ 60 ≤ 100 * theta) else decide (90 * 2 ^ 60 ≤ 100 * theta)),
           operate := (if e.operate then decide (90 * 2 ^ 60 ≤ 100 * theta) else decide (2 ^ 60 ≤ theta)) }

/-- One sample of 49 (R464 to R466, R472, R482): held on unusable rms words, and while the group supply of `Z.BLOCK` is lost (R472, Table 3.2;
DEDUCED, log 155); on the copy in test mode. -/
def thermalStep (c : ZoneCtx) (x : Zone) : Zone :=
  let w := [0, 1, 2].map (fun q => mainWord c.s c.z q 10)
  let drop := fun (y : Zone) => if c.block then elPut y 12 {} else y
  let full := match zMain c.r c.z with
    | some p => windowFull c.s p
    | none => false
  if !full || c.blockLost || w.any (fun a => badFlags x.test a.2) then drop x
  else
    let i := (largest (w.map (·.1))).toNat
    let f := zCurrent c.r c.z 39 * 256
    let k := thermalK c.s c.z
    let x :=
      if !x.thetaOk then { x with theta := thermalFirst f i, thetaCopy := thermalFirst f i, thetaOk := true }
      else if x.test then { x with thetaCopy := thermalNext k f i x.thetaCopy }
      else { x with theta := thermalNext k f i x.theta }
    drop (elPut x 12 (thermalVerdict (if x.test then x.thetaCopy else x.theta) (elGet x 12)))

/-! Broken conductor (R469) -/

/-- The broken-conductor element is frozen in this sample (R484). -/
def brokenHeld (c : ZoneCtx) : Bool :=
  c.hold || c.blockLost || badFlags c.x.test ((mainWord c.s c.z 10 3).2 ||| (mainWord c.s c.z 11 3).2)

/-- One sample of the broken-conductor element, after the overcurrent elements. -/
def brokenStep (c : ZoneCtx) (x : Zone) (e : El) : El :=
  let a := mainWord c.s c.z 10 3
  let b := mainWord c.s c.z 11 3
  let code := zRod c.r c.z 41 - 1
  let k10 : Int := 2 + code / 4
  let ui : Int := zUnitI c.r c.z * 256
  let picked := (List.range 8).any (elStart x)
  if c.block then {}
  else if brokenHeld c then freezeStep (pipeRate c.s) e
  else
    countStep ([1, 5, 10, 30].getD (code % 4) 1 * pipeRate c.s) (!picked && decide (ui ≤ a.1) && decide (k10 * a.1 ≤ 10 * b.1))
      (!picked && decide (9 * ui ≤ 10 * a.1) && decide (95 * k10 * a.1 ≤ 1000 * b.1)) e

/-- Every element of a zone in one sample. -/
def zoneElements (c : ZoneCtx) : Zone :=
  let x := directionsStep c
  let x := overElements { c with x := x }
  let x := [9, 10, 11].foldl (fun x n => if elemOn c.r c.z n then elPut x n (voltStep { c with x := x } n (elGet x n)) else x) x
  let x := if z49On c.r c.z then thermalStep c x else x
  if zBcOn c.r c.z then elPut x 13 (brokenStep c x (elGet x 13)) else x

/-! Zone verdicts, trip command and 50BF (R473, R474, R477, R478) -/

/-- The zone trip verdict, the zone start verdict (R473). -/
def tripVerdict (r : Rods) (z : Nat) (x : Zone) : Bool :=
  (List.range 14).any (fun n => elOperate x n && !(n == 11 && startOnly81 r z))
def startVerdict (x : Zone) : Bool := (List.range 14).any (elStart x)

/-- A non-initiating operate (Table 12.5). -/
def nonInitiating (x : Zone) : Bool := (List.range 6).any (fun n => elOperate x (8 + n)) || x.bf == .operated

/-- The current part of the 50BF criterion (R477): its new value, none while unknown. -/
def bfCurrentPart (c : ZoneCtx) : Option Bool :=
  let w := [0, 1, 2, zNeutral c.r c.z].map (fun q => mainWord c.s c.z q 7)
  let check : Int := (if zRod c.r c.z 43 = 0 then 5 else zRod c.r c.z 43) * zUnitI c.r c.z * 256 / 10
  let full := match zMain c.r c.z with
    | some p => windowFull c.s p
    | none => false
  let bad := fun (a : Int × Nat) => !full || badFlags c.x.test a.2
  let valid := w.filter (fun a => !bad a)
  if valid.any (fun a => decide (check ≤ a.1)) then some true
  else if c.x.bfCurrent && valid.any (fun a => decide (95 * check ≤ 100 * a.1)) then some true
  else if w.any bad then none
  else some false

/-- The 50BF criterion (R477). -/
def bfCriterion (cur : Option Bool) (b : BrkStatus) : Option Bool :=
  let status : Option Bool := match b with
    | .opened => some false
    | .invalid => none
    | _ => some true
  if cur = some true || status = some true then some true
  else if cur = some false && status = some false then some false
  else none

/-- D_bf in samples. -/
def bfDelay (s : State) (z : Nat) : Nat := zRod (rods s) z 44 * 5 * pipeRate s / 1000

/-- One row of Table 12.4 over n samples. -/
def bfStep (s : State) (z n : Nat) (crit : Option Bool) (x : Zone) : Zone :=
  match x.bf with
  | .idle => if x.trip && crit = some true then { x with bf := .timing, bfC := 0 } else x
  | .timing =>
    if crit = none then x
    else if !x.trip || crit = some false then { x with bf := .idle }
    else if bfDelay s z ≤ x.bfC + n then { x with bf := .operated, bfFalse := 0 }
    else { x with bfC := x.bfC + n }
  | .operated =>
    if crit = some false then
      if nHc s ≤ x.bfFalse + n then { x with bf := .idle, bfFalse := 0 } else { x with bfFalse := x.bfFalse + n }
    else { x with bfFalse := 0 }

/-- The trip command drops where it may (R474). -/
def tripDrop (s : State) (verdict : Bool) (x : Zone) : Zone :=
  if x.trip && x.bf != .operated && !verdict && pipeRate s ≤ 10 * x.tripFor then { x with trip := false } else x

/-- Trip command and 50BF over n samples; whether the trip command rose and 50BF entered Operated. -/
def tripStep (c : ZoneCtx) (n : Nat) : Zone × Bool × Bool :=
  let x := c.x
  let v := tripVerdict c.r c.z x
  let rose := !x.trip && v
  let x := if rose then { x with trip := true, tripFor := 0 } else { x with tripFor := if x.trip then x.tripFor + n else 0 }
  let x := tripDrop c.s v x
  if !zBfOn c.r c.z then (x, rose, false)
  else
    let cur := bfCurrentPart c
    let x := { x with bfCurrent := cur.getD x.bfCurrent }
    let y := bfStep c.s c.z n (bfCriterion cur x.brk) x
    (tripDrop c.s v y, rose, x.bf != .operated && y.bf == .operated)

/-! 79 (R479, Table 12.5) -/

/-- Dead time of shot k; reclaim time, in samples. -/
def deadTime (s : State) (z k : Nat) : Nat :=
  if k ≤ 1 then tenths s (zRod (rods s) z 46) 5 else (if zRod (rods s) z 47 = 0 then 10 else zRod (rods s) z 47) * pipeRate s
def reclaimTime (s : State) (z : Nat) : Nat := (if zRod (rods s) z 48 = 0 then 30 else 5 * zRod (rods s) z 48) * pipeRate s

/-- 79 locks out; the time closed without a trip counts from this sample on. -/
def lockOut (x : Zone) : Zone :=
  { x with ar := .lockout, close := false, lockRun := if x.brk = .closed && !x.trip then 1 else 0 }
/-- 79 enters a state with its timer at 0. -/
def arEnter (x : Zone) (a : ArState) : Zone := { x with ar := a, close := false, arTimer := 0 }

/-- 79 is in progress (R480). -/
def inProgress (x : Zone) : Bool := x.ar == .waitOpen || x.ar == .dead || x.ar == .close

/-- The first row of Table 12.5 that holds, over n samples; whether the close failure fault arises. -/
def arStep (s : State) (z n : Nat) (rose bfEntered : Bool) (x : Zone) : Zone × Bool :=
  let rate := pipeRate s
  let shots := zRod (rods s) z 45
  let timed := x.ar == .reclaim || inProgress x
  let x := { x with arTimer := if timed then x.arTimer + n else 0 }
  let ready := fun (reclaim : Bool) =>
    if rose && (nonInitiating x || x.arK == shots) then lockOut x
    else if rose then arEnter x .waitOpen
    else if x.brk = .opened && !x.trip then { x with ar := .open }
    else if statusBad x.brk then lockOut x
    else if reclaim && reclaimTime s z ≤ x.arTimer then { x with ar := .ready, arK := 0 }
    else x
  if bfEntered then (lockOut x, false)
  else match x.ar with
    | .open => (if x.brk = .closed then { arEnter x .reclaim with arK := shots } else x, false)
    | .ready => (ready false, false)
    | .reclaim => (ready true, false)
    | .waitOpen =>
      (if nonInitiating x || x.block || statusBad x.brk then lockOut x
       else if x.brk = .opened && !x.trip then { arEnter x .dead with arK := x.arK + 1 }
       else if rate ≤ x.arTimer then lockOut x
       else x, false)
    | .dead =>
      (if x.brk = .closed then arEnter x .reclaim
       else if rose || x.block || statusBad x.brk then lockOut x
       else if deadTime s z x.arK ≤ x.arTimer then { arEnter x .close with close := true }
       else x, false)
    | .close =>
      if x.brk = .closed then (arEnter x .reclaim, false)
      else if rose || x.block || statusBad x.brk then (lockOut x, false)
      else if rate ≤ 2 * x.arTimer then (lockOut x, true)
      else if rate ≤ 5 * x.arTimer then ({ x with close := false }, false)
      else (x, false)
    | .lockout =>
      let run := if x.brk = .closed && !x.trip then x.lockRun + n else 0
      (if reclaimTime s z < run then { x with ar := .ready, arK := 0, lockRun := 0 } else { x with lockRun := run }, false)

/-- 79 at its start (R498). -/
def arStart (r : Rods) (z : Nat) (x : Zone) : Zone :=
  { x with ar := if z79On r z && x.brk = .closed then .reclaim else .open, arK := if z79On r z && x.brk = .closed then zRod r z 45 else 0,
           arTimer := 0, lockRun := 0, close := false }

/-- What a restart leaves of the direction decisions: the runs of a fault's condition (Table 11.7). -/
def dirRuns (t : Tab DirSt) : Tab DirSt :=
  t.foldl (fun t p => Tab.put {} t p.1 { unavailRun := p.2.unavailRun, availRun := p.2.availRun, restricted := p.2.restricted }) []

/-- Every element, command and state machine of a zone at its reset state; θ, status, test mode, dataset and
the runs of test flags and of fault conditions stay (R156, R482, R498). -/
def zoneFresh (r : Rods) (z : Nat) (x : Zone) : Zone :=
  arStart r z
    { dir := dirRuns x.dir, brk := x.brk, interm := x.interm, known := statusKnown x.brk, theta := x.theta, thetaCopy := x.thetaCopy, thetaOk := x.thetaOk,
      armed := zClpOn r z && x.brk = .opened, test := x.test, block := x.block, ds := x.ds, trace := x.trace, tstRun := x.tstRun,
      cleanRun := x.cleanRun, badRun := x.badRun, inputRun := x.inputRun, voltRun := x.voltRun, voltOk := x.voltOk, syncRun := x.syncRun }

/-! Dataset (Tables 15.2 to 15.4) -/

/-- Sum of 2^n over the bits that hold. -/
def bitsOf (n : Nat) (f : Nat → Bool) : Nat := (List.range n).foldl (fun a i => a + (if f i then 2 ^ i else 0)) 0

/-- A verdict of the zone's elements by its bit in Table 15.3, bits 0 to 9. -/
def elementBit (f : Nat → Bool) (b : Nat) : Bool :=
  match b with
  | 0 => f 0 || f 1 || f 2
  | 1 => f 3 || f 4 || f 5
  | n + 2 => f (n + 6)

/-- OPR and STR (Table 15.3). -/
def oprBits (r : Rods) (z : Nat) (x : Zone) : Nat :=
  bitsOf 14 (fun b => if b < 10 then elementBit (elOperate x) b else if b = 10 then x.bf == .operated
    else z79On r z && (if b = 11 then x.close else if b = 12 then inProgress x else x.ar == .lockout))
def strBits (x : Zone) : Nat :=
  bitsOf 12 (fun b => if b < 10 then elementBit (elStart x) b else if b = 10 then x.bf == .timing else decide (0 < x.restore))

/-- PHS (Table 15.2). -/
def phsBits (x : Zone) : Nat :=
  let set := fun (f : Nat → Bool) => bitsOf 4 (fun p => if p < 3 then f p || f (p + 3) else f 6 || f 7)
  set (elStart x) + 16 * set (elOperate x)

/-- DIR (Table 15.2). -/
def dirBits (x : Zone) : Nat :=
  let any := fun (l : List Nat) (d : Dir) => l.any (fun k => (dirGet x k).confirmed == d)
  bitsOf 4 (fun b => any (if b < 2 then [0, 1, 2] else [3]) (if b % 2 = 0 then .forward else .reverse))

/-- AR_ST (Table 15.2). -/
def arCode (r : Rods) (z : Nat) (x : Zone) : Nat :=
  if !z79On r z then 7
  else match x.ar with
    | .open => 0
    | .ready => 1
    | .reclaim => 2
    | .waitOpen => 3
    | .dead => 4
    | .close => 5
    | .lockout => 6

/-- The flags of every word some element of the zone uses. -/
def usedFlags (c : ZoneCtx) : Nat :=
  let r := c.r
  let join := fun (l : List Nat) => l.foldl (· ||| ·) 0
  let dec := fun (d : Nat) => (mainWord c.s c.z (opQuantity r c.z d) 3).2 ||| (voltWord c.s c.z (polQuantity r c.z d) 3).2
  join ((List.range 9).map (fun n => if elemOn r c.z n then overFlags c n else 0))
    ||| join ((List.range 4).map (fun d => if decisionOn r c.z d then dec d else 0))
    ||| (if z27On r c.z || z59On r c.z then lineFlags c else 0) ||| (if z81On r c.z then (voltWord c.s c.z 19 11).2 else 0)
    ||| (if z49On r c.z then join ([0, 1, 2].map (fun q => (mainWord c.s c.z q 10).2)) else 0)
    ||| (if zBcOn r c.z then (mainWord c.s c.z 10 3).2 ||| (mainWord c.s c.z 11 3).2 else 0)
    ||| (if zBfOn r c.z then join ([0, 1, 2, zNeutral r c.z].map (fun q => (mainWord c.s c.z q 7).2)) else 0)

/-- A Restrict on an input stands on what the zone draws from it (Table 3.2): the breaker's inputs on 50BF, 79, cold-load pickup and 27, and
the blocking input on every element. -/
def inputsLost (c : ZoneCtx) : Bool :=
  ((zBfOn c.r c.z || z79On c.r c.z || zClpOn c.r c.z || z27On c.r c.z) && (breakerInputs c.r c.z).any (inputRestricted c.s))
    || (c.blockLost && (z79On c.r c.z || (List.range 14).any (elemOn c.r c.z)))

/-- An element is frozen or restricted in this sample, whatever else blocks it (Table 15.4). -/
def elementHeld (c : ZoneCtx) (n : Nat) : Bool :=
  elemOn c.r c.z n && ((elGet c.x n).frozen != 0
    || (if n ≤ 8 then overHeld c n
      else if n ≤ 11 then !(n == 9 && c.x.brk == .opened) && (voltUnusable c n || voltRestricted c n)
      else n == 13 && brokenHeld c))

/-- Zone quality (Table 15.4), bit n of the bit-string in bit n; validity in bits 0 and 1: invalid 2, questionable 3. -/
def zoneQ (c : ZoneCtx) : Nat :=
  let out := match zMain c.r c.z with
    | some p => !windowFull c.s p || (pipeGet c.s p).blocked
    | none => true
  let held := (List.range 14).any (elementHeld c) || inputsLost c
  let fl := usedFlags c
  let sub := hasFlag fl fSUB
  let ovf := hasFlag fl fOVF
  let inacc := hasFlag fl fQST || ovf || (hasFlag fl fTST && c.x.test)
  (if out then 2 else if held || sub || inacc then 3 else 0) + (if out || held then 2 ^ 6 else 0) + (if sub then 2 ^ 10 else 0)
    + (if inacc then 2 ^ 9 else 0) + (if ovf then 2 ^ 2 else 0) + (if c.x.test then 2 ^ 11 else 0) + (if c.x.block then 2 ^ 12 else 0)

/-- The dataset of a zone (Table 15.2). -/
def datasetOf (c : ZoneCtx) : Dataset :=
  let x := c.x
  { trip := x.trip, start := startVerdict x, bf := x.bf == .operated, close := x.close,
    lockout := z79On c.r c.z && x.ar == .lockout, q := zoneQ c, opr := oprBits c.r c.z x, str := strBits x, phs := phsBits x,
    dir := dirBits x, arSt := arCode c.r c.z x, arShot := x.arK }

/-- A change of an entry that the form carries (R583); form 4 counts as the element form. -/
def formChanged (form : Nat) (a b : Dataset) : Bool :=
  if form = 0 then !(a.trip == b.trip && a.start == b.start && a.bf == b.bf && a.close == b.close && a.lockout == b.lockout && a.q == b.q)
  else a != b

/-- CMD of Table 17.6. -/
def cmdBits (x : Zone) : Nat :=
  bitsOf 6 (fun b => match b with
    | 0 => x.trip
    | 1 => x.close
    | 2 => x.ds.bf
    | 3 => x.ds.lockout
    | 4 => x.test
    | _ => x.block)

end Sys2Proof.Machine
end

