-- ==== Sys2Proof/Machine/Journal.lean ====
section
/-! DEFINITION. The journal's committer, pages, buckets, disturbance records and the NAND store (chapter 17). -/
namespace Sys2Proof.Machine

/-! Order and the end of an index (R660, R791) -/

/-- a before b in the order of R660: sample index, zone, event code. -/
def entryBefore (a b : Entry) : Bool :=
  a.idx.lt b.idx || (a.idx == b.idx && (a.zone < b.zone || (a.zone == b.zone && a.code < b.code)))

/-- The first entry of a list in the order of R660, earlier queued first among equals. -/
def firstEntry : List Entry → Option Entry
  | [] => none
  | e :: t =>
    match firstEntry t with
    | none => some e
    | some m => if entryBefore m e then some m else some e

/-- Remove the first occurrence of an entry. -/
def removeEntry (l : List Entry) (e : Entry) : List Entry := l.erase e

/-- Entries that may commit now (R791). -/
def committable (s : State) : List Entry := s.journal.queue.filter (fun e => indexEnded s e.idx)

/-- The journal check of step 7 has been made (R692, Table 1.8). -/
def journalOpen (s : State) : Bool :=
  coreRuns s && !(s.power.step == .straps || s.power.step == .laneTest || s.power.step == .journal)

/-- A commit step is ready at the MRAM port (R792): an entry may commit, and the path is not stopped (R689). -/
def commitReady (s : State) : Bool :=
  journalOpen s && storeOn s && !s.journal.stalled && (match s.pair.numbered with
    | (_, e, ok) :: _ => ok || indexEnded s e.idx
    | [] => committable s ≠ [] && !(s.pair.state == .active && s.pair.pairEntries ≠ []))

/-! Pages (R655, R668) -/

/-- Octets an entry occupies: header, payload, padding to 64 (R656). -/
def entrySize (e : Entry) : Nat := 64 + (e.payload.length + 63) / 64 * 64

/-- Host positions whose MAC the image sets (R668). -/
def hosts (r : Rods) : List Nat := (List.range 8).filter (fun h => gHostMac r h != 0)

/-- `released` of R668, for a page's or a record's marks. -/
def released (s : State) (marks : BitVec 8) : Bool :=
  let l := hosts (rods s)
  if l = [] then false
  else if gOverwrite (rods s) then l.all (fun h => marks.getLsbD h)
  else l.any (fun h => marks.getLsbD h)

/-- The page of number n, when it holds entries. -/
def pageGet (s : State) (n : Nat) : Option Page := (s.journal.pages.find? (fun p => p.1 == n)).map (·.2)

/-- Last JSEQ of a page. -/
def pageLast (p : Page) : Nat :=
  match p.entries.getLast? with
  | some c => c.jseq
  | none => 0

/-- Whether page n may be reclaimed for severity sev (R668). -/
def reclaimable (s : State) (sev : Nat) (n : Nat) (p : Page) : Bool :=
  !s.journal.opens.contains (some n) && p.sev ≤ sev && (p.sev != 3 || released s p.marks)

/-- The pair of least weight in a list. -/
def leastBy {α : Type} (w : α → Nat) : List α → Option α
  | [] => none
  | x :: t =>
    match leastBy w t with
    | none => some x
    | some m => if w m < w x then some m else some x

/-- What take_page finds (R668): a free page, or a page to reclaim, or none. -/
def findPage (s : State) (sev : Nat) : Option (Nat × Bool) :=
  let free := freePages s
  if 820 < free || (sev = 3 && 0 < free) then
    -- which free page is not stated: the lowest (log 15)
    match (List.range 8192).find? (fun n => !(s.journal.pages.any (fun p => p.1 == n))) with
    | some n => some (n, false)
    | none => none
  else
    match leastBy (fun p => pageLast p.2) (s.journal.pages.filter (fun p => reclaimable s sev p.1 p.2)) with
    | some p => some (p.1, true)
    | none => none

/-- Octets 0 to 59 of a page's header (Table 17.2). -/
def pageHead (sev gen first : Nat) : List Byte := octets 2 1 ++ octets 1 sev ++ zeros 1 ++ octets 4 gen ++ octets 8 first ++ zeros 44

/-- PCRC of a header (Table 17.2). -/
def pageCrc (sev gen first : Nat) : BitVec 32 := BitVec.ofNat 32 (crc32 (pageHead sev gen first))

/-- The 64 octets of a page's header (Table 17.2). -/
def pageHeader (p : Page) : List Byte := pageHead p.sev p.gen p.first ++ octets 4 p.pcrc.toNat

/-- A page's header passes its PCRC (R692). -/
def pageReads (p : Page) : Bool := p.pcrc == pageCrc p.sev p.gen p.first

/-- A page is taken for severity sev and opened (R668, Table 17.5 step 1), its header written with PGEN + 1. -/
def takePage (s : State) (sev : Nat) : Option State :=
  match findPage s sev with
  | none => none
  | some (n, reclaim) =>
    let s := if reclaim then tallyAdd s 1 (33 + ((pageGet s n).map (·.sev)).getD 0) 1 else s
    let gen := Tab.get 0 s.journal.gens n + 1
    let first := s.journal.jseq + 1
    some { s with journal := { s.journal with
      pages := Tab.insert s.journal.pages n
        { sev := sev, gen := gen, entries := [], used := 64, marks := 0, first := first, pcrc := pageCrc sev gen first }
      gens := Tab.insert s.journal.gens n gen
      opens := s.journal.opens.set sev (some n) } }

/-- The open page of a severity that can hold `size` octets (Table 17.5 step 1), taken where there is none. -/
def roomFor (s : State) (sev size : Nat) : Option (State × Nat) :=
  let fits := match (s.journal.opens.getD sev none).bind (pageGet s) with
    | some p => decide (p.used + size ≤ 4096)
    | none => false
  if fits then some (s, (s.journal.opens.getD sev none).getD 0)
  else
    match takePage s sev with
    | some t => some (t, (t.journal.opens.getD sev none).getD 0)
    | none => none

/-- Change a page. -/
def pageUpd (s : State) (n : Nat) (f : Page → Page) : State :=
  { s with journal := { s.journal with pages := s.journal.pages.map (fun p => if p.1 = n then (n, f p.2) else p) } }

/-- The commit's write at the next offset that failed: the offset is passed (R688). -/
def skipOffset (s : State) (n size : Nat) : State := pageUpd s n (fun p => { p with used := p.used + size })

/-- Fill RAISEJSEQ of a fault's entry (Table 19.5). -/
def fillRaise (e : Entry) (j : Nat) : Entry := { e with payload := e.payload.take 8 ++ octets 8 j ++ e.payload.drop 16 }

/-- Give the JSEQ of the first committed entry of a fault's episode to its later entries that still wait. -/
def fillQueued (k : FaultKey) (j : Nat) : List Entry → List Entry × Bool
  | [] => ([], true)
  | e :: t =>
    if e.fault == some k then
      if field e.payload 0 1 = 1 then (e :: t, false)
      else
        let r := fillQueued k j t
        ((if field e.payload 8 8 = 0 then fillRaise e j else e) :: r.1, r.2)
    else
      let r := fillQueued k j t
      (e :: r.1, r.2)

/-- After the commit of a fault's entry: RAISEJSEQ for the episode (R736, Table 19.5). -/
def noteRaise (s : State) (e : Entry) (j : Nat) : State :=
  match e.fault with
  | none => s
  | some k =>
    if field e.payload 8 8 != 0 then s
    else
      let q := fillQueued k j s.journal.queue
      let s := { s with journal := { s.journal with queue := q.1 } }
      match faultGet s k with
      | some r => if q.2 && r.raiseJseq = 0 then faultPut s k { r with raiseJseq := j } else s
      | none => s

/-- Apply a marks entry at its commit (R669, R703): page ranges by JSEQ, and records by RECNO. -/
def applyMarks (s : State) : Nat → List Byte → State
  | 0, _ => s
  | n + 1, l =>
    if l.length < 16 then s
    else
      let h := field l 0 1
      let a := field l 4 6
      let b := field l 10 6
      let bit : BitVec 8 := BitVec.ofNat 8 (2 ^ h)
      let s :=
        if field l 1 1 = 0 then
          { s with journal := { s.journal with pages := s.journal.pages.map (fun p =>
              if p.2.entries ≠ [] && p.2.entries.all (fun c => a ≤ c.jseq && c.jseq ≤ b) then (p.1, { p.2 with marks := p.2.marks ||| bit })
              else p) } }
        else
          { s with journal := { s.journal with store := s.journal.store.map (fun r =>
              if r.recno = field l 4 4 then { r with marks := r.marks ||| bit } else r) } }
      applyMarks s n (l.drop 16)

/-- A record's index entry is committed: the record is no longer pending (R677). A split-branch body that waits for its number (R687)
takes it from its index. -/
def noteIndex (s : State) (e : Entry) (j : Nat) : State :=
  let recno := field e.payload 0 4
  let mine := fun (r : Stored) => r.recno == recno || (e.code == 0x4402 && r.recno == 0)
  { s with journal := { s.journal with
    recno := max s.journal.recno recno
    records := s.journal.records.filter (fun r => r.recno != recno)
    store := s.journal.store.map (fun r => if mine r then { r with recno := recno, jseq := j } else r) } }

/-- The CRC-32 of a control copy (R664). DESIGN CHOICE (log 151): the spec lists what the copy holds and gives no layout, so its octets are
those of an unstated layout. -/
def ctlCrc (c : Ctl) : BitVec 32 :=
  let place := fun (o : Option (Nat × Nat)) => (match o with
    | some p => [1, p.1, p.2]
    | none => [0, 0, 0])
  BitVec.ofNat 32 (crc32 (ownPayload 41 ([c.jseq, c.page, c.offset, c.ecrc.toNat] ++ (c.opens.map place).flatten ++ [c.free])))

/-- A control copy passes its CRC (R692). -/
def ctlReads (c : Ctl) : Bool := c.crc == ctlCrc c

/-- Write the older control copy (R664). -/
def writeControl (s : State) (page offset : Nat) (jseq : Nat) (crc : BitVec 32) : State :=
  let opens := s.journal.opens.map (fun o => o.bind (fun n => (pageGet s n).map (fun p => (n, p.used))))
  let c : Ctl := { jseq := jseq, page := page, offset := offset, ecrc := crc, free := freePages s, opens := opens }
  let c := { c with crc := ctlCrc c }
  let age := fun (o : Option Ctl) => ((o.map (·.jseq + 1)).getD 0 : Nat)
  if age s.journal.ctlA ≤ age s.journal.ctlB then { s with journal := { s.journal with ctlA := some c } }
  else { s with journal := { s.journal with ctlB := some c } }

/-- Write an entry on page n and make it committed (Table 17.5 steps 2 to 5). -/
def writeEntry (s : State) (n : Nat) (e : Entry) : State :=
  let j := s.journal.jseq + 1
  let crc := BitVec.ofNat 32 (entryCrc j s.journal.lastCrc.toNat e)
  let off := ((pageGet s n).map (·.used)).getD 64
  let c : Committed := { jseq := j, prevCrc := s.journal.lastCrc, ecrc := crc, entry := e }
  let s := pageUpd s n (fun p => { p with entries := p.entries ++ [c], used := p.used + entrySize e, marks := 0 })
  let s := { s with journal := { s.journal with jseq := j, lastCrc := crc, stalled := false } }
  let s := noteRaise (writeControl s n off j crc) e j
  if e.code = 0x4C00 then applyMarks s 60 e.payload
  else if e.code / 64 * 64 = 0x4400 then noteIndex s e j
  else s

/-- Judge the journal's space faults (Table 17.12) and the guarantee (R654). -/
def journalFaults (s : State) : State :=
  let s := judgeFault s (keyU 0x4540) 0 none16 (freePages s ≤ 820)
  syncGuarantee (judgeFault s (keyU 0x4580) 0 none16 (findPage s 3).isNone)

/-- An entry that fails twice: the Withdraw-level fault, which names it (R688). -/
def commitFailed (s : State) (e : Entry) : State :=
  arise s (keyU 0x4600) 0 none16 (octets 2 e.code ++ octets 2 e.zone ++ octets 6 e.idx.sec ++ octets 2 e.idx.cnt)

/-- The outcome of placing an entry (Table 17.5, R688 to R690). -/
inductive Placed
  /-- committed -/
  | done (s : State)
  /-- no page: the entry stays, or is refused -/
  | noPage
  /-- failed twice: the state with the offsets passed -/
  | failed (s : State)
deriving DecidableEq, Repr

/-- Place an entry by the commit protocol, with one repeat at the next offset (R688). -/
def placeCommit (s : State) (e : Entry) (reads : CommitReads) : Placed :=
  match roomFor s e.sev (entrySize e) with
  | none => .noPage
  | some (t, n) =>
    if reads.first then .done (writeEntry t n e)
    else
      match roomFor (skipOffset t n (entrySize e)) e.sev (entrySize e) with
      | none => .noPage
      | some (u, m) => if reads.second then .done (writeEntry u m e) else .failed (skipOffset u m (entrySize e))

/-- Waiting S3 entries enter the queue in the order of R660 as places fall free (R662). -/
def drainHolds : Nat → State → State
  | 0, s => s
  | n + 1, s =>
    if 64 ≤ (queueLoad s).length then s
    else
      match firstEntry (s.journal.holds.map (·.2)) with
      | none => s
      | some e =>
        match s.journal.holds.find? (fun h => h.2 == e) with
        | none => s
        | some h => drainHolds n (placeEntry { s with journal := { s.journal with holds := s.journal.holds.erase h } } e)

/-- The Active sends each entry with its number (R634, R661). -/
def sendNumbered (s : State) (before : State) (e : Entry) : State :=
  if s.pair.state == .active && sharesJournal s then carrySend s 1 (.jentry (carriedOf (before.journal.jseq + 1) before.journal.lastCrc.toNat e))
  else s

/-- The next entry by the commit protocol (R664, R791): the first committable one in the order of R660; at the head of a
stopped path, the entry that stopped it (R689). -/
def commitNext (s : State) (reads : CommitReads) : State :=
  match firstEntry (committable s) with
  | none => s
  | some e =>
    let without := fun (t : State) => { t with journal := { t.journal with queue := removeEntry t.journal.queue e } }
    match placeCommit (without s) e reads with
    | .done t => journalFaults (drainHolds 64 (sendNumbered t s e))
    | .failed t => drainHolds 64 (commitFailed t e)
    | .noPage =>
      if e.sev = 3 then journalFaults { s with journal := { s.journal with stalled := true } }
      else drainHolds 64 (tallyAdd (without s) 1 32 1)

/-- The Standby's copy of a pair entry: equal but for ORIGIN, which is the numbering Active's (R661). -/
def samePair (x e : Entry) : Bool := { x with origin := 0, fault := none } == { e with origin := 0, fault := none }

/-- Compare a numbered pair entry with the copies held: the match leaves, and earlier held ones were refused by the Active and are
tallied (R661, R799); none when there is no match. -/
def comparePair (s : State) (e : Entry) : Option State :=
  let l := s.pair.pairEntries
  match l.findIdx? (fun x => samePair x e) with
  | some i => some (tallyAdd { s with pair := { s.pair with pairEntries := l.drop (i + 1) } } 1 32 i)
  | none => none

/-- The check of a numbered entry goes back to the Active (R661). -/
def checkBack (s : State) (j crc : Nat) : State := carrySend s 1 (.jcheck j (BitVec.ofNat 32 crc))

/-- The first entry that this unit holds with its number (R661): compared, and the check sent, before it is committed, once its index has
ended; none when the journal check fails. -/
def commitNumbered (s : State) (reads : CommitReads) : Option State :=
  match s.pair.numbered with
  | [] => some s
  | (j, e, ok) :: rest =>
    if !ok && !indexEnded s e.idx then some s
    else
      match (if ok then some s else (comparePair s e).map (fun t => checkBack t j (entryCrc j t.journal.lastCrc.toNat e))) with
      | none => none
      | some s =>
        if j != s.journal.jseq + 1 then none
        else
          match placeCommit { s with pair := { s.pair with numbered := rest } } e reads with
          | .done t => some (journalFaults (drainHolds 64 t))
          | .failed t => some (drainHolds 64 (commitFailed t e))
          | .noPage => some (journalFaults { s with journal := { s.journal with stalled := true } })

/-- Commit everything in the queue and the holds, each entry read back well (Table 3.5 step 5). -/
def commitAll : Nat → State → State
  | 0, s => s
  | n + 1, s =>
    if s.journal.queue = [] then s
    else
      match firstEntry s.journal.queue with
      | none => s
      | some e =>
        let without := { s with journal := { s.journal with queue := removeEntry s.journal.queue e } }
        match placeCommit without e { first := true, second := true } with
        | .done t => commitAll n (drainHolds 64 t)
        | _ => commitAll n (drainHolds 64 (if e.sev = 3 then tallyAdd without 1 41 1 else tallyAdd without 1 32 1))

/-! Buckets (R666, R667) -/

/-- TOKEN_REFILL: every bucket gains one token up to its depth (R666). -/
def refillBuckets (s : State) : State :=
  { s with journal := { s.journal with
    buckets := (s.journal.buckets.map (fun p => (p.1, { p.2 with used := p.2.used - 1 }))).filter (fun p => p.2.used != 0 || p.2.suppressed != 0) } }

/-- TOKEN_REFILL (R666). -/
def execTokenRefill (s : State) : Host.Outcome State Fault Refusal := run (fun s => if coreRuns s then refillBuckets s else s) s

/-- A key's suppression summary is queued and its count restarts (R667). -/
def flushBucket (s : State) (code zone : Nat) : State :=
  let k := code * 65536 + zone
  let b := Tab.get {} s.journal.buckets k
  if b.suppressed = 0 then s
  else
    submitEntry { s with journal := { s.journal with buckets := Tab.put {} s.journal.buckets k (if b.used = 0 then {} else { used := b.used, sev := b.sev }) } }
      (summaryEntry s code zone b)

/-- SUPPRESSION_SUMMARY: 60 s after a key's first suppression (R667). -/
def execSuppressionSummary (code zone : Nat) (s : State) : Host.Outcome State Fault Refusal :=
  run (fun s => if coreRuns s then flushBucket s code zone else s) s

/-! Marks (R703) -/

/-- A waiting mark as its 16 octets. -/
def markOctets (m : Nat × Bool × Nat × Nat) : List Byte :=
  octets 1 m.1 ++ octets 1 (if m.2.1 then 1 else 0) ++ zeros 2
    ++ (if m.2.1 then octets 4 m.2.2.1 ++ zeros 8 else octets 6 m.2.2.1 ++ octets 6 m.2.2.2)

/-- MARKS_ENTRY: up to 60 waiting marks leave in one entry (R703). -/
def execMarksEntry (s : State) : Host.Outcome State Fault Refusal :=
  run (fun s =>
    if !coreRuns s || s.recallSvc.waiting = [] then s
    else
      let now := s.recallSvc.waiting.take 60
      journalEntry { s with recallSvc := { s.recallSvc with waiting := s.recallSvc.waiting.drop 60 } }
        (unitEntry s 0x4C00 1 0 none16 none16 (now.map markOctets).flatten)) s

/-! Disturbance records (R676 to R680) -/

/-- A sample index in a record: 6 octets of second, 2 of smpCnt. -/
def indexOctets (i : SIndex) : List Byte := octets 6 i.sec ++ octets 2 i.cnt

/-- Code of a strap in a record (Table 17.10). -/
def rateCode (s : State) : Nat := strap s 2 % 8
def fnomCode (s : State) : Nat := strap s 1 % 8

/-- A ring record as its 32 octets (Table 17.9). -/
def ringOctets (r : RingRec) : List Byte :=
  let scale := (List.range 8).foldl (fun a i => a + r.scale.getD i 0 * 4 ^ i) 0
  let qual := (List.range 8).foldl (fun a i => a + r.qual.getD i 0 * 16 ^ i) 0
  ((List.range 8).map (fun i => octets 3 (r.mant.getD i 0 % 2 ^ 24).toNat)).flatten ++ octets 2 scale
    -- channel 0 lies in bits [3:0] of octet 26, so the nibbles run from the lowest octet up
    ++ (octets 4 qual).reverse ++ octets 2 (r.gen * 1024 + r.secLo * 4 + r.pres)

/-- What a record has copied of a position at an index (R675); what the ring did not hold is written as missing (R678). -/
def copiedRecord (rate : Nat) (r : DrRecord) (pos : Nat) (i : SIndex) : RingRec :=
  ((r.copies.find? (fun p => p.1 == copyKey pos (absIndex rate i))).map (·.2)).getD { pres := 2, secLo := i.sec % 256 }

/-- Received-rate indices from FIRST to LAST. -/
def recordSpan (s : State) (r : DrRecord) : Nat :=
  absIndex (strapRate s) r.last + 1 - absIndex (strapRate s) r.first

/-- Octets of a body with n received-rate indices, whose traces hold one sample per pipeline sample (R678). -/
def bodySize (s : State) (r : DrRecord) (n : Nat) : Nat := 256 + 32 * r.streams.length * n + 8 * r.zones.length * ceilDiv n (decim s)

/-- The indices that a body of 4 MiB holds (R676). -/
def recordRoom (s : State) (r : DrRecord) : Nat :=
  let d := decim s
  let n := (4194304 - 256) * d / (32 * d * r.streams.length + 8 * r.zones.length)
  (((List.range d).map (n - ·)).find? (fun k => bodySize s r k ≤ 4194304)).getD 0

/-- COUNT: the indices carried (R676). -/
def recordCount (s : State) (r : DrRecord) : Nat := min (recordSpan s r) (recordRoom s r)

/-- The stream sections of a body: every stream in index order (R678). -/
def streamSection (s : State) (r : DrRecord) (n : Nat) (x : Nat × Nat × SIndex) : List Byte :=
  ((List.range n).map (fun i =>
    let idx := addIndex (strapRate s) r.first i
    ringOctets (if idx.lt x.2.2 then { pres := 2, secLo := idx.sec % 256 } else copiedRecord (strapRate s) r x.1 idx))).flatten

/-- A trace sample as its 8 octets (R678). -/
def traceOctets (t : TraceRec) : List Byte := octets 2 t.opr ++ octets 2 t.str ++ octets 1 t.cmd ++ octets 1 t.arSt ++ octets 2 t.q

/-- The body of a record (Table 17.10). -/
def recordBody (s : State) (r : DrRecord) : List Byte :=
  let n := recordCount s r
  let zones := (List.range 256).filter (fun z => r.zones.any (fun x => x.zone == z))
  let zmap := ofOctets ((List.range 32).map (fun o => BitVec.ofNat 8
    ((List.range 8).foldl (fun a b => a + (if zones.contains (8 * o + b) then 2 ^ b else 0)) 0)))
  let table := ((List.range 16).map (fun i =>
    match r.streams[i]? with
    | some x => octets 2 x.1 ++ octets 2 x.2.1 ++ octets 4 (256 + 32 * n * i)
    | none => zeros 8)).flatten
  let head := octets 2 1 ++ octets 2 r.zones.length ++ octets 4 r.recno ++ indexOctets r.first ++ indexOctets r.last
    ++ indexOctets r.trigger ++ octets 1 (rateCode s) ++ octets 1 (fnomCode s) ++ octets 1 r.flags ++ octets 1 r.timeq
    ++ octets 4 n ++ octets 8 r.fp ++ octets 32 zmap ++ table ++ octets 4 (256 + 32 * n * r.streams.length) ++ zeros 40
  head ++ octets 4 (crc32 head) ++ (r.streams.map (streamSection s r n)).flatten
    ++ ((zones.map (fun z => ((r.zones.filter (fun x => x.zone == z)).map (fun x => ((x.trace.take (ceilDiv n (decim s))).map traceOctets).flatten)).flatten)).flatten)

/-- Free NAND blocks (R680). -/
def freeBlocks (s : State) : Nat := 32768 - s.journal.retired - (s.journal.store.map (·.blocks)).foldl (· + ·) 0

/-- A record that may be reclaimed for severity sev (R680): its index is committed, R668 by its own marks. -/
def recordReclaimable (s : State) (sev : Nat) (r : Stored) : Bool :=
  r.jseq != 0 && r.sev ≤ sev && (r.sev != 3 || released s r.marks)

/-- Take n NAND blocks for severity sev (R680), reclaiming records where needed; fuel bounds the reclaims. -/
def takeBlocks : Nat → State → Nat → Nat → Option State
  | 0, _, _, _ => none
  | fuel + 1, s, sev, n =>
    let free := freeBlocks s
    if 3276 + n ≤ free || (sev = 3 && n ≤ free) then some s
    else
      match leastBy (·.jseq) (s.journal.store.filter (recordReclaimable s sev)) with
      | none => none
      | some r =>
        takeBlocks fuel (tallyAdd { s with journal := { s.journal with store := s.journal.store.erase r } } 1 (37 + r.sev) 1) sev n

/-- Severity of a record's index entry: of its zone, or the highest among its zones (Table 17.4). -/
def recordSev (s : State) (r : DrRecord) : Nat := (r.zones.map (fun z => zRecordSev (rods s) z.zone)).foldl max 0

/-- The index payload of a body (Table 17.11). -/
def indexPayload (recno block len crc : Nat) (first trigger last : SIndex) (flags fired zones left : Nat) : List Byte :=
  octets 4 recno ++ octets 4 block ++ octets 4 len ++ octets 4 crc ++ indexOctets first ++ indexOctets trigger
    ++ indexOctets last ++ octets 1 flags ++ octets 1 fired ++ octets 2 zones ++ octets 4 left ++ zeros 16

/-- Write a body to the store (R680): the state, and the first block, free, where blocks are found. -/
def writeBody (s : State) (recno sev : Nat) (body : List Byte) : Option (State × Nat) :=
  let n := ceilDiv body.length 262144
  match takeBlocks (s.journal.store.length + 1) s sev n with
  | none => none
  | some t =>
    let block := freshValue t % 32768
    let t := tookFresh t
    some ({ t with journal := { t.journal with
      store := t.journal.store ++ [{ recno := recno, sev := sev, block := block, blocks := n, body := body, written := false,
                                     jseq := 0, marks := 0, atJseq := s.journal.jseq }] } }, block)

/-- Without blocks a record is lost (Table 17.12). -/
def bodyLost (s : State) (recno : Nat) : State :=
  let s := judgeFault s (keyU 0x4940) 0 none16 true
  arise { s with journal := { s.journal with records := s.journal.records.filter (fun r => r.recno != recno) } } (keyU 0x4900) 0 none16 []

/-- Write a body to the store and queue its index (R679, R680). -/
def storeBody (s : State) (recno sev : Nat) (body : List Byte) (index : Nat → Entry) : State :=
  match writeBody s recno sev body with
  | none => bodyLost s recno
  | some (t, block) => journalEntry (judgeFault t (keyU 0x4940) 0 none16 false) (index block)

/-- A record as it closes, with extra RFLAGS, at the last index it carries (R660, R676): truncated by a flush or restart (extra 2), the latest
index released; by size, the last one that 4 MiB hold. -/
def closedRecord (s : State) (r : DrRecord) (extra : Nat) : DrRecord :=
  let r := if extra = 2 && s.journal.latest.lt r.last then { r with last := s.journal.latest } else r
  let full := decide (recordRoom s r < recordSpan s r)
  { r with closed := true, sev := recordSev s r, flags := r.flags ||| extra ||| (if full then 1 else 0)
           last := if full then addIndex (strapRate s) r.first (recordRoom s r - 1) else r.last }

/-- The index entry of a closed record (R679, Tables 17.4, 17.11). -/
def recordIndex (s : State) (r : DrRecord) (body : List Byte) (block : Nat) : Entry :=
  let zone := match r.zones with
    | [z] => z.zone
    | _ => none16
  -- a record of one zone concerns that zone's main stream (R262)
  let handle := if r.zones.length = 1 then (r.streams.head?.map (·.2.1)).getD none16 else none16
  { indexEntry s (strapRate s) r.last (if 1 < r.zones.length then 0x4401 else 0x4400) r.sev 2 zone handle (r.flags / 8 % 2 == 1)
      (indexPayload r.recno block body.length (crc32 body) r.first r.trigger r.last r.flags r.fired r.zones.length 0)
    with mono := r.flags / 16 % 2 == 1 }

/-- Keep the closed form of a record. -/
def putRecord (s : State) (r : DrRecord) : State :=
  { s with journal := { s.journal with records := s.journal.records.map (fun x => if x.recno = r.recno then r else x) } }

/-- Close a record with extra RFLAGS: its body is complete and its index entry is queued (R679). -/
def closeRecord (s : State) (recno extra : Nat) : State :=
  match s.journal.records.find? (fun r => r.recno == recno && !r.closed) with
  | none => s
  | some r0 =>
    let r := closedRecord s r0 extra
    let s := putRecord s r
    let body := recordBody s r
    storeBody s recno r.sev body (recordIndex s r body)

/-- An internal restart cuts a record (R683): of a body that is not complete in the store, the pages programmed so far stay; how many is
not stated (free value). -/
def cutRecord (s : State) (r0 : DrRecord) : State :=
  let kept := fun (b : List Byte) => b.take (freshValue s % (b.length + 1))
  let done := fun (t : State) => { tookFresh t with journal := { t.journal with
    store := t.journal.store.map (fun x => if x.recno = r0.recno then { x with written := true } else x) } }
  if r0.closed then
    done { s with journal := { s.journal with
      store := s.journal.store.map (fun x => if x.recno = r0.recno && !x.written then { x with body := kept x.body } else x) } }
  else
    let r := closedRecord s r0 2
    let s := putRecord s r
    match writeBody s r.recno r.sev (kept (recordBody s r)) with
    | none => { s with journal := { s.journal with records := s.journal.records.filter (fun x => x.recno != r.recno) } }
    | some t => done t.1

/-- Every pending record at an internal restart. -/
def cutRecords (s : State) : State := s.journal.records.foldl cutRecord s

/-- The sample index at octet o of a record body. -/
def bodyIndex (b : List Byte) (o : Nat) : SIndex := ⟨field b o 6, field b (o + 6) 2⟩

/-- The index entry of a body that has none, from the body's own header (R693, Table 17.10). The triggers that fired stand in no header:
a free value (log 152). -/
def foundIndex (s : State) (x : Stored) : Entry :=
  let b := x.body
  let zmap := field b 48 32
  let zone := match (List.range 256).filter (fun z => zmap / 2 ^ z % 2 == 1) with
    | [z] => z
    | _ => none16
  let flags := field b 34 1
  { indexEntry s (strapRate s) (bodyIndex b 16) (if zone = none16 then 0x4401 else 0x4400) x.sev 2 zone
      (if zone = none16 then none16 else field b 82 2) (flags / 8 % 2 == 1)
      (indexPayload x.recno x.block b.length (crc32 b) (bodyIndex b 8) (bodyIndex b 24) (bodyIndex b 16) flags (freshValue s % 256)
        (field b 2 2) 0)
    with mono := flags / 16 % 2 == 1, fp := field b 40 8 }

/-- The index entry of a split-branch body that has none, under a record number of this unit (R687, R693). -/
def branchIndex (s : State) (x : Stored) (recno : Nat) : Entry :=
  unitEntry s 0x4402 2 2 none16 none16 (indexPayload recno x.block x.body.length (crc32 x.body) ⟨0, 0⟩ ⟨0, 0⟩ ⟨0, 0⟩ 0 0 0 0)

/-- A body with no index is indexed (R683, R693): a pending record from what is known of it, a split branch anew, any other from its header. -/
def indexBody (s : State) (x : Stored) : State :=
  match s.journal.records.find? (fun r => r.recno == x.recno) with
  | some r => journalEntry s { recordIndex s r x.body x.block with fp := r.fp }
  | none =>
    if x.recno = 0 then
      let n := s.journal.recno + 1
      journalEntry { s with journal := { s.journal with
        recno := n, store := s.journal.store.map (fun y => if y = x then { y with recno := n } else y) } } (branchIndex s x n)
    else journalEntry (tookFresh s) (foundIndex s x)

/-- An index entry of this record waits to be committed. -/
def indexWaits (s : State) (recno : Nat) : Bool :=
  (queueLoad s).any (fun e => (e.code == 0x4400 || e.code == 0x4401 || e.code == 0x4402) && field e.payload 0 4 == recno)

/-- Bodies whose index was not committed before the entry to Starting are indexed (R683, R693); a record without a body is none any more. -/
def indexPending (s : State) : State :=
  let s := { s with journal := { s.journal with records := s.journal.records.filter (fun r => s.journal.store.any (fun x => x.recno == r.recno)) } }
  (s.journal.store.filter (fun x => x.jseq == 0 && !indexWaits s x.recno)).foldl indexBody s

/-- RECORD_CLOSE: the record reaches its last index, or 4 MiB (R676, R679). The body and its CRC are the block's own. -/
def execRecordClose (rec : Nat) (s : State) : Host.Outcome State Fault Refusal :=
  run (fun s => if coreRuns s then closeRecord s rec 0 else s) s

/-- NAND_WRITE_COMPLETE: a body has been written, or could not be (R680, R691); at most 4 writes are in flight. -/
def nandDone (s : State) (rec : Nat) (ok : Bool) : State :=
  if !(((s.journal.store.filter (fun r => !r.written)).take 4).any (fun r => r.recno == rec)) then s
  else if ok then
    { s with journal := { s.journal with store := s.journal.store.map (fun r => if r.recno = rec then { r with written := true } else r) } }
  else
    let s := { s with journal := { s.journal with
      store := s.journal.store.filter (fun r => r.recno != rec), retired := s.journal.retired + 1 } }
    let s := arise s (keyU 0x4900) 0 none16 []
    judgeFault s (keyU 0x4980) 0 none16 (decide (655 < s.journal.retired))

/-- NAND_WRITE_COMPLETE (R680). -/
def execNandWriteComplete (rec : Nat) (ok : Bool) (s : State) : Host.Outcome State Fault Refusal :=
  run (fun s => if coreRuns s then nandDone s rec ok else s) s

/-- Every open record closes truncated (R683), in order of opening. -/
def closeAll (s : State) (extra : Nat) : State :=
  ((s.journal.records.filter (fun r => !r.closed)).map (·.recno)).foldl (fun s n => closeRecord s n extra) s

/-- Encode an entry as a branch record stores it: header and payload, padded to 64 (R687). -/
def storedOctets (c : Committed) : List Byte :=
  entryHeader c.jseq c.prevCrc.toNat c.entry ++ octets 4 c.ecrc.toNat ++ c.entry.payload
    ++ zeros (entrySize c.entry - 64 - c.entry.payload.length)

/-- Every committed entry, in JSEQ order. -/
def allCommitted (s : State) : List Committed :=
  ((s.journal.pages.map (fun p => p.2.entries)).flatten).foldl (fun l c => (l.filter (fun x => x.jseq < c.jseq)) ++ c
    :: (l.filter (fun x => c.jseq < x.jseq))) []

/-- The body of a split-branch record, and how many of the oldest entries it leaves out beyond 4 MiB (R687). -/
def branchBody (branch : List Committed) : List Byte × Nat :=
  let kept := branch.reverse.foldl (fun (a : List (List Byte) × Nat) c =>
    let o := storedOctets c
    if a.2 + o.length + 256 ≤ 4194304 then (o :: a.1, a.2 + o.length) else (a.1, a.2 + 4194305)) (([] : List (List Byte)), 0)
  (kept.1.flatten, branch.length - kept.1.length)

/-- The journal up to and including entry `common`. -/
def cutJournal (s : State) (common : Nat) : State :=
  let pages := s.journal.pages.map (fun p => (p.1, { p.2 with
    entries := p.2.entries.filter (fun c => c.jseq ≤ common)
    used := 64 + ((p.2.entries.filter (fun c => c.jseq ≤ common)).map (fun c => entrySize c.entry)).foldl (· + ·) 0 }))
  let lastCrc := match (allCommitted s).find? (fun c => c.jseq == common) with
    | some c => c.ecrc
    | none => 0
  let opens := s.journal.opens.map (fun o => o.filter (fun n => pages.any (fun p => p.1 == n && p.2.entries ≠ [])))
  { s with journal := { s.journal with
    jseq := common, lastCrc := lastCrc, pages := pages.filter (fun p => p.2.entries ≠ []), opens := opens } }

/-- The rejoiner's entries after the last common entry become a split-branch body and leave its journal (R641, R687); the body takes its
record number from the index entry that the Active makes. -/
def splitBranch (s : State) (common : Nat) : State :=
  let branch := (allCommitted s).filter (fun c => common < c.jseq)
  if branch = [] then s
  else
    match writeBody (cutJournal s common) 0 2 (branchBody branch).1 with
    | none => bodyLost (cutJournal s common) 0
    | some (t, _) => t

/-- The partner's entries after the last common entry, as the Active stores and indexes them (R687). -/
def partnerBranch (s : State) (l : List CarriedEntry) : State :=
  if l = [] then s
  else
    let branch := l.map (fun c =>
      let e := entryOf c
      let prev := field c.body 44 4
      ({ jseq := c.jseq, prevCrc := BitVec.ofNat 32 prev, ecrc := BitVec.ofNat 32 (entryCrc c.jseq prev e), entry := e } : Committed))
    let body := branchBody branch
    let recno := s.journal.recno + 1
    storeBody { s with journal := { s.journal with recno := recno } } recno 2 body.1 (fun block =>
      unitEntry s 0x4402 2 2 none16 none16
        (indexPayload recno block body.1.length (crc32 body.1) ⟨0, 0⟩ ⟨0, 0⟩ ⟨0, 0⟩ 0 0 0 body.2))

/-! The journal check (R692, R693) -/

/-- The lowest JSEQ of the chain that ends a list of entries in JSEQ order: each entry follows the one before by number and PREVCRC. -/
def chainStart (l : List Committed) : Nat :=
  (l.foldl (fun (a : Nat × Option Committed) c =>
    match a.2 with
    | some p => if p.jseq + 1 = c.jseq && c.prevCrc == p.ecrc then (a.1, some c) else (c.jseq, some c)
    | none => (c.jseq, some c)) (0, none)).1

/-- Keep the entries of some numbers; a page that holds none is free. -/
def keepEntries (s : State) (keep : Nat → Bool) : State :=
  let pages := (s.journal.pages.map (fun p => (p.1, { p.2 with entries := p.2.entries.filter (fun c => keep c.jseq) }))).filter
    (fun p => p.2.entries ≠ [])
  { s with journal := { s.journal with
    pages := pages, opens := s.journal.opens.map (fun o => o.filter (fun n => pages.any (fun p => p.1 == n))) } }

/-- The control copies that pass their CRC (R692). -/
def readCopies (s : State) (f : JournalFind) : State :=
  { s with journal := { s.journal with
    ctlA := if f.copyA then s.journal.ctlA.filter ctlReads else none, ctlB := if f.copyB then s.journal.ctlB.filter ctlReads else none } }

/-- The last committed entry by the valid copy with the higher JSEQ, rolled forward by one where its entry reads (Table 17.5). -/
def journalTip (s : State) (found : List Committed) : Option Nat :=
  match s.journal.ctlA, s.journal.ctlB with
  | none, none => none
  | a, b =>
    let j := max ((a.map (·.jseq)).getD 0) ((b.map (·.jseq)).getD 0)
    some (if found.any (fun c => c.jseq == j + 1) then j + 1 else j)

/-- A record whose index entry is not kept is indexed again from the store (R693). -/
def indexAgain (s : State) (gone : List Committed) : State :=
  gone.foldl (fun s c =>
    if c.entry.code / 64 * 64 = 0x4400 && s.journal.store.any (fun r => r.jseq == c.jseq) then
      journalEntry { s with journal := { s.journal with
        store := s.journal.store.map (fun r => if r.jseq = c.jseq then { r with jseq := 0 } else r) } } c.entry
    else s) s

/-- The octets of a lost JSEQ range; none when there is none. DESIGN CHOICE (log 140): the payload of "journal recovered" names the
ranges below and above the chain kept, each by its first and last JSEQ of 8 octets. -/
def lostRange (l : List Nat) : List Byte :=
  match l with
  | [] => []
  | a :: t => octets 8 a ++ octets 8 (t.getLast?.getD a)

/-- The scan of R693: the longest intact chain that ends at the highest JSEQ found stays, and its numbers are never used again (R659,
log 140); with nothing found a new journal begins, every body in the store has no index in it, and neither the fault nor the entry is
made, since nothing has been recovered (DESIGN CHOICE, log 140). -/
def scanJournal (s : State) (was found : List Committed) : State :=
  match found.getLast? with
  | none =>
    let s := keepEntries s (fun _ => false)
    { s with journal := { s.journal with
      jseq := 0, lastCrc := 0, ctlA := none, ctlB := none, store := s.journal.store.map (fun r => { r with jseq := 0 }) } }
  | some h =>
    let lo := chainStart found
    let keep := fun (j : Nat) => decide (lo ≤ j) && decide (j ≤ h.jseq)
    let gone := was.filter (fun c => !keep c.jseq)
    let s := arise (keepEntries s keep) (keyU 0x4640) 0 none16 []
    let s := submitEntry s (unitEntry s 0x4483 2 0 none16 none16
      (lostRange ((gone.filter (fun c => c.jseq < lo)).map (·.jseq)) ++ lostRange ((gone.filter (fun c => h.jseq < c.jseq)).map (·.jseq))))
    indexAgain s gone

/-- What the check makes of the journal (R692, R693): pages with a bad header are free; where a copy is valid and the chain of the last 64
entries still held reads, the journal ends at the tip, else it is scanned. -/
def checkTail (s : State) (f : JournalFind) : State :=
  let was := allCommitted s
  let s := readCopies s f
  let s := { s with journal := { s.journal with pages := s.journal.pages.filter (fun p => pageReads p.2 && !f.badPages.contains p.1) } }
  let found := (allCommitted s).filter (fun c => !f.badEntries.contains c.jseq)
  match journalTip s found with
  | none => scanJournal s was found
  | some t =>
    let tail := (was.filter (fun c => decide (c.jseq ≤ t) && decide (t < c.jseq + 64))).map (·.jseq)
    if tail.all (fun j => found.any (fun c => c.jseq == j)) then
      indexAgain (keepEntries s (fun j => decide (j ≤ t))) (was.filter (fun c => decide (t < c.jseq) || !(allCommitted s).any (fun x => x.jseq == c.jseq)))
    else scanJournal s was found

end Sys2Proof.Machine
end

