-- ==== Sys2Proof/Machine/Frames.lean ====
section
/-! DEFINITION. Frames that leave on the four ports: addresses, trailers and tags, tallies of sent frames (chapter 6). -/
namespace Sys2Proof.Machine

/-- Store a port. -/
def portPut (s : State) (p : Port) (x : PortSt) : State :=
  match p with
  | .p0 => { s with ports := { s.ports with p0 := x } }
  | .p1 => { s with ports := { s.ports with p1 := x } }
  | .s0 => { s with ports := { s.ports with s0 := x } }
  | .s1 => { s with ports := { s.ports with s1 := x } }

/-- P0 and P1; S0 and S1. -/
def isProcess (p : Port) : Bool :=
  match p with
  | .p0 | .p1 => true
  | _ => false

/-- Key of a fault of a port's block (Table 19.7). -/
def portKey (code : Nat) (p : Port) : FaultKey := { code := code + 1024 * portNum p, scope := 6, inst := portNum p }

/-- Key of a fault of the SFP-MGMT block. -/
def sfpKey (code : Nat) (p : Port) : FaultKey := { code := code, scope := 6, inst := portNum p }

/-- Count n in word w of a port's tallies (Tables 6.4, 15.7). -/
def portTally (s : State) (p : Port) (w : Nat) : State := tallyAdd s 0 (16 * portNum p + w) 1

/-- The factory MAC block base, 0 without a valid fuse copy (R75, R87). -/
def macBase (s : State) : Nat := ((fuse s).map (fun f => f.macBase.toNat)).getD 0

/-- The address of R87 when neither fuse copy passes. -/
def noFuseMac (s : State) : Nat := 0x06 * 2 ^ 40 + uid s

/-- Process MAC and station MAC (Table 2.10). -/
def processMac (s : State) : Nat := if (fuse s).isSome then macBase s else noFuseMac s
def stationMac (s : State) : Nat := if (fuse s).isSome then macBase s + 1 else noFuseMac s

/-- The pair MAC (R76), none in Solo, before an image and without a pair identity (R78). -/
def pairMac (s : State) : Option Nat :=
  if isTwin s then (s.plug.image.bind gPairId).map (fun n => 0x02 * 2 ^ 40 + n) else none

/-- Source of zone GOOSE and supervision on the process bus (R77). -/
def nodeMac (s : State) : Nat := if isTwin s then (pairMac s).getD 0 else processMac s

/-- LAN identifier of a port: A or B (R226). -/
def lanId (p : Port) : Nat :=
  match p with
  | .p0 | .s0 => 0xA
  | _ => 0xB

/-- Pad a frame so that it keeps the least Ethernet length with n octets of trailer or tag, without the FCS (log 18). -/
def padTo (n : Nat) (frame : List Byte) : List Byte := frame ++ zeros (60 - n - frame.length)

/-- Octets before the Ethertype: addresses, and one tag when the frame has it. -/
def headLen (frame : List Byte) : Nat := if field frame 12 2 = 0x8100 then 16 else 12

/-- The frame with an RCT: number, LAN identifier, size of the link service data with the trailer, suffix (R226, R227;
the size field is that of IEC 62439-3, log 18). -/
def withRct (lan : Nat) (seq : BitVec 16) (frame : List Byte) : List Byte :=
  let f := padTo 6 frame
  f ++ octets 2 seq.toNat ++ octets 2 (lan * 4096 + (f.length - headLen f - 2 + 6) % 4096) ++ octets 2 0x88FB

/-- The frame with an HSR tag (R232; its layout is that of IEC 62439-3, log 18). -/
def withHsr (lan : Nat) (seq : BitVec 16) (frame : List Byte) : List Byte :=
  let f := padTo 6 frame
  f.take (headLen f) ++ octets 2 0x892F ++ octets 2 ((lan - 0xA) * 4096 + (f.length - headLen f - 2 + 6) % 4096)
    ++ octets 2 seq.toNat ++ f.drop (headLen f)

/-- A port can send: its link is up, its transmitter enabled, D2 good (R105, R220). -/
def canSend (s : State) (p : Port) : Bool := (portGet s p).up && (portGet s p).txEnabled && portInUse s p && domainGood s 2

/-- A timestamp read from the counter: SEC, NS and FRAC[15] (R305), in units of 2^-16 ns. -/
def stampValue (s : State) : Int := (s.time.sec * 1000000000 + s.time.ns) * 65536 + s.time.frac / 32768 * 32768

/-- The transmit timestamp of a frame that leaves now, referred to the contacts of its port (R222). -/
def txStamp (s : State) (p : Port) : Int := stampValue s - Config.portLatency (portNum p) true * 32768

/-- A timestamp as seconds (6 octets) and nanoseconds (4 octets). -/
def stampOctets (t : Int) : List Byte := octets 6 (t / 65536 / 1000000000).toNat ++ octets 4 (t / 65536 % 1000000000).toNat

/-- Something leaves on a port that can send (R220), with its transmit timestamp (R222), and is counted (Table 6.4); after a parity error in its crossing queue it is ended with
an inverted FCS (R43). -/
def sendUnit (s : State) (p : Port) (o : Output) : State :=
  if !canSend s p then s
  else
    let x := { portGet s p with lastTx := some (txStamp s p) }
    if x.txBad then portTally (emit (portPut s p { x with txBad := false }) (.aborted p)) p 14
    else portTally (emit (portPut s p x) o) p 14

/-- One copy of a frame leaves on a port. -/
def sendCopy (s : State) (p : Port) (frame : List Byte) : State := sendUnit s p (.frame p frame)

/-- A station frame: S0 and S1, each with an RCT (Table 6.5, R226). -/
def sendStation (s : State) (frame : List Byte) : State :=
  let n := s.ports.seqStation
  let s := { s with ports := { s.ports with seqStation := n + 1 } }
  sendCopy (sendCopy s .s0 (withRct 0xA n frame)) .s1 (withRct 0xB n frame)

/-- A process frame of the process MAC: by the LAN mode (Table 6.5). -/
def sendProcess (s : State) (frame : List Byte) : State :=
  if isHsr s then
    let n := s.ports.seqHsr
    let s := { s with ports := { s.ports with seqHsr := n + 1 } }
    sendCopy (sendCopy s .p0 (withHsr 0xA n frame)) .p1 (withHsr 0xB n frame)
  else if isSingleLan s then sendCopy s .p0 (padTo 0 frame)
  else
    let n := s.ports.seqProcess
    let s := { s with ports := { s.ports with seqProcess := n + 1 } }
    sendCopy (sendCopy s .p0 (withRct 0xA n frame)) .p1 (withRct 0xB n frame)

/-- A pair-node frame with its number (R635, R636). -/
def sendPairNode (s : State) (seq : BitVec 16) (frame : List Byte) : State :=
  (pairPorts s).foldl (fun s p => sendCopy s p (withRct (lanId p) seq frame)) s

/-- Content of a supervision frame that names a MAC: IEC 62439-3 fixes its layout (log 13). -/
def supervisionBody (mac seq : Nat) : List Byte := ownPayload 100 [mac, seq]

/-- A supervision frame of a source (Tables 6.2, 6.3). -/
def supervisionFrame (src seq : Nat) : List Byte :=
  octets 6 0x01154E000100 ++ octets 6 src ++ octets 2 0x88FB ++ supervisionBody src seq

end Sys2Proof.Machine
end

