-- ==== Sys2Proof/Machine/Keys.lean ====
section
/-! DEFINITION. Key slots as the core reads them: check values, parity, tags, absent keys (R747 to R750, R771, R783). -/
namespace Sys2Proof.Machine

/-- The key check value: the first 24 bits of HMAC-SHA256 over 16 zero octets (R748). -/
def kcvOf (key : BitVec 256) : BitVec 24 := BitVec.ofNat 24 (hmac key (zeros 16) / 2 ^ 232)

/-- PAR of a loaded slot: one bit for each 32-bit word of KEY, one for KCV, one for LOADED (Table 20.1). -/
def parBits (key : BitVec 256) (kcv : BitVec 24) : BitVec 10 :=
  BitVec.ofNat 10 ((List.range 8).foldl (fun a i => a + parityOf 32 (key.toNat / 2 ^ (32 * i)) * 2 ^ i) 0
    + parityOf 24 kcv.toNat * 2 ^ 8 + 2 ^ 9)

/-- A slot, none when empty. -/
def keySlot (s : State) (n : Nat) : Option KeySlot := (s.sealSt.keys.find? (fun p => p.1 == n)).map (·.2)

/-- KEYS: bit n set while slot n is loaded (Table 15.6). -/
def keysMap (s : State) : Nat := (List.range 16).foldl (fun a n => a + (if (keySlot s n).isSome then 2 ^ n else 0)) 0

/-- Empty a slot. -/
def emptySlot (s : State) (n : Nat) : State := { s with sealSt := { s.sealSt with keys := Tab.erase s.sealSt.keys n } }

/-- A SEAL entry (R774): slot or 0xFF, KCV, source, DISCARDS, two octets. -/
def sealEntry (s : State) (code slot kcv source discards rest : Nat) : Entry :=
  unitEntry s code 2 0 none16 none16
    (octets 1 slot ++ octets 3 kcv ++ octets 1 source ++ octets 1 discards ++ octets 2 rest)

/-- G.AUTH_GOOSE names a slot in the image in force, and the slot is empty. -/
def gooseKeyless (s : State) : Bool :=
  match gAuthGoose (rods s) with
  | some n => (keySlot s n).isNone
  | none => false

/-- R594 stops zone frames: no fallback, or a formed pair (R772). -/
def withheldNow (s : State) : Bool := gooseKeyless s && (!gAuthFallback (rods s) || formed s)

/-- The key-absent fault of one slot (R771). -/
def judgeKey (s : State) (n : Nat) : State :=
  let goose := gAuthGoose (rods s) = some n
  let sv := gAuthSv (rods s) = some n
  judgeFault s { code := 0x0980, scope := 11, inst := n } (if goose then 0 else 1) none16
    ((goose || sv) && (keySlot s n).isNone)

/-- Absent keys (R771), and the publisher's faults of Table 15.10. -/
def judgeKeys (s : State) : State :=
  let s := (List.range 16).foldl judgeKey s
  let s := judgeFault s (keyU 0x5100) 0 none16 (withheldNow s)
  judgeFault s (keyU 0x5140) 0 none16 (gooseKeyless s && !withheldNow s)

/-- The publisher or the verifier reads a slot at the start of a frame (R750, R783). -/
def readKey (s : State) (n : Nat) : State × Option KeySlot :=
  match keySlot s n with
  | none => (s, none)
  | some k =>
    if k.par = parBits k.key k.kcv then (s, some k)
    else
      let s := journalEntry (emptySlot s n) (sealEntry s (0x0840 + n) n 0 0 0 0)
      (judgeKeys s, none)

/-- The security extension of a frame (R592): over the octets from the APPID to the last octet of the Key ID field. -/
def authExtension (k : KeySlot) (fromAppid : List Byte) : List Byte :=
  let id := [0xAF#8, 0x16#8, 0x80#8, 0x02#8] ++ octets 2 (k.kcv.toNat % 65536)
  id ++ [0x85#8, 0x10#8] ++ octets 16 (hmac k.key (fromAppid ++ id) / 2 ^ 128)

end Sys2Proof.Machine
end

