-- ==== Sys2Proof/Machine/Publish.lean ====
section
/-! DEFINITION. Publications: GOOSE encoding, state changes, retransmission, the summary, status frames (chapter 15). -/
namespace Sys2Proof.Machine

/-! Encoding (R579 to R581) -/

/-- The octets of a text. -/
def text (t : String) : List Byte := t.toList.map (fun c => BitVec.ofNat 8 c.toNat)

/-- n upper-case hexadecimal digits of v; n decimal digits of v. -/
def hexDigits (n v : Nat) : List Byte :=
  (List.range n).map (fun i => let d := v / 16 ^ (n - 1 - i) % 16; BitVec.ofNat 8 (if d < 10 then 48 + d else 55 + d))
def decDigits (n v : Nat) : List Byte := (List.range n).map (fun i => BitVec.ofNat 8 (48 + v / 10 ^ (n - 1 - i) % 10))

/-- A BER length in the shortest definite form (R580). -/
def berLength (n : Nat) : List Byte :=
  if n < 128 then octets 1 n else if n < 256 then 0x81#8 :: octets 1 n else 0x82#8 :: octets 2 n

/-- A tagged field. -/
def tlv (tag : Nat) (content : List Byte) : List Byte := octets 1 tag ++ berLength content.length ++ content

/-- A non-negative integer in the fewest octets of two's complement (R580). -/
def berInt (v : Nat) : List Byte :=
  if v < 2 ^ 7 then octets 1 v else if v < 2 ^ 15 then octets 2 v else if v < 2 ^ 23 then octets 3 v
  else if v < 2 ^ 31 then octets 4 v else octets 5 v

/-- BOOLEAN of a dataset; INT8U; bit-string of n bits, bit i of v at bit i; FLOAT32 (R581). -/
def dsBool (b : Bool) : List Byte := [0x83#8, 0x01#8, if b then 0x01#8 else 0x00#8]
def dsInt8 (v : Nat) : List Byte := [0x86#8, 0x01#8] ++ octets 1 v
def bitOctets (n v : Nat) : List Byte :=
  (List.range ((n + 7) / 8)).map (fun k =>
    BitVec.ofNat 8 ((List.range 8).foldl (fun a j => a + (if v / 2 ^ (8 * k + j) % 2 = 1 then 2 ^ (7 - j) else 0)) 0))
def dsBits (n v : Nat) : List Byte := tlv 0x84 (octets 1 ((8 - n % 8) % 8) ++ bitOctets n v)
def dsFloat (f : Nat) : List Byte := [0x87#8, 0x05#8, 0x08#8] ++ octets 4 f

/-- allData of a zone in a form, with its present words for the measurands (Table 15.2). -/
def zoneData (s : State) (z form : Nat) : List Byte :=
  let x := zoneGet s z
  let d := x.ds
  let compact := dsBool d.trip ++ dsBool d.start ++ dsBool d.bf ++ dsBool d.close ++ dsBool d.lockout ++ dsBits 13 d.q
  let element := dsBits 16 d.opr ++ dsBits 16 d.str ++ dsBits 8 d.phs ++ dsBits 4 d.dir ++ dsInt8 d.arSt ++ dsInt8 d.arShot
  let meas := ((zoneMeasurands s z).zip measurandUnits).map (fun m =>
    dsFloat (measurandFloat m.1 m.2) ++ dsBits 13 (measurandQuality x.test m.1.2))
  if form = 0 then compact else if form = 1 then compact ++ element else compact ++ element ++ meas.flatten

/-- Letter, confRev and number of entries of a form (Tables 15.1, 15.2). -/
def formLetter (form : Nat) : List Byte := text (if form = 0 then "C" else if form = 1 then "E" else "M")
def formRev (form : Nat) : Nat := 0x00010001 + min form 2
def formEntries (form : Nat) : Nat := if form = 0 then 6 else if form = 1 then 12 else 24

/-- A publication: zone 0 to 255, summary 256. -/
def pubGet (s : State) (p : Nat) : Publication := Tab.get {} s.pub.pubs p
def pubPut (s : State) (p : Nat) (x : Publication) : State := { s with pub := { s.pub with pubs := Tab.put {} s.pub.pubs p x } }

/-- The logical device of a publication (Table 15.1, R600, R601). -/
def pubDevice (s : State) (p : Nat) : List Byte :=
  let dev := text "FPE" ++ hexDigits 8 (beads (rods s) 1 6)
  if p < 256 then dev else dev ++ text "U" ++ decDigits 2 (uid s)

/-- gocbRef, datSet and goID. -/
def pubNames (s : State) (p : Nat) (letter : List Byte) : List Byte × List Byte × List Byte :=
  let dev := pubDevice s p
  if p < 256 then
    (dev ++ text "/LLN0$GO$Z" ++ decDigits 3 p, dev ++ text "/LLN0$Z" ++ decDigits 3 p ++ letter, dev ++ text "Z" ++ decDigits 3 p)
  else (dev ++ text "/LLN0$GO$SUM", dev ++ text "/LLN0$SUM", dev ++ text "SUM")

/-- The goosePdu of a publication with a sqNum and a timeAllowedToLive (R580). -/
def goosePdu (s : State) (p : Nat) (x : Publication) (sqNum ttl : Nat) : List Byte :=
  let n := pubNames s p x.datSet
  tlv 0x61 (tlv 0x80 n.1 ++ tlv 0x81 (berInt ttl) ++ tlv 0x82 n.2.1 ++ tlv 0x83 n.2.2
    ++ tlv 0x84 (octets 4 x.tSec ++ octets 3 x.tFrac ++ octets 1 x.timeq) ++ tlv 0x85 (berInt x.stNum) ++ tlv 0x86 (berInt sqNum)
    ++ tlv 0x87 [0x00#8] ++ tlv 0x88 (berInt x.confRev) ++ tlv 0x89 [0x00#8] ++ tlv 0x8A (berInt x.entries) ++ tlv 0xAB x.allData)

/-- stNum and sqNum count on from 4,294,967,295 to 1 (R583). -/
def nextNum (n : Nat) : Nat := if n + 1 < 2 ^ 32 then n + 1 else 1

/-- The stNum persisted for a publication, 0 when none is. -/
def persisted (s : State) (p : Nat) : Nat := Tab.get 0 s.nvm.stNum p

/-- stNum n of a publication has been persisted (R17, R585): it lies at or behind the persisted one. -/
def isPersisted (s : State) (p n : Nat) : Bool :=
  let d := (persisted s p + (2 ^ 32 - 1) - n) % (2 ^ 32 - 1)
  persisted s p != 0 && d < 2 ^ 31

/-! The process transmit queue (R793, R798) -/

/-- This unit queues pair-node or process frames (Table 16.1, R635): Solo, Active and Standby. -/
def publishes (s : State) : Bool := s.pair.state == .solo || s.pair.state == .active || s.pair.state == .standby

/-- A frame takes its pair-node number as it enters (R636, R793). -/
def numbered (s : State) (f : TxFrame) : State × TxFrame :=
  if isTwin s then
    let n := s.ports.seqPair
    let t := { s with ports := { s.ports with seqPair := n + 1 } }
    match f with
    | .goose p st c _ dst tci app pdu => (t, .goose p st c n dst tci app pdu)
    | .supervision true _ => (t, .supervision true n)
    | .supervision false q => (s, .supervision false q)
  else (s, f)

/-- A unit outside the pair that goes on counting the pair-node sequence while its partner sends (R636). -/
def followsSeq (s : State) : Bool := s.pair.state == .shadow || s.pair.state == .rejoining

/-- A frame enters the queue, waits at the publisher, or is withdrawn (R798). -/
def enqueue (s : State) (f : TxFrame) : State :=
  if s.pub.queue.length < 512 && s.pub.waiting = [] then
    let r := numbered s f
    { r.1 with pub := { r.1.pub with queue := r.1.pub.queue ++ [r.2] } }
  else
    match f with
    | .goose _ _ false _ _ _ _ _ =>
      if s.pub.queue.length < 512 then
        let r := numbered s f
        { r.1 with pub := { r.1.pub with queue := r.1.pub.queue ++ [r.2] } }
      else tallyAdd s 1 31 1
    | _ => { s with pub := { s.pub with waiting := s.pub.waiting ++ [f] } }

/-- Waiting frames enter as places fall free (R798). -/
def refill (s : State) : State :=
  match s.pub.waiting with
  | [] => s
  | f :: rest =>
    if s.pub.queue.length < 512 then
      let r := numbered { s with pub := { s.pub with waiting := rest } } f
      { r.1 with pub := { r.1.pub with queue := r.1.pub.queue ++ [r.2] } }
    else s

/-- The unsent retransmissions of a publication are withdrawn (R591). -/
def withdrawOld (p : Nat) (l : List TxFrame) : List TxFrame :=
  l.filter (fun f => match f with
    | .goose q _ false _ _ _ _ _ => q != p
    | _ => true)

/-! The summary's frames on the station bus -/

/-- Reserved 1, length and extension of a GOOSE body (Table 15.1, R592, R593). -/
def gooseBody (appid : Nat) (pdu : List Byte) (k : Option KeySlot) : List Byte :=
  let ext := if k.isSome then 24 else 0
  let body := octets 2 appid ++ octets 2 (8 + pdu.length + ext) ++ octets 2 ext ++ octets 2 0 ++ pdu
  match k with
  | some k => body ++ authExtension k body
  | none => body

/-- The key of G.AUTH_GOOSE for a frame that begins now: whether the frame may leave, and the slot (R594, R750, R772).
`zoneFrame`: R772 acts on zone frames alone. -/
def gooseKey (s : State) (zoneFrame : Bool) : State × Bool × Option KeySlot :=
  match gAuthGoose (rods s) with
  | none => (s, true, none)
  | some n =>
    let r := readKey s n
    match r.2 with
    | some k => (r.1, true, some k)
    | none => (r.1, gAuthFallback (rods s) && !(zoneFrame && formed s), none)

/-- A summary frame leaves on S0 and S1 (R600). -/
def sendSummary (s : State) (pdu : List Byte) : State :=
  let r := gooseKey s false
  if r.2.1 then
    sendStation r.1 (octets 6 (0x010CCD010100 + uid s) ++ octets 6 (stationMac s) ++ octets 2 0x88B8
      ++ gooseBody (0x3F80 + uid s) pdu r.2.2)
  else r.1

/-- Summary frames whose stNum is persisted leave (R601). -/
def releaseSummary (s : State) : State :=
  let free := fun (f : TxFrame) => match f with
    | .goose p st _ _ _ _ _ _ => isPersisted s p st
    | _ => true
  let out := s.pub.station.filter free
  out.foldl (fun s f => match f with
    | .goose _ _ _ _ _ _ _ pdu => sendSummary s pdu
    | _ => s) { s with pub := { s.pub with station := s.pub.station.filter (fun f => !free f) } }

/-- A GOOSE frame is handed over: a zone's to the process queue, the summary's to the station bus. -/
def handGoose (s : State) (p st : Nat) (change : Bool) (pdu : List Byte) : State :=
  if p < 256 then
    if publishes s then
      enqueue s (.goose p st change 0 (0x010CCD010000 + p) (gVlanPrio (rods s) * 8192 + gVlanId (rods s)) (gPubBase (rods s) + p) pdu)
    else if followsSeq s then { s with ports := { s.ports with seqPair := s.ports.seqPair + 1 } }
    else s
  else releaseSummary { s with pub := { s.pub with station := s.pub.station ++ [.goose p st change 0 0 0 0 pdu] } }

/-! State changes (R583, R584, R588) -/

/-- UTC seconds and 24-bit fraction of a TAI time (R326, R584). -/
def utcStamp (s : State) (sec ns : Nat) : Nat × Nat :=
  ((((sec : Int) - s.time.utcOffset) % 2 ^ 32).toNat, ns * 2 ^ 24 / 1000000000)

/-- Publications with a stNum write still to make, in ascending order (R585, R792). -/
def stnumWrites (s : State) : List Nat :=
  (s.pub.pubs.filter (fun p => p.2.stNum != 0 && !isPersisted s p.1 p.2.stNum && !s.pub.writeFailed.contains p.1)).map (·.1)

/-- The stNum write that the MRAM port makes (R792): one that it has begun, else the first in zone order. -/
def stnumNext (s : State) : Option Nat :=
  match s.pub.writing with
  | some p => if (stnumWrites s).contains p then some p else (stnumWrites s).head?
  | none => (stnumWrites s).head?

/-- A state change of a publication at a time, with its dataset: stNum counts, sqNum is 0, unsent retransmissions of the
earlier stNum are withdrawn (R583, R591). -/
def pubSet (s : State) (p : Nat) (idx : SIndex) (time : Nat × Nat) (timeq : Nat) (letter : List Byte) (rev entries : Nat)
    (data : List Byte) (send : Bool) : State :=
  let utc := utcStamp s time.1 time.2
  let t1 := gGooseT1 (rods s)
  let tc := time.1 * 1000000000 + time.2
  let s := { s with pub := { s.pub with writing := stnumNext s, writeFailed := s.pub.writeFailed.filter (· != p) } }
  let s := pubPut s p {
    stNum := nextNum (pubGet s p).stNum, sqNum := 0, idx := idx, tSec := utc.1, tFrac := utc.2, timeq := timeq, tc := tc,
    due := tc + t1 * 1000000, t1 := t1, t0 := gGooseT0 (rods s), nth := 1, datSet := letter, confRev := rev,
    entries := entries, allData := data, running := send }
  if p < 256 then
    { s with pub := { s.pub with
      queue := withdrawOld p s.pub.queue, waiting := withdrawOld p s.pub.waiting, due := s.pub.due.filter (fun d => d.2 != p) } }
  else { s with pub := { s.pub with station := withdrawOld p s.pub.station } }

/-- The frame of a state change is handed over (R583). -/
def handChange (s : State) (p : Nat) : State :=
  let x := pubGet s p
  handGoose s p x.stNum true (goosePdu s p x 0 (3 * x.t1))

/-- A zone's state change of an index, at a time (R583, R584); with form 4 stNum counts and nothing is sent. -/
def zoneChangeAt (s : State) (z : Nat) (idx : SIndex) (time : Nat × Nat) : State :=
  let form := zForm (rods s) z
  let s := pubSet s z idx time (indexTimeq s (receivedIndex s idx))
    (formLetter form) (formRev form) (formEntries form) (zoneData s z form) (form != 4)
  if form = 4 then s else handChange s z

/-- Publish with the settings in force, also while a sample of before a commit's boundary is evaluated (R34, R605). -/
def withNow (s : State) (f : State → State) : State :=
  match s.plug.now with
  | none => f s
  | some r => let t := f { s with plug := { s.plug with image := some r } }; { t with plug := { t.plug with image := s.plug.image } }

/-- A zone's state change at a pipeline sample: t is its sample time (R584). A zone that a commit has made absent, invalid or blocked has stopped
publishing at its boundary (R605). -/
def zoneChange (s : State) (z : Nat) (idx : SIndex) : State :=
  withNow s (fun s => if zEnabled s z then zoneChangeAt s z idx (sampleTime (pipeRate s) idx) else s)

/-- A zone's state change that no sample makes (R605, R612): t is the counter's reading, in a formed pair the sample time of the latest
index (R308, log 46). -/
def zoneChangeNow (s : State) (z : Nat) : State :=
  zoneChangeAt s z s.journal.latest (if formed s then sampleTime (strapRate s) s.journal.latest else counterTime s)

/-- Some Enabled zone has this in its dataset. -/
def anyZone (s : State) (f : Dataset → Bool) : Bool := s.zones.any (fun p => zEnabled s p.1 && f p.2.ds)

/-- A Restrict-level fault is raised. -/
def restrictRaised (s : State) : Bool := s.faults.recs.any (fun p => p.2.level == 3)

/-- ALM of Table 15.6. -/
def almMap (s : State) : Nat := (List.range 8).foldl (fun a n => a + (if almActive s n then 2 ^ n else 0)) 0

/-- The summary dataset (Table 15.8). -/
def summaryData (s : State) : List Nat :=
  let b := fun (x : Bool) => if x then 1 else 0
  [b (healthyOut s), b (readyOut s), b (anyZone s (·.trip)), b (anyZone s (·.start)), b (anyZone s (·.bf)),
   b (anyZone s (·.lockout)), almMap s, engineCode s.power.engine, pairCode s.pair.state, publishedFp s,
   if serving s then (if restrictRaised s then 3 + 2 ^ 6 else 0) else 2 + 2 ^ 6]

/-- allData of a summary dataset. -/
def summaryOctets (d : List Nat) : List Byte :=
  let g := fun i => d.getD i 0
  ((List.range 6).map (fun i => dsBool (g i == 1))).flatten ++ dsBits 8 (g 6) ++ dsInt8 (g 7) ++ dsInt8 (g 8)
    ++ tlv 0x89 (octets 8 (g 9)) ++ dsBits 13 (g 10)

/-- The summary makes a state change (R600); its time is the counter's. -/
def summaryChange (s : State) : State :=
  let d := summaryData s
  let s := { s with pub := { s.pub with summary := d } }
  handChange (pubSet s 256 s.journal.latest (counterTime s) (reportedTimeq s) [] 0x00010001 11 (summaryOctets d) true) 256

/-- The summary is sent once an S port has been up (R611). -/
def summaryRuns (s : State) : Bool := coreRuns s && (s.ports.s0.up || s.ports.s1.up || (pubGet s 256).running)

/-- A change of the summary dataset is a state change (R600). -/
def judgeSummary (s : State) : State := if summaryRuns s && summaryData s != s.pub.summary then summaryChange s else s

/-! Keys and publishing (R594, R595, R772) -/

/-- Zones that publish: Enabled, with a form other than 4 (R205). -/
def publishingZones (s : State) : List Nat :=
  match s.plug.image with
  | some r => (enabledZones (adcInputs s) r).filter (fun z => zForm r z != 4)
  | none => []

/-- Judge R594 again: when publishing resumes, each zone and the summary make a state change, but not in a formed pair. -/
def authChanged (s : State) : State :=
  let s := judgeKeys s
  let was := s.pub.stopped
  let now := withheldNow s
  let s := { s with pub := { s.pub with stopped := now } }
  if was && !now && !formed s then
    let s := if serving s then (publishingZones s).foldl zoneChangeNow s else s
    if summaryRuns s then summaryChange s else s
  else s

/-- Zones enter service or a commit enables them: a state change each with present values (R612). -/
def startPublishing (s : State) (zones : List Nat) : State := zones.foldl zoneChangeNow s

/-! STNUM_PERSISTED, RETRANSMISSION_DUE, PROCESS_TRANSMIT -/

/-- The MRAM write of the next stNum of a publication completes, or fails its read-back (R585, R610), once the port makes it (R792). -/
def stnumPersisted (s : State) (p : Nat) (ok : Bool) : State :=
  if stnumNext s != some p then s
  else
    let s := { s with pub := { s.pub with writing := none } }
    if ok then
      let s := { s with nvm := { s.nvm with stNum := Tab.put 0 s.nvm.stNum p (nextNum (persisted s p)) } }
      if p = 256 then releaseSummary s else s
    else ariseU { s with pub := { s.pub with writeFailed := p :: s.pub.writeFailed } } 0x5180 0

/-- STNUM_PERSISTED (R585). -/
def execStnumPersisted (pub : Fin 257) (ok : Bool) (s : State) : Host.Outcome State Fault Refusal :=
  run (fun s => if coreRuns s && storeOn s then stnumPersisted s pub.val ok else s) s

/-- Due time of the retransmission after number j (R588), in ns. -/
def nextDue (x : Publication) (j : Nat) : Nat :=
  if x.t1 * 2 ^ j ≤ x.t0 then x.tc + x.t1 * 2 ^ j * 1000000 else x.due + x.t0 * 1000000

/-- A retransmission falls due (R588 to R590); one that finds the queue full leaves no trace but the schedule (R797, R798). -/
def retransmit (s : State) (p : Nat) : State :=
  let x := pubGet s p
  if !x.running then s
  else
    let next := nextDue x x.nth
    let ttl := 3 * ceilDiv (next - x.due) 1000000
    let full := p < 256 && 512 ≤ s.pub.queue.length
    let sq := nextNum x.sqNum
    let y := { x with due := next, nth := x.nth + 1, sqNum := if full then x.sqNum else sq }
    handGoose (pubPut s p y) p x.stNum false (goosePdu s p x sq ttl)

/-- The index at whose end a retransmission enters, in a formed pair: that of the first publication tick at or after its due time (R589, R636,
R793). -/
def tickIndex (s : State) (due : Nat) : SIndex :=
  let r := pipeRate s
  let c := ceilDiv (due % 1000000000 * r) 1000000000
  let back := 1 ≤ c && decide (due % 1000000000 ≤ (roundDiv ((c - 1 : Nat) * 1000000000) r).toNat)
  receivedIndex s (addIndex r ⟨due / 1000000000, 0⟩ (if back then c - 1 else c))

/-- A frame of a formed pair waits for the end of its index, after those of earlier indices and lower zones (R793). -/
def insertDue (x : SIndex × Nat) : List (SIndex × Nat) → List (SIndex × Nat)
  | [] => [x]
  | y :: t => if x.1.lt y.1 || (x.1 == y.1 && x.2 < y.2) then x :: y :: t else y :: insertDue x t

/-- A pair-node supervision frame is queued (R636), at a unit that sends none counted (R635). -/
def supervisionDue (s : State) : State :=
  if publishes s then enqueue s (.supervision true 0)
  else if followsSeq s then { s with ports := { s.ports with seqPair := s.ports.seqPair + 1 } }
  else s

/-- The frames of indices that have ended enter the queue (R793). -/
def enterDue (s : State) : State :=
  let ready := s.pub.due.filter (fun d => indexEnded s d.1)
  ready.foldl (fun s d => if d.2 = 256 then supervisionDue s else retransmit s d.2)
    { s with pub := { s.pub with due := s.pub.due.filter (fun d => !indexEnded s d.1) } }

/-- A frame of an index: in a formed pair it waits for the end of that index; else it enters now (R793). -/
def placeDue (s : State) (i : SIndex) (p : Nat) : State :=
  if !formed s then (if p = 256 then supervisionDue s else retransmit s p)
  else if s.pub.due.any (fun d => d.2 == p) then enterDue s
  else enterDue { s with pub := { s.pub with due := insertDue (i, p) s.pub.due } }

/-- A retransmission falls due: of a zone, or of the summary, which is not the pair's (R588, R589). -/
def retransmissionDue (s : State) (p : Nat) : State :=
  if p = 256 then retransmit s p else if (pubGet s p).running then placeDue s (tickIndex s (pubGet s p).due) p else s

/-- RETRANSMISSION_DUE (R589): a zone's while the unit serves (R607), the summary's while the core runs. -/
def execRetransmissionDue (pub : Fin 257) (s : State) : Host.Outcome State Fault Refusal :=
  run (fun s => if (pub.val = 256 && summaryRuns s) || serving s then judgeSummary (retransmissionDue s pub.val) else s) s

/-- The frame waits for its stNum (R585). -/
def held (s : State) (f : TxFrame) : Bool :=
  match f with
  | .goose p st _ _ _ _ _ _ => !isPersisted s p st
  | .supervision _ _ => false

/-- A forwarded frame's transmission time in core ticks: its octets, preamble and FCS at 10 Gb/s. -/
def forwardTicks (octets : Nat) : Nat := ceilDiv ((octets + 8) * 32) 100

/-- The frame is in transmission, and more than 256 ns of it remain. -/
def longLeft (now : Nat) (x : Nat × Nat) : Bool := x.2 ≤ now && decide (now * 5 + 512 < (x.2 + forwardTicks x.1) * 5)

/-- A zone GOOSE ends a forwarded frame of which more than 256 ns remain (R235). -/
def hsrAbort (s : State) (p : Port) : State :=
  let x := portGet s p
  if canSend s p && x.fwd.any (longLeft s.now) then
    portTally (emit (portPut s p { x with fwd := x.fwd.filter (fun y => !longLeft s.now y) }) (.aborted p)) p 12
  else s

/-- A frame leaves the process transmit queue (R77, R592 to R594, R635). -/
def transmit (s : State) (f : TxFrame) : State :=
  match f with
  | .goose _ _ _ seq dst tci appid pdu =>
    let r := gooseKey s true
    let s := r.1
    if !r.2.1 then { s with pub := { s.pub with stopped := true } }
    else
      let s := if isHsr s then hsrAbort (hsrAbort s .p0) .p1 else s
      let frame := octets 6 dst ++ octets 6 (nodeMac s) ++ octets 2 0x8100 ++ octets 2 tci ++ octets 2 0x88B8 ++ gooseBody appid pdu r.2.2
      if isTwin s then sendPairNode s seq frame else sendProcess s frame
  | .supervision true seq => sendPairNode s seq (supervisionFrame (nodeMac s) seq.toNat)
  | .supervision false _ =>
    sendProcess s (supervisionFrame (processMac s) (if isHsr s then s.ports.seqHsr.toNat else s.ports.seqProcess.toNat))

/-- Remove the first frame that may leave. -/
def takeFrame (h : TxFrame → Bool) : List TxFrame → Option (TxFrame × List TxFrame)
  | [] => none
  | f :: rest =>
    if h f then (takeFrame h rest).map (fun r => (r.1, f :: r.2)) else some (f, rest)

/-- The queue releases its next frame (R793). -/
def transmitNext (s : State) : State :=
  match takeFrame (held s) s.pub.queue with
  | none => s
  | some (f, rest) => transmit (refill { s with pub := { s.pub with queue := rest } }) f

/-- Every frame that may leave now leaves (R252). -/
def transmitAll : Nat → State → State
  | 0, s => s
  | n + 1, s => if (takeFrame (held s) s.pub.queue).isNone then s else transmitAll n (transmitNext s)
def transmitReady (s : State) : State := transmitAll (s.pub.queue.length + s.pub.waiting.length) s

/-- PROCESS_TRANSMIT (R793). -/
def execProcessTransmit (s : State) : Host.Outcome State Fault Refusal :=
  run (fun s => if coreRuns s then transmitNext s else s) s

/-! Status frames (R597 to R599) -/

/-- The identity block (Table 2.11). -/
def identityBlock (s : State) : List Byte :=
  let f := (fuse s).getD { ok := false }
  let twoStraps := (List.range 6).map (fun i => BitVec.ofNat 8 (strap s (2 * i) % 16 * 16 + strap s (2 * i + 1) % 16))
  let body := octets 3 f.oui.toNat ++ [0x01#8] ++ octets 4 f.serial.toNat ++ [f.issue] ++ octets 1 (sideUid s)
    ++ octets 6 f.macBase.toNat ++ twoStraps ++ octets 6 ((pairMac s).getD 0) ++ zeros 3
  body ++ octets 1 (256 - body.foldl (fun a b => (a + b.toNat) % 256) 0)

/-- PINS of Table 15.6. -/
def pinsOctet (s : State) : Nat :=
  let b := fun (x : Bool) (n : Nat) => if x then 2 ^ n else 0
  b (healthyOut s) 0 + b (readyOut s) 1 + b (s.plug.hold != .idle) 2 + b s.pub.ackIn 3 + b s.plug.present 4
    + b s.sealSt.hatchReported 5 + b s.sealSt.latch 6
    + b (match s.plug.hold with
        | .timing _ _ => true
        | _ => false) 7

/-- The key fields of R598. -/
def keyFields (s : State) : List Nat :=
  [engineCode s.power.engine, pairCode s.pair.state, timeCode (reportedTime s), almMap s, pinsOctet s, publishedFp s, stableFp s]

/-- The level on ACK_IN is read at a status frame's instant; the commands name its acceptance alone, and the level is the outside's (a free
value, log 58). -/
def readAckIn (s : State) : State := tookFresh { s with pub := { s.pub with ackIn := freshValue s % 2 == 1 } }

/-- A bitmap of n octets: item i at bit i mod 8 of octet i div 8. -/
def bitmap (n : Nat) (f : Nat → Bool) : List Byte :=
  (List.range n).map (fun o => BitVec.ofNat 8 ((List.range 8).foldl (fun a b => a + (if f (8 * o + b) then 2 ^ b else 0)) 0))

/-- ZONES code of a zone (Table 15.6). -/
def zoneCode (s : State) (z : Nat) : Nat :=
  match s.plug.image with
  | none => 0
  | some r =>
    match judge (adcInputs s) r z with
    | .absent => 0
    | .enabled => if (zoneGet s z).ds.q % 4 = 0 then 1 else 2
    | _ => 3

def phaseCode (p : SlotPhase) : Nat :=
  match p with
  | .free => 0
  | .candidate _ _ => 1
  | .admitted => 2

/-- The 16 words of an SV slot, the 8 of a breaker slot (Table 15.7). -/
def svWords (s : State) (slot : Nat) : List Nat :=
  let x := Tab.get {} s.streams.sv slot
  (phaseCode x.phase * 65536 + handleOf x.gen slot) :: (List.range 10).map (fun w => (Tab.get 0 x.tally (w + 1)).toNat)
    ++ [x.smpSynch % 256, 0, 0, 0, 0]
def brkWords (s : State) (slot : Nat) : List Nat :=
  let x := Tab.get {} s.streams.brk slot
  (phaseCode x.phase * 65536 + handleOf x.gen slot) :: (List.range 6).map (fun w => (Tab.get 0 x.tally (w + 1)).toNat)
    ++ [x.dbpos.toNat + (if x.expired then 4 else 0)]

/-- Pages in the cycle (R599). -/
def svPages (s : State) : Nat := ceilDiv (gSvSize (rods s)) 4
def pageCount (s : State) : Nat := 3 + svPages s + ceilDiv (gBrkSize (rods s)) 8

/-- The 64 words of a tally page (Table 15.7). -/
def pageWords (s : State) (page : Nat) : List Nat :=
  if page < 3 then (List.range 64).map (tallyGet s page)
  else if page < 3 + svPages s then ((List.range 4).map (fun i => svWords s (4 * (page - 3) + i))).flatten
  else ((List.range 8).map (fun i => brkWords s (8 * (page - 3 - svPages s) + i))).flatten

/-- The status frame body (Table 15.6). DESIGN CHOICE (log 163): one body leaves on both ports, so its transmit timestamp is that of the copy
on S0, or on S1 while S0 cannot send. -/
def statusBody (s : State) : List Byte :=
  let page := s.pub.page % pageCount s
  identityBlock s ++ [0x01#8] ++ octets 1 (engineCode s.power.engine) ++ octets 1 (pairCode s.pair.state)
    ++ octets 1 (timeCode (reportedTime s)) ++ octets 1 (reportedTimeq s) ++ octets 1 (almMap s) ++ octets 1 (pinsOctet s)
    ++ zeros 1 ++ octets 4 s.pub.sseq.toNat ++ stampOctets (txStamp s (if canSend s .s0 then .s0 else .s1)) ++ zeros 2
    ++ octets 8 (publishedFp s) ++ octets 8 (stableFp s) ++ octets 8 s.journal.jseq ++ octets 2 (keysMap s) ++ zeros 2
    ++ ((List.range 22).map (fun b => octets 2 (statusWord s (b + 1)))).flatten
    ++ (List.range 64).map (fun o => BitVec.ofNat 8 ((List.range 4).foldl (fun a i => a + zoneCode s (4 * o + i) * 4 ^ i) 0))
    ++ bitmap 32 (fun z => zEnabled s z && (zoneGet s z).ds.trip) ++ bitmap 32 (fun z => zEnabled s z && (zoneGet s z).ds.start)
    ++ bitmap 128 (fun i => (Tab.get {} s.streams.sv i).phase == .admitted)
    ++ bitmap 32 (fun i => (Tab.get {} s.streams.brk i).phase == .admitted)
    ++ octets 2 page ++ octets 2 (pageCount s) ++ ((pageWords s page).map (octets 4)).flatten

/-- A status frame leaves on S0 and S1 (R597): the next page, SSEQ counted. -/
def sendStatus (s : State) : State :=
  let oui := ((fuse s).map (fun f => f.oui.toNat)).getD 0
  let body := statusBody s
  let s := { s with pub := { s.pub with
    sseq := s.pub.sseq + 1, lastKey := keyFields s, page := (s.pub.page + 1) % pageCount s } }
  sendStation s (octets 3 (Nat.lor oui 0x010000) ++ [0x0C#8, 0x41#8] ++ octets 1 (uid s) ++ octets 6 (stationMac s)
    ++ octets 2 0x88B7 ++ octets 3 oui ++ octets 2 0x0C41 ++ body)

/-- Status frames run from the first S-port link-up (R611). -/
def statusRuns (s : State) : Bool := summaryRuns s

/-- STATUS_FRAME_PERIODIC (R598). -/
def execStatusFramePeriodic (s : State) : Host.Outcome State Fault Refusal :=
  run (fun s => if statusRuns s then sendStatus (judgeSummary (readAckIn s)) else s) s

/-- A status frame on a change of a key field since the last one (R598). -/
def statusOnChange (s : State) : State :=
  let s := readAckIn s
  if keyFields s != s.pub.lastKey then sendStatus (judgeSummary s) else s

/-- STATUS_FRAME_ON_CHANGE (R598). -/
def execStatusFrameOnChange (s : State) : Host.Outcome State Fault Refusal :=
  run (fun s => if statusRuns s then statusOnChange s else s) s

end Sys2Proof.Machine
end

