-- ==== Sys2Proof/Machine/Reckoner.lean ====
section
/-! DEFINITION. The Reckoner's control law, following-error supervision and COIL slots (chapter 9). -/
namespace Sys2Proof.Machine

/-- Saturate an error to the range of Table 9.1 (R345). -/
def satError (e : Int) : Int := clampInt (-32767) 32767 e

/-- One update of a slot (R346): coefficients, the output's limits and the integrator's. -/
def controlLaw (kp ki : Nat) (lo hi : Int) (l : Loop) (e : Int) : Loop :=
  let i := clampInt (lo * 2 ^ 15) (hi * 2 ^ 15) (l.i + ki * e)
  let sum := clampInt (lo * 2 ^ 15) (hi * 2 ^ 15) (kp * e + i)
  { l with i := i, u := (sum + 2 ^ 14) / 2 ^ 15 }

/-- The following-error timer, in updates (R349). -/
def feTimer (limit : Nat) (l : Loop) (e : Int) : Loop :=
  { l with fe := if limit < e.natAbs then l.fe + 1 else 0 }

/-- A value in 2^-16 ns brought to error LSB of 31.25 ps and negated (R318); the rounding is not stated (log 4). -/
def errorLsb (off : Int) : Int :=
  let n := -(off * 32)
  satError (if n % 65536 = 0 then n / 65536 else if Config.roundUp n 65536 then n / 65536 + 1 else n / 65536)

/-- CLK update (Table 9.2), with its fault's cause gone at |e| within FE_LIMIT (Table 9.5). -/
def clkUpdate (s : State) (e : Int) : State :=
  let l := feTimer 0x2000 (controlLaw 0x157A 0x157A (-32767) 32767 s.reck.clk e) e
  let s := { s with reck := { s.reck with clk := l } }
  if l.fe = 0 then causeGone s { code := 0x1100, scope := 10, inst := 0 } else s

/-- Setpoint of a COIL slot in 0.5 mA (R358). -/
def coilSetpoint (r : Rods) (cc : Nat) : Nat := 200 * chHold r cc

/-- The channel regulates: an output with a hold current, not the odd channel of a couple (Table 9.4). -/
def coilEnabled (r : Rods) (cc : Nat) : Bool :=
  chIsOutput r cc && chHold r cc != 0 && !(coupled r cc && cc % 2 == 1)

/-- The image by which a slot runs: until its first update after a commit, the one before (R366). -/
def coilRods (s : State) (cc : Nat) : Rods :=
  match (coilGet s cc).due, s.plug.earlier with
  | true, some (old, _) => old
  | _, _ => rods s

/-- The measured current the slot regulates: of a parallel couple the sum, in two-pole mode the even leg (R358). -/
def coilCurrent (s : State) (cc : Nat) : Nat :=
  if pairMode (rods s) cc == .parallel then chCurr s cc + chCurr s (cc + 1) else chCurr s cc

/-- The slot enters Pick (Table 9.4, R364, R369). -/
def coilPick (s : State) (cc : Nat) : State :=
  coilPut s cc { phase := .pick, loop := { i := 0, u := 32767, fe := 0 }, due := (coilGet s cc).due }

/-- The command of a channel's couple changes: rising enters Pick, dropping enters Idle (Table 9.4). -/
def coilCommand (s : State) (cc : Nat) (on : Bool) : State :=
  if !on then coilIdle s cc
  else if coilEnabled (coilRods s cc) cc && serving s && (coilGet s cc).phase == .idle then coilPick s cc
  else s

/-- The field side reports the channel switched off by its own protection, or conducting again (Table 9.4, R369). -/
def coilLatched (s : State) (cc : Nat) (off : Bool) : State :=
  let c := coilGet s cc
  if off then (if c.phase = .idle || c.phase = .frozen then s else coilPut s cc { c with phase := .frozen })
  else if c.phase = .frozen then coilPick s cc
  else s

/-- The preset of R359. -/
def coilPreset (r : Rods) (cc mPick : Nat) : Nat :=
  let top := gCoilUmax r cc * 2 ^ 15
  if mPick = 0 then top else min (coilSetpoint r cc * 2 ^ 30 / mPick) top

/-- PICK_END (R359): after the pick time, counted in updates from the start of Pick (Table 9.4, R366): Approach above the setpoint, else
Hold. -/
def pickEnd (s : State) (cc : Nat) : State :=
  let c := coilGet s cc
  let r := coilRods s cc
  if c.phase != .pick || !coilEnabled r cc || c.picked < 20 * chPick r cc then s
  else
    let i := coilPreset r cc c.mPick
    coilPut s cc { c with phase := if coilSetpoint r cc < c.mPick then .approach else .hold, picked := 0,
                          loop := { i := i, u := c.loop.u, fe := 0 } }

/-- COIL_UPDATE in Pick, Approach and Hold (Table 9.4, R360, R363). -/
def coilUpdate (s : State) (cc : Nat) : State :=
  let c := coilGet s cc
  let r := rods s
  let hi : Int := gCoilUmax r cc
  -- a coupler fault makes the slot skip its updates (R574)
  let skip := !c.fresh || (Tab.get {} s.field.ch cc).coupler
  let e := satError ((coilSetpoint r cc : Int) - coilCurrent s cc)
  let store := fun (d : Coil) (t : State) =>
    let t := coilPut t cc { d with fresh := false }
    if d.loop.fe = 0 && d.phase != .pick then causeGone t { code := 0x1180, scope := 10, inst := 4 + cc } else t
  match c.phase with
  | .pick => coilPut s cc { c with picked := c.picked + 1, mPick := coilCurrent s cc }
  | .approach =>
    if skip then s
    else if 0 ≤ e then
      store { c with phase := .hold, loop := feTimer (gCoilFeLim r cc) (controlLaw (gCoilKp r cc) (gCoilKi r cc) 0 hi c.loop e) e } s
    else
      -- I is held at its preset: the law with Ki 0
      store { c with loop := feTimer (gCoilFeLim r cc) (controlLaw (gCoilKp r cc) 0 0 hi c.loop e) e } s
  | .hold =>
    if skip then s
    else store { c with loop := feTimer (gCoilFeLim r cc) (controlLaw (gCoilKp r cc) (gCoilKi r cc) 0 hi c.loop e) e } s
  | _ => s

/-- PICK_END (R359). -/
def execPickEnd (ch : Fin 32) (s : State) : Host.Outcome State Fault Refusal :=
  run (fun s => if coreRuns s then pickEnd s ch.val else s) s

/-- A parity error in a slot's error words or integrator (Table 9.5): the integrator is cleared, a COIL slot in Approach or Hold enters Pick;
SPARE has none (R354). -/
def slotParity (s : State) (n : Nat) : State :=
  if n = 0 then
    arise { s with reck := { s.reck with clk := { s.reck.clk with i := 0 } } } { code := 0x1100, scope := 10, inst := 0 } 1 none16 []
  else if n = 1 then ariseU { s with reck := { s.reck with oven := { s.reck.oven with i := 0 } } } 0x0EC0 2
  else if n = 2 then
    arise { s with reck := { s.reck with twin := { s.reck.twin with i := 0 } } } { code := 0x1140, scope := 10, inst := 2 } 1 none16 []
  else if n = 3 then s
  else
    let cc := n - 4
    let c := coilGet s cc
    let s := if c.phase = .approach || c.phase = .hold then coilPick s cc else coilPut s cc { c with loop := { c.loop with i := 0 } }
    arise s { code := 0x1180, scope := 10, inst := n } 1 none16 []

/-- The duty the slot commands: full conduction in Pick, its output in Approach and Hold, none otherwise (Table 9.4). -/
def coilDuty (s : State) (cc : Nat) : Option Nat :=
  let c := coilGet s cc
  match c.phase with
  | .pick => some 32768
  | .approach | .hold => some c.loop.u.toNat
  | _ => none

end Sys2Proof.Machine
end

