-- ==== Sys2Proof/Machine/Sequence.lean ====
section
/-! DEFINITION. The sequence entries of row 5: which are in use, which are skipped, what each converts and where its result
goes (R505 to R507, R523, R529, Table 5.6). -/
namespace Sys2Proof.Machine

/-- Input, converter (0 own primary, 1 K0, 2 K1), oversampling index and factory-only correction of entry e. -/
def seqInput (r : Rods) (e : Nat) : Nat := gSeqCh r e - 1
def seqConv (r : Rods) (e : Nat) : Nat := gSeqConv r e / 8
def seqOver (r : Rods) (e : Nat) : Nat := gSeqConv r e / 2 % 4
def seqFactory (r : Rods) (e : Nat) : Bool := gSeqConv r e % 2 == 1

/-- Entry e is set, and is in use: it names an enabled input (R505). -/
def seqSet (r : Rods) (e : Nat) : Bool := gSeqCh r e != 0
def seqUsed (adc : Nat) (r : Rods) (e : Nat) : Bool := seqSet r e && seqInput r e < adc

/-- The checker named by an entry before e that is in use and not skipped (R507): 1 K0, 2 K1, 0 none. -/
def checkerBefore (adc : Nat) (r : Rods) (e : Nat) : Nat :=
  -- of the entries in use that name a checker, only the lowest-numbered is not skipped
  match (List.range e).find? (fun f => seqUsed adc r f && seqConv r f != 0) with
  | some f => seqConv r f
  | none => 0

/-- Entry e is skipped (R189, R506, R507, R529). -/
def seqSkipped (adc : Nat) (r : Rods) (e : Nat) : Bool :=
  seqSet r e && (!seqUsed adc r e
    || (if seqConv r e = 0 then
          (List.range e).any (fun f => seqUsed adc r f && seqConv r f == 0 && seqInput r f == seqInput r e)
        else checkerBefore adc r e != 0))

/-- Some entry is skipped: the settings fault of R530. -/
def seqFault (adc : Nat) (r : Rods) : Bool := adc != 0 && (List.range 32).any (seqSkipped adc r)

/-- The entry whose conversion set primary p runs: the lowest-numbered in use that names it (R506). -/
def primaryEntry (adc : Nat) (r : Rods) (p : Nat) : Option Nat :=
  (List.range 32).find? (fun e => seqUsed adc r e && seqConv r e == 0 && seqInput r e == p)

/-- The checker an entry names, with that entry (R507). -/
def namedChecker (adc : Nat) (r : Rods) : Option (Nat × Nat) :=
  ((List.range 32).find? (fun e => seqUsed adc r e && seqConv r e != 0)).map (fun e => (seqConv r e - 1, e))

/-- The entry in use that fills quantity q of local stream ls (R523). -/
def lsEntry (adc : Nat) (r : Rods) (ls q : Nat) : Option Nat :=
  (List.range 32).find? (fun e => seqUsed adc r e && gSeqLs r e == 8 * ls + q + 1)

/-- The input a checker converts at smpCnt n (Table 13.4), and the checker that covers an input (R521). -/
def checkerInput (adc : Nat) (r : Rods) (k n : Nat) : Nat :=
  match namedChecker adc r with
  | some (j, e) => if j = k then seqInput r e else n % adc
  | none => if k = 0 then n % (adc / 2) else adc / 2 + n % (adc / 2)
def coveringChecker (adc : Nat) (r : Rods) (i : Nat) : Nat :=
  match namedChecker adc r with
  | some (j, e) => if seqInput r e = i then j else 1 - j
  | none => if i < adc / 2 then 0 else 1

end Sys2Proof.Machine
end

