-- ==== Sys2Proof/Machine/Zones.lean ====
section
/-! DEFINITION. The zone evaluators on the whole state: one sample of a zone, its publication, outputs, journal entry, snapshots,
records and faults (stages 8 to 11), and the commands that name the end of a zone's wait (chapters 11, 12, 15, 17). -/
namespace Sys2Proof.Machine

/-! Field commands (R476, Tables 12.3, 21.1) -/

/-- The channels a zone commands. -/
def zoneCommands (s : State) (z : Nat) (x : Zone) : List Nat :=
  let r := rods s
  if x.test || !zEnabled s z then []
  else
    (if x.trip then namedChannels r (zChannel r z 49) ++ namedChannels r (zChannel r z 50) else [])
      ++ (if x.close && !closeConflict (adcInputs s) r z then namedChannels r (zChannel r z 51) else [])

/-- Every channel commanded, while the unit serves (R495). -/
def commanded (s : State) : List Nat :=
  if serving s then (s.zones.map (fun p => if p.2.trip || p.2.close then zoneCommands s p.1 p.2 else [])).flatten else []

/-- The COIL slots follow the commands that change between two states (Table 9.4). -/
def coilsFollow (before : List Nat) (s : State) : State :=
  let after := commanded s
  (List.range 32).foldl (fun s cc => if before.contains cc == after.contains cc then s else coilCommand s cc (after.contains cc)) s

/-! Disturbance records (R676 to R678) -/

/-- The index n samples before i. -/
def beforeIndex (rate : Nat) (i : SIndex) (n : Nat) : SIndex :=
  let a := absIndex rate i + 2 ^ 48 * rate - n
  ⟨a / rate % 2 ^ 48, a % rate⟩
/-- n ms in samples of a rate. -/
def msSamples (rate ms : Nat) : Nat := ms * rate / 1000

/-- The streams of a zone from an index on. -/
def zoneStreams (s : State) (z : Nat) (from_ : SIndex) : List (Nat × Nat × SIndex) :=
  let one := fun (o : Option Nat) => match o with
    | some p => [(p, (if p < 1024 then handleOf (Tab.get {} s.streams.sv p).gen p else none16), from_)]
    | none => []
  one (zMain (rods s) z) ++ (if zVolt (rods s) z = zMain (rods s) z then [] else one (zVolt (rods s) z))

/-- What the ring holds of some streams, each from the index it is carried from to the last, beside what has been copied (R675, R676). -/
def ringCopies (s : State) (streams : List (Nat × Nat × SIndex)) (last : SIndex) (had : Tab RingRec) : Tab RingRec :=
  let rate := strapRate s
  streams.foldl (fun t x =>
    let first := absIndex rate x.2.2
    s.journal.ring.foldl (fun t p =>
      let a := first + (p.1 % 130816 + 130816 - first % 130816) % 130816
      if p.1 / 130816 = x.1 && a ≤ absIndex rate last && p.2.secLo = a / rate % 256 then Tab.insert t (copyKey x.1 a) p.2 else t) t) had

/-- Add streams that are not yet carried, up to 16. -/
def addStreams (l more : List (Nat × Nat × SIndex)) : List (Nat × Nat × SIndex) :=
  more.foldl (fun l x => if l.any (fun y => y.1 == x.1) || 16 ≤ l.length then l else l ++ [x]) l

/-- The zone has a record open. -/
def recordOpen (z : Nat) (r : DrRecord) : Bool := !r.closed && r.zones.any (fun x => x.zone == z)

/-- The later of two indices. -/
def laterIndex (a b : SIndex) : SIndex := if a.lt b then b else a

/-- A closed record that a zone joins is open again (R677; DEDUCED, log 156): its body, and its index that has not been committed, go. -/
def reopenRecord (s : State) (o : DrRecord) : State :=
  if !o.closed then s
  else
    let other := fun (e : Entry) => !((e.code == 0x4400 || e.code == 0x4401) && field e.payload 0 4 == o.recno)
    { s with
      journal := { s.journal with
        queue := s.journal.queue.filter other
        holds := s.journal.holds.filter (fun h => other h.2)
        store := s.journal.store.filter (fun x => x.recno != o.recno)
        records := s.journal.records.map (fun d => if d.recno = o.recno then { d with closed := false } else d) }
      pair := { s.pair with pairEntries := s.pair.pairEntries.filter other, unitEntries := s.pair.unitEntries.filter other } }

/-- A joining zone's streams are added where the ring still holds them from its own pre-trigger start and 4 MiB hold the body; else its
verdict trace alone (R677). -/
def joinedStreams (s : State) (d : DrRecord) (more : List (Nat × Nat × SIndex)) : List (Nat × Nat × SIndex) :=
  let rate := strapRate s
  let all := addStreams d.streams more
  let held := more.all (fun x => decide (absIndex rate s.journal.latest < absIndex rate x.2.2 + 130816))
  if held && bodySize s { d with streams := all } (recordSpan s d) ≤ 4194304 then all else d.streams

/-- Change one pending record. -/
def recordUpd (s : State) (recno : Nat) (f : DrRecord → DrRecord) : State :=
  { s with journal := { s.journal with records := s.journal.records.map (fun d => if d.recno = recno then f d else d) } }

/-- The copies of a record follow its streams and its last index. -/
def withCopies (s : State) (d : DrRecord) : DrRecord := { d with copies := ringCopies s d.streams d.last d.copies }

/-- A trigger of zone z extends its open record, opens one, or, with 32 pending, joins the most recently opened one (R676, R677). -/
def recordTrigger (s : State) (z fired : Nat) (idx : SIndex) : State :=
  let r := rods s
  let rate := strapRate s
  let fired := Nat.land fired (zDrMask r z)
  let at_ := receivedIndex s idx
  let last := addIndex rate at_ (msSamples rate (zDrPost r z))
  let pre := beforeIndex rate at_ (msSamples rate (zDrPre r z))
  let part : RecZone := { zone := z, lastTrigger := at_, trace := ((zoneGet s z).trace.take (msSamples (pipeRate s) (zDrPre r z) + 1)).reverse }
  if fired = 0 then s
  else
    match s.journal.records.find? (recordOpen z) with
    | some d =>
      recordUpd s d.recno (fun d => withCopies s
        { d with fired := d.fired ||| fired, last := laterIndex d.last last,
                 zones := d.zones.map (fun x => if x.zone = z then { x with lastTrigger := at_ } else x) })
    | none =>
      if s.journal.records.length < 32 then
        let d : DrRecord :=
          { recno := s.journal.recno + 1, zones := [part], fired := fired, first := pre, trigger := at_, last := last,
            streams := addStreams [] (zoneStreams s z pre), timeq := indexTimeq s at_, fp := publishedFp s
            flags := (if (zoneGet s z).test then 8 else 0) + (if s.time.stepped then 0 else 16), closed := false, sev := 0 }
        { s with journal := { s.journal with records := s.journal.records ++ [withCopies s d], recno := s.journal.recno + 1 } }
      else
        match s.journal.records.getLast? with
        | none => s
        | some o =>
          recordUpd (reopenRecord s o) o.recno (fun d =>
            let d := { d with fired := d.fired ||| fired, last := laterIndex d.last last, zones := d.zones ++ [part], flags := d.flags ||| 4 }
            withCopies s { d with streams := joinedStreams s d (zoneStreams s z pre) })

/-- The zone's trace sample: kept for 1.0 s, and taken by its open record up to the record's last index (R678). -/
def recordTrace (s : State) (z : Nat) (idx : SIndex) : State :=
  let x := zoneGet s z
  let t : TraceRec := { opr := x.ds.opr, str := x.ds.str, cmd := cmdBits x, arSt := x.ds.arSt, q := reverse13 x.ds.q }
  let at_ := receivedIndex s idx
  let s := zonePut s z { x with trace := (t :: x.trace).take (pipeRate s + 1) }
  if s.journal.records.any (recordOpen z) then
    { s with journal := { s.journal with records := s.journal.records.map (fun d =>
        if recordOpen z d && !d.last.lt at_ then
          { d with zones := d.zones.map (fun y => if y.zone = z then { y with trace := y.trace ++ [t] } else y) } else d) } }
  else s

/-! A change of the zone's verdicts (stages 9 to 11) -/

/-- The payload of a verdict entry (Table 17.6). -/
def verdictPayload (s : State) (z : Nat) (old : Dataset) : List Byte :=
  let x := zoneGet s z
  let m := (zoneMeasurands s z).zip measurandUnits
  let out := (zoneCommands s z x).foldl (fun a c => a ||| 2 ^ c) 0
  octets 2 x.ds.opr ++ octets 2 x.ds.str ++ octets 2 old.opr ++ octets 2 old.str ++ octets 1 x.ds.phs ++ octets 1 x.ds.dir
    ++ octets 1 (cmdBits x) ++ octets 1 x.ds.arSt ++ octets 1 x.ds.arShot ++ zeros 1 ++ octets 2 (reverse13 x.ds.q)
    ++ octets 4 (pubGet s z).stNum ++ octets 4 out ++ (m.map (fun p => octets 4 (measurandFloat p.1 p.2))).flatten
    ++ (m.map (fun p => octets 1 p.1.2)).flatten ++ zeros 10

/-- An urgent check of an input is requested; one already requested is the same check (R520). -/
def requestCheck (s : State) (i : Nat) : State :=
  if s.adc.urgent.any (·.1 == i) then s
  else { s with adc := { s.adc with urgent := s.adc.urgent ++ [(i, s.now)], asked := Tab.insert s.adc.asked i s.now } }

/-- An urgent check is requested of the phase current of a local stream with the largest peak word (R520). -/
def requestUrgent (s : State) (z : Nat) : State :=
  match zMain (rods s) z with
  | none => s
  | some pos =>
    if pos < 1024 then s
    else
      let ins := (List.range 3).filterMap (fun q =>
        (lsEntry (adcInputs s) (rods s) (pos - 1024) q).map (fun e => (seqInput (rods s) e, (mainWord s z q 9).1)))
      match ins with
      | [] => s
      | a :: t =>
        let best := t.foldl (fun m x => if m.2 < x.2 || (m.2 == x.2 && x.1 < m.1) then x else m) a
        requestCheck s best.1

/-- A dataset change of a zone: publication, outputs (`before` it the channels commanded), journal, snapshots (R14, R583, R672). -/
def verdictChange (s : State) (z : Nat) (idx : SIndex) (before : List Nat) (old new : Dataset) : State :=
  let s := if formChanged (zForm (rods s) z) old new then zoneChange s z idx else s
  let s := coilsFollow before s
  let s := journalEntry s (indexEntry s (strapRate s) (receivedIndex s idx) 0x3400 3 0 z (zoneHandle s z) (zoneGet s z).test (verdictPayload s z old))
  let event := (new.trip && !old.trip) || (new.bf && !old.bf) || (new.lockout && !old.lockout)
  let started := new.start && !old.start
  let s := if event then unitSnapshots (zoneSnapshots s z 0 idx) 0 (receivedIndex s idx) else s
  let s := if started then unitSnapshots (zoneSnapshots s z 1 idx) 1 (receivedIndex s idx) else s
  if started then requestUrgent s z else s

/-- A fault of a zone. -/
def keyZ (code z : Nat) : FaultKey := { code := code, scope := 1, inst := z }

/-- Trip command, 50BF, 79 and the dataset of a zone follow its elements over n samples (1 in a sample, 0 at the end of a
wait), and what changed is reported (R473 to R480, R583). -/
def settle (s : State) (z n : Nat) (idx : SIndex) (blockChange : Bool) : State :=
  let r := rods s
  let x := zoneGet s z
  let before := commanded s
  let t := tripStep (zoneCtx s z x) n
  let a := if z79On r z then arStep s z n t.2.1 t.2.2 t.1 else (t.1, false)
  let c := zoneCtx s z a.1
  let d := datasetOf c
  let s := zonePut s z { a.1 with ds := d }
  let s := if d = x.ds then coilsFollow before s else verdictChange s z idx before x.ds d
  let s := if a.2 then arise s (keyZ 0x3680 z) 0 none16 [] else s
  let s := if n = 0 then s else recordTrace s z idx
  recordTrigger s z ((if d.trip && !x.ds.trip then 1 else 0) + (if d.start && !x.ds.start then 2 else 0)
    + (if d.bf && !x.ds.bf then 4 else 0) + (if inProgress a.1 && !inProgress x then 8 else 0) + (if blockChange then 16 else 0)) idx

/-! Restarts and test mode (R156, R481, R482, R494, R498) -/

/-- A zone restarts: elements, commands and machines at their reset state. -/
def zoneRestart (s : State) (z : Nat) (x : Zone) : State :=
  let before := commanded s
  coilsFollow before (zonePut s z (zoneFresh (rods s) z (statusNow s z x)))

/-- The dataset of a zone that starts: its present values before its first sample (R498, R612). -/
def presentDataset (s : State) (z : Nat) : State :=
  let x := { zoneGet s z with block := blockActive s z }
  zonePut s z { x with ds := datasetOf (zoneCtx s z (zoneFresh (rods s) z (statusNow s z x))) }

/-- The zone enters test mode: θ is copied (R482). -/
def enterTest (s : State) (z : Nat) : State :=
  let x := zoneGet s z
  arise (zoneRestart s z { x with test := true, thetaCopy := x.theta }) (keyZ 0x3700 z) 0 none16 []

/-- The zone leaves test mode: the copy is discarded. -/
def leaveTest (s : State) (z : Nat) : State :=
  let x := zoneGet s z
  causeGone (zoneRestart s z { x with test := false, thetaCopy := 0 }) (keyZ 0x3700 z)

/-- The flags of the 8 channels of a position's pipeline sample of an index; none where it has formed no such sample. -/
def channelFlagsAt (s : State) (pos : Nat) (i : SIndex) : List Nat :=
  match (pipeGet s pos).win.find? (fun p => p.idx == i) with
  | some p => p.fl.take 8
  | none => []

/-- The streams of a zone at a sample of its main stream: the flags of each one's channels. -/
def streamFlags (s : State) (z : Nat) : List (List Nat) :=
  match zMain (rods s) z with
  | none => []
  | some p =>
    let i := (pipeGet s p).idx
    channelFlagsAt s p i :: (match zVolt (rods s) z with
      | some v => if v = p then [] else [channelFlagsAt s v i]
      | none => [])

/-- Count of flagged and of clean samples, and the entry or exit they bring (R481). -/
def testStep (s : State) (z : Nat) : State :=
  let fl := streamFlags s z
  let all := fl ≠ [] && fl.all (fun l => l ≠ [] && l.all (fun f => hasFlag f fTST))
  let clean := fl.all (fun l => l.all (fun f => !hasFlag f fTST))
  let x := zoneGet s z
  let x := { x with tstRun := if all then min (x.tstRun + 1) (nFc s) else 0, cleanRun := if clean then min (x.cleanRun + 1) (nFc s) else 0 }
  let s := zonePut s z x
  if !x.test && nFc s ≤ x.tstRun then enterTest s z
  else if x.test && nFc s ≤ x.cleanRun then leaveTest s z
  else s

/-! Zone faults (Tables 7.7, 11.7, 12.8) -/

/-- A run of samples under a condition. -/
def runOf (on : Bool) (n : Nat) : Nat := if on then n + 1 else 0

/-- A fault arises after a run of more than `limit` samples, and loses its cause on `gone`. -/
def runFault (s : State) (z code detail limit run : Nat) (gone : Bool) : State :=
  if limit < run && !faultStands s (keyZ code z) then arise s (keyZ code z) detail none16 []
  else if gone && faultStands s (keyZ code z) then causeGone s (keyZ code z)
  else s

/-- The faults of a zone in a sample. -/
def zoneFaults (s : State) (z : Nat) : State :=
  let r := rods s
  let x := zoneGet s z
  let rate := pipeRate s
  let c := zoneCtx s z x
  let volt := [9, 10, 11].filter (elemOn r z)
  let frozen := volt.any (fun n => (voltUnusable c n || voltInputLost c n) && !(n == 9 && x.brk == .opened) && !x.block)
  let needs := zBfOn r z || z79On r z || zClpOn r z
  let bad := (breakerInputs r z).any (inputInvalid s)
  let decs := (List.range 4).filter (decisionOn r z)
  let unsync := decs ≠ [] && unsynchronised s z
  let x := { x with
    voltRun := runOf frozen x.voltRun, voltOk := runOf (!frozen) x.voltOk, badRun := runOf (x.brk == .bad && needs) x.badRun
    inputRun := runOf bad x.inputRun, syncRun := runOf unsync x.syncRun }
  let s := zonePut s z x
  let s := decs.foldl (fun s d =>
    runFault s z 0x3580 (if d = 3 then 1 else 0) rate (dirGet x d).unavailRun
      (decs.all (fun e => !(dirGet x e).unavailable && rate < (dirGet x e).availRun))) s
  let s := runFault s z 0x35C0 0 rate x.voltRun (decide (rate < x.voltOk))
  let s := runFault s z 0x3600 0 rate x.badRun (statusKnown x.brk)
  let s := runFault s z 0x3640 0 rate x.inputRun (!bad)
  runFault s z 0x2E00 0 rate x.syncRun (!unsync)

/-! One sample of a zone (stage 8) -/

/-- Zone z evaluates the newest pipeline sample of its main stream (R413, R454). -/
def evalZone (s : State) (z : Nat) (idx : SIndex) : State :=
  let old := zoneGet s z
  let x := coldStep s z (statusStep s z old)
  let x := { x with block := blockActive s z }
  let y := zoneElements (zoneCtx s z x)
  let s := settle (zonePut s z y) z 1 idx (y.block != old.block)
  testStep (zoneFaults s z) z

/-- The settings that apply to a received index: those before a commit's boundary for an index before it (R34, R298). -/
def imageAt (s : State) (i : SIndex) : Rods :=
  match s.plug.earlier with
  | some (old, first) => if i.lt first then old else rods s
  | none => rods s

/-- A zone evaluates a sample, and takes the snapshots that waited for it. -/
def evalSample (s : State) (z : Nat) (idx : SIndex) : State := dueSnapshots (evalZone s z idx) z (receivedIndex s idx)

/-- A zone evaluates a sample of its main stream that has waited, with the image its index belongs to (R34, R445). -/
def evalWait (s : State) (w : ZoneWait) : State :=
  let t := { s with plug := { s.plug with image := some (imageAt s (receivedIndex s w.sample.idx)) } }
  if !serving s || !zEnabled t w.zone then s
  else
    let u := atSample t w.pos w.sample (fun t => evalSample t w.zone w.sample.idx)
    { u with plug := { u.plug with image := s.plug.image } }

/-- The samples that wait and meet a condition are evaluated, in their order. -/
def evalWaits (s : State) (p : ZoneWait → Bool) : State :=
  (s.waits.filter p).foldl evalWait { s with waits := s.waits.filter (fun w => !p w) }

/-- A sample of the zone's main stream waits while its voltage stream, another one, still delivers samples and has not reached that index
(R445; DEDUCED, log 31). -/
def waitsForVoltage (s : State) (z pos : Nat) (idx : SIndex) : Bool :=
  match zVolt (rods s) z with
  | some v => v != pos && posRuns s v && (pipeGet s v).idx.lt idx
  | none => false

/-- Every Enabled zone bound to a position evaluates its newest sample, in ascending order (R24), or keeps it until its voltage stream has
formed that index. -/
def evalStream (s : State) (pos : Nat) (idx : SIndex) : State :=
  match s.plug.image with
  | none => s
  | some r =>
    if !serving s then s
    else ((enabledZones (adcInputs s) r).filter (fun z => zMain r z == some pos)).foldl (fun s z =>
      if waitsForVoltage s z pos idx then
        { s with waits := s.waits ++ [{ zone := z, pos := pos, sample := (pipeGet s pos).newest }] }
      else evalSample (evalWaits s (fun w => w.zone == z)) z idx) s

/-- A voltage stream has formed an index: the samples that waited for it are evaluated. -/
def voltageFormed (s : State) (pos : Nat) (idx : SIndex) : State :=
  evalWaits s (fun w => !idx.lt w.sample.idx && zVolt (imageAt s (receivedIndex s w.sample.idx)) w.zone == some pos)

/-- The latest pipeline index of a zone's main stream. -/
def zoneIdx (s : State) (z : Nat) : SIndex :=
  match zMain (rods s) z with
  | some p => (pipeGet s p).idx
  | none => ⟨0, 0⟩

/-- The main stream of a zone is destroyed: elements reset, 79 to Lockout, θ held (Tables 11.5, 12.5, R466). -/
def zoneLost (s : State) (z : Nat) (idx : SIndex) : State :=
  let s := dueSnapshots (evalWaits s (fun w => w.zone == z)) z (receivedIndex s idx)
  let x := zoneGet s z
  let x := { x with el := [], dir := dirRuns x.dir }
  let x := if z79On (rods s) z && !(x.ar == .open || x.ar == .ready || x.ar == .lockout) then lockOut x else x
  settle (zonePut s z x) z 0 idx false

/-! Commands that name the end of a zone's wait (log 1) -/

/-- A wait of zone z ends: the zone serves and is Enabled, `f` applies to it, and the zone settles at its latest sample. -/
def zoneEvent (z : Nat) (f : State → Zone → Zone) (s : State) : State :=
  if serving s && zEnabled s z then judgeSummary (settle (zonePut s z (f s (zoneGet s z))) z 0 (zoneIdx s z) false) else s

/-- Decision of an operand. -/
def decNum (d : DirDec) : Nat :=
  match d with
  | .pA => 0
  | .pB => 1
  | .pC => 2
  | .n => 3

/-- DIRECTION_CONFIRMED (R434). -/
def confirmDirection (s : State) (z d : Nat) (x : Zone) : Zone :=
  let v := dirGet x d
  if decisionOn (rods s) z d && !v.unavailable && !v.latched && 0 < v.rawRun then
    dirPut x d { v with confirmed := v.raw, rawRun := max v.rawRun (nHc s / 2) }
  else x
def execDirectionConfirmed (z : Fin 256) (d : DirDec) (s : State) : Host.Outcome State Fault Refusal :=
  run (zoneEvent z.val (fun s x => confirmDirection s z.val (decNum d) x)) s

/-- MEMORY_EXPIRY (R435, R436). -/
def expireMemory (d : Nat) (x : Zone) : Zone :=
  let v := dirGet x d
  if v.mem.isSome then dirPut x d { v with mem := none, memLeft := 0, latched := v.latched || v.confirmed != .undecided } else x
def execMemoryExpiry (z : Fin 256) (d : DirDec) (s : State) : Host.Outcome State Fault Refusal :=
  run (zoneEvent z.val (fun _ x => expireMemory (decNum d) x)) s

/-- FREEZE_LIMIT (R440). -/
def clearFrozen (s : State) (n : Nat) (x : Zone) : Zone :=
  let e := elGet x n
  if e.frozen = 0 then x else elPut x n { ({} : El) with frozen := max e.frozen (pipeRate s) }
def execFreezeLimit (z : Fin 256) (e : Elem) (s : State) : Host.Outcome State Fault Refusal :=
  run (zoneEvent z.val (fun s x => clearFrozen s (elemNum e) x)) s

/-- The delay of an element in samples, when it has one: 50P, 50N, 27, 59, 81, broken conductor; definite-time 51P, 51N and 46
have J (R421, R427, R459, R469). -/
def elementDelay (s : State) (z n : Nat) : Option Nat :=
  let r := rods s
  if (3 ≤ n && n ≤ 5) || n = 7 then some (delay50 r z n * pipeRate s / 1000)
  else if 9 ≤ n && n ≤ 11 then some (voltDelay s z n)
  else if n = 13 then some ([1, 5, 10, 30].getD ((zRod r z 41 - 1) % 4) 1 * pipeRate s)
  else none
/-- The element is a definite-time integrator. -/
def definiteCurve (r : Rods) (z n : Nat) : Bool := (n ≤ 2 || n == 6 || n == 8) && (elemCurve r z n).1 == 8

/-- DEFINITE_DELAY_EXPIRY (R427, R459). -/
def expireDelay (s : State) (z n : Nat) (x : Zone) : Zone :=
  let e := elGet x n
  if !elStart x n then x
  else match elementDelay s z n with
    | some d => elPut x n { e with c := max e.c d, operate := true }
    | none => if definiteCurve (rods s) z n then elPut x n { e with j := 2 ^ 40 - 1, operate := true } else x
def execDefiniteDelayExpiry (z : Fin 256) (e : Elem) (s : State) : Host.Outcome State Fault Refusal :=
  run (zoneEvent z.val (fun s x => expireDelay s z.val (elemNum e) x)) s

/-- DEFINITE_RESET_EXPIRY (R423). -/
def expireReset (s : State) (z n : Nat) (x : Zone) : Zone :=
  let e := elGet x n
  let m := elemReset (rods s) z n
  if (n ≤ 2 || n == 6 || n == 8) && 1 ≤ m && m ≤ 30 && !e.started && e.frozen == 0 then elPut x n {} else x
def execDefiniteResetExpiry (z : Fin 256) (e : Elem) (s : State) : Host.Outcome State Fault Refusal :=
  run (zoneEvent z.val (fun s x => expireReset s z.val (elemNum e) x)) s

/-- INTERMEDIATE_TIMEOUT (R457). -/
def expireIntermediate (s : State) (x : Zone) : Zone :=
  if x.brk = .intermediate then { x with brk := .bad, interm := max x.interm (pipeRate s + 1) } else x
def execIntermediateTimeout (z : Fin 256) (s : State) : Host.Outcome State Fault Refusal := run (zoneEvent z.val expireIntermediate) s

/-- TRIP_MINIMUM_EXPIRY (R474). -/
def expireTrip (s : State) (x : Zone) : Zone := if x.trip then { x with tripFor := max x.tripFor (pipeRate s / 10) } else x
def execTripMinimumExpiry (z : Fin 256) (s : State) : Host.Outcome State Fault Refusal := run (zoneEvent z.val expireTrip) s

/-- BF_TIMER_EXPIRY (R478). -/
def expireBf (s : State) (z : Nat) (x : Zone) : Zone := if x.bf = .timing then { x with bfC := max x.bfC (bfDelay s z) } else x
def execBfTimerExpiry (z : Fin 256) (s : State) : Host.Outcome State Fault Refusal := run (zoneEvent z.val (fun s x => expireBf s z.val x)) s

/-- The 79 timer reaches a limit in a state (Table 12.5). -/
def expireAr (a : ArState) (limit : Nat) (x : Zone) : Zone := if x.ar = a then { x with arTimer := max x.arTimer limit } else x

/-- DEAD_TIME_EXPIRY (R479). -/
def execDeadTimeExpiry (z : Fin 256) (s : State) : Host.Outcome State Fault Refusal :=
  run (zoneEvent z.val (fun s x => expireAr .dead (deadTime s z.val x.arK) x)) s

/-- RECLAIM_EXPIRY (R479): of Reclaim, or of Lockout with the status closed. -/
def expireReclaim (s : State) (z : Nat) (x : Zone) : Zone :=
  if x.ar = .lockout && x.brk = .closed then { x with lockRun := max x.lockRun (reclaimTime s z + 1) } else expireAr .reclaim (reclaimTime s z) x
def execReclaimExpiry (z : Fin 256) (s : State) : Host.Outcome State Fault Refusal :=
  run (zoneEvent z.val (fun s x => expireReclaim s z.val x)) s

/-- OPEN_TIMER_EXPIRY (R479). -/
def execOpenTimerExpiry (z : Fin 256) (s : State) : Host.Outcome State Fault Refusal :=
  run (zoneEvent z.val (fun s x => expireAr .waitOpen (pipeRate s) x)) s

/-- CLOSE_PULSE_END (R479). -/
def execClosePulseEnd (z : Fin 256) (s : State) : Host.Outcome State Fault Refusal :=
  run (zoneEvent z.val (fun s x => expireAr .close (pipeRate s / 5) x)) s

/-- CLOSE_FAILURE (R479). -/
def execCloseFailure (z : Fin 256) (s : State) : Host.Outcome State Fault Refusal :=
  run (zoneEvent z.val (fun s x => expireAr .close (pipeRate s / 2) x)) s

/-- COLD_LOAD_ARMED (R470). -/
def armCold (s : State) (z : Nat) (x : Zone) : Zone :=
  if zClpOn (rods s) z && x.brk = .opened then { x with armed := true, openRun := coldTime s z + 1 } else x
def execColdLoadArmed (z : Fin 256) (s : State) : Host.Outcome State Fault Refusal :=
  run (zoneEvent z.val (fun s x => armCold s z.val x)) s

/-- The restore time has run: activation ends with it, while the status is not known in the first sample in which it is (R470, log 145). -/
def endCold (x : Zone) : Zone := { x with restore := if statusKnown x.brk then 0 else min x.restore 1 }

/-- COLD_LOAD_END (R471). -/
def execColdLoadEnd (z : Fin 256) (s : State) : Host.Outcome State Fault Refusal :=
  run (zoneEvent z.val (fun _ x => endCold x)) s

/-- TEST_MODE_ENTRY (R481): every channel of the streams has carried TST for N_fc samples. -/
def testEntry (s : State) (z : Nat) : State := if serving s && zEnabled s z && !(zoneGet s z).test then enterTest s z else s
def execTestModeEntry (z : Fin 256) (s : State) : Host.Outcome State Fault Refusal := run (fun s => testEntry s z.val) s

/-- TEST_MODE_EXIT (R481). -/
def testExit (s : State) (z : Nat) : State := if serving s && zEnabled s z && (zoneGet s z).test then leaveTest s z else s
def execTestModeExit (z : Fin 256) (s : State) : Host.Outcome State Fault Refusal := run (fun s => testExit s z.val) s

/-- Every zone's θ in MRAM, with all its bits (R464, R467); a zone whose θ has no value yet leaves none. -/
def persistTheta (s : State) : State :=
  { s with nvm := { s.nvm with
    theta := (s.zones.map (fun p => (p.1, p.2.theta))).filter (fun p => p.2 != 0)
    thetaLack := some ((List.range 256).filter (fun z => zEnabled s z && z49On (rods s) z && !(zoneGet s z).thetaOk)) } }

/-- A claim on the MRAM port that stands behind stNum writes and commit steps waits while one of them is ready (R792). -/
def mramWaits (s : State) : Bool := (stnumNext s).isSome || commitReady s

/-- THERMAL_PERSIST (R467, R792). -/
def execThermalPersist (s : State) : Host.Outcome State Fault Refusal :=
  run (fun s => if serving s && storeOn s && !mramWaits s then persistTheta s else s) s

end Sys2Proof.Machine
end

