-- ==== Sys2Proof/Machine/Stage6.lean ====
section
/-! DEFINITION. The pipeline intake, what lets its head be released, and what a released sample meets: the pair's boundary, inputs, images,
zones (R21, R24, R33, R34, R454, R633, R791). -/
namespace Sys2Proof.Machine

/-- An SV slot; LS0 and LS1 at 1,024 and 1,025. -/
def svGet (s : State) (n : Nat) : SvSlot := Tab.get {} s.streams.sv n
def svPut (s : State) (n : Nat) (x : SvSlot) : State := { s with streams := { s.streams with sv := Tab.put {} s.streams.sv n x } }

/-- Count n in word w of a slot's tallies (Table 15.7). -/
def svTally (x : SvSlot) (w n : Nat) : SvSlot := { x with tally := Tab.put 0 x.tally w (Tab.get 0 x.tally w + BitVec.ofNat 32 n) }

/-- Key of a stream fault. -/
def keyS (code slot : Nat) : FaultKey := { code := code, scope := 2, inst := slot }

/-! Input agreement in force (R628, R641) -/

/-- The unit decides admission, alignment and missing indices (Table 16.9). -/
def decides (s : State) : Bool :=
  match s.pair.state with
  | .standby => false
  | .rejoining => (match s.pair.rejoin with
    | .agreeing _ => false
    | _ => true)
  | _ => true

/-- Input agreement applies to a sample index (R628, R641): the pair is formed, or a rejoin has reached its n0. -/
def agreeing (s : State) (i : SIndex) : Bool :=
  formed s || ((s.pair.state == .active || s.pair.state == .rejoining) && (match s.pair.rejoin with
    | .agreeing n0 => !i.lt n0
    | _ => false))

/-! The intake -/

/-- a before b in the order of R24: sample index, then slot. -/
def sampleBefore (a b : Sample) : Bool := a.idx.lt b.idx || (a.idx == b.idx && a.slot < b.slot)

/-- Insert a sample in the order of R24, after its equals. -/
def insertSample (x : Sample) : List Sample → List Sample
  | [] => [x]
  | y :: t => if sampleBefore x y then x :: y :: t else y :: insertSample x t

/-- The first index of a slot that has not passed into the intake: the first it holds in agreement, or the next expected. -/
def passIndex (s : State) (n : Nat) : SIndex :=
  if decides s then
    match s.pair.held.find? (fun h => h.sample.slot == n) with
    | some h => h.sample.idx
    | none => (svGet s n).next
  else (svGet s n).next

/-- An admitted slot still has to bring the intake a sample that goes before this one (R24). -/
def beforeTurn (s : State) (x : Sample) : Bool :=
  agreeing s x.idx && s.streams.sv.any (fun p =>
    p.2.phase == .admitted && ((passIndex s p.1).lt x.idx || (passIndex s p.1 == x.idx && p.1 < x.slot)))

/-- Received samples at the intake (R33). DEDUCED (log 157): those that wait there for their turn in the order of R24 are not queued work. -/
def intakeLoad (s : State) : Nat := (s.streams.intake.filter (fun x => x.kind == .received && !x.early)).length

/-- A sample enters the intake: in the order of R24 under agreement, else in order of arrival (R21). -/
def pushIntake (s : State) (x : Sample) : State :=
  { s with streams := { s.streams with
    intake := if agreeing s x.idx then insertSample { x with early := beforeTurn s x } s.streams.intake else s.streams.intake ++ [x] } }

/-- The index a slot has to release or miss next at stage 6 (R791). -/
def updateDue (s : State) (n : Nat) : State :=
  let d := match s.streams.intake.find? (fun x => x.slot == n) with
    | some x => x.idx
    | none => passIndex s n
  svPut s n { svGet s n with due := d }

/-- Index n1 of a rejoin that started at n0 (Table 16.12, step 4). -/
def rejoinEnd (s : State) (n0 : SIndex) : SIndex :=
  addIndex (strapRate s) n0 (5 * nFc s * decim s + (if decim s = 1 then 0 else ceilDiv (taps s - 1) (decim s) * decim s))

/-- A rejoiner holds index n1 until it has applied the snapshot (Table 16.12, step 5). -/
def heldForSnapshot (s : State) (i : SIndex) : Bool :=
  s.pair.state == .rejoining && (match s.pair.rejoin with
    | .agreeing n0 => !i.lt (rejoinEnd s n0) && s.pair.snapDue.isNone
    | _ => false)

/-- The head of the intake may be released (R24): under agreement no admitted slot comes before it, and a Standby has the
INDEX record of its index (Table 16.8). -/
def releasable (s : State) (x : Sample) : Bool :=
  !agreeing s x.idx
    || (s.streams.sv.all (fun p => p.2.phase != .admitted || !(p.2.due.lt x.idx || (p.2.due == x.idx && p.1 < x.slot)))
        && (decides s || !s.pair.agreed.1.lt x.idx) && !heldForSnapshot s x.idx)

/-! Processing one sample -/

/-- The swap in progress is abandoned: tried again after 1.0 s (Table 16.10). -/
def abandonSwap (s : State) : State :=
  match s.pair.swap with
  | .none => s
  | .retry => s
  | _ => { s with pair := { s.pair with swap := if s.pair.state == .active then .retry else .none } }

/-- The swap in progress is abandoned in both units (R644, Table 16.10, step 4). -/
def abandonBoth (s : State) : State :=
  match s.pair.swap with
  | .proposed ns | .agreed ns => carrySend (abandonSwap s) 0 (.swap .decline ns)
  | _ => s

/-- A swap is possible, on this unit's own state (R639). -/
def swapPossible (s : State) : Bool :=
  formed s && !s.pair.split && !s.pair.carrySilent && !s.pair.busSilent && !anyZone s (·.start)
    && s.journal.queue = [] && s.journal.holds = [] && s.pair.numbered = [] && s.pair.pairEntries = [] && s.pair.unitEntries = []
    && s.plug.commit = .none

/-- The Active proposes a swap 48 pipeline samples ahead of an index (Table 16.10, step 2). -/
def proposeSwap (s : State) (i : SIndex) : State :=
  let ns := addIndex (strapRate s) i (48 * decim s)
  carrySend { s with pair := { s.pair with swap := .proposed ns } } 0 (.swap .propose ns)

/-- The pair's work at a sample boundary: a swap that is due is proposed, a start verdict abandons one (Table 16.10); at n1 the Active
sends the snapshot and the pair is formed from the frames of n1 (Table 16.12, steps 5 and 6). -/
def pairBoundary (s : State) (i : SIndex) : State :=
  let s : State := match s.pair.swap with
    | .none => if s.pair.state == .active && s.pair.swapDue.isSome && swapPossible s then proposeSwap s i else s
    | .retry => s
    | .proposed ns | .agreed ns =>
      if i.lt ns && anyZone s (·.start) then abandonBoth s else s
  match s.pair.rejoin with
  | .agreeing n0 =>
    if s.pair.state == .active && s.pair.partnerState == 5 && !i.lt (rejoinEnd s n0) then
      carrySend { s with pair := { s.pair with partnerState := 3 } } 1 (.snapshot i s.zones s.pub.pubs s.ports.seqPair)
    else s
  | _ => s

/-- The inputs' present states and validity, as the Active sends them where agreement begins (R633, log 160). -/
def sendInputs (s : State) : State :=
  carrySend s 0 (.decision ((List.finRange 32).map (fun ch =>
    let c := Tab.get {} s.field.ch ch.val
    .present ch c.state !c.invalid)))

/-- The Active's INDEX record, before anything of the index is published (Table 16.8); with the first of a rejoin, the inputs. -/
def agreeIndex (s : State) (i : SIndex) : State :=
  if s.pair.state == .active && agreeing s i && s.pair.agreed.1.lt i then
    let octet : Byte := if timeLeads s then BitVec.ofNat 8 (reportedTimeq s) else s.time.partnerTimeq
    let s := if agreeing s s.pair.agreed.1 then s else sendInputs s
    carrySend (noteAgreed s i octet) 0 (.decision [.index i octet])
  else s

/-- An input takes a state for the zones; a rise of G.SNAP_INPUT takes its snapshots (R672). -/
def inputTakes (s : State) (cc : Nat) (st valid : Bool) (i : SIndex) : State :=
  let c := Tab.get {} s.field.ch cc
  let s := { s with field := { s.field with ch := Tab.put {} s.field.ch cc { c with state := st, invalid := !valid } } }
  if st && !c.state && serving s && snapInput s == some cc then allSnapshots s 3 i else s

/-- Field input states that the Active has assigned to an index at or before this one take effect (R454, R633). -/
def applyInputs (s : State) (i : SIndex) : State :=
  let due := s.pair.inputs.filter (fun x => !i.lt x.2.2.2)
  due.foldl (fun s x => inputTakes s x.1.val x.2.1 x.2.2.1 x.2.2.2)
    { s with pair := { s.pair with inputs := s.pair.inputs.filter (fun x => i.lt x.2.2.2) } }

/-- Some Enabled zone of an image binds the position (R294). -/
def boundIn (s : State) (r : Rods) (pos : Nat) : Bool :=
  (enabledZones (adcInputs s) r).any (fun z => zMain r z == some pos || zVolt r z == some pos)
def bound (s : State) (pos : Nat) : Bool :=
  (match s.plug.image with
    | some r => boundIn s r pos
    | none => false)
    || (match s.plug.earlier with
    | some e => boundIn s e.1 pos
    | none => false)

/-- θ after a restart at a commit: 0 where 49 is off or the zone is not Enabled (R468). -/
def commitTheta (s : State) (z : Nat) (x : Zone) : Zone :=
  if zEnabled s z && z49On (rods s) z then x else { x with theta := 0, thetaCopy := 0, thetaOk := true }

/-- A changed zone restarts under the image in force (R156, R468). -/
def commitRestart (s : State) (z : Nat) : State := zoneRestart s z (commitTheta s z (zoneGet s z))

/-- The changed zones of a position restart at its first sample of the new image (R34, R165). -/
def restartDue (s : State) (pos : Nat) : State :=
  let old := (s.plug.earlier.map (·.1)).getD []
  let mine := s.plug.restarts.filter (fun z => zMain old z == some pos || zMain (rods s) z == some pos)
  mine.foldl (fun s z => commitRestart (evalWaits s (fun w => w.zone == z)) z) { s with plug := { s.plug with restarts := s.plug.restarts.filter (fun z => !mine.contains z) } }

/-- The zones evaluate a pipeline sample with the image its index belongs to (R34). -/
def evalIndexed (s : State) (pos : Nat) (idx : SIndex) : State :=
  let s := voltageFormed s pos idx
  match s.plug.earlier with
  | some (old, first) =>
    if (receivedIndex s idx).lt first then
      let t := evalStream { s with plug := { s.plug with image := some old, now := s.plug.image } } pos idx
      { t with plug := { t.plug with image := s.plug.image, now := none } }
    else evalStream (restartDue s pos) pos idx
  | none => evalStream s pos idx

/-- The stream-lost fault loses its cause once the window is full (Table 7.7). -/
def streamBack (s : State) (pos : Nat) : State :=
  if pos < 1024 && windowFull s pos && faultStands s (keyS 0x2D00 pos) then causeGone s (keyS 0x2D00 pos) else s

end Sys2Proof.Machine
end

