-- ==== Sys2Proof/Machine/Agree.lean ====
section
/-! DEFINITION. The passage of indices of a slot into the intake: on time, substituted, missing, jumped (R270 to R273), and input
agreement between twin units (R628 to R632), and the order of carry frames within a step (R795). -/
namespace Sys2Proof.Machine

/-! Indices of a slot into the intake -/

/-- A full-cycle window in samples of the received rate (Table 7.2). -/
def fullCycle (s : State) : Nat := strapRate s / fNom s

/-- The index after i at the received rate. -/
def succIndex (s : State) (i : SIndex) : SIndex := addIndex (strapRate s) i 1

/-- The quality of a substituted channel (R272, R300): questionable and substituted, an invalid channel staying invalid. -/
def substQuality (q : BitVec 14) : BitVec 14 :=
  let v := q.toNat % 4
  if v = 1 || v = 2 then q ||| 0x400 else q ||| 0x403

/-- The channels of a missing index: no value is given (free values), each invalid. -/
def missingChans (s : State) : List ChanSample :=
  (List.range 8).map (fun i => { value := (Config.freeValue (s.free + i) % 2 ^ 32 : Nat) - 2 ^ 31, quality := 1 })

/-- The block starts, or starts again (R273, Table 7.4a). -/
def startBlock (s : State) (x : SvSlot) : SvSlot :=
  let x := if x.blockLeft = 0 then svTally x 9 1 else x
  { x with blockLeft := fullCycle s }

/-- The entry of a stream (R831): in a formed pair a pair entry of the index of the decision. -/
def streamEntry (s : State) (code handle : Nat) (i : SIndex) (payload : List Byte) : Entry :=
  if formed s then indexEntry s (strapRate s) i code 1 0 none16 handle false payload else unitEntry s code 1 0 none16 handle payload

/-- An index declared missing, which a late ASDU can still name within a quarter of the rate (Table 7.4a). -/
def noteMissed (s : State) (x : SvSlot) (i : SIndex) : SvSlot :=
  if x.missed.contains i then x else { x with missed := (i :: x.missed).take (strapRate s / 4) }

/-- A missing index of a slot passes (R272, R273): substituted, or blocking, with its entry at the first of a run. -/
def passMissing (s : State) (n : Nat) (i : SIndex) : State :=
  let x := svGet s n
  let tol := gSvTolerance (imageAt s i)
  let src := if x.gap || tol ≤ x.run then none else (x.hist[fullCycle s - 1]?).filter (fun h => h.kind != .missing)
  let x := svTally { noteMissed s x i with run := x.run + 1 } 5 1
  match src with
  | some h =>
    let x := svTally { x with blockLeft := if 0 < x.blockLeft then fullCycle s else 0 } 6 1
    let smp : Sample := { slot := n, idx := i, kind := .substituted, jumped := false, blocked := decide (0 < x.blockLeft),
                          chans := h.chans.map (fun c => { c with quality := substQuality c.quality }) }
    pushIntake (svPut s n { x with hist := (smp :: x.hist).take (fullCycle s) }) smp
  | none =>
    let first := !x.gap
    let x := startBlock s { x with gap := true }
    let smp : Sample := { slot := n, idx := i, kind := .missing, jumped := false, blocked := true, chans := missingChans s }
    let s := pushIntake { svPut s n { x with hist := (smp :: x.hist).take (fullCycle s) } with free := s.free + 8 } smp
    if first && n < 1024 then
      journalEntry s (streamEntry s 0x2C02 (handleOf x.gen n) i
        (zeros 2 ++ octets 2 n ++ octets 2 (handleOf x.gen n) ++ octets 6 i.sec ++ octets 2 i.cnt ++ zeros 2))
    else s

/-- A received sample of a slot passes, a jump starting the block (Table 7.4a); a full intake turns it into a missing index (R33). -/
def passReceived (s : State) (smp : Sample) : State :=
  let n := smp.slot
  let s := if smp.jumped then svPut s n (startBlock s { svGet s n with hist := [], first := smp.idx }) else s
  if 24 ≤ intakeLoad s then passMissing (tallyAdd s 1 8 1) n smp.idx
  else
    let x := svGet s n
    let left := x.blockLeft - 1
    let smp := { smp with blocked := decide (0 < left) }
    pushIntake (svPut s n { x with hist := (smp :: x.hist).take (fullCycle s), run := 0, gap := false, blockLeft := left }) smp

/-! Samples in agreement -/

/-- The entries of agreement replaced. -/
def setHeld (s : State) (l : List Held) : State := { s with pair := { s.pair with held := l } }

/-- An entry is that of a slot and index. -/
def isEntry (n : Nat) (i : SIndex) (h : Held) : Bool := h.sample.slot == n && h.sample.idx == i

/-- The entry of a slot and index. -/
def findHeld (s : State) (n : Nat) (i : SIndex) : Option Held := s.pair.held.find? (isEntry n i)

/-- Change the entry of a slot and index. -/
def mapHeld (s : State) (n : Nat) (i : SIndex) (f : Held → Held) : State :=
  setHeld s (s.pair.held.map (fun h => if isEntry n i h then f h else h))

/-- The entry may pass: a missing index, or a sample held and confirmed (R630). -/
def readyHeld (h : Held) : Bool := h.sample.kind == .missing || (h.held && h.confirmed)

/-- The next entry of a slot to pass: at a unit that decides, the oldest classed; else the one of the next index, or, with none held, the
one at which the Active has jumped. -/
def nextHeld (s : State) (n : Nat) : Option Held :=
  let first := fun (p : Held → Bool) => s.pair.held.find? (fun h => h.sample.slot == n && p h)
  if decides s then first (fun _ => true)
  else
    match findHeld s n (svGet s n).next with
    | some h => some h
    | none => first (fun h => h.sample.jumped)

/-- The seconds that a slot remembers, moved from one second to another. -/
def shiftSeconds (x : SvSlot) (old new : Nat) : SvSlot :=
  let f := fun (i : SIndex) => (⟨secondAfter new (secondsTo old i.sec), i.cnt⟩ : SIndex)
  { x with missed := x.missed.map f, since := f x.since, first := f x.first, next := f x.next }

/-- An index of a slot's old counting from `old` on, in the counting in which that one is `new` (R340). -/
def turnIndex (old new i : SIndex) : SIndex := if i.lt old then i else ⟨secondAfter new.sec (secondsTo old.sec i.sec), i.cnt⟩

/-- The next index of a slot that follows is i, or what a refix makes of it (R340). -/
def followNext (s : State) (n : Nat) (i : SIndex) : State :=
  let x := svGet s n
  match x.turn with
  | some (old, new) => if i = old then svPut s n { shiftSeconds { x with next := i } old.sec new.sec with turn := none } else svPut s n { x with next := i }
  | none => svPut s n { x with next := i }

/-- Ready entries of an admitted slot pass in order. -/
def advance : Nat → State → Nat → State
  | 0, s, _ => s
  | fuel + 1, s, n =>
    match nextHeld s n with
    | none => s
    | some h =>
      if !readyHeld h || (svGet s n).phase != .admitted then s
      else
        let s := setHeld s (s.pair.held.erase h)
        let s := if decides s then s else followNext s n (succIndex s h.sample.idx)
        advance fuel (if h.sample.kind == .missing then passMissing s n h.sample.idx else passReceived s h.sample) n

/-- A slot advances, and its due index follows. -/
def advanceSlot (s : State) (n : Nat) : State := updateDue (advance (s.pair.held.length + 1) s n) n

/-! Receipts (Table 16.7) -/

/-- A receipt names an index of a slot: its second is the slot's, or the one the slot had before its last refix, which the partner
may not have applied yet (R340). -/
def receiptFits (s : State) (r : ReceiptRec) (n : Nat) (i : SIndex) : Bool :=
  r.slot == n && r.first == i.cnt
    && (r.secLo == i.sec % 256 || (svGet s n).turn.any (fun t => r.secLo == (turnIndex t.2 t.1 i).sec % 256))

/-- The receipt of one index is among those the partner has sent ahead. -/
def receiptOf (s : State) (n : Nat) (i : SIndex) : Option ReceiptRec :=
  s.pair.receipts.find? (fun r => r.kind.val < 2 && receiptFits s r n i)

/-- Forget the receipts of one index. -/
def dropReceipt (s : State) (n : Nat) (i : SIndex) : State :=
  { s with pair := { s.pair with
    receipts := s.pair.receipts.filter (fun r => !(r.kind.val < 2 && receiptFits s r n i)) } }

/-- The single indices that a receipt names. -/
def receiptBits (s : State) (r : ReceiptRec) : List ReceiptRec :=
  ((List.range 8).filter (fun b => r.bitmap.getLsbD b)).map (fun b =>
    { r with bitmap := 1, first := (r.first + b) % strapRate s, secLo := (r.secLo + (r.first + b) / strapRate s) % 256 })

/-- A digest mismatch (R632, Table 16.13). -/
def digestMismatch (s : State) : State :=
  arise { s with pair := { s.pair with digestAt := some s.now } } (keyU 0x5700) 0 none16 []

/-- The digest of a frame: CRC-16 from the APPID to the end of the APDU (Table 16.7). -/
def svDigest (f : SvFrame) : BitVec 16 := BitVec.ofNat 16 (crc16 (f.signed.take f.apduOctets))

/-- The receipt record of one index held. -/
def receiptFor (kind : Fin 4) (h : Held) : ReceiptRec :=
  { kind := kind, slot := h.sample.slot, secLo := h.sample.idx.sec % 256, bitmap := 1, first := h.sample.idx.cnt, digest := h.digest }

/-- smpSynch as a slot last read it, in a LEND record. -/
def lendBody (s : State) (h : Held) : LendBody :=
  match h.frame, (svGet s h.sample.slot).phase with
  | _, .admitted | none, _ =>
    .asdus (receiptFor 0 h) [{ idx := h.sample.idx, smpSynch := (svGet s h.sample.slot).smpSynch, chans := h.sample.chans }]
  | some f, _ => .svFrame (receiptFor 0 h) f

/-! The order of carry frames within a step (R795) -/

/-- A lane of the carry link. -/
def laneGet (s : State) (n : Fin 2) : Lane := if n = 0 then s.pair.lane0 else s.pair.lane1
def lanePut (s : State) (n : Fin 2) (x : Lane) : State :=
  if n = 0 then { s with pair := { s.pair with lane0 := x } } else { s with pair := { s.pair with lane1 := x } }

/-- The place of a frame among those that become ready in one tick (R795); the types of lane 1 come last, in their own order (R621). -/
def carryRank : CarryMsg → Nat
  | .idle => 13
  | .part t _ => if t = 0x20 then 9 else if t = 0x21 then 10 else if t = 0x22 then 11 else 12
  | .heartbeat _ => 0
  | .decision _ => 1
  | .receipt _ => 2
  | .lend _ => 3
  | .time _ _ => 4
  | .swap _ _ => 5
  | .hello _ => 6
  | .accept _ _ => 7
  | .refuse _ => 8
  | .jentry _ => 9
  | .jcheck _ _ => 10
  | .resync _ => 11
  | .resyncState _ _ _ _ _ _ => 11
  | .snapshot _ _ _ _ => 12

/-- Put a message before the first that comes after it. -/
def rankInsert (m : CarryMsg) : List CarryMsg → List CarryMsg
  | [] => [m]
  | x :: t => if carryRank m < carryRank x then m :: x :: t else x :: rankInsert m t

/-- A new frame of a lane, among what leaves the block. -/
def newFrame (n : Fin 2) (o : Output) : Option (CarryTx × CarryMsg) :=
  match o with
  | .carry k h m _ => if k = n && !h.retx then some (h, m) else none
  | _ => none

/-- The messages of a lane's new frames replaced, in the order in which the frames leave. -/
def replaceFrames (n : Fin 2) : List Output → List CarryMsg → List Output
  | [], _ => []
  | o :: t, ms =>
    match newFrame n o, ms with
    | some (h, _), m :: r => carryOut n h m :: replaceFrames n t r
    | _, _ => o :: replaceFrames n t ms

/-- The new frames of a lane, in this step, in the order of R795. -/
def orderLane (s : State) (n : Fin 2) : State :=
  let l := laneGet s n
  let sent := s.out.filterMap (newFrame n)
  let ms := sent.foldl (fun a x => rankInsert x.2 a) []
  lanePut { s with out := replaceFrames n s.out ms } n
    { l with unacked := l.unacked.take (l.unacked.length - sent.length) ++ (sent.zip ms).map (fun x => (x.1.1.seq, x.2)) }

/-- Send a frame of agreement in its place among those that this step has made ready. -/
def sendOrdered (s : State) (m : CarryMsg) : State := orderLane (carrySend s 0 m) (if s.pair.lane0.up then 0 else 1)

/-- Lend an entry (R629). -/
def lendHeld (s : State) (h : Held) : State := carrySend s 0 (.lend (lendBody s h))

/-- The partner's receipt meets an entry (R629, R632): confirmed; with another digest the Active's copy is used. -/
def confirmHeld (s : State) (h : Held) (digest : BitVec 16) : State :=
  let i := h.sample.idx
  let n := h.sample.slot
  let differ := h.held && h.sample.kind == .received && h.digest != digest
  let s := mapHeld s n i (fun h => { h with confirmed := true, held := h.held && !(differ && !decides s) })
  let s := if differ then digestMismatch s else s
  if differ && decides s then lendHeld s h else s

/-- A sample joins agreement. -/
def addHeld (s : State) (h : Held) : State :=
  match receiptOf s h.sample.slot h.sample.idx with
  | none => setHeld s (s.pair.held ++ [h])
  | some r => confirmHeld (dropReceipt (setHeld s (s.pair.held ++ [h])) h.sample.slot h.sample.idx) h r.digest

/-- The index classed for an entry becomes missing by decision. -/
def missingHeld (n : Nat) (i : SIndex) : Held :=
  { sample := { slot := n, idx := i, kind := .missing, chans := [], blocked := true, jumped := false }, digest := 0, own := false,
    held := true, confirmed := true }

/-- An index that the partner holds and this unit awaits by lend. -/
def awaitedHeld (n : Nat) (i : SIndex) : Held :=
  { sample := { slot := n, idx := i, kind := .received, chans := [], blocked := false, jumped := false }, digest := 0, own := false,
    held := false, confirmed := true }

/-- Send decision records (Table 16.8); only the Active does. -/
def decide_ (s : State) (ds : List DecisionRec) : State := if s.pair.state == .active then sendOrdered s (.decision ds) else s

/-- The pair entry of an input decision (R657). -/
def inputDecision (s : State) (cc : Nat) (st valid : Bool) (i : SIndex) : Entry :=
  indexEntry s (strapRate s) i (ownCode (14 + cc / 16) 51) 1 0 none16 none16 false
    (ownPayload 51 [cc, if st then 1 else 0, if valid then 1 else 0])

/-- The state of a channel last assigned, at whatever index, and whether it is valid. -/
def lastAssigned (s : State) (cc : Nat) : Bool × Bool :=
  match (s.pair.inputs.filter (fun x => x.1.val == cc)).getLast? with
  | some x => (x.2.1, x.2.2.1)
  | none => ((Tab.get {} s.field.ch cc).state, !(Tab.get {} s.field.ch cc).invalid)

/-- An input's state and validity reach the zones (R454, R633): at once in a unit alone; assigned to index i by the Active of a formed pair;
not at all at a unit that follows. -/
def assignInput (s : State) (ch : Fin 32) (st valid : Bool) (i : SIndex) : State :=
  if lastAssigned s ch.val == (st, valid) || !decides s then s
  else if agreeing s i then
    journalEntry (decide_ { s with pair := { s.pair with inputs := s.pair.inputs ++ [(ch, st, valid, i)] } } [.input ch st valid i])
      (inputDecision s ch.val st valid i)
  else inputTakes s ch.val st valid s.journal.latest

/-- The index after the latest one released, to which the Active assigns what it reads (R454). -/
def nextIndex (s : State) : SIndex := addIndex (strapRate s) s.journal.latest 1

/-- An input's state as read (R454). -/
def readInput (s : State) (ch : Fin 32) (st : Bool) : State := assignInput s ch st (lastAssigned s ch.val).2 (nextIndex s)

/-- Inputs that have become invalid, or valid, change status at this sample (R454, R456): at its index, or at the next one where a sample
of its index has gone before. -/
def judgeInputs (s : State) (i : SIndex) : State :=
  (List.finRange 32).foldl (fun s ch =>
    if inputBad s ch.val == (lastAssigned s ch.val).2 then
      assignInput s ch (lastAssigned s ch.val).1 (!inputBad s ch.val) (if s.journal.latest.lt i then i else nextIndex s)
    else s) s

/-- Declare the next index of a slot missing (R271, R631): under agreement, one that the partner holds is awaited instead. -/
def declareMissing (s : State) (n : Nat) : State :=
  let x := svGet s n
  let i := x.next
  let s := svPut s n { x with next := succIndex s i }
  if !agreeing s i then updateDue (passMissing s n i) n
  else if (receiptOf s n i).isSome then dropReceipt (setHeld s (s.pair.held ++ [awaitedHeld n i])) n i
  else
    let s := svPut s n (noteMissed s (svGet s n) i)
    advanceSlot (decide_ (setHeld s (s.pair.held ++ [missingHeld n i])) [.missing n i 1]) n

/-- Declare k indices missing. -/
def declareRun : Nat → State → Nat → State
  | 0, s, _ => s
  | k + 1, s, n => declareRun k (declareMissing s n) n

/-- A sample of a classed index is accepted: into agreement, or on. -/
def accept (s : State) (h : Held) : State :=
  let n := h.sample.slot
  let s := svPut s n { svGet s n with next := succIndex s h.sample.idx }
  if agreeing s h.sample.idx then advanceSlot (addHeld s h) n else updateDue (passReceived s h.sample) n

/-! Entries that will never be held -/

/-- Awaited indices whose partner is gone are missing after all; the slots advance. -/
def dropAwaited (s : State) : State :=
  let l := s.pair.held.map (fun h => if h.held then h else missingHeld h.sample.slot h.sample.idx)
  ((l.map (fun h => h.sample.slot)).eraseDups).foldl advanceSlot (setHeld s l)

/-- Insert an entry in the order of R24. -/
def insertHeld (x : Held) : List Held → List Held
  | [] => [x]
  | y :: t => if sampleBefore x.sample y.sample then x :: y :: t else y :: insertHeld x t

/-- The entries of one slot with the gaps between them awaited, from index i on, at most `fuel` of them. -/
def fillGaps (s : State) (n : Nat) : Nat → SIndex → List Held → List Held
  | _, _, [] => []
  | 0, _, l => l
  | fuel + 1, i, h :: t =>
    if h.sample.idx = i then h :: fillGaps s n fuel (succIndex s i) t
    else if i.lt h.sample.idx then awaitedHeld n i :: fillGaps s n fuel (succIndex s i) (h :: t)
    else fillGaps s n fuel i t

/-- The pair is formed at this unit: what Table 16.13 ends then, and the swap timer (R639); the Active tells the states of the inputs. -/
def formedNow (s : State) : State :=
  let s := { s with pair := { s.pair with
    absent := false, restarted := false, unagreed := false, bothLans := false, split := false, rejoin := .none, rejoinRuns := 0
    snapDue := none, swapFrom := s.now, swap := .none, swapDue := none } }
  let s := [0x5580, 0x55C0, 0x5640, 0x5680, 0x56C0, 0x5740, 0x5780].foldl causeGoneU s
  if s.pair.state == .active then sendInputs s else s

/-- A follower starts to decide (R632): samples of slots free in its own table are discarded, and each admitted slot's
expected index lies after the last index it holds. -/
def startDeciding (s : State) : State :=
  let sorted := s.pair.held.foldl (fun l h => insertHeld h l) []
  let slots := (s.streams.sv.filter (fun p => p.2.phase == .admitted)).map (·.1)
  let per := slots.map (fun n => (n, fillGaps s n (strapRate s) (svGet s n).next (sorted.filter (fun h => h.sample.slot == n))))
  let s := setHeld s ((per.map (·.2)).flatten)
  per.foldl (fun s p => match p.2.getLast? with
    | some h => svPut s p.1 { svGet s p.1 with next := succIndex s h.sample.idx }
    | none => s) s

/-- A unit that decided starts to follow: its expected index is the next to pass. -/
def startFollowing (s : State) : State :=
  s.streams.sv.foldl (fun t p => if p.2.phase == .admitted then svPut t p.1 { svGet t p.1 with next := passIndex s p.1, turn := none } else t) s

end Sys2Proof.Machine
end

