-- ==== Sys2Proof/Machine/Time.lean ====
section
/-! DEFINITION. The local time counter, PTP, the time states, the calendar and the OVEN and TWIN slots (chapters 8, 9). -/
namespace Sys2Proof.Machine

/-! The counter (R303 to R306) -/

/-- INCR in units of 2^-32 ns (R304). -/
def incr (s : State) : Nat := (0x280000000 + 2 * clampInt (-32767) 32767 (s.reck.clk.u + s.reck.twin.u)).toNat

/-- One core tick of the counter (R303, R304): residue, FRAC, NS and the carry into SEC. -/
def counterTick (s : State) : State :=
  let v := (s.time.ns * 65536 + s.time.frac) * 65536 + s.time.residue + incr s
  let ns := v / 2 ^ 32
  let carry := 1000000000 ≤ ns
  { s with time := { s.time with
    residue := v % 65536, frac := v / 65536 % 65536
    ns := if carry then ns - 1000000000 else ns
    sec := if carry then (s.time.sec + 1) % 2 ^ 48 else s.time.sec } }

/-- CLK_CORE runs: from step 4 of Table 3.3, with the PLL locked (R306). -/
def clockRuns (s : State) : Bool := coreRuns s && s.power.pllLocked && domainGood s 6

/-- The oscillator of 10MHZ_OUT is advanced with INCR in every tick in which D6 is good (Table 8.6). -/
def ncoTick (s : State) : State :=
  if domainGood s 6 then { s with time := { s.time with nco := (s.time.nco + incr s) % (100 * 2 ^ 32) } } else s

/-- The oscillator's phase of the counter: a rising edge falls on each whole second (Table 8.6, log 127). -/
def ncoOf (s : State) : Nat := (s.time.ns % 100 * 65536 + s.time.frac) * 65536 + s.time.residue

/-- What a step on an empty queue does: one core tick (log 2). -/
def tick (s : State) : State :=
  let s := ncoTick { s with now := s.now + 1, out := [] }
  if clockRuns s then counterTick s else s

/-- The counter in units of 2^-16 ns. -/
def counterValue (s : State) : Int := (s.time.sec * 1000000000 + s.time.ns) * 65536 + s.time.frac

/-- A receive timestamp taken at the MAC, in 0.5 ns, referred to the contacts of its port (R222), in 2^-16 ns. -/
def rxStamp (p : Port) (raw : Nat) : Int := ((raw : Int) - Config.portLatency (portNum p) false) * 32768

/-- The lowest bit of a timestamp, FRAC[15] (R305). -/
def halfNs (s : State) : Nat := s.time.frac / 32768

/-! TWIN handover (R331, R353) -/

/-- Apply `f`, and stop the TWIN slot if its conditions have ended (R353). -/
def withTwin (f : State → State) (s : State) : State :=
  let t := f s
  if twinRuns s && !twinRuns t then
    twinStopped t ((eligible t false && !eligible s false) || (eligible t true && !eligible s true))
  else t

/-! Time states (Tables 8.3, 8.4) and their faults (Table 8.7) -/

/-- Enter a time state, with the faults that it raises and ends (Table 8.7) and R322. -/
def enterTime (s : State) (t : TimeState) : State :=
  if s.time.state = t then s
  else
    -- twin disagreement is a condition of both units Locked (Table 8.7)
    let s := { s with time := { s.time with state := t, twinApartAt := none, twinCloseAt := none } }
    let held := { s with reck := { s.reck with clk := { s.reck.clk with u := (s.reck.clk.i + 2 ^ 14) / 2 ^ 15 } } }
    match t with
    | .locked =>
      let s := { s with time := { s.time with lockedAt := s.now, settled := true } }
      [0x0D00, 0x0D40, 0x0D80, 0x0DC0].foldl causeGoneU s
    | .tracking =>
      let s := { s with time := { s.time with trackingAt := s.now, settled := true } }
      [0x0D00, 0x0D80].foldl causeGoneU s
    | .holdover => ariseU { held with time := { held.time with holdoverAt := s.now } } 0x0D40 0
    | .freeRunning => ariseU held 0x0D80 0
    | _ => s

/-- No port is eligible any more (Table 8.4). -/
def loseMaster (s : State) : State :=
  match s.time.state with
  | .locked =>
    if s.time.ovenIn && 600 * ticksPerSec ≤ s.now - s.time.lockedAt then enterTime s .holdover else enterTime s .freeRunning
  | .tracking | .acquiring => enterTime s .freeRunning
  | _ => s

/-- Locked or Tracking by clockClass (Table 8.3). -/
def lockedBy (clockClass : Nat) : TimeState := if clockClass = 6 || clockClass = 7 then .locked else .tracking

/-! Masters and selection (R312 to R316) -/

/-- Order of the grandmaster attributes in the dataset comparison of IEEE 1588 (PRESUMED, log 16). -/
def gmKey (a : PtpAnnounce) : List Nat :=
  [a.priority1, a.clockClass, a.clockAccuracy, a.variance, a.priority2, a.gmIdentity.toNat]

/-- Lexicographic order. -/
def lexLt : List Nat → List Nat → Bool
  | x :: xs, y :: ys => x < y || (x == y && lexLt xs ys)
  | _, _ => false

/-- The dataset comparison of IEEE 1588 for one grandmaster: steps removed, then sender (PRESUMED, log 16). -/
def pathKey (m : Master) : List Nat := [m.ann.stepsRemoved, m.src.clock.toNat, m.src.port.toNat]

/-- Master a is better than b: by grandmaster, or for one grandmaster by its path (PRESUMED, log 16). -/
def masterBetter (a b : Master) : Bool :=
  if a.ann.gmIdentity = b.ann.gmIdentity then lexLt (pathKey a) (pathKey b) else lexLt (gmKey a.ann) (gmKey b.ann)

/-- The best qualified master of a port. -/
def bestMaster (t : PtpPort) : Option Master :=
  (t.masters.filter (·.qualified)).foldl (fun b m => match b with
    | none => some m
    | some x => if masterBetter m x then some m else some x) none

/-- The port of P0 (false) and P1 (true). -/
def ptpPut (s : State) (p1 : Bool) (t : PtpPort) : State :=
  if p1 then { s with time := { s.time with p1 := t } } else { s with time := { s.time with p0 := t } }

/-- The master a port offers while it is eligible (R313, R315). -/
def offered (s : State) (p1 : Bool) : Option Master := if eligible s p1 then bestMaster (ptpGet s p1) else none

/-- The selection of R315 and R316: of one grandmaster the port selected stays, P0 at first; of two the better one. -/
def selection (s : State) : Option (Bool × PortId) :=
  match offered s false, offered s true with
  | none, none => none
  | some m, none => some (false, m.src)
  | none, some n => some (true, n.src)
  | some m, some n =>
    let onP1 := match s.time.selected with
      | some (true, _) => true
      | _ => false
    let toP1 := if m.ann.gmIdentity = n.ann.gmIdentity then onP1 else lexLt (gmKey n.ann) (gmKey m.ann)
    some (toP1, if toP1 then n.src else m.src)

/-- The UTC second of the day (R326). -/
def utcOfDay (s : State) : Nat := (((s.time.sec : Int) - s.time.utcOffset) % 86400).toNat

/-- The next UTC midnight as a TAI second, by the offset in force. -/
def nextMidnight (s : State) : Nat := s.time.sec + (86400 - utcOfDay s)

/-- The armed leap second after an Announce of the selected master (R327). DESIGN CHOICE (log 130): one that carries both flags arms leap61.
DESIGN CHOICE (log 167): without a time base the 12 h are judged on the monotonic counter as on any other. -/
def leapAfter (s : State) (m : PtpAnnounce) : Option (Bool × Nat) :=
  if m.leap61 || m.leap59 then (if 43200 ≤ utcOfDay s then some (m.leap61, nextMidnight s) else s.time.leap)
  else s.time.leap.filter (fun l => l.2 ≤ s.time.sec + 60)

/-- What the selected master's Announce says (R321, R323, R325, R327). -/
def applyAnnounce (s : State) (m : PtpAnnounce) : State :=
  let s := { s with time := { s.time with leap := leapAfter s m } }
  let s := if m.utcOffsetValid then
      { s with time := { s.time with utcOffset := m.utcOffset, leapKnown := true }, nvm := { s.nvm with utcOffset := some m.utcOffset } }
    else s
  match s.time.state with
  | .locked => if lockedBy m.clockClass = .tracking then enterTime s .tracking else s
  | .tracking => if lockedBy m.clockClass = .locked then enterTime s .locked else s
  | _ => s

/-- The last Announce of the selected master. -/
def selectedAnnounce (s : State) : Option PtpAnnounce :=
  match s.time.selected with
  | some (p1, src) => ((ptpGet s p1).masters.find? (fun m => m.src == src)).map (·.ann)
  | none => none

/-- Both ports are eligible on one grandmaster (Table 8.7). -/
def sameGrandmaster (s : State) : Bool :=
  match offered s false, offered s true with
  | some m, some n => m.ann.gmIdentity == n.ann.gmIdentity
  | _, _ => false

/-- Syncs are compared between the LANs only in succession (Table 8.7). -/
def lanSplit (s : State) : State :=
  if sameGrandmaster s then s else { s with time := { s.time with lanApart := 0, lanClose := 0 } }

/-- Judge the selection again (R315, R316, Table 8.4): a newly selected master's last Announce applies (R323, R325). DESIGN CHOICE
(log 168): each change of the selection, also to the other port of one grandmaster, starts the runs of consecutive offsets again. -/
def reselect (s : State) : State :=
  let s := lanSplit s
  let new := selection s
  if new = s.time.selected then s
  else
    let s := { s with time := { s.time with selected := new, within100 := 0, over1us := 0, over10us := 0 } }
    match new, selectedAnnounce s with
    | none, _ => loseMaster s
    | some _, some m => applyAnnounce s m
    | some _, none => s

/-- A Sync of this source has arrived within three Sync intervals (R313). -/
def syncFresh (s : State) (t : PtpPort) (src : PortId) : Bool :=
  t.syncs.any (fun x => x.1 == src && decide (s.now ≤ x.2.1 + 3 * x.2.2))

/-- The best master of a port has changed: its Sync may have come before (R313). -/
def bestChanged (s : State) (p1 : Bool) (before : Option Master) : State :=
  let t := ptpGet s p1
  let best := (bestMaster t).map (·.src)
  if before.map (·.src) = best then s
  else ptpPut s p1 { t with syncOk := (best.map (syncFresh s t)).getD false, sync := none, offset := none }

/-- P0 or P1 of a process port; a station port has no PTP (R309). -/
def ptpPort? (p : Port) : Option Bool :=
  match p with
  | .p0 => some false
  | .p1 => some true
  | _ => none

/-! Conditions with a duration (Table 8.7), judged when a command of the time block comes -/

/-- Judge the conditions of Table 8.7 that rest on elapsed time. -/
def timeFaults (s : State) : State :=
  let unsync := (s.time.state = .unsynchronised || s.time.state = .acquiring) && serving s
    && 60 * ticksPerSec ≤ s.now - s.time.servingAt && !s.time.settled
  let s := if unsync && !faultStands s (keyU 0x0D00) then ariseU s 0x0D00 0 else s
  let s := if s.time.state = .tracking && 60 * ticksPerSec ≤ s.now - s.time.trackingAt && !faultStands s (keyU 0x0DC0)
    then ariseU s 0x0DC0 0 else s
  let s := if !s.time.ovenWas && 600 * ticksPerSec ≤ s.now - s.power.vinGoodAt && !faultStands s (keyU 0x0EC0)
    then ariseU s 0x0EC0 0 else s
  [false, true].foldl (fun s p1 =>
    let t := ptpGet s p1
    let p : Port := if p1 then .p1 else .p0
    let k : FaultKey := { code := 0x0E40, scope := 6, inst := portNum p }
    if (portGet s p).up && portInUse s p && !delayValid t then
      match t.noDelaySince with
      | none => ptpPut s p1 { t with noDelaySince := some s.now }
      | some n => if 10 * ticksPerSec ≤ s.now - n && !faultStands s k then arise s k 0 none16 [] else s
    else
      let s := ptpPut s p1 { t with noDelaySince := none }
      if delayValid t then causeGone s k else s) s

/-! Offsets (R317 to R319) -/

/-- Half of a difference of times; the rounding of a half is not stated (log 4). -/
def halve (x : Int) : Int := if x % 2 = 0 then x / 2 else if Config.roundUp x 2 then x / 2 + 1 else x / 2

/-- Streams refix their second at a step, and the local streams are blocked for one full-cycle window (R340). -/
def refixStreams (s : State) : State :=
  let standby := s.pair.state == .standby || s.pair.state == .rejoining
  { s with streams := { s.streams with sv := s.streams.sv.map (fun p =>
      if p.1 < 1024 then (p.1, if p.2.phase == .admitted && !standby then { p.2 with refix := true } else p.2)
      else (p.1, { p.2 with refix := true, blockLeft := strapRate s / fNom s })) },
           adc := { s.adc with stepped := true } }

/-- The counter is set so that an offset becomes 0, FRAC and residue cleared (R319); the rounding to a whole nanosecond is
not stated (log 4). -/
def setCounter (s : State) (off : Int) : State :=
  let v := counterValue s - off
  let ns := (if v % 65536 = 0 then v / 65536 else if Config.roundUp v 65536 then v / 65536 + 1 else v / 65536).toNat
  { s with time := { s.time with
    sec := ns / 1000000000 % 2 ^ 48, ns := ns % 1000000000, frac := 0, residue := 0, nco := ns % 100 * 2 ^ 32 } }

/-- An armed leap second applies to the calendar (R327), and MRAM takes the offset (R325). -/
def applyLeap (s : State) : State :=
  match s.time.leap with
  | none => s
  | some (up, _) =>
    let o := if up then s.time.utcOffset + 1 else s.time.utcOffset - 1
    { s with time := { s.time with utcOffset := o, leap := none }, nvm := { s.nvm with utcOffset := some o } }

/-- An armed leap second after a step (R342): passed over, it applies at the midnight that the stepped time has behind it; within the leap
second itself it stays; else it falls at the next midnight of the stepped time, and so after the first step of the epoch (DESIGN CHOICE, log 170:
the times before it are monotonic). -/
def leapStepped (first : Bool) (s : State) : State :=
  match s.time.leap with
  | none => s
  | some (up, mid) =>
    let atNext := { s with time := { s.time with leap := some (up, nextMidnight s) } }
    if first then atNext
    else if (if up then mid + 1 else mid - 1) ≤ s.time.sec then applyLeap s
    else if s.time.sec = mid then s
    else atNext

/-- A step (R319, R330, R332): its journal entry at the first of the epoch (R328), else the stepped fault (Table 8.7); the
streams refix (R340), an armed leap second falls at the midnight of the stepped time (R342); no PPS edge in this counter second and the
next (R329). `source`: 0 P0, 1 P1, 2 the partner. -/
def stepCounter (s : State) (off : Int) (source : Nat) : State :=
  let first := !s.time.stepped
  let t := setCounter s off
  let t := { t with time := { t.time with
    stepped := true, noPpsTo := some (t.time.sec + 1), over10us := 0, within100 := 0, over1us := 0 } }
  let t := refixStreams (leapStepped first t)
  let t := if first then
      submitEntry t (unitEntry t (ownCode 3 6) 1 0 none16 none16
        (ownPayload 6 [s.time.sec, s.time.ns, halfNs s, t.time.sec, t.time.ns, halfNs t, source]))
    else ariseU t 0x0E00 0
  match t.time.state with
  | .unsynchronised | .locked | .tracking | .holdover => enterTime t .acquiring
  | _ => t

/-- clockClass of the selected master. -/
def selectedClass (s : State) : Nat := ((selectedAnnounce s).map (·.clockClass)).getD 255

/-- LAN disagreement (Table 8.7): both ports eligible on one grandmaster, their offsets compared at each offset formed on
the port that is not selected. -/
def lanCompare (s : State) : State :=
  match sameGrandmaster s, s.time.p0.offset, s.time.p1.offset with
  | true, some a, some b =>
    let apart := decide (250 * 65536 < (a - b).natAbs)
    let s := { s with time := { s.time with
      lanApart := if apart then s.time.lanApart + 1 else 0, lanClose := if apart then 0 else s.time.lanClose + 1 } }
    if 10 ≤ s.time.lanApart && !faultStands s (keyU 0x0E80) then ariseU s 0x0E80 0
    else if 10 ≤ s.time.lanClose then causeGoneU s 0x0E80
    else s
  | _, _, _ => lanSplit s

/-- The CLK slot updates: once in a counter second (R318), not in Holdover and Free-running (R322). -/
def clkDue (s : State) : Bool :=
  s.time.clkSec != some s.time.sec && s.time.state != .holdover && s.time.state != .freeRunning

/-- The Sync of this counter second has been used (R318). -/
def clkUsed (s : State) : State := { s with time := { s.time with clkSec := some s.time.sec } }

/-- An offset of the selected master (R318, R319, Table 8.4); one that steps the counter does not slew it (R362, log 17). -/
def steer (s : State) (p1 : Bool) (off : Int) : State :=
  let n := off.natAbs
  let s := { s with time := { s.time with
    within100 := if n ≤ 100 * 65536 then s.time.within100 + 1 else 0
    over1us := if 1000 * 65536 < n then s.time.over1us + 1 else 0
    over10us := if 10000 * 65536 < n then s.time.over10us + 1 else 0 } }
  if s.time.state = .unsynchronised || 3 ≤ s.time.over10us then clkUsed (stepCounter s off (if p1 then 1 else 0))
  else
    let s := if clkDue s then clkUpdate (clkUsed s) (errorLsb off) else s
    match s.time.state with
    | .locked | .tracking => if 3 ≤ s.time.over1us then enterTime s .acquiring else s
    | .acquiring | .freeRunning | .holdover =>
      if 8 ≤ s.time.within100 && selectedClass s < 255 then enterTime s (lockedBy (selectedClass s)) else s
    | .unsynchronised => s

/-- An offset is formed on a port from its best master's Sync (R315, R317). -/
def offsetFormed (s : State) (p1 : Bool) (src : PortId) (off : Int) : State :=
  let t := ptpGet s p1
  let s := ptpPut s p1 { t with offset := some off, sync := none }
  if s.time.selected = some (p1, src) then steer s p1 off else lanCompare s

/-- The engine's own PTP clock identity: EUI-64 from the process MAC (R309); its port numbers are 1 and 2. -/
def clockIdentity (s : State) : BitVec 64 :=
  let m := processMac s
  BitVec.ofNat 64 (m / 2 ^ 24 * 2 ^ 40 + 0xFFFE * 2 ^ 24 + m % 2 ^ 24)
def ownPortId (s : State) (p1 : Bool) : PortId := { clock := clockIdentity s, port := if p1 then 2 else 1 }

/-- The PTP domain number (R309). DESIGN CHOICE (log 169): with a strap fault of ST_PTPDOM, which keeps the engine Withheld (R72), the code announced
for the strap (R79) is used, as R73 has it for the UID. -/
def ptpDomain (s : State) : Nat := strap s 4 % 8

/-- A PTP message is accepted (R310). -/
def ptpAccepted (s : State) (h : PtpHdr) : Bool :=
  h.version == 2 && h.domain == ptpDomain s && h.src != ownPortId s false && h.src != ownPortId s true

/-- PTP_DISCARD of a port counts (R310, Table 15.7). -/
def ptpDiscard (s : State) (p1 : Bool) : State := tallyAdd s 1 (if p1 then 7 else 6) 1

/-- A PTP message on a port that delivers (R220, R236, R310): used by `f`, or discarded and tallied. -/
def ptpReceive (f : Bool → State → State) (p : Port) (h : PtpHdr) (s : State) : State :=
  match ptpPort? p with
  | some p1 => if clockRuns s && rxOpen s p then (if ptpAccepted s h then f p1 s else ptpDiscard s p1) else s
  | none => s

/-- A Sync interval of 2^-16 ns in core ticks. -/
def syncTicks (interval : Nat) : Nat := ceilDiv (2 * interval) 327680

/-- The last Sync of its source is noted (R313). -/
def noteSync (now : Nat) (m : PtpSync) (l : List (PortId × Nat × Nat)) : List (PortId × Nat × Nat) :=
  l.filter (fun x => x.1 != m.hdr.src) ++ [(m.hdr.src, now, syncTicks m.interval)]

/-- A Sync arrives (R313, R317, R337, R338). -/
def syncArrived (s : State) (p : Port) (p1 : Bool) (m : PtpSync) : State :=
  let s := ptpPut s p1 { ptpGet s p1 with syncs := noteSync s.now m (ptpGet s p1).syncs }
  if (bestMaster (ptpGet s p1)).map (·.src) != some m.hdr.src then s
  else
    let s := reselect (ptpPut s p1 { ptpGet s p1 with syncOk := true })
    let t := ptpGet s p1
    if m.twoStep then ptpPut s p1 { t with sync := some m }
    else if delayValid t then offsetFormed s p1 m.hdr.src (rxStamp p m.rx - (m.origin + m.correction + median t.delays))
    else s

/-- SYNC (R317). -/
def execSync (p : Port) (m : PtpSync) (s : State) : Host.Outcome State Fault Refusal :=
  run (ptpReceive (fun p1 s => timeFaults (withTwin (fun s => syncArrived s p p1 m) s)) p m.hdr) s

/-- A Follow_Up arrives (R317). -/
def followUpArrived (s : State) (p : Port) (p1 : Bool) (m : PtpFollowUp) : State :=
  let t := ptpGet s p1
  match t.sync with
  | none => s
  | some y =>
    if y.hdr.src = m.hdr.src && y.hdr.seq = m.hdr.seq then
      if delayValid t then
        offsetFormed s p1 m.hdr.src (rxStamp p y.rx - (m.origin + y.correction + m.correction + median t.delays))
      else ptpPut s p1 { t with sync := none }
    else s

/-- FOLLOW_UP (R317). -/
def execFollowUp (p : Port) (m : PtpFollowUp) (s : State) : Host.Outcome State Fault Refusal :=
  run (ptpReceive (fun p1 s => timeFaults (withTwin (fun s => followUpArrived s p p1 m) s)) p m.hdr) s

/-- FOLLOW_UP_TIMEOUT: one Sync interval has passed; the Sync gives no offset (R317). -/
def execFollowUpTimeout (p : Port) (s : State) : Host.Outcome State Fault Refusal :=
  run (fun s => match ptpPort? p with
    | some p1 => if coreRuns s then ptpPut s p1 { ptpGet s p1 with sync := none } else s
    | none => s) s

/-! Announce (R312, R325, R327) -/

/-- An Announce that meets the conditions of R312. -/
def announceOk (m : PtpAnnounce) : Bool := m.stepsRemoved < 255 && !m.alternateMaster && m.ptpTimescale

/-- The masters of a port after an Announce (R312). -/
def noteMaster (now : Nat) (m : PtpAnnounce) (l : List Master) : List Master :=
  match l.find? (fun x => x.src == m.hdr.src) with
  | none => l ++ [{ src := m.hdr.src, ann := m, seen := now, qualified := false }]
  | some _ => l.map (fun x =>
      if x.src = m.hdr.src then
        { src := m.hdr.src, ann := m, seen := now, qualified := x.qualified || now - x.seen ≤ 4 * m.interval }
      else x)

/-- An Announce arrives (R312, R315, R316, R337). -/
def announceArrived (s : State) (p1 : Bool) (m : PtpAnnounce) : State :=
  if !announceOk m then s
  else
    let t := ptpGet s p1
    let best := bestMaster t
    let s := bestChanged (ptpPut s p1 { t with masters := noteMaster s.now m t.masters }) p1 best
    let s := reselect s
    if s.time.selected = some (p1, m.hdr.src) then applyAnnounce s m else s

/-- ANNOUNCE (R312). -/
def execAnnounce (p : Port) (m : PtpAnnounce) (s : State) : Host.Outcome State Fault Refusal :=
  run (ptpReceive (fun p1 s => timeFaults (withTwin (fun s => announceArrived s p1 m) s)) p m.hdr) s

/-- A master is lost from a port after 3 announce intervals (R312). -/
def dropMaster (s : State) (p1 : Bool) (src : PortId) : State :=
  let t := ptpGet s p1
  reselect (bestChanged (ptpPut s p1 { t with masters := t.masters.filter (fun m => m.src != src) }) p1 (bestMaster t))

/-- MASTER_LOST (R312). -/
def execMasterLost (p : Port) (src : PortId) (s : State) : Host.Outcome State Fault Refusal :=
  run (fun s => match ptpPort? p with
    | some p1 => if coreRuns s then timeFaults (withTwin (fun s => dropMaster s p1 src) s) else s
    | none => s) s

/-- The Sync of a port's best master is overdue. -/
def syncTimeout (s : State) (p1 : Bool) : State :=
  let t := ptpGet s p1
  let best := (bestMaster t).map (·.src)
  ptpPut s p1 { t with syncOk := false, syncs := t.syncs.filter (fun x => some x.1 != best) }

/-- SYNC_RECEIPT_TIMEOUT: no Sync of the port's best master within 3 Sync intervals (R313). -/
def execSyncReceiptTimeout (p : Port) (s : State) : Host.Outcome State Fault Refusal :=
  run (fun s => match ptpPort? p with
    | some p1 =>
      if coreRuns s then timeFaults (withTwin (fun s => reselect (syncTimeout s p1)) s) else s
    | none => s) s

/-! Peer delay (R314) -/

/-- The outcome of the outstanding request when the next is sent (R314). -/
def closeRequest (t : PtpPort) : PtpPort :=
  { t with
    completed := if t.outstanding then (false :: t.completed).take 3 else t.completed
    soleNeeded := if t.soleNeeded = 0 then 0 else if t.responders.length = 1 then t.soleNeeded - 1 else 3 }

/-- A PTP message leaves on a port (R220, R309, Table 6.4). -/
def sendPtp (s : State) (p : Port) (p1 : Bool) (kind : Nat) (seq : BitVec 16) (stamp : Int) (requesting : Option PortId) : State :=
  sendUnit s p (.ptp p {
    messageType := kind, dst := 0x0180C200000E, src := BitVec.ofNat 48 (processMac s), stamp := stamp, requesting := requesting
    hdr := { version := 2, domain := ptpDomain s, src := ownPortId s p1, seq := seq } })

/-- PDELAY_REQ_SEND: a request leaves on P0 or P1, every 1.0 s (R310, R314), after the frames that are ready (R252). -/
def sendPdelayReq (s : State) (p : Port) (p1 : Bool) : State :=
  let s := transmitReady s
  let t := closeRequest (ptpGet s p1)
  let t := { t with reqSeq := t.reqSeq + 1, t1 := txStamp s p, responders := [], resp := none, outstanding := true }
  sendPtp (reselect (ptpPut s p1 t)) p p1 2 t.reqSeq 0 none

/-- PDELAY_REQ_SEND (R310). -/
def execPdelayReqSend (p : Port) (s : State) : Host.Outcome State Fault Refusal :=
  run (fun s => match ptpPort? p with
    | some p1 => if clockRuns s && canSend s p then timeFaults (withTwin (fun s => sendPdelayReq s p p1) s) else s
    | none => s) s

/-- A Pdelay_Req is answered by Pdelay_Resp with the receive time, and Pdelay_Resp_Follow_Up with the send time (R310). -/
def answerPdelayReq (s : State) (p : Port) (p1 : Bool) (h : PtpHdr) (rx : Nat) : State :=
  let s := transmitReady s
  sendPtp (sendPtp s p p1 3 h.seq (rxStamp p rx) (some h.src)) p p1 10 h.seq (txStamp s p) (some h.src)

/-- PDELAY_REQ (R310). -/
def execPdelayReq (p : Port) (h : PtpHdr) (rx : Nat) (half : Bool) (s : State) : Host.Outcome State Fault Refusal :=
  run (ptpReceive (fun p1 s => answerPdelayReq s p p1 h (2 * rx + (if half then 1 else 0))) p h) s

/-- A Pdelay_Resp to the outstanding request (R314): a second responder makes the link delay invalid. -/
def pdelayResponse (s : State) (p1 : Bool) (m : PtpPdelay) : State :=
  let t := ptpGet s p1
  if t.reqSeq != m.hdr.seq then s
  else
    let l := if t.responders.contains m.hdr.src then t.responders else t.responders ++ [m.hdr.src]
    reselect (ptpPut s p1 { t with
      responders := l, soleNeeded := if 1 < l.length then 3 else t.soleNeeded, resp := if t.resp.isSome then t.resp else some m })

/-- PDELAY_RESP (R314). -/
def execPdelayResp (p : Port) (m : PtpPdelay) (s : State) : Host.Outcome State Fault Refusal :=
  run (ptpReceive (fun p1 s => timeFaults (withTwin (fun s => pdelayResponse s p1 m) s)) p m.hdr) s

/-- A measurement completes (R314): ((t4 - t1) - (t3 - t2)) / 2 with the correctionFields. -/
def pdelayDone (s : State) (p : Port) (p1 : Bool) (m : PtpPdelay) : State :=
  let t := ptpGet s p1
  match t.resp with
  | none => s
  | some r =>
    if t.outstanding && r.hdr.seq = m.hdr.seq && r.hdr.src = m.hdr.src then
      let d := halve ((rxStamp p r.rx - t.t1) - (m.stamp - r.stamp) - r.correction - m.correction)
      reselect (ptpPut s p1 { t with delays := (d :: t.delays).take 5, completed := (true :: t.completed).take 3, outstanding := false })
    else s

/-- PDELAY_RESP_FOLLOW_UP (R314). -/
def execPdelayRespFollowUp (p : Port) (m : PtpPdelay) (s : State) : Host.Outcome State Fault Refusal :=
  run (ptpReceive (fun p1 s => timeFaults (withTwin (fun s => pdelayDone s p p1 m) s)) p m.hdr) s

/-- PTP_DISCARDED: another message of Table 8.2, tallied in PTP_DISCARD of its port (R310). -/
def execPtpDiscarded (p : Port) (s : State) : Host.Outcome State Fault Refusal :=
  run (fun s => match ptpPort? p with
    | some p1 => if rxOpen s p then ptpDiscard s p1 else s
    | none => s) s

/-! Holdover, leap second, PPS (Table 8.4, R327, R329) -/

/-- HOLDOVER_EXPIRY: G.PTP_HOLDOVER has elapsed (Table 8.4). -/
def execHoldoverExpiry (s : State) : Host.Outcome State Fault Refusal :=
  run (fun s => if coreRuns s && s.time.state = .holdover then timeFaults (enterTime s .freeRunning) else s) s

/-- LEAP_SECOND: an armed leap applies at the UTC midnight (R327). -/
def execLeapSecond (s : State) : Host.Outcome State Fault Refusal :=
  run (fun s => if coreRuns s then applyLeap s else s) s

/-- A calendar time (R326). -/
structure Calendar where
  year : Nat
  month : Nat
  day : Nat
  hour : Nat
  minute : Nat
  second : Nat
deriving DecidableEq, Repr

/-- Year, month and day of a number of days from 1970-01-01 in the Gregorian calendar (R326). -/
def civilDate (days : Nat) : Nat × Nat × Nat :=
  let z := days + 719468
  let doe := z % 146097
  let yoe := (doe - doe / 1460 + doe / 36524 - doe / 146096) / 365
  let doy := doe - (365 * yoe + yoe / 4 - yoe / 100)
  let mp := (5 * doy + 2) / 153
  let m := if mp < 10 then mp + 3 else mp - 9
  (yoe + z / 146097 * 400 + (if m ≤ 2 then 1 else 0), m, doy - (153 * mp + 2) / 5 + 1)

/-- The calendar form of a UTC second since 1970. -/
def calendarOf (utc : Nat) : Calendar :=
  let d := civilDate (utc / 86400)
  let t := utc % 86400
  { year := d.1, month := d.2.1, day := d.2.2, hour := t / 3600, minute := t / 60 % 60, second := t % 60 }

/-- The UTC calendar time of a TAI second (R326): an armed leap61 shows 23:59:60, an armed leap59 skips 23:59:59 (R327). -/
def utcCalendar (s : State) (tai : Nat) : Calendar :=
  let at_ := fun (off : Int) => calendarOf ((tai : Int) - off).toNat
  match s.time.leap with
  | none => at_ s.time.utcOffset
  | some (true, mid) =>
    if tai < mid then at_ s.time.utcOffset
    else if tai = mid then { at_ (s.time.utcOffset + 1) with second := 60 }
    else at_ (s.time.utcOffset + 1)
  | some (false, mid) => at_ (if tai + 1 < mid then s.time.utcOffset else s.time.utcOffset - 1)

/-- PPS_OUT pulses in this state (Table 8.6). -/
def ppsRuns (s : State) : Bool := s.time.state = .locked || s.time.state = .tracking || s.time.state = .holdover

/-- Level of PPS_OUT: high for 1.0 ms after its edge, low otherwise (Table 8.6). -/
def ppsLevel (s : State) : Bool := clockRuns s && ppsRuns s && s.time.ppsSec == some s.time.sec && decide (s.time.ns < 1000000)

/-- Level of 10MHZ_OUT while D6 is good, in every time state (Table 8.6). -/
def tenMhzLevel (s : State) : Bool := domainGood s 6 && decide (s.time.nco < 50 * 2 ^ 32)

/-- PPS_EDGE: NS returns to 0 (R329). -/
def execPpsEdge (s : State) : Host.Outcome State Fault Refusal :=
  run (fun s =>
    let quiet := match s.time.noPpsTo with
      | some n => s.time.sec ≤ n
      | none => false
    if clockRuns s && ppsRuns s && !quiet then emit { s with time := { s.time with ppsSec := some s.time.sec, nco := ncoOf s } } .pps else s) s

/-! OVEN and TWIN slots -/

/-- OVEN update (R351, R352); out of specification beyond 100 mK (R324). -/
def ovenUpdate (s : State) (err : Int) : State :=
  let e := satError err
  let l := controlLaw 0x6000 0x0040 0 0x7FFF s.reck.oven e
  let l := if s.time.ovenWas then feTimer 100 l e else { l with fe := 0 }
  let out := s.time.ovenIn && 100 < e.natAbs
  let s := { s with
    reck := { s.reck with oven := l, ovenErr := err }
    time := { s.time with ovenIn := s.time.ovenIn && !out, ovenOutAt := if out then s.now else s.time.ovenOutAt } }
  if out && s.time.state = .holdover then enterTime s .freeRunning else s

/-- OVEN_UPDATE at 10 Hz (R351). -/
def execOvenUpdate (err : Int) (s : State) : Host.Outcome State Fault Refusal :=
  run (fun s => if coreRuns s && domainGood s 6 then timeFaults (ovenUpdate s err) else s) s

/-- OVEN_IN_SPEC: within ±0.1 K for 10 s (R324). -/
def execOvenInSpec (s : State) : Host.Outcome State Fault Refusal :=
  run (fun s =>
    if coreRuns s && s.reck.ovenErr.natAbs ≤ 100 then
      causeGoneU { s with time := { s.time with ovenIn := true, ovenWas := true } } 0x0EC0
    else s) s

/-- TWIN update at 1 kHz while R331 holds. -/
def twinUpdate (s : State) : State :=
  match s.time.twinOffset with
  | none => s
  | some off =>
    let e := errorLsb off
    let l := feTimer 0x0C80 (controlLaw 0x7FFF 0x0100 (-32767) 32767 s.reck.twin e) e
    let s := { s with reck := { s.reck with twin := l } }
    if l.fe = 0 then causeGone s { code := 0x1140, scope := 10, inst := 2 } else s

/-- TWIN_UPDATE (R331, R351). -/
def execTwinUpdate (s : State) : Host.Outcome State Fault Refusal :=
  run (fun s => if coreRuns s && twinRuns s then twinUpdate s else s) s

/-- A slot's following-error timer reaches FE_TIME (R349, Table 9.5). -/
def followingError (s : State) (slot : Nat) : State :=
  if slot = 0 then
    if 30 ≤ s.reck.clk.fe then
      let s := arise s { code := 0x1100, scope := 10, inst := 0 } 0 none16 []
      if s.time.state = .locked || s.time.state = .tracking then enterTime s .acquiring else s
    else s
  else if slot = 1 then (if 100 ≤ s.reck.oven.fe && !s.time.ovenIn then ariseU s 0x0EC0 1 else s)
  else if slot = 2 then (if 10000 ≤ s.reck.twin.fe then arise s { code := 0x1140, scope := 10, inst := 2 } 0 none16 [] else s)
  else if slot = 3 then s
  else
    if 20 * gCoilFeTime (rods s) (slot - 4) ≤ (coilGet s (slot - 4)).loop.fe then
      arise s { code := 0x1180, scope := 10, inst := slot } 0 none16 []
    else s

/-- FOLLOWING_ERROR (R349, R370). -/
def execFollowingError (slot : Fin 36) (s : State) : Host.Outcome State Fault Refusal :=
  run (fun s => if coreRuns s then followingError s slot.val else s) s

end Sys2Proof.Machine
end

