-- ==== Sys2Proof/WellFormed.lean ====
section
/-! DEFINITION. Which operands a command can bring: the counts and ranges the hardware fixes. A command whose operands
break them stops with the fault illFormed (log 1). -/
namespace Sys2Proof

/-- 12 straps, 16 measurements each (R65). -/
def WellFormed.straps (readings : List (List Nat)) : Bool :=
  readings.length == 12 && readings.all (fun l => l.length == 16)

/-- At most 8 start-up scans, at least 2 (R104). -/
def WellFormed.scans (scans : List (Option ScanReadings)) : Bool := 2 ≤ scans.length && scans.length ≤ 8

/-- The presence monitor reads PLG_TYPE by the strap method (R61, R65). -/
def WellFormed.presence (type : List Nat) : Bool := type.length == 16

/-- The A0h read brings octets 0 to 95, the A2h read octets 0 to 119 (R240). -/
def WellFormed.a0h (t : I2c) : Bool := (t.page.map (fun l => l.length == 96)).getD true
def WellFormed.a2h (t : I2c) : Bool := (t.page.map (fun l => l.length == 120)).getD true

/-- Four cages at the ports step (Table 6.1). -/
def WellFormed.cages (cages : List CageRead) : Bool := cages.length == 4 && cages.all (fun c => WellFormed.a0h c.read)

/-- A conversion set: the three or four conversions of a channel, each an 18-bit code (R509). -/
def WellFormed.convSet (c : ConvSet) : Bool :=
  match c with
  | none => true
  | some l => 1 ≤ l.length && l.all (fun v => -131072 ≤ v && v < 131072)

/-- One set for each of the 16 primaries and for each checker (R509). -/
def WellFormed.adcTrigger (prim : List ConvSet) (k0 k1 : ConvSet) : Bool :=
  prim.length == 16 && prim.all WellFormed.convSet && WellFormed.convSet k0 && WellFormed.convSet k1

/-- The codes of an urgent check are 18-bit codes (R520). -/
def WellFormed.urgent (prim chk : Int) : Bool :=
  -131072 ≤ prim && prim < 131072 && -131072 ≤ chk && chk < 131072

/-- A recall request of 48 octets whose OP is the row's (R696, Tables 18.1, 18.2). -/
def WellFormed.request (op : BitVec 8) (r : RecallReq) : Bool := r.op == op && r.param.length == 40

/-- Any recall request of 48 octets (R696). -/
def WellFormed.anyRequest (r : RecallReq) : Bool := r.param.length == 40

/-- The operands a command can bring. -/
def WellFormed (i : Instr) : Bool :=
  match i with
  | .strapsDecided r => WellFormed.straps r
  | .startUpPlugRead l => WellFormed.scans l
  | .portsStep c => WellFormed.cages c
  | .presenceCheck _ _ t => WellFormed.presence t
  | .moduleInserted _ t => WellFormed.a0h t
  | .a2hPoll _ r t => WellFormed.a0h r && WellFormed.a2h t
  | .adcTrigger _ p k0 k1 => WellFormed.adcTrigger p k0 k1
  | .urgentCheck _ _ _ _ p c => WellFormed.urgent p c
  | .opOpen _ r => WellFormed.request 0x01 r
  | .opClose _ r => WellFormed.request 0x02 r
  | .opEntries _ r => WellFormed.request 0x10 r
  | .opAck _ r => WellFormed.request 0x11 r
  | .opRecord _ r => WellFormed.request 0x20 r
  | .opDone _ r => WellFormed.request 0x21 r
  | .malformedRequest _ r => WellFormed.anyRequest r
  | .unlistedRequest _ r => WellFormed.anyRequest r
  | _ => true

end Sys2Proof
end

