-- ==== Sys2Proof/Machine/Adc.lean ====
section
/-! DEFINITION. The local analogue section: correction arithmetic, plausibility, result registers, local streams, urgent checks
and the reference monitor (chapter 13). -/
namespace Sys2Proof.Machine

/-! Conversion sets and their correction (R503, R509, R510) -/

/-- The calibration copy in use (R510). -/
def calib (s : State) : Option Calib := if s.adc.cal1.ok then some s.adc.cal1 else if s.adc.cal2.ok then some s.adc.cal2 else none

/-- The set of 2^os codes of a converter; a set with fewer has a conversion that did not complete (Table 13.6). -/
def convSetOf (os : Nat) (c : ConvSet) : ConvSet :=
  match c with
  | none => none
  | some l => if l.length < 2 ^ os then none else some (l.take (2 ^ os))

/-- r = (Σ q) × 2^(3 - s) (R509). -/
def rawSum (os : Nat) (l : List Int) : Int := l.foldl (· + ·) 0 * 2 ^ (3 - os)

/-- A conversion of the set was at an end of the code range (Table 13.2, OVR). -/
def overRange (l : List Int) : Bool := l.any (fun q => q == -131072 || q == 131071)

/-- Calibration index of converter c (0 to 15 own primary, 16 K0, 17 K1) on input i. -/
def calIndex (c i : Nat) : Nat := if c = 16 then 16 + i else if c = 17 then 32 + i else c

/-- The corrected result y (R509): r from converter c on input i, with or without the user correction. -/
def corrected (s : State) (k : Calib) (c i : Nat) (factory : Bool) (r : Int) : Int :=
  let x := calIndex c i
  let gain : Int := 2 ^ 24 + Tab.get 0 k.gain x
  let a := (r - Tab.get 0 k.off x) * gain
  let y :=
    if factory then roundDiv (a * s.adc.gRef) (2 ^ 48)
    else
      let u := roundDiv (gOfs (rods s) i * 2 ^ 20) 10000
      roundDiv ((a - u * 2 ^ 24) * (10000 + gGain (rods s) i) * s.adc.gRef) (2 ^ 48 * 10000)
  clampInt (-(2 ^ 23 - 1)) (2 ^ 23 - 1) y

/-- The value of a local stream (R511). -/
def localValue (y : Int) : Int := roundDiv (y * 625) 64

/-! Plausibility (R516 to R519) -/

/-- Key of an input's fault, of a converter's fault. -/
def keyA (code i : Nat) : FaultKey := { code := code, scope := 7, inst := i }
def keyC (code c : Nat) : FaultKey := { code := code, scope := 8, inst := c }

/-- An input's counts. -/
def adcIn (s : State) (i : Nat) : AdcIn := Tab.get {} s.adc.inputs i
def adcInPut (s : State) (i : Nat) (x : AdcIn) : State := { s with adc := { s.adc with inputs := Tab.put {} s.adc.inputs i x } }

/-- A comparison passes (R517). -/
def comparePasses (yK yP : Int) : Bool := decide ((yK - yP).natAbs ≤ 5243 + yP.natAbs / 500)

/-- A comparison is counted (R518). -/
def countCompare (s : State) (i : Nat) (yK yP : Int) : State :=
  let x := adcIn s i
  if comparePasses yK yP then
    let p := x.passes + 1
    let back := x.invalid && decide (32 ≤ p)
    let s := adcInPut s i { fails := 0, passes := p, invalid := x.invalid && !back }
    if back then causeGone s (keyA 0x4140 i) else s
  else
    let f := x.fails + 1
    let bad := !x.invalid && decide (3 ≤ f)
    let s := tallyAdd (adcInPut s i { fails := f, passes := 0, invalid := x.invalid || bad }) 2 i 1
    if bad then arise s (keyA 0x4140 i) 0 none16 (ownPayload 41 [i, word40 yP, word40 yK])
    else if x.invalid then s
    else requestCheck s i

/-- A comparison of input i between checker k and its primary, by their sets: void with OVR or REFBAD; none where a set of this
trigger is not complete. -/
def compareSets (s : State) (i k : Nat) (chk : Nat × ConvSet) (prim : Nat × ConvSet) : State :=
  match calib s, chk.2, prim.2 with
  | some c, some lk, some lp =>
    if overRange lk || overRange lp || !s.adc.refOk then tallyAdd s 2 (16 + i) 1
    else countCompare s i (corrected s c (16 + k) i true (rawSum chk.1 lk)) (corrected s c i i true (rawSum prim.1 lp))
  | _, _, _ => s

/-! One trigger -/

/-- Oversampling index of primary p, and of checker k, at a trigger (R506, R507, R516). -/
def primaryOver (s : State) (p : Nat) : Nat := ((primaryEntry (adcInputs s) (rods s) p).map (seqOver (rods s))).getD 0
def checkerOver (s : State) (k : Nat) : Nat :=
  match namedChecker (adcInputs s) (rods s) with
  | some (j, e) => if j = k then seqOver (rods s) e else 0
  | none => 0

/-- Oversampling index and set of primary p (R506). -/
def primarySet (s : State) (prim : List ConvSet) (p : Nat) : Nat × ConvSet :=
  let o := primaryOver s p
  (o, convSetOf o (prim.getD p none))

/-- Oversampling index and set of checker k: its entry's, or ×1 (R507, R516). -/
def checkerSet (s : State) (k : Nat) (c : ConvSet) : Nat × ConvSet :=
  (checkerOver s k, convSetOf (checkerOver s k) c)

/-- A converter whose conversion failed has a fault until the next reset (Table 13.6). -/
def noteConverter (s : State) (c : Nat) (x : ConvSet) : State :=
  if x.isSome || s.adc.convFault.contains c then s
  else arise { s with adc := { s.adc with convFault := s.adc.convFault ++ [c] } } (keyC 0x4180 c) 0 none16 []

/-- Quantity q shows CHANGE at an index: in a change window that has begun (R526). -/
def inChange (s : State) (idx : SIndex) (q : Nat) : Bool :=
  s.adc.change.any (fun e => e.1 == q && (e.2.2 < strapRate s / fNom s || !idx.lt e.2.1))

/-- Result register e after the trigger of an index (Table 13.2); a result that does not exist leaves Y a free value. OVR is that of the
conversions made, also of an incomplete set; CONVF stands on every result of the converter, of a skipped entry too (Table 13.6). -/
def sqrWord (s : State) (idx : SIndex) (e : Nat) (prim : List ConvSet) (k0 k1 : ConvSet) : BitVec 32 :=
  let r := rods s
  let i := seqInput r e
  let conv := seqConv r e
  let c := if conv = 0 then i else 15 + conv
  let skip := seqSkipped (adcInputs s) r e
  let made := if conv = 0 then prim.getD i none else if conv = 1 then k0 else k1
  let set := if conv = 0 then primarySet s prim i else checkerSet s (conv - 1) made
  let failed := s.adc.convFault.contains c || (calib s).isNone || set.2.isNone
  let x := adcIn s i
  let y : Int := match calib s, set.2 with
    | some k, some l => if skip || failed then Config.freeValue (s.free + e) else corrected s k c i (seqFactory r e) (rawSum set.1 l)
    | _, _ => Config.freeValue (s.free + e)
  let ovr := overRange ((made.getD []).take (2 ^ set.1))
  let change := gSeqLs r e != 0 && inChange s idx (gSeqLs r e - 1)
  BitVec.ofNat 32 ((y % 2 ^ 24).toNat + (if ovr && !skip then 2 ^ 24 else 0) + (if !s.adc.refOk then 2 ^ 25 else 0)
    + (if skip then 2 ^ 26 else 0) + (if x.fails = 1 || x.fails = 2 then 2 ^ 27 else 0) + (if x.invalid then 2 ^ 28 else 0)
    + (if failed then 2 ^ 29 else 0) + (if change then 2 ^ 30 else 0))

/-- A bit of a result register. -/
def sqrBit (w : BitVec 32) (b : Nat) : Bool := w.getLsbD b

/-- The corrected result of a result register. -/
def sqrY (w : BitVec 32) : Int := (w.extractLsb' 0 24).toInt

/-- Quality of a local quantity (Table 13.5). -/
def localQuality (s : State) (w : BitVec 32) : Nat :=
  let failure := sqrBit w 26 || sqrBit w 29 || sqrBit w 28
  let refbad := sqrBit w 25
  let change := sqrBit w 30
  let inacc := sqrBit w 27 || strap s 6 == 2
  let ovr := sqrBit w 24
  (if failure || refbad || change then 1 else if ovr || inacc then 3 else 0)
    + (if ovr then 2 ^ 2 else 0) + (if refbad then 2 ^ 4 else 0) + (if failure then 2 ^ 6 else 0)
    + (if change then 2 ^ 8 else 0) + (if inacc then 2 ^ 9 else 0)

/-- Quantity q of local stream ls (R523). -/
def localChan (s : State) (ls q : Nat) : ChanSample :=
  match lsEntry (adcInputs s) (rods s) ls q with
  | none => { value := 0, quality := 0x41#14 }
  | some e =>
    let w := Tab.get 0 s.adc.sqr e
    { value := localValue (sqrY w), quality := BitVec.ofNat 14 (localQuality s w) }

/-- The sample of a trigger enters local stream ls (R524, R528, R532); indices without a trigger are missing. -/
def localSample (s : State) (idx : SIndex) (ls : Nat) (chans : List ChanSample) : State :=
  let n := 1024 + ls
  let x := svGet s n
  let s := if x.phase == .admitted then s
    else svPut s n { x with phase := .admitted, next := idx, since := idx, first := idx, due := idx }
  let stepped := (svGet s n).refix
  let gap := absIndex (strapRate s) idx - absIndex (strapRate s) (svGet s n).next
  let s := if stepped then svPut s n { svGet s n with refix := false, next := idx } else declareRun gap s n
  let s := svPut s n { svGet s n with heardAt := some s.now }
  accept s
    { sample := { slot := n, idx := idx, kind := .received, chans := chans, blocked := false, jumped := stepped }
      digest := 0, own := true, held := true, confirmed := true }

/-- Conversion, comparison and results of a trigger (R504 to R519). -/
def adcConvert (s : State) (idx : SIndex) (prim : List ConvSet) (k0 k1 : ConvSet) : State :=
  let adc := adcInputs s
  let inputs := List.range adc
  let s := inputs.foldl (fun s p => noteConverter s p (primarySet s prim p).2) s
  let s := noteConverter (noteConverter s 16 (checkerSet s 0 k0).2) 17 (checkerSet s 1 k1).2
  let s := inputs.foldl (fun s p => match (primarySet s prim p).2 with
    | some l => if overRange l then tallyAdd s 2 (32 + p) 1 else s
    | none => s) s
  let cmp := fun (s : State) (k : Nat) (c : ConvSet) =>
    let i := checkerInput adc (rods s) k idx.cnt
    compareSets s i k (checkerSet s k c) (primarySet s prim i)
  let s := cmp (cmp s 0 k0) 1 k1
  let regs := (List.range 32).foldl (fun t e => Tab.put 0 t e (if seqSet (rods s) e then sqrWord s idx e prim k0 k1 else 0)) s.adc.sqr
  { s with free := s.free + 32, adc := { s.adc with sqr := regs } }

/-- The change window of a commit (R526), from its first index on: quantities whose source entry changes, or whose input's user correction does. -/
def sequenceChange (s : State) (old new : Rods) (first : SIndex) : State :=
  let adc := adcInputs s
  let changed := fun (q : Nat) =>
    let a := lsEntry adc old (q / 8) (q % 8)
    let b := lsEntry adc new (q / 8) (q % 8)
    a != b || (match b with
      | some e => (List.range 3).any (fun k => rodCode old (640 + 3 * e + k) != rodCode new (640 + 3 * e + k))
          || gOfs old (seqInput new e) != gOfs new (seqInput new e) || gGain old (seqInput new e) != gGain new (seqInput new e)
      | none => false)
  let s := { s with adc := { s.adc with
    change := s.adc.change ++ ((List.range 16).filter changed).map (fun q => (q, first, strapRate s / fNom s)) } }
  if adc = 0 then s
  else (List.range adc).foldl (fun s i =>
    if coveringChecker adc old i != coveringChecker adc new i then adcInPut s i { adcIn s i with fails := 0 } else s) s

/-- The image of a commit that is decided and that its boundary puts in force (R34, R153). -/
def decidedRow (s : State) : Option Rods :=
  match s.plug.commit with
  | .decided new => if storeOn s then some new else none
  | _ => none

/-- Act with the row 5 that applies to a trigger's index (R34, R526). -/
def withImageAt {α : Type} (s : State) (idx : SIndex) (f : State → α) : α :=
  match decidedRow s, s.plug.earlier with
  | some new, _ => f { s with plug := { s.plug with image := some new } }
  | none, some (old, first) => if idx.lt first then f { s with plug := { s.plug with image := some old } } else f s
  | none, none => f s

/-- The commit that is decided takes effect from the trigger of its sample boundary, 75 µs before it (R504, R526). -/
def rowAtTrigger (s : State) (idx : SIndex) : State :=
  match decidedRow s with
  | some new =>
    if s.adc.rowNew then s
    else { sequenceChange s (rods s) new idx with adc := { (sequenceChange s (rods s) new idx).adc with rowNew := true } }
  | none => s

/-- The change windows after a trigger: one that has begun counts it (R526). -/
def changeAfter (s : State) (idx : SIndex) : List (Nat × SIndex × Nat) :=
  (s.adc.change.map (fun e =>
    if e.2.2 < strapRate s / fNom s || !idx.lt e.2.1 then (e.1, e.2.1, e.2.2 - 1) else e)).filter (fun e => e.2.2 != 0)

/-- The runs of indices produced with one more (R528). -/
def addProduced (s : State) (idx : SIndex) : List (SIndex × SIndex) :=
  match s.adc.produced with
  | [] => [(idx, idx)]
  | r :: l => if succIndex s r.2 = idx then (r.1, idx) :: l else (idx, idx) :: r :: l

/-- One trigger (R504 to R524); a new g_ref applies from it (R513). -/
def adcTrigger (s : State) (idx : SIndex) (prim : List ConvSet) (k0 k1 : ConvSet) : State :=
  let s := rowAtTrigger { s with adc := { s.adc with gRef := s.adc.gRefNext } } idx
  let t := withImageAt s idx (fun s => adcConvert s idx prim k0 k1)
  let chans := (List.range 16).map (fun i => withImageAt t idx (fun t => localChan t (i / 8) (i % 8)))
  let s := { t with
    plug := s.plug
    adc := { t.adc with produced := addProduced t idx, stepped := false, flight := [], change := changeAfter t idx } }
  if serving s then localSample (localSample s idx 0 (chans.take 8)) idx 1 (chans.drop 8) else s

/-- The index of a trigger is to be produced (R528): none is produced twice, and between two steps of the counter they rise. -/
def triggerDue (s : State) (idx : SIndex) : Bool :=
  match s.adc.produced with
  | [] => true
  | r :: l => !(r :: l).any (fun r => !idx.lt r.1 && !r.2.lt idx) && (s.adc.stepped || r.2.lt idx)

/-- ADC_TRIGGER (R504): an index already produced is not produced again (R528). -/
def execAdcTrigger (idx : SIndex) (prim : List ConvSet) (k0 k1 : ConvSet) (s : State) : Host.Outcome State Fault Refusal :=
  runIf (WellFormed.adcTrigger prim k0 k1) (fun s =>
    if !adcRuns s || strapRate s ≤ idx.cnt || !triggerDue s idx then s
    else judgeSummary (adcTrigger s idx prim k0 k1)) s

/-! Urgent checks (R520 to R522, R525) -/

/-- A dropped check is tallied on a converter (R522). -/
def urgentDrop (s : State) (c : Nat) : State := tallyAdd s 1 (9 + c) 1

/-- A converter is busy at a whole microsecond after the trigger: its set of 2^os conversions runs to (2^os + 1) × 0.25 µs after the
trigger (R504), or an urgent check has started there. -/
def converterBusy (s : State) (c os start : Nat) : Bool := 4 * start < 2 ^ os + 1 || s.adc.flight.contains (c, start)

/-- A check that starts there ends at least 2.0 µs before the first conversion of the next trigger (R504, R522), in units of 0.25 µs:
the check takes 0.5 µs, and the longest set begins (2^os - 1) × 0.25 µs before its trigger. -/
def endsInTime (s : State) (start : Nat) : Bool :=
  let most := (((List.range (adcInputs s)).map (primaryOver s)) ++ [checkerOver s 0, checkerOver s 1]).foldl max 0
  (4 * start + 2 + 8 + (2 ^ most - 1)) * strapRate s ≤ 4000000

/-- Another check that needs the same checker was requested in the same tick for a lower input, whatever has become of it (R525). -/
def yieldsCheck (s : State) (i k at_ : Nat) : Bool :=
  s.adc.asked.any (fun x => x.2 == at_ && x.1 < i && coveringChecker (adcInputs s) (rods s) x.1 == k)

/-- A requested urgent check of an input starts or is dropped (R521, R522, R525); a conversion that does not complete is a converter fault
(Table 13.6). -/
def urgentCheck (s : State) (i start : Nat) (prim chk : ConvSet) : State :=
  let k := coveringChecker (adcInputs s) (rods s) i
  let asked := ((s.adc.urgent.find? (fun x => x.1 == i)).map (·.2)).getD 0
  let yields := yieldsCheck s i k asked
  let s := { s with adc := { s.adc with urgent := s.adc.urgent.filter (fun x => x.1 != i) } }
  if yields || converterBusy s (16 + k) (checkerOver s k) start then urgentDrop s (16 + k)
  else if converterBusy s i (primaryOver s i) start then urgentDrop s i
  -- both are idle, and the check would end too late: on which converter the drop is tallied is not stated (a free value)
  else if !endsInTime s start then urgentDrop (tookFresh s) (if freshValue s % 2 = 0 then i else 16 + k)
  else
    let s := { s with adc := { s.adc with flight := s.adc.flight ++ [(i, start), (16 + k, start)] } }
    let s := noteConverter (noteConverter s i prim) (16 + k) chk
    let s := if prim.any overRange then tallyAdd s 2 (32 + i) 1 else s
    compareSets s i k (0, chk) (0, prim)

/-- URGENT_CHECK (R521). -/
def execUrgentCheck (input : Fin 16) (start : Nat) (primDone chkDone : Bool) (prim chk : Int) (s : State) : Host.Outcome State Fault Refusal :=
  runIf (WellFormed.urgent prim chk) (fun s =>
    if adcRuns s && s.adc.urgent.any (·.1 == input.val) then
      judgeSummary (urgentCheck s input.val start (if primDone then some [prim] else none) (if chkDone then some [chk] else none))
    else s) s

/-! The reference (R512 to R514, Table 13.6) -/

/-- The reference mode: that of ST_REF once the straps are decided; before, the internal one (DESIGN CHOICE, log 139). -/
def refMode (s : State) : Nat := if s.ident.decided then strap s 6 else 7

/-- A reading lies in the window of ST_REF (Table 13.3), limits included; readings are in 2^-24 of 4.096 V. -/
def refInWindow (s : State) (v : Nat) : Bool :=
  let mv := fun (n : Nat) => n * 2 ^ 24
  let x := v * 4096
  match refMode s with
  | 1 => mv 4000 ≤ x && x ≤ mv 4200
  | 2 => mv 3900 ≤ x && x ≤ mv 4300
  | _ => mv 4094 ≤ x && x ≤ mv 4098

/-- The readings of the last 2.0 ms are complete and lie within 0.01 % of one another. -/
def refSteady (l : List Nat) : Bool :=
  let hi := l.foldl max 0
  let lo := l.foldl min hi
  l.length == 9 && (hi - lo) * 10000 ≤ lo

/-- REF_OK after a reading (R514). -/
def refOkNext (s : State) (v : Nat) : Bool :=
  let l := (v :: s.adc.refReads).take 9
  if !refInWindow s v then false
  else match s.adc.refReads with
    | p :: _ => if p < (max v p - min v p) * 2000 then false else s.adc.refOk || (refSteady l && l.all (refInWindow s))
    | [] => s.adc.refOk

/-- The reference fault (Table 13.6). -/
def judgeReference (s : State) : State :=
  let a := s.adc
  if a.refOk then (if faultStands s (keyU 0x4100) && a.refAt + ticksPerSec ≤ s.now then causeGoneU s 0x4100 else s)
  else if faultStands s (keyU 0x4100) then s
  else if (a.refAt ≤ a.d7At + 40000000 && a.d7At + 40000000 ≤ s.now) || (serving s && a.refAt + 400000 ≤ s.now) then ariseU s 0x4100 0
  else s

/-- One monitor reading. -/
def referenceMonitor (s : State) (v : Nat) : State :=
  let ok := refOkNext s v
  judgeReference { s with adc := { s.adc with
    refOk := ok, refAt := (if ok == s.adc.refOk then s.adc.refAt else s.now), refReads := (v :: s.adc.refReads).take 9
    gRefNext := (if refMode s == 1 || refMode s == 2 then v else 2 ^ 24) } }

/-- REFERENCE_MONITOR (R513): it runs from D7 good, also before the straps are decided. -/
def execReferenceMonitor (v : Nat) (s : State) : Host.Outcome State Fault Refusal :=
  run (fun s => if coreRuns s && domainGood s 7 then judgeSummary (referenceMonitor s v) else s) s

/-! Standing faults of the section -/

/-- Calibration and degraded reference (Table 13.6), judged when the straps are decided. -/
def adcStartFaults (s : State) : State :=
  if adcInputs s = 0 then s
  else
    let s := judgeFault s (keyU 0x41C0) 0 none16 (calib s).isNone
    judgeFault s (keyU 0x4280) 0 none16 (strap s 6 == 2)

/-- The settings fault of the sequence (R530), judged with each image in force. -/
def judgeSequence (s : State) : State := judgeFault s (keyU 0x4200) 0 none16 (seqFault (adcInputs s) (rods s))

end Sys2Proof.Machine
end

