-- ==== Sys2Proof/Machine/Ports.lean ====
section
/-! DEFINITION. Received frames, redundancy, HSR forwarding, links, cages and SFF-8472 diagnostics (chapter 6). -/
namespace Sys2Proof.Machine

/-! Acceptance (R216) -/

/-- The destination is accepted (Table 6.2). -/
def addrOk (s : State) (p : Port) (dst : Mac) : Bool :=
  if isProcess p then
    dst.toNat / 2 ^ 40 % 2 == 1 || dst.toNat == processMac s || (match pairMac s with
      | some m => dst.toNat == m
      | none => false)
  else dst.toNat == stationMac s || dst.toNat == 0x01154E000100

/-- At most one 0x8100 tag and no 0x88A8 tag (R216, check 5). -/
def tagOk (tags : List (BitVec 16)) : Bool := tags.length ≤ 1 && !tags.contains 0x88A8

/-- The Ethertype and protocol number are accepted on a port (Table 6.3), PRP supervision apart. -/
def typeOk (s : State) (p : Port) (f : RxFrame) : Bool :=
  if isProcess p then
    f.ethertype == 0x88BA || f.ethertype == 0x88B8 || f.ethertype == 0x88F7
      || (f.ethertype == 0x88B7 && f.proto == 0x0C42 && isTwin s)
  else f.ethertype == 0x88B7 && f.proto == 0x0C40

/-! The duplicate test (R228 to R231) -/

/-- The duplicate table of a port's bus. -/
def prpTable (s : State) (p : Port) : Tab PrpEntry := if isProcess p then s.ports.prpProcess else s.ports.prpStation
def prpPut (s : State) (p : Port) (t : Tab PrpEntry) : State :=
  if isProcess p then { s with ports := { s.ports with prpProcess := t } } else { s with ports := { s.ports with prpStation := t } }

/-- A redundancy frame against its source's entry (R229): whether it is new, and the entry after it. -/
def prpClass (e : PrpEntry) (n : BitVec 16) (now : Nat) : Bool × PrpEntry :=
  let d := (n - e.highest).toNat
  let back := (e.highest - n).toNat
  if back < 128 then (!e.window.getLsbD back, { e with window := e.window ||| BitVec.ofNat 128 (2 ^ back), seen := now })
  else if d ≤ 32767 then (true, { highest := n, window := (e.window <<< d) ||| 1, seen := now })
  else (true, { highest := n, window := 1, seen := now })

/-- Result of the test: new, duplicate, or no free entry (R231). -/
inductive PrpResult | new | dup | full
deriving DecidableEq, Repr

/-- The test on a source and number, and the table after it (R228, R229, R231). -/
def prpTest (t : Tab PrpEntry) (src : Mac) (n : BitVec 16) (now : Nat) : PrpResult × Tab PrpEntry :=
  match t.find? (fun p => p.1 == src.toNat) with
  | some (_, e) =>
    let r := prpClass e n now
    (if r.1 then .new else .dup, Tab.insert t src.toNat r.2)
  | none =>
    if 2048 ≤ t.length then (.full, t)
    else (.new, Tab.insert t src.toNat { highest := n, window := 1, seen := now })

/-- The LAN identifier of the port's partner on the same bus (R226, Table 6.4). -/
def otherLan (p : Port) : Nat := 0xA + 0xB - lanId p

/-- The check of redundancy under PRP (R227, R229, R255): tallies, and whether the frame is delivered. -/
def prpCheck (s : State) (p : Port) (f : RxFrame) : State × Bool :=
  match f.red with
  | .rct lan seq true true =>
    let s := if lan.toNat = otherLan p then portTally s p 8 else s
    -- both copies in one tick: the copy from P0 is kept (R23)
    if p = .p1 && f.twinFromP0 then (portTally s p 7, false)
    else
      let r := prpTest (prpTable s p) f.src seq s.now
      let s := prpPut s p r.2
      match r.1 with
      | .new => (s, true)
      | .dup => (portTally s p 7, false)
      | .full => (portTally s p 10, true)
  | _ => (s, true)

/-! HSR (R232 to R235, R320) -/

/-- The other ring port. -/
def otherRing (p : Port) : Port :=
  match p with
  | .p0 => .p1
  | _ => .p0

/-- Forwarded frames that have not left yet. -/
def liveForwards (s : State) (l : List (Nat × Nat)) : List (Nat × Nat) := l.filter (fun x => s.now < x.2 + forwardTicks x.1)

/-- The tick at which a forwarded frame starts: after the frames ahead of it. -/
def forwardStart (s : State) (l : List (Nat × Nat)) : Nat := l.foldl (fun a x => max a (x.2 + forwardTicks x.1)) s.now

/-- Residence time of a forwarded frame in 2^-16 ns: at most 0.5 µs (R233) and its wait; the share below 0.5 µs is the
logic's (free value). -/
def residence (s : State) (start : Nat) : Nat := freshValue s % 32768001 + (start - s.now) * 163840

/-- Link delay of a ring port (R314), as the transparent clock adds it (R320). -/
def ringDelay (s : State) (p : Port) : Nat := (median (ptpGet s (p == .p1)).delays).toNat

/-- What the transparent clock adds to a frame, and the sums it holds for the direction (R320); beyond 4 sums the oldest
is given up. -/
def transparent (sum : Nat) (held : List (BitVec 64 × BitVec 16 × BitVec 16 × Nat)) (m : RxPtp) :
    Nat × List (BitVec 64 × BitVec 16 × BitVec 16 × Nat) :=
  match m with
  | .none => (0, held)
  | .sync false _ _ _ => (sum, held)
  | .sync true c po q => (0, (held ++ [(c, po, q, sum)]).drop (held.length + 1 - 4))
  | .followUp c po q =>
    match held.find? (fun h => h.1 == c && h.2.1 == po && h.2.2.1 == q) with
    | some h => (h.2.2.2, held.erase h)
    | none => (0, held)

/-- A first copy is forwarded to the other ring port, when that can send (R220, R232 to R234). -/
def hsrForward (s : State) (p : Port) (f : RxFrame) : State :=
  let q := otherRing p
  if !canSend s q then s
  else
    let x := portGet s q
    let start := forwardStart s (liveForwards s x.fwd)
    let r := transparent (residence s start + ringDelay s p) x.sums f.ptp
    let s := tookFresh (portPut s q { x with fwd := liveForwards s x.fwd ++ [(f.size, start)], sums := r.2 })
    sendUnit (portTally s p 11) q (.forwarded q f r.1)

/-- The frame carries an HSR tag. -/
def hsrTagged (f : RxFrame) : Bool :=
  match f.red with
  | .hsr _ => true
  | _ => false

/-- The frame is one the ring passes on: tagged, no peer-delay message, not the engine's own, not to it alone (R232). -/
def passesOn (s : State) (f : RxFrame) : Bool :=
  hsrTagged f && !f.peerDelay && f.src.toNat != processMac s && f.dst.toNat != processMac s

/-- The duplicate test of a tagged frame (R232); every frame without a tag counts as new. DESIGN CHOICE (log 131): where the table is full
(R231), every copy counts as new and is forwarded and delivered, and no tally of Table 6.4 counts it. -/
def hsrTest (s : State) (p : Port) (f : RxFrame) : State × Bool :=
  match f.red with
  | .hsr seq =>
    let r := prpTest (prpTable s p) f.src seq s.now
    (prpPut s p r.2, r.1 != .dup)
  | _ => (s, true)

/-- The engine's own supervision frame has come round: the ring is closed at this port (R256). -/
def ringClosed (s : State) (p : Port) (f : RxFrame) : State := if f.ownSupervision then causeGone s (portKey 0x1A00 p) else s

/-- Delivery (R216), with the frame's receive timestamp (R222). DESIGN CHOICE (log 132): the stamp that a link-down entry carries is that of
the last frame delivered, a good frame that checks 4 to 7 or the duplicate test discard leaves it. -/
def deliver (s : State) (p : Port) (f : RxFrame) : State :=
  portTally (portPut s p { portGet s p with lastRx := some (rxStamp p f.stamp) }) p 0

/-- The Ethertype check and delivery (R216, check 7; Table 6.3): a tagged frame is accepted on the ring alone. -/
def typeCheck (s : State) (p : Port) (f : RxFrame) : State :=
  if hsrTagged f && !(isHsr s && isProcess p) then portTally s p 6
  else if f.ethertype = 0x88FB then
    if isProcess p && !isPrp s then portTally s p 6 else portTally s p 9
  else if typeOk s p f then deliver s p f
  else portTally s p 6

/-- A frame that has passed checks 1 to 3 on a ring port (R216, R232): its own tagged frames are removed, an untagged one is discarded
unless it is a peer-delay message. -/
def hsrReceived (s : State) (p : Port) (f : RxFrame) : State :=
  if hsrTagged f && f.src.toNat = processMac s then ringClosed s p f
  else
    let t := hsrTest s p f
    let full := passesOn s f && t.2 && 16 ≤ (liveForwards s (portGet s (otherRing p)).fwd).length
    if full then portTally s p 2
    else
      let s := t.1
      let s := if passesOn s f && t.2 then hsrForward s p f else s
      if !addrOk s p f.dst then portTally s p 4
      else if !tagOk f.tags then portTally s p 5
      else if hsrTagged f then (if t.2 then typeCheck s p f else s)
      else if f.peerDelay then typeCheck s p f
      else portTally s p 13

/-- The frame that now ends has been leaving on the other ring port since its start: it is one to be forwarded, that port sends, and no frame
ahead of it is still leaving (R232 to R234). -/
def forwarding (s : State) (p : Port) (f : RxFrame) : Bool :=
  passesOn s f && (hsrTest s p f).2 && canSend s (otherRing p) && (liveForwards s (portGet s (otherRing p)).fwd).isEmpty

/-- A frame ends at a port (R216). DESIGN CHOICE (log 164): a frame being forwarded that its bad FCS ends counts as sent on the other port, and
not in HSR_FWD. -/
def frameReceived (s : State) (p : Port) (f : RxFrame) : State :=
  let ring := isProcess p && isHsr s
  if !f.codingOk then portTally s p 1
  else if f.size < 64 || 1536 < f.size then portTally s p 2
  else if !f.fcsOk then
    -- a frame that is being forwarded is ended with an inverted FCS (R233)
    let s := portTally s p 3
    if ring && forwarding s p f then portTally (emit s (.aborted (otherRing p))) (otherRing p) 14
    else s
  else if ring then hsrReceived s p f
  else if !addrOk s p f.dst then portTally s p 4
  else if !tagOk f.tags then portTally s p 5
  else if isProcess p && !isPrp s then typeCheck s p f
  else
    let r := prpCheck s p f
    if r.2 then typeCheck r.1 p f else r.1

/-- FRAME_RECEIVED (R216): nothing is delivered from a port that is down or not in use (R220, R236). -/
def execFrameReceived (p : Port) (f : RxFrame) (s : State) : Host.Outcome State Fault Refusal :=
  run (fun s => if rxOpen s p then frameReceived s p f else s) s

/-- PRP_ENTRY_FORGOTTEN (R231): more than 400 ms without a redundancy frame from the source. -/
def execPrpEntryForgotten (station : Bool) (src : Mac) (s : State) : Host.Outcome State Fault Refusal :=
  run (fun s =>
    let p : Port := if station then .s0 else .p0
    prpPut s p (Tab.erase (prpTable s p) src.toNat)) s

/-! Links (R219 to R221) -/

/-- DATA of a link-down entry: the receive timestamp of the last good frame as seconds and nanoseconds, empty without one (chapter 6, worked
example; R736, log 132). -/
def lastRxData (x : PortSt) : List Byte :=
  match x.lastRx with
  | some t => stampOctets t
  | none => []

/-- A port goes down: tally, fault on a port in use, eligibility of the time port (R219, R221, R313). -/
def linkLost (s : State) (p : Port) : State :=
  let s := portTally (portPut s p { portGet s p with up := false }) p 15
  let s := if portInUse s p then arise s (portKey 0x1900 p) 0 none16 (lastRxData (portGet s p)) else s
  if isProcess p then timeFaults (reselect s) else s

/-- What takes this kind of port down (R219). -/
def lossFits (p : Port) (why : LinkLoss) : Bool :=
  match why with
  | .blockLock | .highBer => isProcess p
  | .synchronisation | .autonegotiation => !isProcess p
  | .rxLos => true

/-- LINK_DOWN (R219). -/
def execLinkDown (loss : PortLoss) (s : State) : Host.Outcome State Fault Refusal :=
  run (fun s =>
    let p := loss.port
    if coreRuns s && (portGet s p).up && lossFits p loss.why then
      let s := portPut s p { portGet s p with rxLos := (portGet s p).rxLos || loss.why == .rxLos }
      judgeSummary (withTwin (fun s => linkLost s p) s)
    else s) s

/-- What a port advertises in autonegotiation: full duplex, half duplex, pause. -/
structure Ability where
  fullDuplex : Bool
  halfDuplex : Bool
  pause : Bool
deriving DecidableEq, Repr

/-- The clause 37 advertisement of S0 and S1 under 1000BASE-X (R213); P0 and P1 do not negotiate (Table 6.1). -/
def advertised (s : State) (p : Port) : Option Ability :=
  if isProcess p || (portGet s p).sgmii then none else some { fullDuplex := true, halfDuplex := false, pause := false }

/-- The partner lets the link come up: on S0 and S1 at 1000 Mb/s full duplex alone (R213). -/
def partnerOk (p : Port) (partner : Option LinkPartner) : Bool :=
  isProcess p || partner == some { mbps := 1000, fullDuplex := true }

/-- A port comes up: the fault loses its cause (R221); the first S-port link-up starts the summary (R611). -/
def linkGained (s : State) (p : Port) : State :=
  let s := causeGone (portPut s p { portGet s p with up := true, rxLos := false }) (portKey 0x1900 p)
  if isProcess p then timeFaults (reselect s) else s

/-- LINK_UP (R213, R220): after the ports step, with D2 on. The link is judged apart from the 300 ms of MODABS (R239). -/
def execLinkUp (gain : PortGain) (s : State) : Host.Outcome State Fault Refusal :=
  run (fun s =>
    let p := gain.port
    let x := portGet s p
    if coreRuns s && domainGood s 2 && !x.up && partnerOk p gain.partner then
      judgeSummary (withTwin (fun s => linkGained s p) s)
    else s) s

/-! Cages (R237 to R250) -/

/-- MODULE_REMOVED (R212, R219, R239): down at once; the transmitter is released; a port in use raises module absent. -/
def moduleRemoved (s : State) (p : Port) : State :=
  let s := if (portGet s p).up then linkLost s p else s
  let x := portGet s p
  let fitted := !x.modAbs
  let s := portPut s p { x with
    modAbs := true, txEnabled := false, a0hRead := false, extCal := false, sgmii := false, values := none, warn := [], alarm := [] }
  if portInUse s p && fitted then arise s (portKey 0x1980 p) 0 none16 [] else s

/-- MODULE_REMOVED (R239): also of a module whose 300 ms have not passed, when its link is up (R219). -/
def execModuleRemoved (p : Port) (s : State) : Host.Outcome State Fault Refusal :=
  run (fun s => if coreRuns s && (!(portGet s p).modAbs || (portGet s p).up) then judgeSummary (withTwin (fun s => moduleRemoved s p) s) else s) s

/-- The check before a transaction finds SDA high, or frees it within nine pulses (R244). -/
def recovered (t : I2c) : Bool := !t.sdaLow || (match t.freedAfter with
  | some n => decide (n ≤ 9)
  | none => false)

/-- The page a transaction brings (R243): none when SDA or SCL stays low at its start (log 133). -/
def busPage (t : I2c) : Option (List Byte) := if recovered t && !t.sclLow then t.page else none

/-- The recovery's pulses leave the block, and the STOP once SDA is high (R244). -/
def busRecovery (s : State) (p : Port) (t : I2c) : State :=
  if !t.sdaLow then s
  else
    match t.freedAfter with
    | some n => if n ≤ 9 then emit s (.i2cRecovery p n true) else emit s (.i2cRecovery p 9 false)
    | none => emit s (.i2cRecovery p 9 false)

/-- Counts of R245 after one transaction: failed recoveries, and transactions that end without a result (R243). DESIGN CHOICE (log 165): a
transaction that needs no recovery breaks a run of failed recoveries. -/
def countBus (x : PortSt) (t : I2c) : PortSt :=
  { x with
    recFails := if recovered t then 0 else x.recFails + 1
    txnFails := if (busPage t).isNone then x.txnFails + 1 else 0 }

/-- Three in succession raise the bus fault, and the diagnostic values become unknown (R245). -/
def judgeBus (s : State) (p : Port) : State :=
  let x := portGet s p
  if 3 ≤ x.recFails || 3 ≤ x.txnFails then
    let s := portPut s p { x with values := none }
    if faultStands s (sfpKey 0x5980 p) then s else arise s (sfpKey 0x5980 p) 0 none16 []
  else s

/-- An A0h read (R212, R240, R241): bit 3 of octet 6 sets SGMII on S0 and S1, bit 4 of octet 92 reports external calibration; without a
result 1000BASE-X is used. -/
def readA0h (s : State) (p : Port) (t : I2c) : State :=
  let x := countBus (portGet s p) t
  let x := match busPage t with
    | some a => { x with a0hRead := true, extCal := (a.getD 92 0).getLsbD 4, sgmii := !isProcess p && (a.getD 6 0).getLsbD 3 }
    | none => { x with a0hRead := false, sgmii := false }
  judgeBus (portPut (busRecovery s p t) p x) p

/-- MODULE_INSERTED: MODABS low for 300 ms; the transmitter of a port in use is enabled, A0h is read (R237, R239, R240). -/
def moduleInserted (s : State) (p : Port) (t : I2c) : State :=
  let use := portInUse s p
  let s := portPut s p { portGet s p with modAbs := false, txEnabled := use }
  let s := if use then causeGone s (portKey 0x1980 p) else s
  readA0h s p t

/-- The ports step of Table 3.3 has been taken (R105). -/
def portsDone (s : State) : Bool := coreRuns s && s.power.step == .pairing

/-- MODULE_INSERTED (R237). -/
def execModuleInserted (p : Port) (read : I2c) (s : State) : Host.Outcome State Fault Refusal :=
  runIf (WellFormed.a0h read) (fun s => if portsDone s && (portGet s p).modAbs then moduleInserted s p read else s) s

/-- TRANSMITTER_FAULT: TXFLT high for 1.0 ms on a port in use (R239); no row gives when its cause is gone. -/
def execTransmitterFault (p : Port) (s : State) : Host.Outcome State Fault Refusal :=
  run (fun s => if coreRuns s && portInUse s p then arise s (portKey 0x1940 p) 0 none16 [] else s) s

/-! The A2h page (R241), by the layout of SFF-8472 (log 133): of quantity q, 0 temperature to 4 received power -/

/-- Word k of a page, signed for the temperature. -/
def pageWord (a : List Byte) (q k : Nat) : Int :=
  let v := field a k 2
  if q = 0 && 2 ^ 15 ≤ v then (v : Int) - 2 ^ 16 else v

/-- The value of a quantity, and its thresholds: 0 high alarm, 1 low alarm, 2 high warning, 3 low warning. -/
def diagValue (a : List Byte) (q : Nat) : Int := pageWord a q (96 + 2 * q)
def diagLimit (a : List Byte) (q n : Nat) : Int := pageWord a q (8 * q + 2 * n)

/-- The flags and the threshold crossings of a level (0 alarm, 1 warning): by quantity, high and low flag, then high and low crossing; a
module with external calibration shows no crossing (R241). -/
def diagShown (a : List Byte) (extCal : Bool) (level : Nat) : List Bool :=
  ((List.range 5).map (fun q =>
    let flag := fun (n : Nat) => (a.getD (112 + 4 * level + (2 * q + n) / 8) 0).getLsbD (7 - (2 * q + n) % 8)
    [flag 0, flag 1, !extCal && decide (diagLimit a q (2 * level) < diagValue a q),
     !extCal && decide (diagValue a q < diagLimit a q (2 * level + 1))])).flatten

/-- A diagnostic fault of a cage (R242): a flag or crossing is present when two consecutive reads show it. DESIGN CHOICE (log 134): a poll
without a result between two complete reads leaves them consecutive. -/
def judgeDiag (s : State) (code : Nat) (p : Port) (before after : List Bool) : State :=
  match (List.range 20).find? (fun d => before.getD d false && after.getD d false) with
  | some d => if faultStands s (sfpKey code p) then s else arise s (sfpKey code p) (d / 4) none16 []
  | none => causeGone s (sfpKey code p)

/-- The A2h read of a poll (R240 to R242, R245). -/
def readA2h (s : State) (p : Port) (t : I2c) : State :=
  let x := countBus (portGet s p) t
  let s := busRecovery s p t
  match busPage t with
  | none => judgeBus (portPut s p x) p
  | some a =>
    let y := { x with
      values := if x.extCal then none else some ((List.range 5).map (fun q => field a (96 + 2 * q) 2))
      alarm := diagShown a x.extCal 0, warn := diagShown a x.extCal 1 }
    let s := causeGone (portPut s p y) (sfpKey 0x5980 p)
    judgeDiag (judgeDiag s 0x5900 p x.warn y.warn) 0x5940 p x.alarm y.alarm

/-- A poll (R240, R257): a failed A0h read is made again first; after a failed recovery the next attempt is the next poll's (R244). -/
def pollCage (s : State) (p : Port) (retry read : I2c) : State :=
  if (portGet s p).a0hRead then readA2h s p read
  else
    let s := readA0h s p retry
    if recovered retry then readA2h s p read else s

/-- A2H_POLL (R240): with MODABS high nothing is done (R248). -/
def execA2hPoll (p : Port) (retry read : I2c) (s : State) : Host.Outcome State Fault Refusal :=
  runIf (WellFormed.a0h retry && WellFormed.a2h read) (fun s =>
    if portsDone s && !(portGet s p).modAbs then pollCage s p retry read else s) s

/-! Supervision frames (R225, Table 6.5) -/

/-- PRP_SUPERVISION_SEND: of the station MAC on S0 and S1; on the process bus of the process MAC in Solo, of the pair node
in a twin, at index (s, 0) of its even second (R77, R636). DESIGN CHOICE (log 166): every copy carries the trailer or tag that Table 6.5
states for the other frames of the same bus and mode; it states none for supervision frames. -/
def supervisionSend (s : State) : State :=
  let s := sendStation s (supervisionFrame (stationMac s) s.ports.seqStation.toNat)
  if isTwin s then placeDue s ⟨s.time.sec / 2 * 2, 0⟩ 256
  else if isSingleLan s then s
  else enqueue s (.supervision false 0)

/-- PRP_SUPERVISION_SEND (R225). -/
def execPrpSupervisionSend (s : State) : Host.Outcome State Fault Refusal :=
  run (fun s => if portsDone s then supervisionSend s else s) s

/-- RING_OPEN: the engine's own supervision frames have not returned for 6.0 s (R256). -/
def execRingOpen (p : Port) (s : State) : Host.Outcome State Fault Refusal :=
  run (fun s => if portsDone s && isHsr s && isProcess p then arise s (portKey 0x1A00 p) 0 none16 [] else s) s

end Sys2Proof.Machine
end

