-- ==== Sys2Proof/Machine/Field.lean ====
section
/-! DEFINITION. The field section: couplers, input stages, output stages, supervision and the core side's judgement
(chapter 14). -/
namespace Sys2Proof.Machine

/-! Channels, groups and couples -/

/-- A channel. -/
def chGet (s : State) (cc : Nat) : Channel := Tab.get {} s.field.ch cc
def chPut (s : State) (cc : Nat) (c : Channel) : State := { s with field := { s.field with ch := Tab.put {} s.field.ch cc c } }

/-- A group, and the group of a channel. -/
def groupGet (s : State) (g : Group) : GroupSt :=
  match g with
  | .a => s.field.a
  | .b => s.field.b
def groupPut (s : State) (g : Group) (x : GroupSt) : State :=
  match g with
  | .a => { s with field := { s.field with a := x } }
  | .b => { s with field := { s.field with b := x } }
def groupOf (cc : Nat) : Group := if cc < 16 then .a else .b
def groupNum (g : Group) : Nat :=
  match g with
  | .a => 0
  | .b => 1
/-- The 16 channels of a group. -/
def groupChannels (g : Group) : List Nat := (List.range 16).map (16 * groupNum g + ·)

/-- Key of a channel's fault, of a group's fault (FIELD-B codes lie 0x400 above). -/
def keyF (code cc : Nat) : FaultKey := { code := code + 0x400 * (cc / 16), scope := 4, inst := cc }
def keyG (code : Nat) (g : Group) : FaultKey := { code := code + 0x400 * groupNum g, scope := 5, inst := groupNum g }

/-! Frames (Tables 14.2, 14.3) -/

/-- The field of n bits of a frame from bit b. -/
def frameField (w : CouplerWord) (b n : Nat) : Nat := w.toNat / 2 ^ b % 2 ^ n

/-- A frame of bits [63:16] completed by its CRC (R539). -/
def withCrc (hi : Nat) : CouplerWord := BitVec.ofNat 64 (hi % 2 ^ 48 * 65536 + crc16 (octets 6 hi))

/-- A downstream frame is valid (R539): SYNC, CRC, no reserved value. -/
def downValid (w : CouplerWord) : Bool :=
  frameField w 60 4 == 10 && frameField w 54 2 != 3 && frameField w 52 2 != 3 && !w.getLsbD 37
    && frameField w 0 16 == crc16 (octets 6 (frameField w 16 48))

/-- An upstream frame is valid. -/
def upValid (w : CouplerWord) : Bool :=
  frameField w 60 4 == 5 && frameField w 22 2 == 0 && !w.getLsbD 47
    && frameField w 0 16 == crc16 (octets 6 (frameField w 16 48))

/-- DIR and PAIR of a channel of the image in force (Table 14.2, R578). -/
def dirCode (s : State) (cc : Nat) : Nat :=
  if s.plug.image.isNone then 0 else if chIsInput (rods s) cc then 1 else if chIsOutput (rods s) cc then 2 else 0
def pairBits (s : State) (cc : Nat) : Nat :=
  match pairMode (rods s) cc with
  | .single => 0
  | .parallel => 1
  | .twoPole => 2

/-- REG and DUTY: REG 1 in Approach and Hold (R552). -/
def regDuty (s : State) (cc : Nat) : Nat × Nat :=
  let c := coilGet s cc
  match c.phase with
  | .approach | .hold => (1, (clampInt 0 32767 c.loop.u).toNat)
  | _ => (0, (clampInt 0 32767 c.loop.u).toNat)

/-- TCSP: the unit serves in Solo or Active (R558), for a supervised output. -/
def tcsPermitted (s : State) (cc : Nat) : Bool :=
  serving s && (s.pair.state == .solo || s.pair.state == .active) && chIsOutput (rods s) cc && chTcs (rods s) cc

/-- A channel is commanded: an output that a zone's command or regulation drives (R495). -/
def commandBit (s : State) (cc : Nat) : Bool := chIsOutput (rods s) cc && (commanded s).contains cc

/-- The downstream frame of a channel with a CMD bit (Table 14.2). -/
def downWord (s : State) (cc fseq : Nat) (cmd : Bool) : CouplerWord :=
  let r := rods s
  let bit := fun (b : Bool) (n : Nat) => if b then 2 ^ (n - 16) else 0
  let reg := regDuty s cc
  withCrc (10 * 2 ^ 44 + bit (serving s) 59 + bit cmd 58 + bit (decide (s.now < s.field.ackTo)) 57
    + bit (tcsPermitted s cc) 56 + dirCode s cc * 2 ^ 38 + pairBits s cc * 2 ^ 36 + bit (chSlow r cc) 51 + chFilter r cc * 2 ^ 30
    + chRod r cc 2 % 8 * 2 ^ 27 + (chBlank r cc - 1) * 2 ^ 23 + reg.1 * 2 ^ 22 + reg.2 * 2 ^ 6 + fseq)

/-! The field side (R541 to R573) -/

/-- SERVE, CMD, ACK, TCSP, DIR, PAIR, DEMAG, TIME, TYPE, BLANK, REG and DUTY of the last valid downstream frame; without one no
field is set. -/
def downBit (c : Channel) (b : Nat) : Bool :=
  match c.down with
  | some w => w.getLsbD b
  | none => false
def downField (c : Channel) (b n : Nat) : Nat :=
  match c.down with
  | some w => frameField w b n
  | none => 0
def isIn (c : Channel) : Bool := downField c 54 2 == 1
def isOut (c : Channel) : Bool := downField c 54 2 == 2

/-- PAIR in force at the field side, that of the couple's even channel, and the channel whose frame commands a channel (R550). -/
def sidePair (s : State) (cc : Nat) : Nat :=
  let e := chGet s (2 * (cc / 2))
  if isOut e then downField e 52 2 else 0
def sideOwner (s : State) (cc : Nat) : Nat := if sidePair s cc = 0 then cc else 2 * (cc / 2)

/-- The supply of the group carries its outputs (R567): 16 V at least, and the field side runs. -/
def groupLive (s : State) (cc : Nat) : Bool :=
  let g := groupGet s (groupOf cc)
  g.running && !g.stopped && decide (16000 ≤ g.vf)

/-- The frame commands the output (R550). -/
def commandStands (c : Channel) : Bool := downBit c 59 && downBit c 58 && isOut c && !c.downLost

/-- Every high-side switch that the output uses is shut down by temperature (Table 14.4, R571). -/
def allHot (s : State) (o : Nat) : Bool := (chGet s o).hot && (sidePair s o != 1 || (chGet s (o + 1)).hot)

/-- The high-side and the low-side switch of a channel conduct within a PWM period (Table 14.4, R551, R554): of a two-pole couple the even
channel's high-side switch and, throughout, the odd channel's low-side switch drive; off-time current and slow demagnetisation take the
low-side switches. -/
def highSide (s : State) (cc : Nat) : Bool :=
  let c := chGet s cc
  let o := chGet s (sideOwner s cc)
  o.on && !c.downLost && !c.hot && 0 < o.pwm && (sidePair s cc != 2 || cc % 2 == 0)
def lowSide (s : State) (cc : Nat) : Bool :=
  let c := chGet s cc
  let o := chGet s (sideOwner s cc)
  (o.on && !c.downLost && (o.pwm < 3200 || (sidePair s cc == 2 && cc % 2 == 1))) || o.demag == some true

/-- The current that a channel's stage draws from its terminal, in µA, at a voltage in mV (R541, R549): an input's folds back above 40 V, as
its last sample has decided, and not for the 10 µs before a sample; an output's is a sense of 200 kΩ. -/
def stageCurrent (c : Channel) (sampling : Bool) (mv : Nat) : Nat :=
  if isOut c then mv / 200
  else if mv < 5000 then mv * 2 / 5
  else if sampling || mv ≤ 40000 || !c.folded then 2000
  else 800

/-- The other channel of a couple does not hold it back: it receives frames (R573), and does not demagnetise any more (R562). -/
def coupleFree (s : State) (o : Nat) : Bool := sidePair s o == 0 || (!(chGet s (o + 1)).downLost && (chGet s (o + 1)).demag.isNone)

/-- The switches of an output conduct throughout from now on (R549). -/
def conductNow (s : State) (o : Nat) : State :=
  let s := chPut s o { chGet s o with condAt := s.now }
  if sidePair s o = 0 then s else chPut s (o + 1) { chGet s (o + 1) with condAt := s.now }

/-- The output opens, and demagnetises: slowly with DEMAG 1 on a two-pole couple, else under the clamp (R553, R554). -/
def openOutput (s : State) (o : Nat) (slow : Bool) : State :=
  let c := chGet s o
  if c.on then chPut s o { c with on := false, demag := some slow, pwm := 0 } else s
def slowNow (s : State) (o : Nat) : Bool := downBit (chGet s o) 51 && sidePair s o == 2

/-- The output turns on: blanking starts, a supervision pulse ends unjudged (R561, R568). -/
def turnOn (s : State) (o : Nat) : State :=
  let c := chGet s o
  conductNow (chPut s o { c with
    on := true, demag := none, blank := downField c 39 4, pulse := false, pwm := (if downBit c 38 then c.pwm else 3200) }) o

/-- The output follows its frame and its protection (R550, R562, R571, R122). -/
def followCommand (s : State) (o : Nat) : State :=
  let c := chGet s o
  let may := commandStands c && groupLive s o && c.latch == 0 && !allHot s o && c.demag.isNone && coupleFree s o && c.cmdRun == 2
  if may && !c.on then turnOn s o
  else if c.on && !(commandStands c && groupLive s o && c.latch == 0 && !allHot s o) then openOutput s o (slowNow s o)
  else s

/-- A couple is split or joined by the even channel's frame (R562): the output of the odd channel, or the couple's, opens on that side too. -/
def openOther (s : State) (cc : Nat) (was : Nat) (wasOn slow : Bool) : State :=
  if cc % 2 = 1 || was = sidePair s cc then s
  else if was = 0 then openOutput s (cc + 1) false
  else if wasOn then chPut s (cc + 1) { chGet s (cc + 1) with demag := some slow }
  else s

/-- A valid downstream frame is applied (R540): the release of a latch (R569), the end of a retry wait (R563), a change of
DIR, PAIR or DEMAG under command (R562); a supply below 16 V starts the two frames of R122 again (R567); a command, or TCSP 0, ends a
supervision pulse unjudged (R561, Table 16.10). -/
def applyDown (s : State) (cc : Nat) (w : CouplerWord) : State :=
  let c := chGet s cc
  let was := sidePair s cc
  let slow := downBit c 51 && downField c 52 2 == 2
  let changed := match c.down with
    | some v => frameField v 51 5 != frameField w 51 5
    | none => false
  let s := if changed && c.on then openOutput s cc slow else s
  let d := chGet s cc
  let cmd := w.getLsbD 59 && w.getLsbD 58 && frameField w 54 2 == 2
  let d := { d with down := some w, downLost := false, chatter := d.chatter && w.getLsbD 43, openWire := d.openWire && (frameField w 54 2 == 2 || w.getLsbD 44)
                    pulse := d.pulse && !w.getLsbD 58 && w.getLsbD 56
                    cmdRun := if !cmd then 2 else if groupLive s cc then min (d.cmdRun + 1) 2 else 0 }
  let release := 2 ≤ d.latch && !w.getLsbD 58 && w.getLsbD 57
  let endWait := d.latch == 1 && !w.getLsbD 58
  let d := if release || endWait || (d.latch = 0 && !w.getLsbD 58) then { d with latch := 0, retry := 0, twoLeg := false } else d
  let s := openOther (chPut s cc d) cc was c.on slow
  if sideOwner s cc = cc then followCommand s cc else s

/-- A frame period passes without a valid frame: frames that command are no longer consecutive (R122). -/
def missDown (s : State) (cc : Nat) : State :=
  let c := chGet s cc
  if c.cmdRun < 2 then chPut s cc { c with cmdRun := 0 } else s

/-- The core side sends a channel's next frame, with a CMD bit; a corrupted one does not arrive. -/
def sendDown (s : State) (corrupted : List (Fin 32)) (cc : Nat) (cmd : Bool) : State :=
  let c := chGet s cc
  let fseq := (c.fseq + 1) % 64
  let s := chPut s cc { c with fseq := fseq }
  if corrupted.any (fun x => x.val == cc) then missDown s cc else applyDown s cc (downWord s cc fseq cmd)

/-- One frame start of a group for a channel: the core side's frame, unless withheld (R43), reaches the field side. Without its clock the
core sends none (R40). -/
def frameStart (s : State) (corrupted : List (Fin 32)) (cc : Nat) : State :=
  let c := chGet s cc
  if !coreRuns s || !s.power.pllLocked then missDown s cc
  else if c.holdDown then missDown (chPut s cc { c with holdDown := false }) cc
  else sendDown s corrupted cc (commandBit s cc)

/-- A channel is commanded off by a frame of its own, and its output is open (R125, Table 3.5 step 8). -/
def commandOff (s : State) (cc : Nat) : State :=
  let x := groupGet s (groupOf cc)
  let s := if x.running && !x.stopped && s.power.pllLocked then sendDown s [] cc false else s
  openOutput s cc (slowNow s cc)

/-- DOWNSTREAM_FRAME_LOSS (R573): of either channel of a couple, the couple opens. -/
def execDownstreamFrameLoss (ch : Fin 32) (s : State) : Host.Outcome State Fault Refusal :=
  run (fun s =>
    let o := sideOwner s ch.val
    let s := openOutput s o (slowNow s o)
    chPut s ch.val { chGet s ch.val with downLost := true }) s

/-! Input stages (R542 to R545) -/

/-- A voltage in whole volts, at most 255; the rounding is not stated (log 4). -/
def volts (mv : Nat) : Nat := min 255 (if mv % 1000 = 0 then mv / 1000 else if Config.roundUp mv 1000 then mv / 1000 + 1 else mv / 1000)

/-- The filtered state changes: the chatter count of R544. -/
def filteredChange (c : Channel) (st : Bool) : Channel :=
  let recent := c.changes.filter (fun n => c.samples - n ≤ 8000)
  let chat := downBit c 43 && !c.chatter && 10 ≤ recent.length
  { c with filtered := st, changes := (c.samples :: recent).take 11, chatter := c.chatter || chat, held := if chat then c.filtered else c.held }

/-- The counter filter of an input (R543). -/
def filterStep (c : Channel) : Channel :=
  let l := 8 * downField c 46 5
  let n := if c.raw then min (c.count + 1) l else c.count - 1
  let c := { c with count := n }
  if c.raw && n == l && !c.filtered then filteredChange c true
  else if n == 0 && c.filtered && !c.raw then filteredChange c false
  else c

/-- The raw state of a sample (R542). -/
def rawState (old : Bool) (mv vf : Nat) : Bool := if 6 * vf ≤ 10 * mv then true else if 10 * mv ≤ 4 * vf then false else old

/-- The readback of an output is judged from this sample (R549): the switch has conducted for 50 µs. -/
def readbackSample (s : State) (cc : Nat) : Bool :=
  let o := chGet s (sideOwner s cc)
  (highSide s cc && o.pwm == 3200 && max (chGet s cc).condAt o.condAt + 20000 ≤ s.now) || (!o.on && !downBit o 58 && o.demag.isNone && !o.pulse)

/-- The supply of a group measured with a sample (R533, Table 14.3, Table 14.8). -/
def measureSupply (s : State) (g : Group) (vf : Nat) : State :=
  let x := groupGet s g
  let x := { x with
    vf := vf, vfOk := decide (16000 ≤ vf ∧ vf ≤ 155000)
    overAt := if 155000 < vf then some (x.overAt.getD s.now) else none
    underAt := if vf ≤ 150000 then some (x.underAt.getD s.now) else none }
  let s := groupPut s g x
  -- outputs lose drive below 16 V (R567)
  let s := if vf < 16000 then (groupChannels g).foldl (fun s cc => openOutput s cc (slowNow s cc)) s else s
  let k := keyG 0x3B40 g
  if !coreRuns s then s
  else if faultStands s k then
    (match x.underAt with
      | some t => if t + ticksPerSec ≤ s.now then causeGone s k else s
      | none => s)
  else match x.overAt with
    | some t => if t + 4000000 ≤ s.now then arise s k 0 none16 [] else s
    | none => s

/-- One sample of a terminal. -/
def inputSample (s : State) (cc mv vf : Nat) : State :=
  let s := measureSupply s (groupOf cc) vf
  let c := { chGet s cc with vterm := volts mv, samples := (chGet s cc).samples + 1 }
  if isIn c then
    let up := vf ≤ 20 * mv
    let above := if up then min (c.above + 1) 800 else 0
    chPut s cc (filterStep { c with raw := up && rawState c.raw mv vf, above := above, openWire := c.openWire && above < 800, folded := decide (40000 < mv) })
  else if isOut c && readbackSample s cc then chPut s cc { c with raw := rawState c.raw mv vf }
  else chPut s cc c

/-- INPUT_SAMPLE (R542, R543). -/
def execInputSample (ch : Fin 32) (mv vf : Nat) (s : State) : Host.Outcome State Fault Refusal :=
  run (fun s => if (groupGet s (groupOf ch.val)).running then judgeSummary (inputSample s ch.val mv vf) else s) s

/-- CHATTER_END (R544). -/
def execChatterEnd (ch : Fin 32) (s : State) : Host.Outcome State Fault Refusal :=
  run (fun s => chPut s ch.val { chGet s ch.val with chatter := false }) s

/-- OPEN_WIRE_INPUT (R545): the terminal has been below, or not below, 0.05 × V_F for 100 ms. -/
def execOpenWireInput (ch : Fin 32) (below : Bool) (s : State) : Host.Outcome State Fault Refusal :=
  run (fun s =>
    let c := chGet s ch.val
    if isIn c && (groupGet s (groupOf ch.val)).running then chPut s ch.val { c with openWire := below && downBit c 44 } else s) s

/-! Output stages (R551 to R557, R568 to R572) -/

/-- A short decision (R569, R570): the output opens; a retry waits, or the third has failed. -/
def shortDecision (s : State) (cc : Nat) (bothLegs : Bool) : State :=
  let o := sideOwner s cc
  let c := chGet s o
  -- a short decision goes before an over-temperature shut-down of the same cycle (R565)
  if !c.on && c.hotAt != some s.now then s
  else
    let two := c.twoLeg || (bothLegs && sidePair s o == 2)
    let s := openOutput s o (slowNow s o)
    chPut s o { chGet s o with twoLeg := two, latch := if c.retry < 3 then 1 else if two then 3 else 2 }

/-- SHORT_DECISION (R568). -/
def execShortDecision (ch : Fin 32) (bothLegs : Bool) (s : State) : Host.Outcome State Fault Refusal :=
  run (fun s => shortDecision s ch.val bothLegs) s
/-- HARD_SHORT (R568). -/
def execHardShort (ch : Fin 32) (bothLegs : Bool) (s : State) : Host.Outcome State Fault Refusal :=
  run (fun s => shortDecision s ch.val bothLegs) s

/-- RETRY (R569): the switch turns on again, with a new blanking. -/
def execRetry (ch : Fin 32) (s : State) : Host.Outcome State Fault Refusal :=
  run (fun s =>
    let o := sideOwner s ch.val
    let c := chGet s o
    if c.latch == 1 && commandStands c && groupLive s o then
      followCommand (chPut s o { c with latch := 0, retry := c.retry + 1, demag := none }) o
    else s) s

/-- OVER_TEMPERATURE (R571). -/
def execOverTemperature (ch : Fin 32) (s : State) : Host.Outcome State Fault Refusal :=
  run (fun s =>
    let o := sideOwner s ch.val
    let was := (chGet s o).on
    let s := followCommand (chPut s ch.val { chGet s ch.val with hot := true }) o
    if was && !(chGet s o).on then chPut s o { chGet s o with hotAt := some s.now } else s) s

/-- OVER_TEMPERATURE_RESTART (R571): on again with blanking while the command stands. -/
def execOverTemperatureRestart (ch : Fin 32) (s : State) : Host.Outcome State Fault Refusal :=
  run (fun s =>
    let o := sideOwner s ch.val
    let c := chGet s ch.val
    if !c.hot then s
    else
      let s := chPut s ch.val { c with hot := false, condAt := s.now }
      let c := chGet s o
      if c.on then chPut s o { c with blank := downField c 39 4 }
      else if c.latch == 0 then followCommand (chPut s o { c with demag := if commandStands c then none else c.demag }) o
      else s) s

/-- DEMAG_END (R553): the output follows its fields again (R562); of a couple just joined, the odd channel's own demagnetisation ends first. -/
def execDemagEnd (ch : Fin 32) (s : State) : Host.Outcome State Fault Refusal :=
  run (fun s =>
    let o := sideOwner s ch.val
    let d := if (chGet s ch.val).demag.isSome then ch.val else o
    followCommand (chPut s d { chGet s d with demag := none }) o) s

/-- An output is supervised (R556). -/
def supervised (s : State) (o : Nat) : Bool :=
  let c := chGet s o
  isOut c && !c.downLost && downBit c 56 && !downBit c 58 && c.demag.isNone && !c.on && (groupGet s (groupOf o)).vfOk
    && (groupGet s (groupOf o)).running

/-- TCS_PULSE (R556): a pulse starts. -/
def execTcsPulse (ch : Fin 32) (s : State) : Host.Outcome State Fault Refusal :=
  run (fun s => if sideOwner s ch.val = ch.val && supervised s ch.val then chPut s ch.val { chGet s ch.val with pulse := true } else s) s

/-- The circuit is judged at the end of a pulse (R557), and its failure reaches the core's fault (Table 14.8). -/
def tcsJudge (s : State) (cc mv vf : Nat) : State :=
  let c := { chGet s cc with pulse := false }
  let k := keyF 0x3A80 cc
  if 10 * mv ≤ vf then
    let n := min (c.intacts + 1) 3
    let s := chPut s cc { c with opens := 0, intacts := n, tcsFailed := c.tcsFailed && n != 3 }
    if n == 3 && coreRuns s then causeGone s k else s
  else if 3 * vf ≤ 10 * mv then
    let n := min (c.opens + 1) 3
    let failed := c.tcsFailed || n == 3
    let s := chPut s cc { c with opens := n, intacts := 0, tcsFailed := failed }
    if failed && coreRuns s then judgeFault s k 0 none16 true else s
  else chPut s cc c

/-- TCS_PULSE_END (R557). -/
def execTcsPulseEnd (ch : Fin 32) (mv vf : Nat) (s : State) : Host.Outcome State Fault Refusal :=
  run (fun s => if (chGet s ch.val).pulse then judgeSummary (tcsJudge s ch.val mv vf) else s) s

/-- OUTPUT_DIAGNOSTIC (R572): a timer of R572 expires, or its condition has ended. -/
def execOutputDiagnostic (ch : Fin 32) (d : OutDiag) (present : Bool) (s : State) : Host.Outcome State Fault Refusal :=
  run (fun s =>
    let c := chGet s ch.val
    let on := (chGet s (sideOwner s ch.val)).on
    if !isOut c then s
    else match d with
      | .overLoad => chPut s ch.val { c with overLoad := present && on }
      | .openWire => chPut s ch.val { c with openWire := present && on }
      | .readback => chPut s ch.val { c with readback := present }) s

/-- PWM_PERIOD_START (R551, R552): the mean of the period that ends, in 0.5 mA, and the on-time of the next. -/
def execPwmPeriodStart (ch : Fin 32) (mean : Nat) (s : State) : Host.Outcome State Fault Refusal :=
  run (fun s =>
    let o := chGet s (sideOwner s ch.val)
    let c := { chGet s ch.val with curr := min mean 32767 }
    let t := if !o.on then 0 else if downBit o 38 then (roundDiv (3200 * downField o 22 16) 32768).toNat else 3200
    if isOut c && (groupGet s (groupOf ch.val)).running then
      chPut s ch.val { c with pwm := t, condAt := if t = 3200 && c.pwm != 3200 then s.now else c.condAt }
    else s) s

/-- Contents of a channel's upstream frame (Table 14.3). -/
def upstreamWord (s : State) (cc : Nat) : CouplerWord :=
  let c := chGet s cc
  let o := chGet s (sideOwner s cc)
  let bit := fun (b : Bool) (n : Nat) => if b then 2 ^ (n - 16) else 0
  let inp := if isOut c then c.raw else (if c.chatter then c.held else c.filtered) != downBit c 45
  withCrc (5 * 2 ^ 44 + bit inp 59 + bit (highSide s cc || lowSide s cc) 58 + bit c.overLoad 57 + bit c.openWire 56 + bit c.hot 55 + bit c.readback 54
    + bit c.chatter 53 + o.latch * 2 ^ 35 + o.retry * 2 ^ 33 + bit (groupGet s (groupOf cc)).vfOk 48 + c.curr * 2 ^ 16
    + c.vterm * 2 ^ 8 + downField c 16 6)

/-- The field side latches its upstream contents (Table 14.1, step 1). -/
def latchUp (s : State) (cc : Nat) : State := chPut s cc { chGet s cc with sent := upstreamWord s cc }

/-- COUPLER_FRAME_START (R536): every channel's upstream contents are latched, and the downstream frames sent, those of the even channels
first, since they command their couples. -/
def execCouplerFrameStart (g : Group) (corrupted : List (Fin 32)) (s : State) : Host.Outcome State Fault Refusal :=
  run (fun s =>
    let x := groupGet s g
    if x.running && !x.stopped then
      (groupChannels g).foldl (fun s cc => frameStart s corrupted cc) ((groupChannels g).foldl latchUp s)
    else s) s

/-! The core side (R538, R574, R576, Table 14.8) -/

/-- A state of a fault that must last for 1.0 s before it ends: its cause goes once the bit has been clear that long. -/
def clearAfter (s : State) (k : FaultKey) (bit : Bool) (since : Nat) : State :=
  if bit then (if faultStands s k then s else arise s k 0 none16 [])
  else if faultStands s k && since + ticksPerSec ≤ s.now then causeGone s k
  else s

/-- The faults that an upstream frame shows (Table 14.8). -/
def channelFaults (s : State) (cc : Nat) (w : CouplerWord) : State :=
  let c := chGet s cc
  let latch := frameField w 51 2
  let s := judgeFault s (keyF 0x3900 cc) (if latch = 3 then 1 else 0) none16 (decide (2 ≤ latch))
  let hot := keyF 0x3940 cc
  let s := if w.getLsbD 55 then (if !faultStands s hot && c.overTempAt + ticksPerSec ≤ s.now then arise s hot 0 none16 [] else s)
    else causeGone s hot
  let s := clearAfter s (keyF 0x3980 cc) (w.getLsbD 57) c.overLoadAt
  let s := judgeFault s (keyF 0x39C0 cc) 0 none16 (w.getLsbD 56)
  let s := clearAfter s (keyF 0x3A00 cc) (w.getLsbD 54) c.readbackAt
  judgeFault s (keyF 0x3A40 cc) 0 none16 (w.getLsbD 53)

/-- The entry of an input's change as this unit reads it; the spec gives it no code, severity or payload (log 13). -/
def inputEntry (s : State) (cc : Nat) (st : Bool) : Entry :=
  unitEntry s (ownCode (14 + cc / 16) 50) 1 0 none16 none16 (ownPayload 50 [cc, if st then 1 else 0])

/-- A valid upstream frame is taken (R538, R552, R574). -/
def takeUpstream (s : State) (ch : Fin 32) (w : CouplerWord) : State :=
  let cc := ch.val
  let c := chGet s cc
  let old := c.up
  let bitWas := fun (b : Nat) => (match old with
    | some v => v.getLsbD b
    | none => false)
  let at_ := fun (b was : Nat) => if bitWas b == w.getLsbD b && old.isSome then was else s.now
  let run := min (c.upRun + 1) 16
  let back := c.coupler && run == 16
  let s := chPut s cc { c with
    up := some w, upRun := run, coupler := c.coupler && !back
    overLoadAt := at_ 57 c.overLoadAt, overTempAt := at_ 55 c.overTempAt, readbackAt := at_ 54 c.readbackAt }
  let s := if back then causeGone s (keyF 0x3AC0 cc) else s
  let s := channelFaults s cc w
  let o := if coupled (rods s) cc then 2 * (cc / 2) else cc
  let s := if cc = o && chIsOutput (rods s) cc && coilEnabled (coilRods s o) o then
      coilLatched (coilPut s o { coilGet s o with fresh := (coilGet s o).fresh || !(chGet s cc).coupler }) o (frameField w 51 2 != 0 || w.getLsbD 55)
    else s
  if chIsInput (rods s) cc then
    let st := w.getLsbD 59
    let s := if bitWas 59 != st then journalEntry s (inputEntry s cc st) else s
    readInput s ch st
  else s

/-- This unit's own reading of an input. -/
def ownReading (s : State) (cc : Nat) : Bool :=
  match (chGet s cc).up with
  | some w => w.getLsbD 59
  | none => false

/-- The digest and input faults of Table 16.13, which share a key: an input read differently for 1.0 s raises it; it goes once the
inputs have been equal for 1.0 s and no digest has differed for 10 s. -/
def judgeAgreement (s : State) : State :=
  let differ := s.pair.inputDiffer.any (fun p => 400000000 ≤ s.now + 1 - p.2)
  let quiet := s.pair.inputDiffer = [] && 400000000 ≤ s.now - s.pair.inputEqualAt && (match s.pair.digestAt with
    | none => true
    | some t => 4000000000 ≤ s.now - t)
  if differ then (if faultStands s (keyU 0x5700) then s else ariseU s 0x5700 1)
  else if quiet then causeGoneU { s with pair := { s.pair with digestAt := none } } 0x5700
  else s

/-- A Standby compares its own readings of the zones' inputs with the Active's (R633, Table 16.13); `inputDiffer` keeps the tick after
that of the first difference. -/
def noteInputs (s : State) : State :=
  if s.pair.state != .standby then { s with pair := { s.pair with inputDiffer := [] } }
  else
    let l := (zoneInputs (adcInputs s) (rods s)).filter (fun cc => ownReading s cc != (chGet s cc).state)
    let d := l.foldl (fun t cc => Tab.put 0 t cc (if Tab.get 0 s.pair.inputDiffer cc = 0 then s.now + 1 else Tab.get 0 s.pair.inputDiffer cc)) []
    judgeAgreement { s with pair := { s.pair with
      inputDiffer := d, inputEqualAt := if d = [] && s.pair.inputDiffer ≠ [] then s.now else s.pair.inputEqualAt } }

/-- UPSTREAM_FRAME_RECEIVED (R538): the frame latched at the last frame start, with the bits that arrive inverted; an invalid frame breaks
the run of R574. -/
def execUpstreamFrameReceived (ch : Fin 32) (errors : CouplerWord) (s : State) : Host.Outcome State Fault Refusal :=
  run (fun s =>
    let w := (chGet s ch.val).sent ^^^ errors
    if !coreRuns s then s
    else if upValid w then
      let s := takeUpstream s ch w
      judgeSummary (if s.pair.state == .standby then noteInputs s else s)
    else chPut s ch.val { chGet s ch.val with upRun := 0 }) s

/-- COUPLER_FAULT (R574). -/
def execCouplerFault (ch : Fin 32) (s : State) : Host.Outcome State Fault Refusal :=
  run (fun s =>
    if !coreRuns s then s
    else
      let s := chPut s ch.val { chGet s ch.val with coupler := true, upRun := 0 }
      judgeSummary (if faultStands s (keyF 0x3AC0 ch.val) then s else arise s (keyF 0x3AC0 ch.val) 0 none16 [])) s

/-! Groups: start, stop, supply (R575, R577, R97, R100, R122) -/

/-- The field side of a channel as it starts; commanded outputs need two frames (R122). -/
def freshSide (commandedNow : Bool) (c : Channel) : Channel :=
  { fseq := c.fseq, holdDown := c.holdDown, up := c.up, upRun := c.upRun, coupler := c.coupler, state := c.state, invalid := c.invalid,
    tcsFailed := c.tcsFailed, overLoadAt := c.overLoadAt, overTempAt := c.overTempAt, readbackAt := c.readbackAt, cmdRun := if commandedNow then 0 else 2 }

/-- Every channel of a group through a function. -/
def mapGroup (s : State) (g : Group) (f : Nat → Channel → Channel) : State :=
  (groupChannels g).foldl (fun s cc => chPut s cc (f cc (chGet s cc))) s

/-- Insert into an ascending list of domains. -/
def addDomain (l : List Nat) (d : Nat) : List Nat := l.filter (· < d) ++ d :: l.filter (d < ·)

/-- FIELD_SIDE_START (R577): at 16 V the domain is good (Table 3.2). -/
def execFieldSideStart (g : Group) (s : State) : Host.Outcome State Fault Refusal :=
  run (fun s =>
    let cmd := commanded s
    let s := { s with power := { s.power with domOn := addDomain s.power.domOn (9 + groupNum g) } }
    let s := mapGroup s g (fun cc c => freshSide (cmd.contains cc) c)
    groupPut s g { groupGet s g with running := true, stopped := false, vf := max 16000 (groupGet s g).vf, vfOk := true }) s

/-- CLOCK_COUPLER_STOP (R575): every output opens; the engine reacts as to the loss of the domain. -/
def execClockCouplerStop (g : Group) (s : State) : Host.Outcome State Fault Refusal :=
  run (fun s =>
    let s := (groupChannels g).foldl (fun s cc => openOutput s cc (slowNow s cc)) s
    let s := groupPut s g { groupGet s g with stopped := true, halted := coreRuns s }
    if !coreRuns s then s
    else judgeSummary (if faultStands s (keyG 0x3B00 g) then s else arise s (keyG 0x3B00 g) 1 none16 [])) s

/-- A group loses its supply (R97, R567): its outputs lose drive. -/
def fieldLost (s : State) (g : Group) : State :=
  let s := mapGroup s g (fun _ c => freshSide false c)
  let s := groupPut s g { groupGet s g with running := false, vfOk := false, vf := 0, overAt := none, underAt := none }
  let s := { s with power := { s.power with domOn := s.power.domOn.filter (· != 9 + groupNum g) } }
  if !coreRuns s || faultStands s (keyG 0x3B00 g) then s else arise s (keyG 0x3B00 g) 0 none16 []

/-- FIELD_SUPPLY_LOST (R97). -/
def execFieldSupplyLost (g : Group) (s : State) : Host.Outcome State Fault Refusal := run (fun s => judgeSummary (fieldLost s g)) s

/-- FIELD_SUPPLY_RESTORED (R100, R122): the domain restores itself; the fault of a clock coupler's stop stays until the next entry to Starting
(Table 14.8, R725). -/
def execFieldSupplyRestored (g : Group) (s : State) : Host.Outcome State Fault Refusal :=
  run (fun s =>
    let s := { s with power := { s.power with domOn := addDomain s.power.domOn (9 + groupNum g), domLost := s.power.domLost.filter (· != 9 + groupNum g) } }
    if !coreRuns s || (groupGet s g).halted then s
    else judgeSummary (causeGone s (keyG 0x3B00 g))) s

/-- The settings faults of R185 and R187, judged with each image in force. DESIGN CHOICE (log 162): where both hold on one even channel, their
common key shows detail 0. -/
def judgeChannels (s : State) : State :=
  (List.range 32).foldl (fun s cc =>
    let couple := cc % 2 == 0 && coupleFault (rods s) (cc / 2)
    judgeFault s (keyF 0x3B80 cc) (if couple then 0 else 1) none16 (couple || demagFault (rods s) cc)) s

/-! COIL updates (chapter 9) -/

/-- A commit takes effect at a slot's first update after its boundary (R366): a hold current set while the output is commanded takes the slot
into Hold with its integrator at 0; one that is opened, into Idle; the other settings are those of the image in force from this update on. -/
def coilCommit (s : State) (cc : Nat) : State :=
  if !(coilGet s cc).due then s
  else
    let was := coilEnabled (coilRods s cc) cc
    let now := coilEnabled (rods s) cc
    let s := coilPut s cc { coilGet s cc with due := false }
    if was && !now then coilIdle s cc
    else if !was && now && serving s && (commanded s).contains cc && (coilGet s cc).phase == .idle then
      coilPut s cc { coilGet s cc with phase := .hold }
    else s

/-- COIL_UPDATE (R346, R357 to R360). -/
def execCoilUpdate (ch : Fin 32) (s : State) : Host.Outcome State Fault Refusal :=
  run (fun s => if coreRuns s then coilUpdate (coilCommit s ch.val) ch.val else s) s

end Sys2Proof.Machine
end

