-- ==== Sys2Proof/Machine/Streams.lean ====
section
/-! DEFINITION. The stream catcher: SV frames, slots, admission, alignment, destruction; breaker reports (chapter 7). -/
namespace Sys2Proof.Machine

/-! Table 7.1 -/

/-- noASDU is allowed by the profile (Table 7.4). -/
def profileOk (s : State) (r : Rods) (n : Nat) : Bool :=
  match gSvProfile r, strapRate s with
  | 1, 4000 => n == 1
  | 1, 4800 => n == 1
  | 1, 12800 => n == 8
  | 2, 4800 => n == 2
  | 2, 14400 => n == 6
  | 0, _ => true
  | _, _ => false

/-- smpRate and smpMod of an ASDU are valid (R284). -/
def rateOk (s : State) (a : AsduRaw) : Bool :=
  match a.smpRate with
  | none => true
  | some r => (a.smpMod.getD 0 == 0 && r * fNom s == strapRate s) || (a.smpMod == some 1 && r == strapRate s)

/-- smpCnt of an ASDU. -/
def asduCnt (a : AsduRaw) : Nat := ofOctets a.smpCnt

/-- The slot of an APPID in a window. -/
def windowSlot (appid base size : Nat) : Option Nat := if base ≤ appid && appid < base + size then some (appid - base) else none

/-- The ASDU fields up to smpSynch, and from seqData on, that fail as SV_MALFORMED. -/
def asduHeadOk (s : State) (l : List AsduRaw) : Bool :=
  match l with
  | [] => false
  | a :: _ => l.all (fun b => 1 ≤ b.svId.length && b.svId.length ≤ 129 && b.svId == a.svId && b.smpCnt.length == 2
      && decide (asduCnt b < strapRate s) && b.confRev.length == 4 && b.confRev == a.confRev && b.smpSynch.length == 1)
def asduTailOk (l : List AsduRaw) : Bool :=
  l.all (fun b => b.seqData.length == 64 && (match b.gmIdentity with
    | some g => g.length == 8
    | none => true))

/-- smpCnt of the first and of the last ASDU. -/
def firstCnt (f : SvFrame) : Nat := (f.asdus.head?.map asduCnt).getD 0
def lastCnt (f : SvFrame) : Nat := (f.asdus.getLast?.map asduCnt).getD 0

/-- The second of a frame whose last ASDU has smpCnt c, received at t in units of 0.5 ns (R269): floor(t - c / r + 0.25 s), of the
48-bit second field. -/
def fixSecond (s : State) (t : Int) (c : Nat) : Nat :=
  let r := strapRate s
  ((4 * t * r + (r : Int) * 2000000000 - 4 * (c : Int) * 2000000000) / (8000000000 * r : Nat) % 2 ^ 48).toNat

/-- The index that R269 gives a frame's last ASDU. -/
def frameIndex (s : State) (f : SvFrame) : SIndex := ⟨fixSecond s f.rxTime (lastCnt f), lastCnt f⟩

/-- The first rule of Table 7.1 that a frame fails, as the word of its tally on page 1; none when it passes. The slot is
that of its APPID. DESIGN CHOICE (log 161): a frame whose ASDUs straddle a commit's boundary is judged whole by the profile in force at the
index of its last ASDU (R298). -/
def frameFails (s : State) (f : SvFrame) : Option Nat :=
  let r := rods s
  let ext := f.reserved1.toNat % 256
  let n := f.noAsdu.getD 0
  if f.src.toNat / 2 ^ 40 % 2 = 1 then some 1
  else if (windowSlot f.appid.toNat (gSvBase r) (gSvSize r)).isNone then some 0
  else if f.length != f.apduOctets + ext then some 1
  else if f.reserved1.getLsbD 15 then some 2
  else if !f.savPduOk || n < 1 || 8 < n || n != f.asdus.length then some 1
  else if !profileOk s (imageAt s (frameIndex s f)) n then some 3
  else if !f.seqAsduOk || !asduHeadOk s f.asdus then some 1
  else if !f.asdus.all (rateOk s) then some 3
  else if !asduTailOk f.asdus then some 1
  else none

/-- Authentication (R280 to R282): what it does to the state, and whether the frame is refused, with its tally: none accepted,
some true SV_AUTH_FAIL, some false SV_UNTAGGED. -/
def authSv (s : State) (f : SvFrame) : State × Option Bool :=
  match gAuthSv (rods s) with
  | none => (s, none)
  | some k =>
    let need := gAuthSvRequire (rods s)
    let r := readKey s k
    match r.2, f.tag with
    | none, _ => (r.1, if need then some false else none)
    | some _, none => (r.1, if need then some false else none)
    | some key, some t => (r.1, if t = octets 16 (hmac key.key f.signed / 2 ^ 128) then none else some true)

/-- The stream identity of a frame that passes Table 7.1 (R260). -/
def identOf (f : SvFrame) : StreamIdent :=
  let a := f.asdus.head?
  { src := f.src, svId := (a.map (·.svId)).getD [], confRev := BitVec.ofNat 32 (ofOctets ((a.map (·.confRev)).getD [])),
    noAsdu := f.asdus.length, smpRate := a.bind (·.smpRate), smpMod := a.bind (·.smpMod) }

/-- A 32-bit two's complement value. -/
def int32 (b : List Byte) : Int := let v := ofOctets b; if v < 2 ^ 31 then (v : Int) else (v : Int) - 2 ^ 32

/-- The eight channels of an ASDU (Table 7.1, R275). -/
def asduChans (a : AsduRaw) : List ChanSample :=
  (List.range 8).map (fun i =>
    { value := int32 ((a.seqData.drop (8 * i)).take 4), quality := BitVec.ofNat 14 (ofOctets ((a.seqData.drop (8 * i + 4)).take 4)) })

/-- smpSynch as the engine reads it (R277). -/
def synchOf (a : AsduRaw) : Nat :=
  let v := ofOctets a.smpSynch
  if v = 3 || v = 4 || v = 255 then 0 else v

/-- The index n samples before i. -/
def backIndex (s : State) (i : SIndex) (n : Nat) : SIndex := beforeIndex (strapRate s) i n

/-! Entries of streams (R831) -/

/-- Payload of Table 7.6b. -/
def admissionPayload (kind slot handle : Nat) (d : StreamIdent) (sec cnt : Nat) (brk : Bool) : List Byte :=
  octets 1 kind ++ zeros 1 ++ octets 2 slot ++ octets 2 handle ++ octets 6 d.src.toNat ++ octets 4 d.confRev.toNat
    ++ octets 1 (if brk then 0 else d.noAsdu) ++ octets 1 (if brk then 0xFF else d.smpMod.getD 0xFF)
    ++ octets 2 (if brk then 0xFFFF else d.smpRate.getD 0xFFFF) ++ octets 6 (if brk then 0 else sec) ++ octets 2 cnt ++ octets 4 (crc32 d.svId)

/-- Payload of a destruction (Table 7.6a). -/
def destroyPayload (kind slot handle frames : Nat) : List Byte :=
  octets 1 kind ++ zeros 1 ++ octets 2 slot ++ octets 2 handle ++ octets 4 frames ++ zeros 6

/-! Admission and destruction -/

/-- A slot is admitted (R265, Table 7.2): `first` is the first index to enter the pipeline, `sec` the second fixed. DESIGN CHOICE
(log 137): the decision and its entry are of the index before it, that of the third frame's last ASDU; a destruction's are of the next
expected index. -/
def admitSlot (s : State) (n gen : Nat) (d : StreamIdent) (sec : Nat) (first : SIndex) : State :=
  let x := svGet s n
  let s := svPut s n { x with
    phase := .admitted, gen := gen, used := true, ident := d, next := first, since := backIndex s first (3 * d.noAsdu), first := first,
    missed := [], run := 0, gap := false, blockLeft := 0, hist := [], refix := false, turn := none, due := first }
  let s := pipeClear s n
  journalEntry s (streamEntry s 0x2C00 (handleOf gen n) (backIndex s first 1)
    (admissionPayload 0 n (handleOf gen n) d sec first.cnt false))

/-- Zones in order that some Enabled zone's setting names. -/
def zonesWith (s : State) (f : Rods → Nat → Bool) : List Nat :=
  match s.plug.image with
  | some r => (enabledZones (adcInputs s) r).filter (f r)
  | none => []

/-- Stream lost (Table 7.7). -/
def streamLost (s : State) (n : Nat) : State :=
  if zonesWith s (fun r z => zMain r z == some n || zVolt r z == some n) ≠ [] && !faultStands s (keyS 0x2D00 n) then
    arise s (keyS 0x2D00 n) 0 (slotHandle (svGet s n).used (svGet s n).gen n) []
  else s

/-- A slot is destroyed (R266, R404): its samples on their way are gone, and the zones bound to it as main stream reset. The last handle
stays known (R262, R302). -/
def destroySlot (s : State) (n : Nat) (i : SIndex) : State :=
  let x := svGet s n
  let h := handleOf x.gen n
  let s := journalEntry s (streamEntry s 0x2C01 h i (destroyPayload 0 n h (Tab.get 0 x.tally 1).toNat))
  let s := svPut s n { gen := x.gen, used := x.used, tally := x.tally, intruder := x.intruder, authFail := x.authFail, smpSynch := x.smpSynch }
  let s := { s with streams := { s.streams with intake := s.streams.intake.filter (fun y => y.slot != n) } }
  let s := setHeld s (s.pair.held.filter (fun y => y.sample.slot != n))
  let last := (pipeGet s n).idx
  let s := pipeClear s n
  let s := streamLost s n
  if serving s then (zonesWith s (fun r z => zMain r z == some n)).foldl (fun s z => zoneLost s z last) s else s

/-! Alignment (Table 7.4a) -/

/-- The classes of Table 7.4a. -/
inductive Class | onTime | gap (d : Nat) | duplicate | late | jump
deriving DecidableEq, Repr

/-- The class of an ASDU with smpCnt c. -/
def classify (rate : Nat) (x : SvSlot) (c : Nat) : Class :=
  let d := (c + rate - x.next.cnt) % rate
  if d = 0 then .onTime
  else if 4 * d ≤ rate then .gap d
  else
    let i := beforeIndex rate x.next (rate - d)
    if 3 * rate ≤ 4 * d && x.missed.contains i then .late
    else if !i.lt x.since && !x.missed.contains i && 3 * rate ≤ 4 * d then .duplicate
    else .jump

/-- An ASDU of a consistent frame at a unit that decides (R270), with the index that R269 gives it from its frame. A copy of an index that
the partner holds, and that this unit awaits, is held. -/
def alignAsdu (s : State) (n : Nat) (h : Held) : State :=
  let x := svGet s n
  let c := h.sample.idx.cnt
  let put := fun (s : State) (i : SIndex) (j : Bool) => accept s { h with sample := { h.sample with idx := i, jumped := j } }
  match classify (strapRate s) x c with
  | .onTime => put s x.next false
  | .gap d => let s := declareRun d s n; put s (svGet s n).next false
  | .duplicate =>
    let i := nearIndex (strapRate s) x.next c
    match findHeld s n i with
    | some e =>
      if e.held then svPut s n (svTally x 4 1)
      else advanceSlot (mapHeld s n i (fun e => { h with sample := { h.sample with idx := i, jumped := e.sample.jumped }, confirmed := true })) n
    | none => svPut s n (svTally x 4 1)
  | .late => svPut s n (svTally x 7 1)
  | .jump =>
    let i := h.sample.idx
    let s := svPut s n { svTally x 8 1 with next := i, since := i, missed := [] }
    put (if agreeing s i then decide_ s [.jump n i.sec i false] else s) i true

/-- The second of a slot is fixed again without blocking (R340), from a frame whose last ASDU has index i by R269. -/
def refixSlot (s : State) (n : Nat) (i : SIndex) : State :=
  let x := svGet s n
  let new := nearIndex (strapRate s) i x.next.cnt
  let s := svPut s n { shiftSeconds x x.next.sec new.sec with refix := false, turn := some (x.next, new) }
  if agreeing s new then decide_ s [.jump n new.sec new true] else s

/-- The samples of a frame on their way, each with the index that R269 gives it. -/
def frameHelds (s : State) (n : Nat) (f : SvFrame) (keep : Bool) : List Held :=
  let last := frameIndex s f
  f.asdus.map (fun a =>
    { sample := { slot := n, idx := ⟨if asduCnt a ≤ last.cnt then last.sec else secondBefore last.sec, asduCnt a⟩, kind := .received,
                  chans := asduChans a, blocked := false, jumped := false }
      digest := svDigest f, own := true, held := true, confirmed := false, frame := if keep then some f else none })

/-- What a slot keeps of a frame's last ASDU: smpSynch and gmIdentity (R277, R278). -/
def noteSynch (x : SvSlot) (f : SvFrame) : SvSlot :=
  { x with smpSynch := (f.asdus.getLast?.map synchOf).getD 0, gm := f.asdus.getLast?.bind (·.gmIdentity) }

/-- A consistent frame of an admitted slot is used. -/
def noteFrame (s : State) (n : Nat) (f : SvFrame) : State :=
  svPut s n { noteSynch (svTally (svGet s n) 1 1) f with heardAt := some s.now }

/-- A frame on a slot that is not admitted, at a unit that decides, in agreement: until the partner confirms it, it may be lent whole (R629). -/
def noteCandidate (s : State) (n : Nat) (f : SvFrame) : State :=
  (frameHelds s n f true).foldl (fun s h =>
    match receiptOf s n h.sample.idx with
    | some _ => dropReceipt s n h.sample.idx
    | none => { s with pair := { s.pair with candidates := s.pair.candidates ++ [h] } }) s

/-- A consistent frame of an admitted slot at a unit that decides. -/
def useFrame (s : State) (n : Nat) (f : SvFrame) : State :=
  let again := (svGet s n).refix
  let s := noteFrame s n f
  let s := if again then refixSlot s n (frameIndex s f) else s
  (frameHelds s n f false).foldl (fun s h => alignAsdu s n h) s

/-- A frame forms a candidate (R263, R264). -/
def newCandidate (s : State) (n : Nat) (f : SvFrame) : State :=
  svPut s n { svGet s n with phase := .candidate 1 (lastCnt f), ident := identOf f }

/-- A frame on a free slot (R263), with the tick for R268. -/
def firstCandidate (s : State) (n : Nat) (f : SvFrame) : State :=
  let s := newCandidate s n f
  svPut s n { svGet s n with formedAt := some s.now }

/-- A frame on a candidate slot (R264, R265). -/
def candidateFrame (s : State) (n run last : Nat) (f : SvFrame) : State :=
  let x := { svGet s n with formedAt := none }
  let s := svPut s n x
  if x.ident = identOf f && firstCnt f = (last + 1) % strapRate s then
    if run < 2 then svPut s n { x with phase := .candidate (run + 1) (lastCnt f) }
    else
      let i := frameIndex s f
      let first := succIndex s i
      let gen := (x.gen + 1) % 64
      let s := svPut s n { noteSynch x f with heardAt := some s.now }
      let s := if agreeing s first then decide_ s [.admission n gen (identOf f) i.sec first] else s
      admitSlot s n gen (identOf f) i.sec first
  else newCandidate s n f

/-- A frame that passes Table 7.1 at a unit that decides (R261 to R267). -/
def decideFrame (s : State) (n : Nat) (f : SvFrame) : State :=
  let x := svGet s n
  match x.phase with
  | .free => firstCandidate s n f
  | .candidate run last =>
    if f.src = x.ident.src then candidateFrame s n run last f
    else
      -- of two sources in the tick in which the slot was free, the lower forms the candidate (R268)
      let s := svPut s n (svTally x 3 1)
      if x.formedAt = some s.now && f.src < x.ident.src then firstCandidate s n f else s
  | .admitted =>
    if f.src != x.ident.src then svPut s n (svTally x 3 1)
    else if identOf f != x.ident then svPut s n (svTally x 2 1)
    else useFrame s n f

/-- The index a follower gives an ASDU: within a quarter of the rate of its expected index, else provisional by R269. -/
def followIndex (s : State) (x : SvSlot) (i : SIndex) : SIndex :=
  let r := strapRate s
  let d := (i.cnt + r - x.next.cnt) % r
  let j := if 4 * d ≤ r then addIndex r x.next d else if 3 * r ≤ 4 * d then beforeIndex r x.next (r - d) else i
  match x.turn with
  | some (old, new) => if decides s then j else turnIndex old new j
  | none => j

/-- A sample reaches a follower, by its own receipt or by a lend (R629, R292). -/
def followSample (s : State) (h : Held) : State :=
  let n := h.sample.slot
  let x := svGet s n
  match findHeld s n h.sample.idx with
  | some e =>
    if e.sample.kind == .missing then svPut s n (svTally x 7 1)
    else if e.held then svPut s n (svTally x 4 1)
    else mapHeld s n h.sample.idx (fun e => { h with sample := { h.sample with jumped := e.sample.jumped }, confirmed := e.confirmed || h.confirmed })
  | none =>
    if x.phase == .admitted && h.sample.idx.lt x.next then svPut s n (svTally x (if x.missed.contains h.sample.idx then 7 else 4) 1)
    else addHeld s h

/-- A frame that passes Table 7.1 at a follower (R292). -/
def followFrame (s : State) (n : Nat) (f : SvFrame) : State :=
  let x := svGet s n
  let l := frameHelds s n f (x.phase != .admitted)
  if x.phase != .admitted then l.foldl followSample s
  else if f.src != x.ident.src then svPut s n (svTally x 3 1)
  else if identOf f != x.ident then svPut s n (svTally x 2 1)
  else
    advanceSlot (l.foldl (fun s h => followSample s { h with sample := { h.sample with idx := followIndex s (svGet s n) h.sample.idx } })
      (noteFrame s n f)) n

/-- The receipt record of a frame (R628, Table 16.7), by the index of its first ASDU. -/
def frameReceipt (s : State) (n : Nat) (f : SvFrame) : ReceiptRec :=
  let last := frameIndex s f
  let own : SIndex := ⟨if firstCnt f ≤ last.cnt then last.sec else secondBefore last.sec, firstCnt f⟩
  let x := svGet s n
  let i := if x.phase == .admitted && !x.refix then followIndex s x own else own
  { kind := 0, slot := n, secLo := i.sec % 256, bitmap := BitVec.ofNat 8 (2 ^ f.asdus.length - 1), first := firstCnt f, digest := svDigest f }

/-- The index of a frame's first ASDU lies in agreement. -/
def frameAgrees (s : State) (n : Nat) (f : SvFrame) : Bool :=
  agreeing s (if (svGet s n).phase == .admitted then (svGet s n).next else frameIndex s f)

/-- STREAM_DESTROYED (R266). -/
def streamDestroyed (s : State) (n : Nat) : State :=
  let x := svGet s n
  if x.phase == .admitted && decides s then
    let s := if agreeing s x.next then decide_ s [.destroy n x.next] else s
    destroySlot s n x.next
  else s

/-- A command that destroys the slot. -/
def destroys (n : Nat) (c : Instr) : Bool :=
  match c with
  | .streamDestroyed m => m.val == n
  | _ => false

/-- SV_FRAME (R258): only while Serving (R302). -/
def svFrame (s : State) (f : SvFrame) : State :=
  match frameFails s f with
  | some w => tallyAdd s 1 w 1
  | none =>
    let a := authSv s f
    let s := a.1
    match windowSlot f.appid.toNat (gSvBase (rods s)) (gSvSize (rods s)), a.2 with
    | none, _ => s
    | some _, some false => tallyAdd s 1 4 1
    | some n, some true => svPut s n (svTally (svGet s n) 10 1)
    | some n, none =>
      -- a destruction in the tick of the frame is decided first (R296)
      let s := if s.pending.any (destroys n) then streamDestroyed s n else s
      let agrees := frameAgrees s n f
      let s := if agrees then carrySend s 0 (.receipt [frameReceipt s n f]) else s
      let s := if agrees && decides s && (svGet s n).phase != .admitted then noteCandidate s n f else s
      if decides s then decideFrame s n f else followFrame s n f

/-- The port delivers to the stream catcher: a process port that is up and in use, in a unit that serves (R220, R236, R302). -/
def catches (s : State) (p : Port) : Bool := serving s && (p == .p0 || p == .p1) && rxOpen s p

/-- SV_FRAME (R258), its receive timestamp corrected for the port (R222). -/
def execSvFrame (p : Port) (f : SvFrame) (s : State) : Host.Outcome State Fault Refusal :=
  run (fun s => if catches s p then judgeSummary (svFrame s { f with rxTime := f.rxTime - Config.portLatency (portNum p) false }) else s) s

/-- A waiting command brings the slot's stream a consistent frame in this tick. -/
def bringsFrame (s : State) (n : Nat) (c : Instr) : Bool :=
  match c with
  | .svFrame p f =>
    catches s p && windowSlot f.appid.toNat (gSvBase (rods s)) (gSvSize (rods s)) == some n
      && (frameFails s { f with rxTime := f.rxTime - Config.portLatency (portNum p) false }).isNone && (authSv s f).2.isNone
      && identOf f == (svGet s n).ident
  | _ => false

/-- FRAME_OVERDUE (R271): the indices that the frame should have carried are missing, unless it arrives in the same tick (R295); of a local
stream (1,024, 1,025) the index of the trigger that gave no sample (R524), none that a step has passed over (R528). -/
def frameOverdue (s : State) (n : Nat) : State :=
  let x := svGet s n
  if x.phase != .admitted || x.heardAt == some s.now then s
  else if 1024 ≤ n then (if adcRuns s && !x.refix then declareMissing s n else s)
  else if decides s && !s.pending.any (bringsFrame s n) then declareRun x.ident.noAsdu s n
  else s

/-- FRAME_OVERDUE (R271). -/
def execFrameOverdue (slot : Fin 1026) (s : State) : Host.Outcome State Fault Refusal :=
  run (fun s => if serving s then judgeSummary (frameOverdue s slot.val) else s) s

/-- STREAM_DESTROYED (R266). -/
def execStreamDestroyed (slot : Fin 1024) (s : State) : Host.Outcome State Fault Refusal :=
  run (fun s => if serving s then judgeSummary (streamDestroyed s slot.val) else s) s

/-- SV slots whose destruction names an index that this unit has now reached are destroyed (R292, Table 16.8). -/
def applyDestroys (s : State) : State :=
  let reached := fun (d : Nat × SIndex) => (svGet s d.1).phase != .admitted || !(svGet s d.1).due.lt d.2
  (s.pair.svDue.filter reached).foldl (fun s d => if (svGet s d.1).phase == .admitted then destroySlot s d.1 d.2 else s)
    { s with pair := { s.pair with svDue := s.pair.svDue.filter (fun d => !reached d) } }

/-! Breaker reports (R286 to R290) -/

/-- A breaker slot. -/
def brkGet (s : State) (n : Nat) : BrkSlot := Tab.get {} s.streams.brk n
def brkPut (s : State) (n : Nat) (x : BrkSlot) : State := { s with streams := { s.streams with brk := Tab.put {} s.streams.brk n x } }
def brkTally (x : BrkSlot) (w : Nat) : BrkSlot := { x with tally := Tab.put 0 x.tally w (Tab.get 0 x.tally w + 1) }
/-- Key of a breaker-slot fault. -/
def keyB (code slot : Nat) : FaultKey := { code := code, scope := 3, inst := slot }

/-- A message is valid (R287). -/
def brkValid (m : BrkMsg) : Bool :=
  !m.simulation && !m.ndsCom && 1 ≤ m.numEntries && m.numEntries ≤ 3 && m.dbpos.isSome && (match m.quality with
    | some none => false
    | _ => true)

/-- The message gives the status of its slot. -/
def brkStatus (x : BrkSlot) (m : BrkMsg) : BrkSlot :=
  { x with stNum := m.stNum, sqNum := m.sqNum, dbpos := m.dbpos.getD 0, quality := m.quality.getD none, expired := false }

/-- The message has the identity of the slot (R288). -/
def brkSame (x : BrkSlot) (m : BrkMsg) : Bool := x.src == m.src && x.gocbRef == m.gocbRef && x.confRev == m.confRev

/-- A first message of a run. -/
def brkCandidate (x : BrkSlot) (m : BrkMsg) : BrkSlot :=
  { x with phase := .candidate 1 0, src := m.src, gocbRef := m.gocbRef, confRev := m.confRev, stNum := m.stNum, sqNum := m.sqNum }

/-- Some Enabled zone uses the breaker slot (R201). -/
def brkUsed (s : State) (n : Nat) : Bool := n < 256 && zonesWith s (fun r z => z == n && zRod r z 52 == 0 && decide (z < gBrkSize r)) ≠ []

/-- An entry of a breaker slot, of the index of the decision. -/
def brkEntry (s : State) (code n : Nat) (i : SIndex) (payload : List Byte) : State :=
  journalEntry s (streamEntry s code (handleOf (brkGet s n).gen n) i payload)

/-- The third message of a run admits the slot (R288). -/
def brkAdmit (s : State) (n : Nat) (m : BrkMsg) (i : SIndex) : State :=
  let x := brkGet s n
  let s := brkPut s n { brkStatus x m with phase := .admitted, gen := (x.gen + 1) % 64, used := true }
  let h := handleOf (brkGet s n).gen n
  let id : StreamIdent := { src := m.src, svId := m.gocbRef, confRev := m.confRev, noAsdu := 0, smpRate := none, smpMod := none }
  let s := brkEntry s 0x2C03 n i (admissionPayload 1 n h id 0 (m.stNum % 65536) true)
  if faultStands s (keyB 0x2D40 n) then causeGone s (keyB 0x2D40 n) else s

/-- A valid message on an admitted slot, of its identity (R289). -/
def brkUse (s : State) (n : Nat) (m : BrkMsg) : State :=
  let x := brkGet s n
  if m.stNum = x.stNum && m.sqNum ≤ x.sqNum then brkPut s n (brkTally x 4)
  else
    let x := brkTally x 1
    let x := if m.stNum < x.stNum then brkTally x 5 else x
    let x := if m.stNum = x.stNum then { x with sqNum := m.sqNum, expired := false } else brkStatus x m
    let s := brkPut s n x
    if faultStands s (keyB 0x2D40 n) then causeGone s (keyB 0x2D40 n) else s

/-- A valid message that came in a tick reaches its slot (R261, R267, R268, R288, R289). -/
def brkApply (s : State) (n : Nat) (m : BrkMsg) (tick : Nat) (i : SIndex) : State :=
  let x := brkGet s n
  let first := fun (s : State) => brkPut s n { brkCandidate (brkGet s n) m with formedAt := some tick }
  match x.phase with
  | .free => first s
  | .candidate run _ =>
    if m.src != x.src then
      let s := brkPut s n (brkTally x 3)
      if x.formedAt = some tick && m.src < x.src then first s else s
    else
      let x := { x with formedAt := none }
      if brkSame x m && ((m.stNum = x.stNum && m.sqNum = x.sqNum + 1) || (m.stNum = x.stNum + 1 && m.sqNum ≤ 1)) then
        if run < 2 then brkPut s n { x with phase := .candidate (run + 1) 0, stNum := m.stNum, sqNum := m.sqNum } else brkAdmit s n m i
      else brkPut s n (brkCandidate x m)
  | .admitted =>
    if m.src != x.src then brkPut s n (brkTally x 3) else if !brkSame x m then brkPut s n (brkTally x 2) else brkUse s n m

/-- The status of an admitted slot expires (R290). -/
def brkExpire (s : State) (n : Nat) : State :=
  let x := brkGet s n
  if x.phase == .admitted && !x.expired then brkPut s n { brkTally x 6 with expired := true } else s

/-- A breaker slot is destroyed (R288, R290). -/
def brkDestroy (s : State) (n : Nat) (i : SIndex) : State :=
  let x := brkGet s n
  let s := brkEntry s 0x2C04 n i (destroyPayload 1 n (handleOf x.gen n) (Tab.get 0 x.tally 1).toNat)
  let s := brkPut s n { gen := x.gen, used := x.used, tally := x.tally, intruder := x.intruder }
  if brkUsed s n && !faultStands s (keyB 0x2D40 n) then arise s (keyB 0x2D40 n) 0 (slotHandle x.used x.gen n) [] else s

/-- A slot whose status has expired is destroyed (R290). -/
def brkEnd (s : State) (n : Nat) (i : SIndex) : State :=
  if (brkGet s n).phase == .admitted && (brkGet s n).expired then brkDestroy s n i else s

/-- What is decided of a breaker slot takes effect at index i (R454). -/
def brkAct (s : State) (n : Nat) (a : BrkAct) (i : SIndex) : State :=
  match a with
  | .message m t => brkApply s n m t i
  | .expired => brkExpire s n
  | .destroyed => brkEnd s n i

/-- Decisions on breaker slots that name an index at or before this one take effect, in order (R454). -/
def applyBreakers (s : State) (i : SIndex) : State :=
  let due := s.pair.brkDue.filter (fun x => !i.lt x.2.2)
  due.foldl (fun s x => brkAct s x.1 x.2.1 x.2.2) { s with pair := { s.pair with brkDue := s.pair.brkDue.filter (fun x => i.lt x.2.2) } }

/-- The record of a decision on a breaker slot (log 138). -/
def brkRecord (n : Nat) (a : BrkAct) (i : SIndex) : DecisionRec :=
  match a with
  | .message m t => .breaker n m.stNum m.sqNum t i
  | .expired => .brkExpired n i
  | .destroyed => .brkDestroyed n i

/-- A decision on a breaker slot (R289, R292, R454): at once in a unit alone; in agreement the Active assigns it the index after the
latest released, and both units apply it there; at a unit that follows, the Active's record alone counts. -/
def brkDecide (s : State) (n : Nat) (a : BrkAct) : State :=
  let i := addIndex (strapRate s) s.journal.latest 1
  if !decides s then s
  else if agreeing s i then decide_ { s with pair := { s.pair with brkDue := s.pair.brkDue ++ [(n, a, i)] } } [brkRecord n a i]
  else brkAct s n a s.journal.latest

/-- The digest of a message; its receipt (Table 16.7). -/
def brkDigest (m : BrkMsg) : BitVec 16 := BitVec.ofNat 16 (crc16 m.apdu)
def brkReceipt (kind : Fin 4) (n : Nat) (m : BrkMsg) : ReceiptRec :=
  { kind := kind, slot := n, secLo := 0, bitmap := 1, first := m.stNum % 65536, digest := brkDigest m }

/-- Confirmed messages of a slot are decided in order of arrival, by the unit that decides. -/
def brkAdvance (s : State) : State :=
  if !decides s then s
  else
    let ready := s.pair.heldBrk.filter (·.confirmed)
    ready.foldl (fun s h => brkDecide s h.slot (.message h.msg h.tick))
      { s with pair := { s.pair with heldBrk := s.pair.heldBrk.filter (fun h => !h.confirmed) } }

/-- A message joins agreement, confirmed when the partner's receipt has come ahead (R629). -/
def brkHold (s : State) (n : Nat) (m : BrkMsg) (confirmed : Bool) : State :=
  let ahead := fun (r : ReceiptRec) => 2 ≤ r.kind.val && r.slot == n && r.first == m.stNum % 65536
  let c := confirmed || s.pair.receipts.any ahead
  let pos := s.pair.receipts.findIdx ahead
  brkAdvance { s with pair := { s.pair with
    heldBrk := s.pair.heldBrk ++ [{ slot := n, msg := m, confirmed := c, tick := s.now }],
    receipts := if confirmed then s.pair.receipts else s.pair.receipts.eraseIdx pos } }

/-- BREAKER_MESSAGE (R286 to R289). -/
def breakerMessage (s : State) (m : BrkMsg) : State :=
  match windowSlot m.appid.toNat (gBrkBase (rods s)) (gBrkSize (rods s)) with
  | none => s
  | some n =>
    if !brkValid m then tallyAdd s 1 5 1
    else if agreeing s s.journal.latest then brkHold (carrySend s 0 (.receipt [brkReceipt 2 n m])) n m false
    else brkApply s n m s.now s.journal.latest
def execBreakerMessage (p : Port) (m : BrkMsg) (s : State) : Host.Outcome State Fault Refusal :=
  run (fun s => if catches s p then judgeSummary (breakerMessage s m) else s) s

/-- BREAKER_STATUS_EXPIRED (R290). -/
def execBreakerStatusExpired (slot : Fin 256) (s : State) : Host.Outcome State Fault Refusal :=
  run (fun s => if serving s then brkDecide s slot.val .expired else s) s

/-- BREAKER_DESTROYED (R290). -/
def execBreakerDestroyed (slot : Fin 256) (s : State) : Host.Outcome State Fault Refusal :=
  run (fun s => if serving s then judgeSummary (brkDecide s slot.val .destroyed) else s) s

/-- STREAM_NOT_ADMITTED (R301): the SV slot, and the breaker slot of the same number (log 44). -/
def notAdmitted (s : State) (n : Nat) : State :=
  let s := if (svGet s n).phase != .admitted then streamLost s n else s
  if brkUsed s n && (brkGet s n).phase != .admitted && !faultStands s (keyB 0x2D40 n) then
    arise s (keyB 0x2D40 n) 0 (slotHandle (brkGet s n).used (brkGet s n).gen n) []
  else s
def execStreamNotAdmitted (slot : Fin 1024) (s : State) : Host.Outcome State Fault Refusal :=
  run (fun s => if serving s then judgeSummary (notAdmitted s slot.val) else s) s

end Sys2Proof.Machine
end

