-- ==== Sys2Proof/Machine/Service.lean ====
section
/-! DEFINITION. An image in force and the entry into service: what every adoption judges (R206), adoption at start-up (R168, R169),
persisted θ (R467), and Serving (Table 1.7, R498, R612). -/
namespace Sys2Proof.Machine

/-- The faults of one zone that an image decides (Tables 4.6, 5.12). -/
def judgeZone (s : State) (z : Nat) : State :=
  let r := rods s
  let st := rodStatus r (zoneIndex z 0)
  let j := judge (adcInputs s) r z
  let s := judgeFault s (keyZ 0x1600 z) 0 none16 (st == 1)
  let s := judgeFault s (keyZ 0x1640 z) 0 none16 (st == 2)
  let s := judgeFault s (keyZ 0x3500 z) 0 none16 (j == .invalid)
  judgeFault s (keyZ 0x3540 z) 0 none16 (j == .enabled && closeConflict (adcInputs s) r z)

/-- Everything an image in force decides (R206, R788): zone faults, global roles, the conversion sequence, channel settings, keys. -/
def judgeImage (s : State) : State :=
  let s := (List.range 256).foldl judgeZone s
  let s := judgeFault s (keyU 0x1780) 0 none16 (globalRoleFault s)
  authChanged (judgeChannels (judgeSequence s))

/-- θ of the Enabled zones with 49 on, from MRAM; without a valid one, the fault (R467). -/
def adoptTheta (s : State) : State :=
  match s.plug.image with
  | none => s
  | some r =>
    ((enabledZones (adcInputs s) r).filter (z49On r)).foldl (fun s z =>
      let ok := match s.nvm.thetaLack with
        | none => false
        | some l => !l.contains z
      let s := zonePut s z { zoneGet s z with theta := if ok then Tab.get 0 s.nvm.theta z else 0, thetaOk := ok }
      if ok then s else arise s (keyZ 0x36C0 z) 0 none16 []) s

/-- The committed image of the bank the pointer names (R147). -/
def bankImage (s : State) : Option Rods := if s.nvm.pointer then s.nvm.bank1 else s.nvm.bank0

/-- The CRC-32 of an image (R147). -/
def imageCrc (r : Rods) : BitVec 32 := BitVec.ofNat 32 (crc32 (rodOctets r))

/-- Write an image and its CRC-32 to the inactive bank (R147, R152). -/
def fillBank (s : State) (r : Rods) : State :=
  if s.nvm.pointer then { s with nvm := { s.nvm with bank0 := some r, crc0 := imageCrc r } }
  else { s with nvm := { s.nvm with bank1 := some r, crc1 := imageCrc r } }

/-- Switch the bank pointer (R153). -/
def switchBank (s : State) : State := { s with nvm := { s.nvm with pointer := !s.nvm.pointer } }

/-- Old and new full fingerprint of an entry; no image has none. -/
def printsPayload (old : Option Rods) (new : Rods) : List Nat := [if old.isSome then 1 else 0, (old.map fullFp).getD 0, fullFp new]

/-- A stable image is adopted at start-up (R168, R169). -/
def adoptImage (s : State) (img : Image) : State :=
  let old := bankImage s
  let new := buildImage img old
  let changed := old.map fullFp != some (fullFp new)
  let s := { s with plug := { s.plug with image := some new, stable := some img } }
  let s := if changed then switchBank (fillBank s new) else s
  let s := if changed then
      ariseAndGone (journalEntry s (unitEntry s (ownCode 5 20) 2 0 none16 none16 (ownPayload 20 (printsPayload old new)))) (keyU 0x1740) 0 []
    else s
  adoptTheta (judgeImage s)

/-- Every Enabled zone starts (R498). -/
def startZones (s : State) : State :=
  match s.plug.image with
  | none => s
  | some r => (enabledZones (adcInputs s) r).foldl (fun s z => presentDataset (zoneRestart s z (zoneGet s z)) z) s

/-- The zones that start take the inputs' validity as it stands (R456, R498). -/
def takeValidity (s : State) : State :=
  (List.range 32).foldl (fun s cc =>
    let c := Tab.get {} s.field.ch cc
    { s with field := { s.field with ch := Tab.put {} s.field.ch cc { c with invalid := inputBad s cc } } }) s

/-- Entry to Serving (Table 1.7): zones start and publish (R498, R612); from Starting, the hold is timed (R121). -/
def enterServing (s : State) : State :=
  let starting := s.power.engine == .starting
  let s := { s with power := { s.power with engine := .serving, withheldBy := none }, time := { s.time with servingAt := s.now } }
  let s := startZones (takeValidity s)
  let s := authChanged s
  let s := startPublishing s (publishingZones s)
  if starting then holdAfterStarting s else s

/-- Starting ends: Withheld for the cause found, else Serving (Table 1.7). -/
def finishStarting (s : State) : State :=
  match s.power.withheldBy with
  | some c => enterWithheld s c
  | none => enterServing s

end Sys2Proof.Machine
end

