-- ==== Sys2Proof/Machine/Sessions.lean ====
section
/-! DEFINITION. Recall sessions: their state, their closing, and what a commit or a pair role does to them (Table 18.5, R669, R713, R714). -/
namespace Sys2Proof.Machine

/-- Session i. -/
def sessionGet (s : State) (i : Nat) : Session := Tab.get {} s.recallSvc.sessions i
def sessionPut (s : State) (i : Nat) (x : Session) : State :=
  { s with recallSvc := { s.recallSvc with sessions := Tab.put {} s.recallSvc.sessions i x } }

/-- A session is FREE; its generation stays, and its cause is journalled (Table 18.5, Table 18.9): 0 CLOSE, 1 idle for 30 s, 2 pair state,
3 commit, 4 session parity. -/
def closeSession (s : State) (i cause : Nat) : State :=
  let x := sessionGet s i
  if x.state == .free then s
  else journalEntry (sessionPut s i { sgen := x.sgen }) (unitEntry s (ownCode 19 81) 0 0 none16 none16 (ownPayload 81 [i, x.host, cause]))

/-- Every session of the listed indices that a test picks is closed. -/
def closeSessions (s : State) (cause : Nat) (p : Session → Bool) : State :=
  (List.range 8).foldl (fun s i => if p (sessionGet s i) then closeSession s i cause else s) s

/-- The pair state gives recall to the partner (Table 18.6). -/
def redirects (s : State) : Bool := s.pair.state == .standby || s.pair.state == .shadow || s.pair.state == .rejoining

/-- A unit that is Standby, Shadow or Rejoining holds no session (Table 18.5, R714). -/
def roleSessions (s : State) : State := if redirects s then closeSessions s 2 (fun _ => true) else s

/-- Host positions that differ between two images. -/
def hostsChanged (old new : Rods) : List Nat := (List.range 8).filter (fun h => gHostMac old h != gHostMac new h)

/-- A commit changes host positions: marks, waiting marks, acknowledgements and sessions of each end (R669, R713). DESIGN CHOICE (log 144):
with no image in force before, every host the image sets has changed. -/
def hostsCommit (s : State) (old new : Rods) : State :=
  let gone := hostsChanged old new
  let mask : BitVec 8 := BitVec.ofNat 8 (255 - gone.foldl (fun a h => a + 2 ^ h) 0)
  let s := { s with
    journal := { s.journal with
      pages := s.journal.pages.map (fun p => (p.1, { p.2 with marks := p.2.marks &&& mask }))
      store := s.journal.store.map (fun r => { r with marks := r.marks &&& mask }) }
    recallSvc := { s.recallSvc with
      waiting := s.recallSvc.waiting.filter (fun m => !gone.contains m.1)
      acks := s.recallSvc.acks.filter (fun m => !gone.contains m.1) } }
  closeSessions s 3 (fun x => gone.contains x.host)

end Sys2Proof.Machine
end

