-- ==== Sys2Proof/Machine/Roles.lean ====
section
/-! DEFINITION. Pair states and their transitions (Table 16.2): formation, partner lost, dual active, settings split, rejoin (R613, R614,
R622 to R627, R637 to R642). -/
namespace Sys2Proof.Machine

/-- What every command of the pair block judges at its end: recall sessions (R714), the guarantee (R654), keys (R772), the summary
(R600). -/
def settlePair (s : State) : State :=
  judgeSummary (syncGuarantee (roleSessions (if coreRuns s && s.plug.image.isSome then authChanged s else s)))

/-! Leaving and entering agreement -/

/-- Agreement has ended at a unit that decides: what it holds is released, and what it awaited is missing. -/
def endAgreement (s : State) : State :=
  let s := { s with pair := { s.pair with
    held := s.pair.held.map (fun h => { h with confirmed := true })
    heldBrk := s.pair.heldBrk.map (fun h => { h with confirmed := true })
    receipts := [], candidates := [] } }
  dropAwaited (brkAdvance s)

/-- The unit leaves agreement and common numbering for a pair state of its own (Table 16.9, R661). -/
def standAlone (s : State) (st : PairState) : State :=
  let s := if decides s then s else startDeciding s
  endAgreement (reclaimEntries { s with pair := { s.pair with state := st, rejoin := .none, snapDue := none, swap := .none, swapDue := none } })

/-- Shadow (Table 16.2), with its fault. -/
def toShadow (s : State) : State := judgeFault (standAlone s .shadow) (keyU 0x55C0) 0 none16 true

/-- This unit's entries by sequence number and ECRC (Table 16.12, step 1). -/
def ownChain (s : State) : List (Nat × BitVec 32) := (allCommitted s).map (fun c => (c.jseq, c.ecrc))

/-- Rejoining, from step 1 of Table 16.12. -/
def toRejoining (s : State) : State :=
  let s := standAlone s .rejoining
  carrySend { s with pair := { s.pair with rejoin := .journals, rejoinAt := s.now, accepted := true, absent := false } } 1 (.resync (ownChain s))

/-- Rejoining, and from it Shadow with the carry link lost (R630, R637, R642). -/
def toRejoinOrShadow (s : State) : State := if s.pair.carryLost then toShadow s else toRejoining s

/-- The Active starts a rejoin with its partner (Table 16.12); it publishes on both LANs meanwhile (R641). -/
def rejoinPartner (s : State) : State :=
  let s := abandonSwap { s with pair := { s.pair with
    rejoin := .journals, rejoinAt := s.now, partnerState := 5, accepted := true, absent := false } }
  carrySend (endAgreement s) 1 (.resync (ownChain s))

/-- The Active's partner is no Standby any more. -/
def loseStandby (s : State) (p : Nat) : State :=
  endAgreement (abandonSwap { s with pair := { s.pair with partnerState := p, rejoin := .none } })

/-! Partner lost or unfit (R627, Table 16.11) -/

/-- The partner is lost (detail 0) or unfit (1): this unit is Active with the partner absent; in a settings split it stays in Pairing, for
which Table 16.2 has no such transition (R614). -/
def partnerGone (s : State) (detail : Nat) : State :=
  if s.pair.absent || s.pair.state == .solo || !serving s then s
  else
    let s := if faultStands s (keyU 0x5580) then s else ariseU s 0x5580 detail
    if s.pair.state == .pairing then s
    else
      let s := if s.pair.state == .active then loseStandby s 1 else standAlone s .active
      { s with pair := { s.pair with absent := true, accepted := false, partnerState := 1, split := false } }

/-! Dual active (R637) -/

/-- This unit keeps Active against a partner that is Active too. -/
def keepsActive (s : State) (partnerRestarted : Bool) (partnerJseq : Nat) : Bool :=
  let isA := side s == 1
  let aRestarted := if isA then s.pair.restarted else partnerRestarted
  if !aRestarted then isA else if isA then decide (partnerJseq < s.journal.jseq) else decide (partnerJseq ≤ s.journal.jseq)

/-- Two Active units resolve. -/
def resolveDual (s : State) (partnerRestarted : Bool) (partnerJseq : Nat) : State :=
  let s := ariseU s 0x5600 0
  let s := { s with pair := { s.pair with absent := false, accepted := true } }
  if keepsActive s partnerRestarted partnerJseq then { s with pair := { s.pair with partnerState := 2 } } else toRejoinOrShadow s

/-! Settings split (R638) -/

/-- The units are in a state in which differing images split them: a formed pair, or an Active and a unit that is Shadow or Rejoining. -/
def splitPossible (s : State) : Bool :=
  match s.pair.state with
  | .standby | .shadow | .rejoining => s.pair.accepted
  | .active => s.pair.accepted && !s.pair.absent && 3 ≤ s.pair.partnerState
  | _ => false

/-- The split begins: the unit that is not Active goes to Pairing and stays Serving. -/
def splitBegins (s : State) : State :=
  let s := judgeFault { s with pair := { s.pair with split := true } } (keyU 0x5680) 0 none16 true
  if s.pair.state == .active then loseStandby s 1 else standAlone s .pairing

/-- The fingerprints are equal again: the unit that is not Active enters Rejoining (R638), from which the loss of the carry link takes it to
Shadow (R642). -/
def splitEnds (s : State) : State :=
  let s := causeGoneU { s with pair := { s.pair with split := false } } 0x5680
  if s.pair.state == .active then rejoinPartner s
  else if s.pair.state == .pairing && serving s then (fun s => if s.pair.carryLost then toShadow s else s) (toRejoining s)
  else s

/-- Judge R638 against the fingerprint last heard. -/
def judgeSplit (s : State) : State :=
  let equal := s.pair.partnerFp.toNat == publishedFp s
  if s.pair.split then (if equal then splitEnds s else s)
  else if equal then causeGoneU s 0x5680
  else if splitPossible s then splitBegins s
  else s

/-! What a partner announces -/

/-- The Active hears its partner's PAIR code (Table 16.1). A Standby forms the pair at the end of a rejoin alone. -/
def activeHears (s : State) (p : Nat) : State :=
  if s.pair.absent || !s.pair.accepted then { s with pair := { s.pair with partnerState := p } }
  else if p = 3 then
    match s.pair.rejoin with
    | .agreeing _ => formedNow { s with pair := { s.pair with partnerState := 3 } }
    | _ => s
  else if p = 5 then
    if s.pair.partnerState = 5 || s.pair.split then s
    else
      match s.pair.rejoin with
      | .agreeing _ => s
      | _ => rejoinPartner s
  else if p = 4 then (if s.pair.partnerState = 4 then s else loseStandby s 4)
  else if p = 1 && !s.pair.split && s.pair.partnerState != 1 then
    let s := loseStandby s 1
    { s with pair := { s.pair with accepted := false, hello := none } }
  else s

/-- A heartbeat's bit of HFLAGS (Table 16.6). -/
def hflag (b : HeartbeatBody) (n : Nat) : Bool := b.hflags.getLsbD n

/-- What a partner's heartbeat says, on either path (R627, R637, R638, R330, R331). A PAIR code Active that reaches a formed Active within 1 ms
of a swap was sent before it. -/
def heartbeatSays (s : State) (b : HeartbeatBody) : State :=
  let s := { s with
    time := { s.time with
      partnerState := timeOfCode b.time.toNat, partnerTimeq := b.timeq, partnerLead := hflag b 0
      -- the units are not both Locked (Table 8.7)
      twinApartAt := if timeOfCode b.time.toNat = .locked then s.time.twinApartAt else none }
    pair := { s.pair with
      partnerFp := b.fp
      told := { engine := b.engine.toNat, pair := b.pair.toNat, restarted := hflag b 5, jseq := b.jseq.toNat } } }
  if hflag b 4 then partnerGone s 1
  else if s.pair.state == .active && b.pair.toNat = 2 then
    if (formed s && s.now ≤ s.pair.swapFrom + 400000) || s.pair.partnerState = 2 then s
    else resolveDual s (hflag b 5) b.jseq.toNat
  else
    judgeSplit (if s.pair.state == .active then activeHears s b.pair.toNat
      else { s with pair := { s.pair with partnerState := b.pair.toNat } })

/-- Judge the path fault: it goes once neither path is silent (Table 16.13). -/
def pathsHeard (s : State) : State := if !s.pair.carrySilent && !s.pair.busSilent then causeGoneU s 0x5500 else s

/-- A path is silent (R627, R640): with both, the partner is lost. -/
def pathSilent (s : State) (p : Path) : State :=
  let s := abandonBoth (match p with
    | .carry => { s with pair := { s.pair with carrySilent := true } }
    | .bus => { s with pair := { s.pair with busSilent := true, heardA := false, heardB := false } })
  if s.pair.absent || !serving s then s
  else if s.pair.carrySilent && s.pair.busSilent then partnerGone s 0
  else if s.pair.accepted then
    judgeFault s (keyU 0x5500) (match p with
      | .carry => 0
      | .bus => 1) none16 true
  else s

/-! Pairing (R622 to R624, Table 16.5) -/

/-- The strap nibbles of an identity block's STRAPS octets. -/
def strapNibbles (l : List Byte) : List Nat := (l.map (fun o => [o.toNat / 16, o.toNat % 16])).flatten

/-- The first condition of Table 16.5 that fails, 0 when all are met. -/
def pairingCode (s : State) (b : HelloBody) : Nat :=
  let sideOf := b.sideUid.toNat / 64
  let theirs := strapNibbles b.straps
  let same := (List.range 12).all (fun k => k == 0 || k == 7 || k == 8 || theirs.getD k 15 == s.ident.straps.getD k 15)
  if !((side s == 1 && sideOf == 2) || (side s == 2 && sideOf == 1)) then 1
  else if !same then 2
  else if s.plug.image.isNone || b.fingerprint.isNone then 3
  else if (gPairId (rods s)).isNone || b.pairId != gPairId (rods s) then 4
  else if (b.fingerprint.map (·.toNat)) != some (fullFp (rods s)) then 5
  else 0

/-- The unit may be admitted after a refusal: valid straps, a passed lane self-test, an adopted image (Table 1.7, R624) with a pair identity,
without which it stays Withheld (R78). -/
def canBeAdmitted (s : State) : Bool :=
  s.power.laneTestPassed && s.plug.image.isSome && (serving s || (gPairId (rods s)).isSome) && (match s.power.engine with
    | .starting => s.power.step == .pairing && s.power.withheldBy.isNone
    | .withheld => s.power.withheldBy == some .pairing
    | .serving => true
    | _ => false)

/-- The unit can enter Serving as pairing is accepted: from Withheld, only after a commit with COMMIT_IN (Table 1.7). -/
def canServe (s : State) : Bool := canBeAdmitted s && (s.power.engine != .withheld || s.power.recommitted)

/-- Enter Serving unless the unit serves already. -/
def ensureServing (s : State) : State := if serving s then s else enterServing s

/-- Pairing is refused (R624). -/
def pairingRefused (s : State) (code : Nat) : State :=
  let partnerServes := s.pair.told.engine == 3
  let s := judgeFault s (keyU 0x5640) code none16 true
  let s := { s with pair := { s.pair with absent := false, accepted := false, heard := true } }
  if serving s then s
  else if !partnerServes && code != 1 && side s == 1 && canBeAdmitted s then
    enterServing { s with pair := { s.pair with state := .active, partnerState := 1 } }
  else if s.power.engine == .starting then enterWithheld s (s.power.withheldBy.getD .pairing)
  else s

end Sys2Proof.Machine
end

