-- ==== Sys2Proof/Machine/Carry.lean ====
section
/-! DEFINITION. The carry link, its lanes and frames, HELLO, pairing, heartbeats, path silence and the TIME exchange (R615 to R627,
R331, R332, Table 16.13). -/
namespace Sys2Proof.Machine

/-! Lanes (R617 to R621) -/

/-- C0 is enabled: a twin after step 9 of Table 3.3, with D3 good. -/
def carryOn (s : State) : Bool := isTwin s && portsDone s && domainGood s 3

/-- The frames left unacknowledged by ACKN. -/
def ackDrop (ackn : BitVec 16) (l : List (BitVec 16 × CarryMsg)) : List (BitVec 16 × CarryMsg) :=
  if l.any (fun f => f.1 == ackn) then (l.dropWhile (fun f => f.1 != ackn)).tail else l

/-- Waiting frames leave as places among the 64 fall free (R620). -/
def pumpLane : Nat → State → Fin 2 → State
  | 0, s, _ => s
  | fuel + 1, s, n =>
    let l := laneGet s n
    match l.waiting with
    | [] => s
    | m :: rest =>
      if 64 ≤ l.unacked.length then s
      else
        pumpLane fuel (emit (lanePut s n { l with txSeq := l.txSeq + 1, unacked := l.unacked ++ [(l.txSeq, m)], waiting := rest })
          (carryOut n (carryTx s n l.txSeq false) m)) n

/-- A carry frame arrives: it is taken when it is valid and the next one expected, else discarded and tallied (R619). -/
def carryTake (s : State) (h : CarryHdr) : State × Bool :=
  let l := laneGet s h.lane
  if !l.up then (s, false)
  else if !h.valid || h.seq != l.rxSeq then (lanePut s h.lane { l with discarded := l.discarded + 1 }, false)
  else
    let s := lanePut s h.lane { l with rxSeq := l.rxSeq + 1, unacked := ackDrop h.ackn l.unacked }
    (pumpLane l.waiting.length s h.lane, true)

/-- What a taken carry frame does. -/
def onCarry (h : CarryHdr) (f : State → State) (s : State) : State :=
  if !carryOn s then s
  else
    let r := carryTake s h
    if r.2 then settlePair (withTwin f r.1) else r.1

/-- CARRY_RETRANSMIT: every frame from the oldest unacknowledged on leaves again, with RETX (R620). -/
def execCarryRetransmit (lane : Fin 2) (s : State) : Host.Outcome State Fault Refusal :=
  run (fun s =>
    let l := laneGet s lane
    if carryOn s && l.up then
      l.unacked.foldl (fun t f => emit t (carryOut lane (carryTx s lane f.1 true) f.2)) (lanePut s lane { l with resent := l.resent + l.unacked.length })
    else s) s

/-- One lane down for 10 ms, and both up for 1.0 s (Table 16.13). -/
def judgeLanes (s : State) : State :=
  match s.pair.oneDownAt with
  | some t =>
    if 4000000 ≤ s.now - t && !faultStands s (keyU 0x2940) then ariseU s 0x2940 (if s.pair.lane0.up then 1 else 0) else s
  | none => if s.pair.lane0.up && s.pair.lane1.up && 400000000 ≤ s.now - s.pair.bothUpAt then causeGoneU s 0x2940 else s

/-- CARRY_LANE_UP (R617): a lane starts at SEQ 0 (log 45); with both up the link is up, with one the other is down (R650). -/
def laneUp (s : State) (n : Fin 2) : State :=
  let l := laneGet s n
  let s := lanePut s n { discarded := l.discarded, resent := l.resent, up := true }
  if s.pair.lane0.up && s.pair.lane1.up then
    causeGoneU { s with pair := { s.pair with carryUp := true, carryLost := false, oneDownAt := none, bothUpAt := s.now } } 0x2900
  else { s with pair := { s.pair with carryLost := false, oneDownAt := some s.now } }

/-- CARRY_LANE_UP (R617). -/
def execCarryLaneUp (lane : Fin 2) (s : State) : Host.Outcome State Fault Refusal :=
  run (fun s => if carryOn s && !(laneGet s lane).up then settlePair (withTwin (fun s => laneUp s lane) s) else s) s

/-- The carry link is lost (R617, Table 16.11): a Standby or Rejoining unit is Shadow, an Active publishes on both LANs. -/
def carryLost (s : State) : State :=
  let down := fun (l : Lane) => ({ discarded := l.discarded, resent := l.resent } : Lane)
  let was := carryRuns s
  let s := { s with
    time := { s.time with twinApartAt := none, twinCloseAt := none }
    pair := { s.pair with
    lane0 := down s.pair.lane0, lane1 := down s.pair.lane1, carryUp := false, carryLost := true, oneDownAt := none } }
  let s := abandonSwap s
  let s := if was then judgeFault s (keyU 0x2900) 0 none16 true else s
  match s.pair.state with
  | .standby | .rejoining => toShadow s
  | .active => if 2 ≤ s.pair.partnerState then loseStandby s 4 else s
  | _ => s

/-- CARRY_LINK_LOST (R617). -/
def execCarryLinkLost (s : State) : Host.Outcome State Fault Refusal :=
  run (fun s => if carryOn s then settlePair (withTwin carryLost s) else s) s

/-- CARRY_LANE_DOWN (R621): what the lane had not delivered moves to the lane that remains; the fault is timed. -/
def laneDown (s : State) (n : Fin 2) : State :=
  let l := laneGet s n
  let s := lanePut s n { discarded := l.discarded, resent := l.resent }
  let s := { s with pair := { s.pair with carryUp := false } }
  if (laneGet s (1 - n)).up then
    (l.unacked.map (·.2) ++ l.waiting).foldl (fun s m => carrySend s (1 - n) m) { s with pair := { s.pair with oneDownAt := some s.now } }
  else s

/-- CARRY_LANE_DOWN (R621). -/
def execCarryLaneDown (lane : Fin 2) (s : State) : Host.Outcome State Fault Refusal :=
  run (fun s => if carryOn s && (laneGet s lane).up then settlePair (withTwin (fun s => laneDown s lane) s) else s) s

/-! HELLO and pairing (R622 to R624) -/

/-- The HELLO of this unit (Table 16.4); the carry identity MAC is the block base + 2 (Table 2.10). -/
def helloBody (s : State) : HelloBody :=
  { sideUid := BitVec.ofNat 8 (sideUid s)
    straps := (List.range 6).map (fun i => BitVec.ofNat 8 (strap s (2 * i) % 16 * 16 + strap s (2 * i + 1) % 16))
    carryMac := BitVec.ofNat 48 (macBase s + 2)
    macBase := BitVec.ofNat 48 (macBase s)
    fingerprint := s.plug.image.map (fun r => BitVec.ofNat 256 (fullFp r))
    pairId := gPairId (rods s)
    engine := BitVec.ofNat 8 (engineCode s.power.engine)
    pair := BitVec.ofNat 8 (pairCode s.pair.state)
    restarted := s.pair.restarted
    jseq := s.journal.jseq
    lastCrc := s.journal.lastCrc }

/-- HELLO_SEND (R622): in Pairing, Shadow, or Active with the partner absent, once an image is adopted. -/
def execHelloSend (s : State) : Host.Outcome State Fault Refusal :=
  run (fun s =>
    if carryOn s && s.pair.carryUp && s.plug.image.isSome
        && (s.pair.state == .pairing || s.pair.state == .shadow || (s.pair.state == .active && s.pair.absent)) then
      carrySend s 0 (.hello (helloBody s))
    else s) s

/-- A HELLO is judged (R622, R637): answered by REFUSE with the first failing row, or by ACCEPT. A Withdrawn unit accepts nobody (log 98). -/
def helloArrived (s : State) (b : HelloBody) : State :=
  let s := { s with pair := { s.pair with
    hello := some b, heard := true, absent := false
    told := { engine := b.engine.toNat, pair := b.pair.toNat, restarted := b.restarted, jseq := b.jseq } } }
  let code := pairingCode s b
  if code != 0 then carrySend s 0 (.refuse code)
  else if s.power.engine == .withdrawn then s
  else if s.pair.state == .active && b.pair.toNat = 2 then
    carrySend (resolveDual s b.restarted b.jseq) 0 (.accept (keepsActive s b.restarted b.jseq) (!keepsActive s b.restarted b.jseq))
  else
    let active := s.pair.state == .active
      || (b.pair.toNat != 2 && (b.jseq < s.journal.jseq || (b.jseq = s.journal.jseq && side s == 1)))
    carrySend s 0 (.accept active (!active))

/-- HELLO (R622). -/
def execHello (h : CarryHdr) (b : HelloBody) (s : State) : Host.Outcome State Fault Refusal := run (onCarry h (fun s => helloArrived s b)) s

/-- The larger of two persisted stNum values for each publication of a list (R623). -/
def takeStnums (s : State) (l : List (Nat × Nat)) : State :=
  l.foldl (fun s p =>
    if 256 ≤ p.1 || p.2 ≤ persisted s p.1 then s
    else
      let s := { s with nvm := { s.nvm with stNum := Tab.put 0 s.nvm.stNum p.1 p.2 } }
      pubPut s p.1 { pubGet s p.1 with stNum := max p.2 (pubGet s p.1).stNum }) s

/-- The unit's own unit entries in its queue are sent for numbering (R641, R661). -/
def forwardQueue (s : State) : State :=
  let l := s.journal.queue
  l.foldl placeEntry { s with journal := { s.journal with queue := [] } }

/-- The ECRC of a carried entry (Table 17.3). -/
def carriedCrc (c : CarriedEntry) : Nat := crc32 (octets 8 c.jseq ++ c.body)

/-- The last common entry (Table 16.12, step 1): the highest number under which the partner's segments bring an entry with the ECRC of this
unit's; before the first that they bring, the journals agree. -/
def lastCommon (s : State) (before : Nat) (journal : List CarriedEntry) : Nat :=
  ((journal.filter (fun c => (allCommitted s).any (fun o => o.jseq == c.jseq && o.ecrc.toNat == carriedCrc c))).map (·.jseq)).foldl max
    (min before s.journal.jseq)

/-- The Active's entries after the last common one wait for this unit's commit path; its own become a split-branch record (R641, step 2). -/
def takeJournal (s : State) (before : Nat) (journal : List CarriedEntry) : State :=
  let last := lastCommon s before journal
  let s := splitBranch s last
  forwardQueue { s with pair := { s.pair with
    numbered := (journal.filter (fun c => last < c.jseq)).map (fun c => (c.jseq, entryOf c, true)) } }

/-- The rejoiner's entries after the last common one, as the Active takes them (R641, step 2). -/
def takeBranch (s : State) (before : Nat) (journal : List CarriedEntry) : State :=
  partnerBranch s (journal.filter (fun c => lastCommon s before journal < c.jseq))

/-- Pairing is accepted (R623): roles by Table 16.2, and the entry to Serving. -/
def pairingAccepted (s : State) (f : AcceptFrame) (journal : List CarriedEntry) (stnums : List (Nat × Nat)) : State :=
  let s := { s with pair := { s.pair with heard := true } }
  match s.pair.hello with
  | none => s
  | some b =>
    if pairingCode s b != 0 || !canServe s then s
    else
      let s := causeGoneU s 0x5640
      let fp := (b.fingerprint.map (fun f => f.toNat / 2 ^ 192)).getD 0
      let s := { s with pair := { s.pair with accepted := true, absent := false, partnerFp := BitVec.ofNat 64 fp } }
      let p := s.pair.told
      match s.pair.state with
      | .solo | .standby | .rejoining => s
      | .active => if p.pair = 2 then resolveDual s p.restarted p.jseq else rejoinPartner s
      | .shadow => if (p.pair = 2 || f.active) && s.pair.carryUp then toRejoining s else s
      | .pairing =>
        if p.pair = 2 then ensureServing (toRejoining s)
        else
          let s := takeStnums s stnums
          if p.jseq < s.journal.jseq || (p.jseq = s.journal.jseq && side s == 1) then
            formedNow (ensureServing (takeBranch { s with pair := { s.pair with state := .active, partnerState := 3 } } f.last journal))
          else
            formedNow (ensureServing (takeJournal { s with pair := { s.pair with state := .standby, partnerState := 2 } } f.last journal))

/-- ACCEPT (R623). -/
def execAccept (f : AcceptFrame) (journal : List CarriedEntry) (stnums : List (Nat × Nat)) (s : State) : Host.Outcome State Fault Refusal :=
  run (onCarry f.hdr (fun s => pairingAccepted s f journal stnums)) s

/-- REFUSE (R624, Table 16.5); code 0 is no reason. -/
def execRefuse (f : RefuseFrame) (s : State) : Host.Outcome State Fault Refusal :=
  run (onCarry f.hdr (fun s => if f.code.val != 0 && s.power.engine != .withdrawn then pairingRefused s f.code.val else s)) s

/-- PARTNER_ABSENT (R106): no pairing frame and no process-bus heartbeat of the partner within 1.5 s of the ports step. Absence admits a unit
from Starting alone (Table 1.7); one without a pair identity is Withheld (R78). -/
def partnerAbsent (s : State) : State :=
  if s.pair.state != .pairing || s.pair.heard then s
  else
    let s := { s with pair := { s.pair with absent := true } }
    if s.power.engine != .starting then s
    else if canServe s then enterServing { s with pair := { s.pair with state := .active } }
    else enterWithheld s .pairing

/-- PARTNER_ABSENT (R106). -/
def execPartnerAbsent (s : State) : Host.Outcome State Fault Refusal :=
  run (fun s => if isTwin s && portsDone s && !serving s then settlePair (partnerAbsent s) else s) s

/-! Heartbeats (R625 to R627, Table 16.6) -/

/-- The heartbeat of this unit on a path, with its number. LEAD tells that the unit leads time in a formed pair; outside one, that it is
Active (DEDUCED, log 129). -/
def heartbeatBody (s : State) (seq : BitVec 32) : HeartbeatBody :=
  let b := fun (x : Bool) (n : Nat) => if x then 2 ^ n else 0
  { hformat := 1
    sideUid := BitVec.ofNat 8 (sideUid s)
    engine := BitVec.ofNat 8 (engineCode s.power.engine)
    pair := BitVec.ofNat 8 (pairCode s.pair.state)
    hflags := BitVec.ofNat 8 (b (if formed s then timeLeads s else s.pair.state == .active) 0 + b (!s.pair.carrySilent) 1 + b s.pair.heardA 2 + b s.pair.heardB 3
      + b (s.power.engine == .withdrawn) 4 + b s.pair.restarted 5 + b s.pair.unagreed 6)
    timeq := BitVec.ofNat 8 (reportedTimeq s)
    time := BitVec.ofNat 8 (timeCode (reportedTime s))
    hbseq := seq
    fp := BitVec.ofNat 64 (publishedFp s)
    jseq := BitVec.ofNat 64 s.journal.jseq }

/-- The swap has not been achieved within 1 h of the timer's expiry (Table 16.13). -/
def judgeSwap (s : State) : State :=
  match s.pair.swapDue with
  | some t => if 3600 * ticksPerSec ≤ s.now - t then judgeFault s (keyU 0x57C0) 0 none16 true else s
  | none => s

/-- CARRY_HEARTBEAT_SEND (R625). -/
def execCarryHeartbeatSend (s : State) : Host.Outcome State Fault Refusal :=
  run (fun s =>
    if carryOn s then
      let s := judgeSwap (judgeLanes s)
      let b := heartbeatBody s s.pair.hbCarry
      judgeSummary (carrySend { s with pair := { s.pair with hbCarry := s.pair.hbCarry + 1, unagreed := false } } 0 (.heartbeat b))
    else s) s

/-- The destination of a pair's heartbeats: the pair MAC with its group bit set (R625). -/
def pairGroup (m : Nat) : Nat := Nat.lor m (2 ^ 40)

/-- BUS_HEARTBEAT_SEND (R625): one frame on P0 and one on P1, without trailer, once an image is adopted; after the frames that are ready
(R252). -/
def busHeartbeatSend (s : State) : State :=
  match pairMac s with
  | none => s
  | some m =>
    let s := transmitReady s
    let oui := ((fuse s).map (fun f => f.oui.toNat)).getD 0
    let b := heartbeatBody s s.pair.hbBus
    let frame := padTo 0 (octets 6 (pairGroup m) ++ octets 6 (processMac s) ++ octets 2 0x8100 ++ octets 2 (7 * 8192 + gVlanId (rods s))
      ++ octets 2 0x88B7 ++ octets 3 oui ++ octets 2 0x0C42 ++ heartbeatOctets b)
    sendCopy (sendCopy { s with pair := { s.pair with hbBus := s.pair.hbBus + 1, unagreed := false } } .p0 frame) .p1 frame

/-- BUS_HEARTBEAT_SEND (R625). -/
def execBusHeartbeatSend (s : State) : Host.Outcome State Fault Refusal :=
  run (fun s => if isTwin s && portsDone s && s.plug.image.isSome then busHeartbeatSend s else s) s

/-- HEARTBEAT: the carry path is heard (R627). -/
def execHeartbeat (h : CarryHdr) (b : HeartbeatBody) (s : State) : Host.Outcome State Fault Refusal :=
  run (onCarry h (fun s => heartbeatSays (pathsHeard { s with pair := { s.pair with carrySilent := false } }) b)) s

/-- A bus heartbeat is the partner's (R626). -/
def busHeartbeatOk (s : State) (dst : Mac) (b : HeartbeatBody) : Bool :=
  (match pairMac s with
    | some m => dst.toNat == pairGroup m
    | none => false)
    && b.hformat == 1 && ((side s == 1 && b.sideUid.toNat / 64 == 2) || (side s == 2 && b.sideUid.toNat / 64 == 1))

/-- The partner is heard on a LAN. -/
def busHeard (s : State) (p : Port) : State :=
  let s := { s with pair := { s.pair with
    busSilent := false, heard := true, heardA := s.pair.heardA || p == .p0, heardB := s.pair.heardB || p == .p1 } }
  pathsHeard (if s.pair.heardA && s.pair.heardB then causeGoneU s 0x5540 else s)

/-- BUS_HEARTBEAT (R626). -/
def execBusHeartbeat (p : Port) (dst : Mac) (b : HeartbeatBody) (s : State) : Host.Outcome State Fault Refusal :=
  run (fun s =>
    if isTwin s && rxOpen s p && isProcess p && busHeartbeatOk s dst b then
      settlePair (withTwin (fun s => heartbeatSays (busHeard s p) b) s)
    else s) s

/-- PATH_SILENT (R627). -/
def execPathSilent (p : Path) (s : State) : Host.Outcome State Fault Refusal :=
  run (fun s => if isTwin s && coreRuns s then settlePair (withTwin (fun s => pathSilent s p) s) else s) s

/-- HEARTBEAT_LAN_SILENT (Table 16.13): with the other LAN silent too, the bus path is. -/
def lanSilent (s : State) (p : Port) : State :=
  let s := if p = .p0 then { s with pair := { s.pair with heardA := false } } else { s with pair := { s.pair with heardB := false } }
  if !s.pair.heardA && !s.pair.heardB then pathSilent s .bus
  else if s.pair.accepted && !s.pair.absent then judgeFault s (keyU 0x5540) (if p = .p0 then 0 else 1) none16 true
  else s

/-- HEARTBEAT_LAN_SILENT (R650). -/
def execHeartbeatLanSilent (p : Port) (s : State) : Host.Outcome State Fault Refusal :=
  run (fun s => if isTwin s && coreRuns s && isProcess p then settlePair (withTwin (fun s => lanSilent s p) s) else s) s

/-! The TIME exchange (R331, R332) -/

/-- Twin disagreement: both units Locked and more than 200 ns apart for 10 s, or within it for 10 s (Table 8.7). -/
def judgeTwin (s : State) (off : Int) : State :=
  let far := s.time.state == .locked && s.time.partnerState == .locked && decide (200 * 65536 < off.natAbs)
  let near := decide (off.natAbs ≤ 200 * 65536)
  let s := { s with time := { s.time with
    twinApartAt := if far then some (s.time.twinApartAt.getD s.now) else none
    twinCloseAt := if near then some (s.time.twinCloseAt.getD s.now) else none } }
  let long := fun (o : Option Nat) => (match o with
    | some t => decide (10 * ticksPerSec ≤ s.now - t)
    | none => false)
  if long s.time.twinApartAt then judgeFault s (keyU 0x0F00) 0 none16 true
  else if long s.time.twinCloseAt then causeGoneU s 0x0F00
  else s

/-- A TIME frame: the offset from the partner by the two-way exchange; a follower without a time base steps (R332); the unit answers
with its own timestamps. -/
def timeExchange (s : State) (b : TimeBody) : State :=
  let off := halve ((b.ownTx - b.partnerRx) + (b.ownRx - b.partnerTx))
  let s := { s with
    time := { s.time with twinOffset := some off, partnerState := timeOfCode b.leaderState, partnerTimeq := b.leaderTimeq } }
  let s := judgeTwin s off
  let s := if formed s && !timeLeads s && s.time.state == .unsynchronised && hasBase s.time.partnerState then
      let t := stepCounter s off 2
      -- what the step has left of the offset, and what the partner's master has said of leap seconds (R323)
      { t with time := { t.time with
        twinOffset := some (counterValue t - (counterValue s - off)), leapKnown := t.time.leapKnown || b.leaderTimeq.getLsbD 7 } }
    else s
  let s := carrySend { s with pair := { s.pair with lastRx := b.ownRx } } 0 (.time s.pair.lastTx b.ownRx)
  { s with pair := { s.pair with lastTx := stampValue s } }

/-- TIME_EXCHANGE (R331). -/
def execTimeExchange (h : CarryHdr) (b : TimeBody) (s : State) : Host.Outcome State Fault Refusal :=
  run (onCarry h (fun s => timeExchange s b)) s

end Sys2Proof.Machine
end

