-- ==== Sys2Proof/Machine/Faults.lean ====
section
/-! DEFINITION. Acknowledgement, completed reactions and retests (chapter 19), the 1.0 s interval in which tallies are judged (R255,
Tables 7.7, 10.6, 13.6, 16.13, 17.12, 18.9), and periodic snapshots (R672). -/
namespace Sys2Proof.Machine

/-! Acknowledgement and the fault states (R723 to R730, R740) -/

/-- ACK_IN_ACCEPTED (R727, R729): the contact is high. -/
def execAckInAccepted (s : State) : Host.Outcome State Fault Refusal :=
  run (fun s => if coreRuns s then settlePair (acceptAck { s with pub := { s.pub with ackIn := true } } 0) else s) s

/-- ACK_INPUT_ACCEPTED (R728, R730): only while the image in force names an input of its own. -/
def execAckInputAccepted (s : State) : Host.Outcome State Fault Refusal :=
  run (fun s =>
    if !coreRuns s then s
    else
      match ackInput s with
      | some cc => settlePair (acceptAck s (1 + cc))
      | none => s) s

/-- An entry of the fault still waits for its commit (R723). -/
def reactionWaits (s : State) (k : FaultKey) : Bool :=
  (s.journal.queue ++ s.journal.holds.map (·.2) ++ s.pair.unitEntries).any (fun e => e.fault == some k)

/-- FAULT_REACTION_COMPLETE (R723, R725). -/
def execFaultReactionComplete (k : FaultKey) (s : State) : Host.Outcome State Fault Refusal :=
  run (fun s => if coreRuns s && !reactionWaits s k then settlePair (reactionComplete s k) else s) s

/-- The cause-gone test is made again in the tick after an arising (R740). -/
def retestFault (s : State) (k : FaultKey) : State :=
  match faultGet s k with
  | none => s
  | some r => if r.retest then causeGone (faultPut s k { r with retest := false }) k else s

/-- CAUSE_GONE_RETEST (R740). -/
def execCauseGoneRetest (k : FaultKey) (s : State) : Host.Outcome State Fault Refusal :=
  run (fun s => if coreRuns s then settlePair (retestFault s k) else s) s

/-! The 1.0 s interval -/

/-- A tally's fault: three intervals in succession with a rise raise it, three without one end its cause (R255). -/
def judgeRise (s : State) (k : FaultKey) (detail handle : Nat) (r : Rise) : State :=
  if 3 ≤ r.up then judgeFault s k detail handle true else if 3 ≤ r.quiet then causeGone s k else s

/-- PRP_WRONG_LAN of a port (R255). -/
def intervalPort (s : State) (p : Port) : State :=
  let r := (portGet s p).wrongLan.judge (tallyGet s 0 (16 * portNum p + 8))
  judgeRise (portPut s p { portGet s p with wrongLan := r }) (portKey 0x19C0 p) 0 none16 r

/-- INTRUDER and SV_AUTH_FAIL of an SV slot (Table 7.7). -/
def intervalSv (s : State) (n : Nat) : State :=
  let x := svGet s n
  let a := x.intruder.judge (Tab.get 0 x.tally 3).toNat
  let b := x.authFail.judge (Tab.get 0 x.tally 10).toNat
  let s := svPut s n { x with intruder := a, authFail := b }
  judgeRise (judgeRise s (keyS 0x2D80 n) 0 (slotHandle x.used x.gen n) a) (keyS 0x2DC0 n) 0 (slotHandle x.used x.gen n) b

/-- INTRUDER of a breaker slot (Table 7.7). -/
def intervalBrk (s : State) (n : Nat) : State :=
  let x := brkGet s n
  let a := x.intruder.judge (Tab.get 0 x.tally 3).toNat
  judgeRise (brkPut s n { x with intruder := a }) (keyB 0x2D80 n) 1 (slotHandle x.used x.gen n) a

/-- URGENT_DROP of a converter (Table 13.6). -/
def intervalConverter (s : State) (c : Nat) : State :=
  let r := (Tab.get {} s.adc.drops c).judge (tallyGet s 1 (9 + c))
  judgeRise { s with adc := { s.adc with drops := Tab.put {} s.adc.drops c r } } (keyC 0x4240 c) 0 none16 r

/-- Discarded intake samples, refused entries and unlisted requests (Tables 10.6, 17.12, 18.9), and saturation that has ended (log 135). -/
def intervalUnit (s : State) : State :=
  let s := saturationQuiet s
  let i := s.intakeRise.judge (tallyGet s 1 8)
  let q := s.refusedRise.judge (tallyGet s 1 32)
  let u := s.recallSvc.unlisted.judge (tallyGet s 1 27)
  let s := { s with intakeRise := i, refusedRise := q, recallSvc := { s.recallSvc with unlisted := u } }
  judgeRise (judgeRise (judgeRise s (keyU 0x31C0) 0 none16 i) (keyU 0x4500) 0 none16 q) (keyU 0x4D00) 0 none16 u

/-- Frames discarded and sent again on the carry link, its lanes and the pair's inputs (Table 16.13). -/
def intervalCarry (s : State) : State :=
  if !isTwin s then s
  else
    let r := s.pair.crcRise.judge (s.pair.lane0.discarded + s.pair.lane0.resent + s.pair.lane1.discarded + s.pair.lane1.resent)
    let s := judgeRise { s with pair := { s.pair with crcRise := r } } (keyU 0x2980) 0 none16 r
    judgeAgreement (judgeLanes s)

/-- A fault whose cause goes after 1.0 s without an error (R43, Table 17.12). -/
def quietSecond (s : State) (k : FaultKey) (last : Option Nat) : State :=
  match last with
  | some t => if ticksPerSec ≤ s.now - t then causeGone s k else s
  | none => s

/-- Crossing-queue and ring errors that have not come again (R43, Table 17.12). -/
def intervalParity (s : State) : State :=
  let s := [Port.p0, .p1, .s0, .s1].foldl (fun s p => quietSecond s (portKey 0x1A40 p) (portGet s p).parityAt) s
  quietSecond (quietSecond s (keyU 0x29C0) s.pair.parityAt) (keyU 0x49C0) s.ringErrAt

/-- TALLY_INTERVAL: every tally that a fault watches. -/
def tallyInterval (s : State) : State :=
  let s := [Port.p0, .p1, .s0, .s1].foldl intervalPort s
  let s := (s.streams.sv.map (·.1)).foldl intervalSv s
  let s := (s.streams.brk.map (·.1)).foldl intervalBrk s
  intervalParity (intervalCarry (intervalUnit ((List.range 18).foldl intervalConverter s)))

/-- TALLY_INTERVAL (R255). -/
def execTallyInterval (s : State) : Host.Outcome State Fault Refusal :=
  run (fun s => if coreRuns s then settlePair (tallyInterval s) else s) s

/-- The periodic instant at index (s, 0) of the latest second released, where s is divisible by 60 × `G.SNAP_PERIOD` (R190, R672); it is taken
once. -/
def periodicSnapshot (s : State) : State :=
  let i : SIndex := ⟨s.journal.latest.sec, 0⟩
  if i.sec % (60 * gSnapPeriod (rods s)) = 0 && !s.journal.snapAt.contains (4, i) then allSnapshots s 4 i else s

/-- PERIODIC_SNAPSHOT (R672). -/
def execPeriodicSnapshot (s : State) : Host.Outcome State Fault Refusal := run (fun s => if coreRuns s then periodicSnapshot s else s) s

end Sys2Proof.Machine
end

