-- ==== Sys2Proof/Machine/Lend.lean ====
section
/-! DEFINITION. Receipts, lends, unagreed releases and decision records (R628 to R633, R647, R648). -/
namespace Sys2Proof.Machine

/-! Receipts (R629) -/

/-- An entry of agreement that a single-index receipt names. -/
def receiptNames (s : State) (r : ReceiptRec) (h : Held) : Bool := receiptFits s r h.sample.slot h.sample.idx

/-- The index that a receipt names has passed at this unit: it lies within a quarter of the rate before the next one. -/
def receiptPassed (s : State) (r : ReceiptRec) : Bool :=
  let x := svGet s r.slot
  let rate := strapRate s
  x.phase == .admitted && decide (0 < (x.next.cnt + rate - r.first) % rate) && decide (4 * ((x.next.cnt + rate - r.first) % rate) ≤ rate)

/-- A partner's receipt of one index (R629): it confirms what is held, or is kept until the sample comes. -/
def takeReceipt (s : State) (r : ReceiptRec) : State :=
  match s.pair.held.find? (receiptNames s r) with
  | some h => advanceSlot (confirmHeld s h r.digest) r.slot
  | none =>
    if s.pair.candidates.any (receiptNames s r) then
      { s with pair := { s.pair with candidates := s.pair.candidates.filter (fun h => !receiptNames s r h) } }
    else if receiptPassed s r then s
    else { s with pair := { s.pair with receipts := s.pair.receipts ++ [r] } }

/-- A partner's receipt of a breaker message. -/
def takeBrkReceipt (s : State) (r : ReceiptRec) : State :=
  let named := fun (h : HeldBrk) => h.slot == r.slot && h.msg.stNum % 65536 == r.first && !h.confirmed
  match s.pair.heldBrk.findIdx? named with
  | some i => brkAdvance { s with pair := { s.pair with heldBrk := s.pair.heldBrk.modify i (fun h => { h with confirmed := true }) } }
  | none => { s with pair := { s.pair with receipts := s.pair.receipts ++ [r] } }

/-- RECEIPT (R629). -/
def receiptArrived (s : State) (rs : List ReceiptRec) : State :=
  rs.foldl (fun s r =>
    if 2 ≤ r.kind.val then takeBrkReceipt s r else (receiptBits s r).foldl takeReceipt s) s

/-- Agreement is in force, now or from an index to come (R628). -/
def inAgreement (s : State) : Bool := sharesJournal s

/-- RECEIPT (R629). -/
def execReceipt (h : CarryHdr) (rs : List ReceiptRec) (s : State) : Host.Outcome State Fault Refusal :=
  run (onCarry h (fun s => if serving s && inAgreement s then receiptArrived s rs else s)) s

/-! Lends (R629, R631, R632, R647) -/

/-- Answer a lend with receipts of kind lent (R629). -/
def answerLend (s : State) (r : ReceiptRec) (kind : Fin 4) : State := sendOrdered s (.receipt [{ r with kind := kind }])

/-- A sample lent to this unit. -/
def lentHeld (r : ReceiptRec) (a : LentAsdu) : Held :=
  { sample := { slot := r.slot, idx := a.idx, kind := .received, chans := a.chans, blocked := false, jumped := false }
    digest := r.digest, own := false, held := true, confirmed := true }

/-- A lend that reaches the Active after it has declared the index missing is answered with REFUSE_LEND, and tallied LATE (R631). -/
def lentLate (s : State) (n : Nat) (i : SIndex) : State :=
  decide_ (svPut s n (svTally (svGet s n) 7 1)) [.refuseLend n i]

/-- smpSynch of a lent ASDU is the slot's unless a later ASDU has been received (R277). -/
def noteLent (s : State) (n : Nat) (a : LentAsdu) : State :=
  let x := svGet s n
  let later := fun (y : Sample) => y.slot == n && y.kind == .received && a.idx.lt y.idx
  if s.pair.held.any (fun h => h.held && later h.sample) || x.hist.any later then s
  else svPut s n { x with smpSynch := a.smpSynch }

/-- One lent ASDU of an admitted slot. -/
def takeLent (s : State) (r : ReceiptRec) (a : LentAsdu) : State :=
  let n := r.slot
  let i := a.idx
  match findHeld s n i with
  | some e =>
    if e.sample.kind == .missing then (if decides s then lentLate s n i else svPut s n (svTally (svGet s n) 7 1))
    else if e.held then s
    else
      let s := mapHeld (noteLent s n a) n i (fun e => { lentHeld r a with sample := { (lentHeld r a).sample with jumped := e.sample.jumped } })
      advanceSlot (answerLend s { r with bitmap := 1, first := i.cnt, secLo := i.sec % 256 } 1) n
  | none =>
    let x := svGet s n
    let one : ReceiptRec := { r with bitmap := 1, first := i.cnt, secLo := i.sec % 256 }
    if decides s then
      if x.phase != .admitted then s
      else if x.missed.contains i then lentLate s n i
      else if i.lt x.next then s
      else alignAsdu (answerLend (noteLent s n a) one 1) n (lentHeld r a)
    else if x.phase == .admitted && i.lt x.next then s
    else advanceSlot (followSample (answerLend (noteLent s n a) one 1) (lentHeld r a)) n

/-- A whole frame lent for a candidate slot: it counts as received, unless this unit has it. -/
def takeLentFrame (s : State) (r : ReceiptRec) (f : SvFrame) : State :=
  let n := r.slot
  if decides s then
    match (svGet s n).phase with
    | .candidate _ last => if last = lastCnt f then s else decideFrame (answerLend s r 1) n f
    | _ => decideFrame (answerLend s r 1) n f
  else
    let l := (frameHelds s n f true).map (fun h => { h with own := false, confirmed := true })
    advanceSlot (l.foldl (fun s h =>
      match findHeld s n h.sample.idx with
      | some _ => s
      | none => followSample s h) (answerLend s r 1)) n

/-- A breaker message lent: held unless this unit has it. -/
def takeLentBrk (s : State) (r : ReceiptRec) (m : BrkMsg) : State :=
  let n := r.slot
  let x := brkGet s n
  let has := s.pair.heldBrk.any (fun h => h.slot == n && h.msg.stNum == m.stNum && h.msg.sqNum == m.sqNum)
    || s.pair.brkDue.any (fun d => d.1 == n && (match d.2.1 with
      | .message k _ => k.stNum == m.stNum && k.sqNum == m.sqNum
      | _ => false))
    || (x.phase != .free && x.stNum == m.stNum && x.sqNum == m.sqNum)
  if has then s else brkHold (answerLend s r 3) n m true

/-- LEND (R629). -/
def lendArrived (s : State) (b : LendBody) : State :=
  match b with
  | .asdus r l => l.foldl (fun s a => takeLent s r a) s
  | .svFrame r f => takeLentFrame s r f
  | .breaker r m => takeLentBrk s r m

/-- LEND (R629). -/
def execLend (h : CarryHdr) (b : LendBody) (s : State) : Host.Outcome State Fault Refusal :=
  run (onCarry h (fun s => if serving s && inAgreement s then lendArrived s b else s)) s

/-- An unconfirmed breaker message of a slot, named by the low 16 bits of its stNum. -/
def brkUnconfirmed (s : State) (n : Nat) (i : SIndex) : Option HeldBrk :=
  s.pair.heldBrk.find? (fun h => h.slot == n && h.msg.stNum % 65536 == i.cnt && !h.confirmed)

/-- LEND_TIMEOUT: still unconfirmed 1.2 µs after its receipt, the sample is lent (R629). -/
def lendTimeout (s : State) (n : Nat) (i : SIndex) : State :=
  match findHeld s n i, s.pair.candidates.find? (isEntry n i) with
  | some h, _ => if h.held && !h.confirmed && h.sample.kind == .received then lendHeld s h else s
  | none, some h => lendHeld s h
  | none, none =>
    match brkUnconfirmed s n i with
    | some h => carrySend s 0 (.lend (.breaker (brkReceipt 2 n h.msg) h.msg))
    | none => s

/-- LEND_TIMEOUT (R629). -/
def execLendTimeout (slot : Fin 1024) (idx : SIndex) (s : State) : Host.Outcome State Fault Refusal :=
  run (fun s => if serving s && inAgreement s then lendTimeout s slot.val idx else s) s

/-- What an unagreed release brings (R630): the Active publishes on both LANs, a Standby rejoins. -/
def unagreed (s : State) : State :=
  let s := judgeFault (abandonBoth { s with pair := { s.pair with unagreed := true } }) (keyU 0x56C0) 0 none16 true
  if s.pair.state == .active then { s with pair := { s.pair with bothLans := true } }
  else if s.pair.state == .standby then toRejoinOrShadow s
  else s

/-- UNAGREED_RELEASE (R630): the sample passes unconfirmed. -/
def unagreedRelease (s : State) (n : Nat) (i : SIndex) : State :=
  match findHeld s n i with
  | some h =>
    if h.held && !h.confirmed && h.sample.kind == .received then
      unagreed (advanceSlot (mapHeld s n i (fun h => { h with confirmed := true })) n)
    else s
  | none =>
    match brkUnconfirmed s n i with
    | some h =>
      unagreed (brkAdvance { s with pair := { s.pair with heldBrk := s.pair.heldBrk.map (fun x => if x = h then { x with confirmed := true } else x) } })
    | none => s

/-- UNAGREED_RELEASE (R630). -/
def execUnagreedRelease (slot : Fin 1024) (idx : SIndex) (s : State) : Host.Outcome State Fault Refusal :=
  run (fun s => if serving s && inAgreement s then settlePair (withTwin (fun s => unagreedRelease s slot.val idx) s) else s) s

/-! Decisions (Table 16.8) -/

/-- What a follower holds of a slot meets the receipts that came ahead of it. -/
def meetReceipts (s : State) (n : Nat) : State :=
  (s.pair.held.filter (fun h => h.sample.slot == n && !h.confirmed)).foldl (fun s h =>
    match receiptOf s n h.sample.idx with
    | some r => confirmHeld (dropReceipt s n h.sample.idx) h r.digest
    | none => s) s

/-- smpSynch and gmIdentity of the newest held frame of an identity (R277, R278). -/
def noteHeld (s : State) (n : Nat) (d : StreamIdent) : State :=
  match (s.pair.held.filterMap (fun h => if h.sample.slot == n then h.frame else none)).reverse.find? (fun f => identOf f = d) with
  | some f => svPut s n (noteSynch (svGet s n) f)
  | none => s

/-- What a Standby held of a slot that was not admitted, from other sources or of another identity than the one admitted: intruders and
inconsistent frames, tallied once a frame (R267, R292). -/
def tallyOthers (s : State) (n : Nat) (d : StreamIdent) (first : SIndex) : State :=
  let mine := s.pair.held.filter (fun h => h.sample.slot == n)
  let foreign := (mine.filterMap (fun h => h.frame)).eraseDups.filter (fun f => f.src != d.src)
  let other := ((mine.filter (fun h => !h.sample.idx.lt first)).filterMap (fun h => h.frame)).eraseDups.filter (fun f => f.src == d.src && identOf f != d)
  svPut s n (svTally (svTally (svGet s n) 3 foreign.length) 2 other.length)

/-- ADMIT: the slot is admitted as the Active names it; its held samples take indices from the first pipeline ASDU on. -/
def applyAdmit (s : State) (n gen : Nat) (d : StreamIdent) (sec : Nat) (first : SIndex) : State :=
  let s := admitSlot (noteHeld (tallyOthers s n d first) n d) n gen d sec first
  let x := svGet s n
  let mine := ((s.pair.held.filter (fun h => h.sample.slot == n)).filter (fun h => h.frame.all (fun f => identOf f == d))).map (fun h =>
    { h with frame := none, sample := { h.sample with idx := followIndex s x h.sample.idx } })
  let rest := s.pair.held.filter (fun h => h.sample.slot != n)
  advanceSlot (meetReceipts (setHeld s (rest ++ mine.filter (fun h => !h.sample.idx.lt first))) n) n

/-- MISSING: each index is missing, though this unit may hold it; a held copy is discarded and tallied LATE (R292). -/
def applyMissing (s : State) (n : Nat) (i : SIndex) : State :=
  match findHeld s n i with
  | some h =>
    let s := if h.held then svPut s n (svTally (svGet s n) 7 1) else s
    setHeld s (s.pair.held.map (fun h => if isEntry n i h then missingHeld n i else h))
  | none => setHeld s (s.pair.held ++ [missingHeld n i])

/-- JUMP of Table 7.4a: the slot goes on at the named ASDU; samples held beyond the old run take the new second. -/
def applyJump (s : State) (n : Nat) (first : SIndex) : State :=
  let rate := strapRate s
  let x := svGet s n
  let near := fun (i : SIndex) => !i.lt x.next && i.lt (addIndex rate x.next (rate / 4))
  let l := s.pair.held.map (fun h =>
    let d := (h.sample.idx.cnt + rate - first.cnt) % rate
    if h.sample.slot == n && !near h.sample.idx && 4 * d ≤ rate then { h with sample := { h.sample with idx := addIndex rate first d } } else h)
  let l := if l.any (isEntry n first) then l else l ++ [awaitedHeld n first]
  let s := setHeld s (l.map (fun h => if isEntry n first h then { h with sample := { h.sample with jumped := true } } else h))
  meetReceipts (svPut s n (svTally (svGet s n) 8 1)) n

/-- A JUMP with REFIX: from the named ASDU on, the seconds of the slot are those of the Active, and nothing blocks (R340). An ASDU
that has not passed here turns the slot when it does. -/
def applyRefix (s : State) (n : Nat) (first : SIndex) : State :=
  let x := svGet s n
  let old := nearIndex (strapRate s) x.next first.cnt
  let s := svPut s n (if x.next.lt old then { x with turn := some (old, first) } else shiftSeconds x old.sec first.sec)
  meetReceipts (setHeld s (s.pair.held.map (fun h =>
    if h.sample.slot == n then { h with sample := { h.sample with idx := turnIndex old first h.sample.idx } } else h))) n

/-- The Active's record of a decision on a breaker slot (R292, R454): the message it names, of those held, leaves them, and takes effect
at the index. -/
def dueBreaker (s : State) (n : Nat) (a : BrkAct) (i : SIndex) : State :=
  { s with pair := { s.pair with brkDue := s.pair.brkDue ++ [(n, a, i)] } }
def namedBreaker (s : State) (n stNum sqNum tick : Nat) (i : SIndex) : State :=
  match s.pair.heldBrk.find? (fun h => h.slot == n && h.msg.stNum == stNum && h.msg.sqNum == sqNum) with
  | some h => dueBreaker { s with pair := { s.pair with heldBrk := s.pair.heldBrk.erase h } } n (.message h.msg tick) i
  | none => s

/-- One decision record at a unit that applies them. -/
def applyDecision (s : State) (d : DecisionRec) : State :=
  match d with
  | .index i tq => noteAgreed s i tq
  | .admission n gen ident sec first =>
    if (svGet s n).phase == .admitted && (svGet s n).gen == gen then s else applyAdmit s n gen ident sec first
  | .destroy n i => applyDestroys { s with pair := { s.pair with svDue := s.pair.svDue ++ [(n, i)] } }
  | .missing n first count =>
    advanceSlot ((List.range count).foldl (fun s k => applyMissing s n (addIndex (strapRate s) first k)) s) n
  | .jump n _ first refix => if refix then advanceSlot (applyRefix s n first) n else advanceSlot (applyJump s n first) n
  | .refuseLend n i =>
    if (findHeld s n i).isSome then setHeld (svPut s n (svTally (svGet s n) 7 1)) (s.pair.held.filter (fun h => !isEntry n i h)) else s
  | .input ch st valid i =>
    journalEntry { s with pair := { s.pair with inputs := s.pair.inputs ++ [(ch, st, valid, i)] } } (inputDecision s ch.val st valid i)
  | .present ch st valid =>
    let c := Tab.get {} s.field.ch ch.val
    { s with field := { s.field with ch := Tab.put {} s.field.ch ch.val { c with state := st, invalid := !valid } } }
  | .breaker n stNum sqNum tick i => namedBreaker s n stNum sqNum tick i
  | .brkExpired n i => dueBreaker s n .expired i
  | .brkDestroyed n i => dueBreaker s n .destroyed i

/-- DECISION (R632): records apply in the order received (R648). -/
def execDecision (h : CarryHdr) (ds : List DecisionRec) (s : State) : Host.Outcome State Fault Refusal :=
  run (onCarry h (fun s => if serving s && !decides s then noteInputs (ds.foldl applyDecision s) else s)) s

end Sys2Proof.Machine
end

