-- ==== Sys2Proof/Machine/Release.lean ====
section
/-! DEFINITION. The release of a sample to stage 6, its passage through both lanes, and the check pattern (R35, R396 to R400, R406, R410,
R630). -/
namespace Sys2Proof.Machine

/-- A snapshot that waits applies before the first sample of its index n1 (Table 16.12, steps 5 and 6): the zones and publications of the
Active, and the unit is Standby, with every stNum persisted. -/
def applySnapshot (s : State) (b : SnapBody) : State :=
  let before := commanded s
  let s := (b.zones.filter (fun p => p.1 < 256)).foldl (fun s p => zonePut s p.1 p.2) s
  let mine := b.pubs.filter (fun p => p.1 < 256)
  let s := mine.foldl (fun s p => pubPut s p.1 p.2) s
  let s := { s with nvm := { s.nvm with stNum := mine.foldl (fun (t : Tab Nat) (p : Nat × Publication) => Tab.put 0 t p.1 p.2.stNum) s.nvm.stNum } }
  let s := { s with ports := { s.ports with seqPair := b.pairSeq }, pair := { s.pair with state := .standby, partnerState := 2 } }
  formedNow (coilsFollow before s)

/-- A snapshot applies when index i reaches n1. -/
def snapshotAt (s : State) (i : SIndex) : State :=
  match s.pair.snapDue with
  | some b => if i.lt b.n1 || s.pair.state != .rejoining then s else applySnapshot s b
  | none => s

/-- What a sample brings to the pair, to the inputs of the zones and to the breaker slots before its words are formed (R454). -/
def beforeSample (s : State) (x : Sample) : State :=
  let s := judgeInputs (snapshotAt s x.idx) x.idx
  let s := pairBoundary { s with journal := { s.journal with latest := x.idx } } x.idx
  applyBreakers (applyInputs (agreeIndex s x.idx) x.idx) x.idx

/-- A sample on which both lanes agree goes through stages 6 to 11; one of an unbound slot reaches the ring alone (R294). DESIGN CHOICE
(log 171): the windows of a slot that no zone binds any more are cleared, so bound again it starts with empty ones. -/
def processSample (s : State) (x : Sample) (o y : LaneOut) (formed : Bool) : State :=
  let s := ringWrite s x
  if !formed then (if (pipeGet s x.slot).win = [] && (pipeGet s x.slot).span = [] then s else pipeClear s x.slot)
  else
    let s := lanesPut s x.slot o.pipe y.pipe
    match o.idx with
    | some i => let s := saturation s x.slot o.sat; streamBack (evalIndexed s x.slot i) x.slot
    | none => s

/-- A sample fails the lane comparison, or a lane memory its parity: it produces nothing, and the unit withdraws (R35, R397,
R400, R410). -/
def laneFailure (s : State) (x : Sample) (differ : Option (Nat × Nat × Nat)) (parityOk : Bool) : State :=
  let s := match differ with
    | some (q, kind, xor) =>
      arise s (keyU 0x3100) 0 (if x.slot < 1024 then handleOf (svGet s x.slot).gen x.slot else none16)
        (ownPayload 40 [x.idx.sec, x.idx.cnt, x.slot, q, kind, xor])
    | none => s
  if parityOk then s else ariseU s 0x3180 0

/-- Both lanes take a sample, lane Y after lane X, and the words of both are compared before any is released (R396, R397). -/
def takeSample (s : State) (x : Sample) (lanes : Lanes) : State :=
  let s := beforeSample s x
  let formed := decide (1024 ≤ x.slot) || bound s x.slot
  let o := laneTake s (pipeGet s x.slot) lanes.x formed x
  let y := laneTake s (Tab.get {} s.pipesY x.slot) lanes.y formed x
  let differ := laneDiffer o.words y.words
  if differ.isSome || !o.parityOk || !y.parityOk then laneFailure s x differ (o.parityOk && y.parityOk) else processSample s x o y formed

/-- Take the head off the intake. -/
def popIntake (s : State) : State := { s with streams := { s.streams with intake := s.streams.intake.tail } }

/-- The head of the intake is released and processed (R630). -/
def releaseNext (s : State) (lanes : Lanes) : State :=
  match s.streams.intake with
  | [] => s
  | x :: _ => if !serving s || !releasable s x then s else enterDue (applyDestroys (updateDue (takeSample (popIntake s) x lanes) x.slot))

/-- SAMPLE_RELEASE (R630). -/
def execSampleRelease (lanes : Lanes) (s : State) : Host.Outcome State Fault Refusal := run (fun s => judgeSummary (releaseNext s lanes)) s

/-- The signature, where a pattern has ended, is that fixed in the logic (R398, R412). -/
def signatureOk (s : State) (p : PatternRun) : Bool := p.signature.all (· == Config.checkSignature (fNom s) (strapRate s))

/-- A check-pattern sample passes both lanes while the intake is empty (R398): their results are compared with each other, and at the end
of a pattern with the signature fixed in the logic (log 136). -/
def checkPattern (s : State) (p : PatternRun) : State :=
  if !coreRuns s || !s.power.laneTestPassed || s.streams.intake ≠ [] then s
  else
    let s := if p.x = p.y then s else ariseU s 0x3100 0
    let s := if signatureOk s p then s else ariseU s 0x3140 0
    if p.parityOk then s else ariseU s 0x3180 0

/-- CHECK_PATTERN (R398). -/
def execCheckPattern (lanes : Nat × Nat) (signature : Option Nat) (parityOk : Bool) (s : State) : Host.Outcome State Fault Refusal :=
  run (fun s => judgeSummary (checkPattern s { x := lanes.1, y := lanes.2, signature := signature, parityOk := parityOk })) s

end Sys2Proof.Machine
end

