-- ==== Sys2Proof/Machine/PairJournal.lean ====
section
/-! DEFINITION. The journals of a pair, rejoin and resync (R634, R641, R642, R649, R661, R799), and the commit of an entry (R664). -/
namespace Sys2Proof.Machine

/-- A journal check fails (R649): a Standby, or a rejoiner that has become one of the pair, goes to Rejoining; an Active that still awaited
numbers of the old one numbers what it holds itself. -/
def checkFails (s : State) : State :=
  let s := judgeFault { s with pair := { s.pair with numbered := [] } } (keyU 0x5740) 0 none16 true
  if s.pair.state == .active then reclaimEntries s else toRejoinOrShadow s

/-- The next entry is committed: first those that have their number; an Active that waits for its predecessor's numbers commits none
(R661, R686). -/
def journalCommit (s : State) (reads : CommitReads) : State :=
  if s.pair.numbered ≠ [] then (match commitNumbered s reads with
    | some t => t
    | none => settlePair (withTwin checkFails s))
  else if s.pair.state == .active && s.pair.pairEntries ≠ [] then s
  else commitNext s reads

/-- JOURNAL_COMMIT (R664): stNum writes come first at the MRAM port (R792). -/
def execJournalCommit (reads : CommitReads) (s : State) : Host.Outcome State Fault Refusal :=
  run (fun s => if journalOpen s && storeOn s && (stnumNext s).isNone then judgeSummary (journalCommit s reads) else s) s

/-- The JSEQ after the last entry that has its number. -/
def nextNumber (s : State) : Nat :=
  match s.pair.numbered.getLast? with
  | some x => x.1 + 1
  | none => s.journal.jseq + 1

/-- The ECRC of the last numbered entry, along this unit's own chain (JCHECK). -/
def chainCrc (s : State) : Nat := s.pair.numbered.foldl (fun prev x => entryCrc x.1 prev x.2.1) s.journal.lastCrc.toNat

/-- A numbered entry joins the commit path and is checked back to the Active (R661). -/
def joinNumbered (s : State) (j : Nat) (e : Entry) (compared : Bool) : State :=
  let s := { s with pair := { s.pair with numbered := s.pair.numbered ++ [(j, e, compared)] } }
  if compared then carrySend s 1 (.jcheck j (BitVec.ofNat 32 (chainCrc s))) else s

/-- An entry with its number (R661): a unit entry of this unit leaves those sent; a pair entry is compared with this unit's copy, at its
commit when its index has not yet ended here. -/
def numberedArrived (s : State) (c : CarriedEntry) : State :=
  let x := entryOf c
  if c.jseq < nextNumber s then s
  else if nextNumber s < c.jseq then checkFails s
  else if !x.pair then
    let own := fun (y : Entry) => { y with fault := none } == x
    let f := ((s.pair.unitEntries ++ s.journal.queue).find? own).bind (·.fault)
    drainHolds 64 (joinNumbered { s with
      pair := { s.pair with unitEntries := s.pair.unitEntries.eraseP own }
      journal := { s.journal with queue := s.journal.queue.eraseP own } } c.jseq { x with fault := f } true)
  else
    match comparePair s x with
    | some t => joinNumbered t c.jseq x true
    | none => if indexEnded s x.idx then checkFails s else joinNumbered s c.jseq x false

/-- A JENTRY frame arrives: at the Active a unit entry to number, else an entry the Active has numbered. -/
def jentryArrived (s : State) (c : CarriedEntry) : State :=
  if c.jseq = 0 then
    if s.pair.state == .active && sharesJournal s then { s with journal := { s.journal with queue := s.journal.queue ++ [entryOf c] } } else s
  else if numberedByPartner s || (s.pair.state == .active && s.pair.pairEntries ≠ []) then numberedArrived s c
  else s

/-- JENTRY (R661). -/
def execJentry (h : CarryHdr) (e : CarriedEntry) (s : State) : Host.Outcome State Fault Refusal :=
  run (onCarry h (fun s => jentryArrived s e)) s

/-- The Standby's check reaches the Active (R661): a difference is a journal check failure. -/
def jcheckArrived (s : State) (jseq : Nat) (ecrc : BitVec 32) : State :=
  match (allCommitted s).find? (fun c => c.jseq == jseq) with
  | some c => if s.pair.state == .active && c.ecrc != ecrc then judgeFault s (keyU 0x5740) 0 none16 true else s
  | none => s

/-- JCHECK (R661). -/
def execJcheck (h : CarryHdr) (jseq : Nat) (ecrc : BitVec 32) (s : State) : Host.Outcome State Fault Refusal :=
  run (onCarry h (fun s => jcheckArrived s jseq ecrc)) s

/-! Rejoin (Table 16.12) -/

/-- An SV slot taken over from the Active's handle table: the windows of a slot already admitted under the same handle stay. -/
def takeSlot (s : State) (n gen : Nat) (d : StreamIdent) (next : SIndex) : State :=
  let x := svGet s n
  if x.phase == .admitted && x.gen == gen && x.ident == d then svPut s n { x with next := next, refix := false, turn := none }
  else
    pipeClear (svPut s n { x with
      phase := .admitted, gen := gen, used := true, ident := d, next := next, since := next, first := next, missed := [], run := 0, gap := false
      blockLeft := 0, hist := [], refix := false, turn := none, due := next }) n

/-- The Active's handle table (Table 16.12, step 3): every slot it does not list is free. -/
def takeTable (s : State) (slots : List (Nat × Nat × StreamIdent × SIndex)) (brks : List (Nat × BrkSlot)) : State :=
  let gone := (s.streams.sv.map (·.1)).filter (fun n => n < 1024 && !slots.any (fun p => p.1 == n))
  let s := gone.foldl (fun s n =>
    let x := svGet s n
    pipeClear (svPut s n { gen := x.gen, used := x.used, tally := x.tally, intruder := x.intruder, authFail := x.authFail }) n) s
  let s := slots.foldl (fun s p => if p.1 < 1024 then takeSlot s p.1 p.2.1 p.2.2.1 p.2.2.2 else s) s
  let keep := fun (n : Nat) (b : BrkSlot) => { b with tally := (brkGet s n).tally, intruder := (brkGet s n).intruder }
  let s := { s with streams := { s.streams with
    intake := s.streams.intake.filter (fun y => !gone.contains y.slot)
    brk := brks.foldl (fun (t : Tab BrkSlot) (p : Nat × BrkSlot) => if p.1 < 256 then Tab.put {} t p.1 (keep p.1 p.2) else t) [] } }
  slots.foldl (fun s p => updateDue s p.1) s

/-- The Active sends the rejoiner its entries after the last common one, its handle table and its stNum values, naming n0 (Table 16.12,
steps 2 and 3). -/
def sendState (s : State) (last : Nat) (n0 : SIndex) : State :=
  let slots := (s.streams.sv.filter (fun p => p.1 < 1024 && p.2.phase == .admitted)).map (fun p => (p.1, p.2.gen, p.2.ident, p.2.next))
  let journal := ((allCommitted s).filter (fun c => last < c.jseq)).map (fun c => carriedOf c.jseq c.prevCrc.toNat c.entry)
  carrySend s 1 (.resyncState last journal slots s.streams.brk s.nvm.stNum n0)

/-- RESYNC (R641, steps 1 to 3): the rejoiner takes the Active's journal, stNum values and handle table, and agreement runs from n0; the
Active takes the rejoiner's branch and sends its own state, naming n0. -/
def resyncArrived (s : State) (last : Nat) (journal : List CarriedEntry) (slots : List (Nat × Nat × StreamIdent × SIndex))
    (brks : List (Nat × BrkSlot)) (stnums : List (Nat × Nat)) (n0 : SIndex) : State :=
  let agree := { s with pair := { s.pair with rejoin := .agreeing n0 } }
  match s.pair.state, s.pair.rejoin with
  | .rejoining, .journals => takeTable (takeStnums (takeJournal agree last journal) stnums) slots brks
  | .active, .journals => sendState (takeBranch agree last journal) (lastCommon s last journal) n0
  | _, _ => s

/-- RESYNC (R641). -/
def execResync (h : CarryHdr) (last : Nat) (journal : List CarriedEntry) (slots : List (Nat × Nat × StreamIdent × SIndex))
    (brks : List (Nat × BrkSlot)) (stnums : List (Nat × Nat)) (n0 : SIndex) (s : State) : Host.Outcome State Fault Refusal :=
  run (onCarry h (fun s => resyncArrived s last journal slots brks stnums n0)) s

/-- SNAPSHOT (R641, steps 5 and 6): it waits for index n1, unless that index can have no sample any more. -/
def snapshotArrived (s : State) (b : SnapBody) : State :=
  match s.pair.state, s.pair.rejoin with
  | .rejoining, .agreeing _ => if indexEnded s b.n1 then applySnapshot s b else { s with pair := { s.pair with snapDue := some b } }
  | _, _ => s

/-- SNAPSHOT (R641). -/
def execSnapshot (h : CarryHdr) (zones : List (Nat × Zone)) (pubs : List (Nat × Publication)) (pairSeq : BitVec 16) (n1 : SIndex)
    (s : State) : Host.Outcome State Fault Refusal :=
  run (onCarry h (fun s => snapshotArrived s { n1 := n1, zones := zones, pubs := pubs, pairSeq := pairSeq })) s

/-- A rejoin that has not reached step 6 within 5.0 s starts again (R642); three in succession raise the fault (Table 16.13). -/
def rejoinTimeout (s : State) : State :=
  match s.pair.rejoin with
  | .none => s
  | _ =>
    let n := s.pair.rejoinRuns + 1
    let s := if s.pair.state == .rejoining then toRejoining s else rejoinPartner s
    let s := { s with pair := { s.pair with rejoinRuns := n } }
    if 3 ≤ n then judgeFault s (keyU 0x5780) 0 none16 true else s

/-- REJOIN_TIMEOUT (R642). -/
def execRejoinTimeout (s : State) : Host.Outcome State Fault Refusal :=
  run (fun s => if isTwin s && serving s then settlePair (rejoinTimeout s) else s) s

end Sys2Proof.Machine
end

