-- ==== Sys2Proof/Machine/Plug.lean ====
section
/-! DEFINITION. The plug: presence, scans and images, COMMIT_IN, quiescence and the commit (chapter 4, R34, R149 to R166, R741). -/
namespace Sys2Proof.Machine

/-! Presence and scans (R61, R62, R141 to R145) -/

/-- The states in which the plug reader works from the end of start-up reading on (R143, Table 4.6). -/
def plugServes (s : State) : Bool :=
  coreRuns s && (match s.power.engine with
    | .withheld | .serving => true
    | .starting => s.power.step == .ports || s.power.step == .pairing
    | _ => false)

/-- A seating loop is open: it does not read below 100 Ω (R62). -/
def loopOpen (r : Option Nat) : Bool :=
  match r with
  | some o => decide (100 ≤ o)
  | none => true

/-- The identity contacts read as a present plug (R62), PLG_TYPE by the strap method (R61, R65); the type that ST_PLUG requires is known
once the straps are decided (log 47). -/
def presentNow (s : State) (det1 det2 : Option Nat) (type : List Nat) : Bool :=
  !loopOpen det1 && !loopOpen det2 && strapNibble type == 4 && (!s.ident.decided || strap s 9 == 7)

/-- A hold that is timed stops being valid (R150). -/
def holdInvalid (s : State) : State :=
  match s.plug.hold with
  | .timing _ n => { s with plug := { s.plug with hold := .timing false n } }
  | _ => s

/-- Key of a domain fault. -/
def keyD (code d : Nat) : FaultKey := { code := code, scope := 9, inst := d }

/-- D8 is switched on for a scan, also after a loss (R100, R102), whose fault stays until the next entry to Starting (R725, Table 4.6). -/
def frameOn (s : State) : State :=
  { s with power := { s.power with domOn := addDomain s.power.domOn 8, domLost := s.power.domLost.filter (· != 8) } }
/-- D8 is switched off at the end of a scan (R102). -/
def frameOff (s : State) : State := { s with power := { s.power with domOn := s.power.domOn.filter (· != 8) } }

/-- The plug is found present again: D8 is switched on at once (R143). -/
def presenceGained (s : State) : State :=
  let again := plugServes s && !s.plug.present && !s.plug.scanning
  let s := { s with plug := { s.plug with present := true, absentMs := 0 } }
  if again then frameOn s else s

/-- The plug is found absent: an open loop breaks a scan (R142), a hold stops being valid (R150), a scan that has not begun is not made
(R143); after 10 ms the plug is removed (Table 4.6). -/
def presenceLost (s : State) (broken : Bool) : State :=
  let ms := if s.plug.present then 0 else min (s.plug.absentMs + 1) 10
  let s := if plugServes s && !s.plug.scanning then frameOff s else s
  let s := holdInvalid { s with plug := { s.plug with
    present := false, absentMs := ms, scanBroken := s.plug.scanBroken || (s.plug.scanning && broken) } }
  if ms = 10 && plugServes s && !faultStands s (keyU 0x1500) then ariseU s 0x1500 0 else s

/-- One reading of the presence monitor, 1.0 ms after the one before. -/
def presenceCheck (s : State) (det1 det2 : Option Nat) (type : List Nat) : State :=
  if presentNow s det1 det2 type then presenceGained s else presenceLost s (loopOpen det1 || loopOpen det2)

/-- PRESENCE_CHECK (R62): from step 2 of Table 3.3 on, whether D8 is on or off. -/
def execPresenceCheck (det1 det2 : Option Nat) (type : List Nat) (s : State) : Host.Outcome State Fault Refusal :=
  runIf (WellFormed.presence type) (fun s => if coreRuns s then judgeSummary (presenceCheck s det1 det2 type) else s) s

/-- PLUG_SCAN_START (R143): no scan starts while the plug is absent. -/
def execPlugScanStart (s : State) : Host.Outcome State Fault Refusal :=
  run (fun s =>
    if plugServes s && s.plug.present && !s.plug.scanning then
      let s := frameOn s
      { s with plug := { s.plug with scanning := true, scanBroken := false } }
    else s) s

/-- A stable image differs from the committed image in force; with none in force, always (R170). -/
def plugDiffers (s : State) (img : Image) : Bool := s.plug.image != some (stableRods img)

/-- The stable image is compared with the committed image (Table 4.6). -/
def comparePlug (s : State) : State :=
  match s.plug.stable with
  | none => s
  | some img => judgeFault s (keyU 0x1540) 0 none16 (plugDiffers s img)

/-- A stable image has been read: one equal to the committed image ends "plug removed" (Table 4.6). -/
def stableRead (s : State) (img : Image) : State :=
  let s := comparePlug { s with plug := { s.plug with stable := some img, unstableRun := 0 } }
  if s.plug.present && !plugDiffers s img then causeGoneU s 0x1500 else s

/-- A rescan counts in the hold (R150, R162). -/
def holdRescan (s : State) (img : Image) : State :=
  match s.plug.hold with
  | .timing v n => { s with plug := { s.plug with hold := .timing (v && s.plug.stable == some img) (n + 1) } }
  | _ => s

/-- A rescan yields a read image (R144, R145): identical to the one before it, it is stable. DESIGN CHOICE (log 143): the ten rescans of
"plug unstable" are counted from the one after that which formed the last stable image, discarded scans between them left out. -/
def rescanned (s : State) (img : Image) : State :=
  let s := holdRescan (causeGoneU { s with plug := { s.plug with mrefRun := 0 } } 0x15C0) img
  let same := s.plug.last == some img
  let s := { s with plug := { s.plug with last := some img } }
  if same then stableRead (causeGoneU s 0x1580) img
  else
    let n := s.plug.unstableRun + 1
    let s := { s with plug := { s.plug with unstableRun := n } }
    if 10 ≤ n then judgeFault s (keyU 0x1580) 0 none16 true else s

/-- A scan discarded by MREF_S (R142, Table 4.6). -/
def referenceFailed (s : State) : State :=
  let n := s.plug.mrefRun + 1
  let s := { s with plug := { s.plug with last := none, mrefRun := n } }
  if 3 ≤ n then judgeFault s (keyU 0x15C0) 0 none16 true else s

/-- A scan ends (R142, R144): a plug that is absent, or whose loop has opened, discards it, and so does a reference outside its band. -/
def scanEnd (s : State) (r : ScanReadings) : State :=
  let broken := s.plug.scanBroken || !s.plug.present
  let s := frameOff s
  let s := { s with plug := { s.plug with scanning := false, scanBroken := false } }
  if !plugServes s then s
  else if broken then { s with plug := { s.plug with last := none } }
  else if scanMrefBad r then referenceFailed s
  else rescanned s (imageOf r)

/-- SCAN_END (R144). -/
def execScanEnd (r : ScanReadings) (s : State) : Host.Outcome State Fault Refusal :=
  run (fun s => if s.plug.scanning then judgeSummary (scanEnd s r) else s) s

/-- The image against which a stable image is built (R155, R170): the one in force, or else the one in MRAM. -/
def earlierImage (s : State) : Option Rods := s.plug.image.or (bankImage s)

/-! Quiescence (R151, R163, R493) -/

/-- An element of the zone is started, or its 50BF or 79 is outside its idle states (R151, R480). -/
def zoneBusy (s : State) (z : Nat) : Bool :=
  let x := zoneGet s z
  startVerdict x || (zBfOn (rods s) z && x.bf != .idle)
    || (z79On (rods s) z && (match x.ar with
      | .ready | .open | .lockout => false
      | _ => true))

/-- The zones that keep a commit waiting: of those it changes, or of every Enabled zone with the global rows. -/
def busyZones (s : State) (new : Rods) : List Nat :=
  match s.plug.image with
  | none => []
  | some old =>
    if !serving s then []
    else
      let adc := adcInputs s
      ((enabledZones adc old).filter (fun z => globalDiffer old new || zoneChanged adc old new z)).filter (zoneBusy s)

/-- The new committed image of a stable image (R155). -/
def newImage (s : State) (img : Image) : Rods := buildImage img (earlierImage s)

/-- QUIESCENCE_MET (R151, R152): the new image is written to the inactive bank. -/
def quiescenceMet (s : State) (img : Image) : State :=
  if busyZones s (newImage s img) = [] then { s with plug := { s.plug with commit := .writing (newImage s img) } } else s

/-! COMMIT_IN (R121, R149 to R151, R161, R170) -/

/-- COMMIT_IN_ASSERTED (R149): timed in Withheld and Serving while no commit is pending; in Starting its timing begins later (R121). -/
def execCommitInAsserted (s : State) : Host.Outcome State Fault Refusal :=
  run (fun s =>
    if s.plug.hold != .idle then s
    else
      let timed := (s.power.engine == .withheld || s.power.engine == .serving) && s.plug.commit == .none && coreRuns s
      { s with plug := { s.plug with hold := if timed then .timing (s.plug.present && s.plug.stable.isSome) 0 else .spent } }) s

/-- COMMIT_IN_RELEASED (R149). -/
def execCommitInReleased (s : State) : Host.Outcome State Fault Refusal :=
  run (fun s => { s with plug := { s.plug with hold := .idle } }) s

/-- The stable image is judged after a complete valid hold (R151, R161, R170); with nothing to wait for, it is written at once. -/
def judgeHold (s : State) (img : Image) : State :=
  if !plugDiffers s img then journalEntry s (unitEntry s (ownCode 5 21) 1 0 none16 none16 (ownPayload 21 []))
  else if globalFails img then ariseU s 0x1680 0
  else quiescenceMet { s with plug := { s.plug with commit := .waiting img } } img

/-- HOLD_COMPLETE (R149 to R151). -/
def execHoldComplete (s : State) : Host.Outcome State Fault Refusal :=
  run (fun s =>
    match s.plug.hold, s.plug.stable with
    | .timing valid n, some img =>
      let ok := valid && 1 ≤ n && s.plug.commit == .none && plugServes s
      let s := { s with plug := { s.plug with hold := .spent } }
      if ok then judgeSummary (judgeHold s img) else s
    | .timing _ _, none => { s with plug := { s.plug with hold := .spent } }
    | _, _ => s) s

/-- QUIESCENCE_MET (R151). -/
def execQuiescenceMet (s : State) : Host.Outcome State Fault Refusal :=
  run (fun s =>
    match s.plug.commit with
    | .waiting img => quiescenceMet s img
    | _ => s) s

/-- The 10.0 s wait expires (R163): the commit is refused, and the entry names the zones that were not quiescent. -/
def quiescenceTimeout (s : State) (img : Image) : State :=
  let busy := busyZones s (newImage s img)
  if busy = [] then quiescenceMet s img
  else
    let s := { s with plug := { s.plug with commit := .none } }
    ariseU (journalEntry s (unitEntry s (ownCode 5 22) 2 0 none16 none16 (ownPayload 22 busy))) 0x16C0 0

/-- QUIESCENCE_TIMEOUT (R163). -/
def execQuiescenceTimeout (s : State) : Host.Outcome State Fault Refusal :=
  run (fun s =>
    match s.plug.commit with
    | .waiting img => judgeSummary (quiescenceTimeout s img)
    | _ => s) s

/-- COMMIT_DECISION (R152): the read-back of the inactive bank matches; the MRAM port serves stNum writes and commit steps first (R792). -/
def execCommitDecision (s : State) : Host.Outcome State Fault Refusal :=
  run (fun s =>
    match s.plug.commit with
    | .writing new =>
      if !storeOn s || mramWaits s then s
      else
        let s := fillBank s new
        { s with plug := { s.plug with commit := .decided new } }
    | _ => s) s

/-! The commit takes effect (R34, R153, R156, R157) -/

/-- The sample index whose boundary the counter stands at (R34, log 48). -/
def boundaryIndex (s : State) : SIndex := addIndex (strapRate s) ⟨s.time.sec, 0⟩ (roundDiv (s.time.ns * strapRate s) 1000000000).toNat

/-- Slots of a window that a commit destroys (R298). -/
def windowCut (base size base' size' : Nat) (n : Nat) : Bool := (base != base' || size' < size && size' ≤ n)

/-- SV and breaker slots at a commit (R298): destroyed with a new base, or at and above a smaller size. -/
def windowCommit (s : State) (old new : Rods) (i : SIndex) : State :=
  let cutSv := windowCut (gSvBase old) (gSvSize old) (gSvBase new) (gSvSize new)
  let s := ((s.streams.sv.map (·.1)).filter cutSv).foldl (fun s n =>
    let x := svGet s n
    match x.phase with
    | .admitted => destroySlot s n x.next
    | _ => svPut s n { x with phase := .free }) s
  let cutBrk := windowCut (gBrkBase old) (gBrkSize old) (gBrkBase new) (gBrkSize new)
  ((s.streams.brk.map (·.1)).filter cutBrk).foldl (fun s n =>
    match (brkGet s n).phase with
    | .admitted => brkDestroy s n i
    | _ => brkPut s n { brkGet s n with phase := .free }) s

/-- Rate-limit depths at a commit (R685). -/
def depthCommit (s : State) (old new : Rods) : State :=
  let depth := fun (r : Rods) (k sev : Nat) => (match gDepthOf r (blockOf (k / 65536)) with
    | some d => d
    | none => if sev = 2 then 16 else 8)
  { s with journal := { s.journal with
    buckets := s.journal.buckets.map (fun p => (p.1, { p.2 with
      used := depth new p.1 p.2.sev - min (depth old p.1 p.2.sev - p.2.used) (depth new p.1 p.2.sev) })) } }

/-- COIL slots at a commit (R366): each slot that regulates before or after it takes it at its first update. -/
def coilsCommit (s : State) (old : Rods) : State :=
  (List.range 32).foldl (fun s cc =>
    if coilEnabled old cc || coilEnabled (rods s) cc then coilPut s cc { coilGet s cc with due := true } else s) s

/-- A fault's scope instance that the image in force does not have any more, or whose slot no Enabled zone binds or uses (R741). -/
def instanceGone (s : State) (r : FaultRec) : Bool :=
  let code := r.code / 64 * 64
  match r.scope with
  | 1 => (match s.plug.image with
    | some im => judge (adcInputs s) im r.inst == .absent
    | none => false)
  | 2 => decide (gSvSize (rods s) ≤ r.inst) || (code == 0x2D00 && !(s.plug.image.map (fun im => boundIn s im r.inst)).getD false)
  | 3 => decide (gBrkSize (rods s) ≤ r.inst) || (code == 0x2D40 && !brkUsed s r.inst)
  | 4 => chRod (rods s) r.inst 0 == 0
  | _ => false

/-- Causes that a commit removes with their instance (R741). -/
def instancesCommit (s : State) : State :=
  ((s.faults.recs.map (·.2)).filter (instanceGone s)).foldl (fun s r => causeGone s (recKey r)) s

/-- Holdover that has lasted longer than a new limit ends (R341). -/
def holdoverCommit (s : State) : State :=
  if s.time.state = .holdover && gPtpHoldover (rods s) * ticksPerSec < s.now - s.time.holdoverAt then enterTime s .freeRunning else s

/-- θ at a commit, in whatever state the engine is (R468): 0 in a zone in which 49 is off or comes on, or that is absent, invalid or blocked. -/
def thetaCommit (s : State) (old new : Rods) : State :=
  let adc := adcInputs s
  let on := fun (r : Rods) (z : Nat) => judge adc r z == .enabled && z49On r z
  (((List.range 256).filter (zoneChanged adc old new)).filter (fun z => !(on new z && on old z))).foldl
    (fun s z => zonePut s z { zoneGet s z with theta := 0, thetaOk := true }) s

/-- Zones at a commit in Serving (R156, R165): a changed zone restarts at once, or at the first sample of the new image where a stream delivers
its samples. -/
def zonesCommit (s : State) (old new : Rods) : State :=
  let changed := (List.range 256).filter (zoneChanged (adcInputs s) old new)
  let waits := fun (z : Nat) => [zMain old z, zMain new z].any (fun p => (p.map (posRuns s)).getD false)
  (changed.filter (fun z => !waits z)).foldl commitRestart { s with plug := { s.plug with restarts := changed.filter waits } }

/-- Publications at a commit in Serving (R605, R612): a zone that no longer publishes ends; where the commit enables a zone, every publishing
zone makes a state change, else each whose form changes. -/
def publishCommit (s : State) (old new : Rods) : State :=
  let adc := adcInputs s
  let owns := fun (r : Rods) (z : Nat) => judge adc r z == .enabled && zForm r z != 4
  let ended := (List.range 256).filter (fun z => owns old z && !owns new z)
  let fresh := (List.range 256).filter (fun z => owns new z && (!owns old z || zForm old z != zForm new z))
  let enabled := (List.range 256).filter (fun z => judge adc old z != .enabled && judge adc new z == .enabled)
  let s := (fresh.filter enabled.contains).foldl presentDataset s
  startPublishing { s with pub := { s.pub with
    pubs := s.pub.pubs.map (fun p => if ended.contains p.1 then (p.1, { p.2 with running := false }) else p) } }
    (if enabled = [] then fresh else (List.range 256).filter (owns new))

/-- What a commit changes beside the zones (R157). -/
def globalsCommit (s : State) (old new : Rods) (i : SIndex) : State :=
  let s := windowCommit s old new i
  let s := if s.adc.rowNew then { s with adc := { s.adc with rowNew := false } } else sequenceChange s old new i
  instancesCommit (holdoverCommit (coilsCommit (depthCommit (hostsCommit s old new) old new) old))

/-- After a commit, a Withheld unit serves, or withholds for pairing alone (Table 1.7): a twin serves once the pairing conditions are met
or side A is admitted (R624). -/
def withheldCommit (s : State) : State :=
  if s.power.engine == .withheld && s.power.withheldBy == some .plug && s.pair.state == .solo then enterServing s
  else if s.power.engine == .withheld && s.power.withheldBy != some .straps then
    { s with power := { s.power with withheldBy := some .pairing, recommitted := true } }
  else s

/-- The commit's S2 entry (R153): fingerprints, changed zones, and whether the global rows changed. DESIGN CHOICE (log 144): with no image
in force before, what has changed is what differs from an empty image. -/
def commitEntry (s : State) (old : Option Rods) (new : Rods) (i : SIndex) : Entry :=
  let base := old.getD []
  indexEntry s (strapRate s) i (ownCode 5 23) 2 0 none16 none16 false
    (ownPayload 23 (printsPayload old new ++ (if globalDiffer base new then 1 else 0)
      :: (List.range 256).filter (zoneChanged (adcInputs s) base new)))

/-- The new image is in force, the bank pointer switched (R153). -/
def newInForce (s : State) (new : Rods) (i : SIndex) : State :=
  let s := switchBank s
  { s with plug := { s.plug with
    image := some new, commit := .none, earlier := (if serving s then s.plug.image.map (fun old => (old, i)) else none) } }

/-- A commit takes effect at a sample boundary (R34, R153 to R157, R645). -/
def commitBoundary (s : State) (new : Rods) : State :=
  let old := s.plug.image
  let i := boundaryIndex s
  let before := commanded s
  let served := serving s
  let s := newInForce s new i
  let s := globalsCommit s (old.getD []) new i
  let s := if old.isNone then adoptTheta s else thetaCommit s (old.getD []) new
  let s := if served then coilsFollow before (zonesCommit s (old.getD []) new) else s
  let s := judgeImage s
  let s := comparePlug (causeGoneU (causeGoneU s 0x1680) 0x1700)
  -- a split that stands ends at a heartbeat (R638, R645)
  let s := if isTwin s && !s.pair.split then judgeSplit s else s
  -- the entry is part of the commit that was decided, also in Withdrawn (R154)
  let s := limitEntry s (commitEntry s old new i)
  let s := if served && serving s then publishCommit s (old.getD []) new else s
  settlePair (withheldCommit (allSnapshots s 2 i))

/-- COMMIT_BOUNDARY (R153): without D5 the bank pointer cannot be switched, and the old image stays in force (R154). -/
def execCommitBoundary (s : State) : Host.Outcome State Fault Refusal :=
  run (fun s =>
    match s.plug.commit with
    | .decided new => if coreRuns s && storeOn s then withTwin (fun s => commitBoundary s new) s else s
    | _ => s) s

end Sys2Proof.Machine
end

