-- ==== Sys2Proof/Machine/Seal.lean ====
section
/-! DEFINITION. The seal: erase, tamper latch, key loader transactions, retention events (chapter 20). -/
namespace Sys2Proof.Machine

/-- D0 is powered (Table 3.2). -/
def d0Powered (s : State) : Bool := s.power.vinGood || s.power.vbat

/-- The core reads the retention events as they occur: from step 7 of Table 3.3 on (R753, R781, R787). -/
def coreReads (s : State) : Bool := journalOpen s

/-- Absent keys and publishing judged again after a slot has changed (R771, R594, R595). -/
def keysChanged (s : State) : State := if coreRuns s && s.plug.image.isSome then authChanged s else s

/-- Every slot, the staging buffer and the result register are zeroed (R756). -/
def zeroSlots (s : State) : State := { s with sealSt := { s.sealSt with keys := [], staging := 0, result := 0 } }

/-- D0 as it is when it is powered from none (R752): the contacts it watches stay as they are. -/
def freshD0 (s : State) : State := { s with sealSt := { hatchOpen := s.sealSt.hatchOpen, meshOk := s.sealSt.meshOk } }

/-- A status word of the retention domain has been read without a parity error (R43). -/
def cleanRead (s : State) : State := { s with power := { s.power with retentionErrors := 0 } }

/-- The entry of an erase of every slot, by cause d (Table 20.9). -/
def eraseEntry (s : State) (d : Nat) : State := journalEntry s (sealEntry s (0x0880 + d) 0xFF 0 0 0 0)

/-- The port has stopped being live: the cause of a discard's fault is gone (Table 20.10). -/
def portStops (s : State) : State := if coreReads s && !s.sealSt.live then causeGoneU s 0x0A40 else s

/-- HATCH_OPENED (R754, R756): the slots are erased; HATCH is set until the core reads it. -/
def hatchOpened (s : State) : State :=
  let s := zeroSlots s
  let s := { s with sealSt := { s.sealSt with hatchOpen := true, erased := true, heldOff := false, live := false, busy := false } }
  if coreReads s then keysChanged (eraseEntry (portStops s) 0) else keysChanged { s with sealSt := { s.sealSt with evHatch := true } }

/-- HATCH_OPENED (R756). -/
def execHatchOpened (s : State) : Host.Outcome State Fault Refusal :=
  run (fun s => if d0Powered s then judgeSummary (hatchOpened (cleanRead s)) else s) s

/-- A mesh event (R755 to R757): erase, latch; the port is not live, and a transaction is lost (R776). -/
def meshEvent (s : State) : State :=
  let s := zeroSlots s
  let s := { s with sealSt := { s.sealSt with meshOk := false, latch := true, live := false, busy := false, erased := s.sealSt.hatchOpen } }
  if coreReads s then keysChanged (judgeFault (eraseEntry (portStops s) 1) (keyU 0x0A00) 0 none16 true)
  else keysChanged { s with sealSt := { s.sealSt with evMesh := true } }

/-- MESH_EVENT (R757). -/
def execMeshEvent (s : State) : Host.Outcome State Fault Refusal :=
  run (fun s => if d0Powered s then judgeSummary (meshEvent (cleanRead s)) else s) s

/-- MESH_MONITOR_TEST (R784): a monitor that does not follow counts as a mesh event. -/
def execMeshMonitorTest (follows : Bool) (s : State) : Host.Outcome State Fault Refusal :=
  run (fun s => if coreRuns s && !follows then judgeSummary (meshEvent s) else s) s

/-- ERASE_READBACK_FAILURE (R785). -/
def execEraseReadbackFailure (s : State) : Host.Outcome State Fault Refusal :=
  run (fun s =>
    if !d0Powered s then s
    else
      let s := { s with sealSt := { s.sealSt with keys := [], heldOff := true, latch := true, live := false, busy := false } }
      let s := if coreReads s then judgeFault (portStops s) (keyU 0x0A00) 0 none16 true else s
      judgeSummary (keysChanged s)) s

/-- HATCH_REPORT (R758, Table 20.10): the switch has been open, or closed, for 10 ms; a closed hatch ends the port. -/
def execHatchReport (isOpen : Bool) (s : State) : Host.Outcome State Fault Refusal :=
  run (fun s =>
    if !d0Powered s then s
    else
      let x := s.sealSt
      let s := { cleanRead s with sealSt := { x with hatchReported := isOpen, hatchOpen := isOpen, erased := x.erased && isOpen, live := x.live && isOpen } }
      let s := if coreReads s then judgeFault s (keyU 0x09C0) 0 none16 isOpen else s
      judgeSummary (portStops s)) s

/-- PORT_LIVE (R759, R764): the supply has been in range for 1 ms, with the mesh reading intact (log 43); or it has left it. -/
def execPortLive (supplyOk : Bool) (s : State) : Host.Outcome State Fault Refusal :=
  run (fun s =>
    let x := s.sealSt
    if !d0Powered s then s
    else if supplyOk then
      if x.hatchOpen && x.erased && !x.heldOff && !x.live then
        { s with sealSt := { x with live := true, meshOk := true, result := 0, busy := false, ignoring := false } }
      else s
    else
      let s := { s with sealSt := { x with live := false, busy := false, staging := 0 } }
      judgeSummary (portStops s)) s

/-! Transactions (R762 to R769) -/

/-- Word i of a transaction, first bit most significant. -/
def klWord (t : KlTransaction) (i : Nat) : Nat := ((t.bits.drop (32 * i)).take 32).foldl (fun a b => 2 * a + if b then 1 else 0) 0

/-- Command code, slot, KEY and key check of a complete transaction. -/
def klCode (t : KlTransaction) : Nat := klWord t 0 % 256
def klSlot (t : KlTransaction) : Nat := klWord t 1 % 16
def klKey (t : KlTransaction) : BitVec 256 := BitVec.ofNat 256 ((List.range 8).foldl (fun a i => a * 2 ^ 32 + klWord t (2 + i)) 0)

/-- The form of Table 20.5. -/
def klForm (t : KlTransaction) : Bool :=
  let c := klWord t 0
  let n := klWord t 1
  c / 65536 == 0x4B4C && c / 256 % 256 == 255 - c % 256 && 1 ≤ c % 256 && c % 256 ≤ 3 && n / 65536 == 65535 - n % 65536 && n % 65536 < 16

/-- The result code of the first check of Table 20.7 that fails, none when the transaction passes; the second part tells
whether it was decided at checks 1 to 3. -/
def klFails (t : KlTransaction) : Option (Nat × Bool) :=
  if t.timeout then some (0xC, true)
  else if t.bits.length != 352 then some (0x8, true)
  else if !klForm t then some (0x9, true)
  else if klCode t != 1 && (List.range 9).any (fun i => klWord t (2 + i) != 0) then some (0xB, false)
  else if klCode t = 1 && klKey t = 0 then some (0xB, false)
  else if klCode t = 1 && klWord t 10 != (kcvOf (klKey t)).toNat then some (0xA, false)
  else none

/-- KL_DOUT (R760, R764, Table 20.3): `none` where it is not driven, else its level, with `KL_SEL` high, or n bits after its fall. The
busy port drives low also during a transaction begun while it is busy (DEDUCED, log 142). -/
def klDoutLevel (s : State) (selHigh : Bool) (n : Nat) : Option Bool :=
  if !s.sealSt.live then none
  else if s.sealSt.busy then some false
  else if selHigh then some true
  else some (decide (n < 32) && s.sealSt.result.getLsbD (31 - n))

/-- What the loader reads on KL_DOUT while it clocks a transaction in: the result word, then low (R764). -/
def shiftOut (s : State) (t : KlTransaction) : State :=
  emit s (.klDout ((List.range t.bits.length).map (fun n => (klDoutLevel s false n).getD false)))

/-- The result word (Table 20.8). -/
def klResult (code slot kcv : Nat) : BitVec 32 := BitVec.ofNat 32 (code * 2 ^ 28 + slot * 2 ^ 24 + kcv)

/-- A transaction is discarded (R765): counted until the core has read it, and the core's fault (Table 20.10). -/
def discardTransaction (s : State) (result : Option (BitVec 32)) : State :=
  let x := s.sealSt
  let s := { s with sealSt := { x with staging := 0, result := result.getD x.result, discards := if coreReads s then x.discards else min 255 (x.discards + 1) } }
  if coreReads s then ariseU s 0x0A40 0 else s

/-- A LOAD is applied (R757, R768, R753, R774). -/
def applyLoad (s : State) (t : KlTransaction) : State :=
  let n := klSlot t
  let key := klKey t
  let kcv := kcvOf key
  let x := s.sealSt
  let clear := x.latch && x.meshOk
  let s := { s with sealSt := { x with
    keys := Tab.insert x.keys n { key := key, kcv := kcv, par := parBits key kcv }, result := klResult 1 n kcv.toNat, staging := 0
    latch := x.latch && !clear, loadMap := if coreReads s then x.loadMap else x.loadMap ||| BitVec.ofNat 16 (2 ^ n) } }
  let s := if coreReads s then journalEntry s (sealEntry s (0x0800 + n) n kcv.toNat 0 0 0) else s
  keysChanged (if clear && coreReads s then causeGoneU s 0x0A00 else s)

/-- An ERASE is applied (R769, R774). -/
def applyErase (s : State) (t : KlTransaction) : State :=
  let n := klSlot t
  let kcv := ((keySlot s n).map (fun k => k.kcv.toNat)).getD 0
  let s := emptySlot { s with sealSt := { s.sealSt with result := klResult 2 n 0, staging := 0 } } n
  keysChanged (if coreReads s then journalEntry s (sealEntry s (0x0840 + n) n kcv 0 0 0) else s)

/-- A CHECK reports the slot (Table 20.8). -/
def applyCheck (s : State) (t : KlTransaction) : State :=
  let n := klSlot t
  let r := match keySlot s n with
    | some k => klResult 3 n k.kcv.toNat
    | none => klResult 4 n 0
  { s with sealSt := { s.sealSt with result := r, staging := 0 } }

/-- KL_SEL rises (R763, R764, R767): the transaction is judged, and applied when it passes. -/
def transaction (s : State) (t : KlTransaction) : State :=
  if !s.sealSt.live then s
  else
  let s := shiftOut s t
  if s.sealSt.busy then discardTransaction s (some (klResult 0xD (if t.bits.length < 64 then 0 else klSlot t) 0))
  else
    let s := { s with sealSt := { s.sealSt with busy := true, ignoring := false } }
    match klFails t with
    | some (c, early) => discardTransaction s (some (klResult c (if early then 0 else klSlot t) 0))
    | none => if klCode t = 1 then applyLoad s t else if klCode t = 2 then applyErase s t else applyCheck s t

/-- LOAD (R768). -/
def execLoad (t : KlTransaction) (s : State) : Host.Outcome State Fault Refusal := run (fun s => judgeSummary (transaction s t)) s
/-- ERASE_COMMAND (R769). -/
def execEraseCommand (t : KlTransaction) (s : State) : Host.Outcome State Fault Refusal := run (fun s => judgeSummary (transaction s t)) s
/-- CHECK (R764). -/
def execCheck (t : KlTransaction) (s : State) : Host.Outcome State Fault Refusal := run (fun s => judgeSummary (transaction s t)) s

/-- TRANSACTION_DISCARDED (R765, R775): a transaction that passes every check has been cut off by the hatch or the supply. -/
def execTransactionDiscarded (t : KlTransaction) (s : State) : Host.Outcome State Fault Refusal :=
  run (fun s =>
    if !s.sealSt.live then s
    else judgeSummary (if (klFails t).isSome || s.sealSt.busy then transaction s t else discardTransaction (shiftOut s t) none)) s

/-- TRANSACTION_TIMEOUT (R766). -/
def execTransactionTimeout (s : State) : Host.Outcome State Fault Refusal :=
  run (fun s =>
    if !s.sealSt.live then s
    else judgeSummary (discardTransaction { s with sealSt := { s.sealSt with ignoring := true } } (some (klResult 0xC 0 0)))) s

/-- PORT_BUSY_END (R764). -/
def execPortBusyEnd (s : State) : Host.Outcome State Fault Refusal :=
  run (fun s => { s with sealSt := { s.sealSt with busy := false } }) s

/-! Retention (R115, R752, R787) -/

/-- VBAT_LOW_ERASE (R115, R780): only in Retention. -/
def execVbatLowErase (s : State) : Host.Outcome State Fault Refusal :=
  run (fun s =>
    if s.power.engine != .retention then s
    else
      let s := zeroSlots s
      { s with sealSt := { s.sealSt with evVbatLow := true, erased := false, live := false, busy := false } }) s

/-- The raw event register in three octets: flags, DISCARDS, then the rest is LOADMAP (R753); its layout is not stated
(log 13), and three octets hold less than it: the whole is the payload layout's. -/
def rawEvents (s : State) : Nat :=
  let x := s.sealSt
  let b := fun (v : Bool) (n : Nat) => if v then 2 ^ n else 0
  ofOctets (((Config.payloadLayout 60 [b x.evHatch 0 + b x.evMesh 1 + b x.evVbatLow 2 + b x.evRestart 3, x.discards, x.loadMap.toNat]) ++ zeros 3).take 3)

/-- The core reads and clears the event register (R787). -/
def readEvents (s : State) : State :=
  let x := s.sealSt
  let raw := rawEvents s
  let entry := fun (s : State) (code slot kcv discards rest : Nat) => journalEntry s (sealEntry s code slot kcv 1 discards rest)
  let s := entry s 0x08C0 0xFF 0 (raw / 65536) (raw % 65536)
  let s := [(x.evHatch, 0), (x.evMesh, 1), (x.evVbatLow, 2), (x.evRestart, 3)].foldl
    (fun s p => if p.1 then entry s (0x0880 + p.2) 0xFF 0 0 0 else s) s
  let s := (List.range 16).foldl (fun s n => if x.loadMap.getLsbD n then
    entry s (0x0800 + n) n (((keySlot s n).map (fun k => k.kcv.toNat)).getD 0) 0 0 else s) s
  let s := { s with sealSt := { s.sealSt with evHatch := false, evMesh := false, evVbatLow := false, evRestart := false, discards := 0, loadMap := 0 } }
  let s := if x.evRestart then ariseU s 0x0900 0 else s
  let s := if x.hatchReported then ariseU s 0x09C0 0 else if x.evHatch then ariseAndGone s (keyU 0x09C0) 0 [] else s
  let s := if x.latch then ariseU s 0x0A00 0 else s
  if x.discards = 0 then s else if x.live then ariseU s 0x0A40 0 else ariseAndGone s (keyU 0x0A40) 0 []

end Sys2Proof.Machine
end

