-- ==== Sys2Proof/Machine/Power.lean ====
section
/-! DEFINITION. Supplies, domains, start-up, reset and the flush (chapters 2 and 3, R43, R85, R88, R683, R692). -/
namespace Sys2Proof.Machine

/-! The flush (Table 3.5) -/

/-- Every stNum that a frame waits for is persisted (Table 17.1); one whose write has failed is not (R610). -/
def persistAll (s : State) : State :=
  if !storeOn s then s
  else
    { s with
      nvm := { s.nvm with stNum := (stnumWrites s).foldl (fun (t : Tab Nat) p => Tab.put 0 t p (pubGet s p).stNum) s.nvm.stNum }
      pub := { s.pub with writing := none } }

/-- Entries that have their number, and then every other of this unit, are committed (step 5). -/
def commitNumberedAll : Nat → State → State
  | 0, s => s
  | n + 1, s =>
    if s.pair.numbered = [] then s
    else
      match commitNumbered s { first := true, second := true } with
      | some t => commitNumberedAll n t
      | none => s
def commitEverything (s : State) : State :=
  if !storeOn s then s
  else
    let s := reclaimEntries (commitNumberedAll (s.pair.numbered.length + 1) s)
    commitAll (s.journal.queue.length + s.journal.holds.length + 256) { s with pair := { s.pair with numbered := [] } }

/-- Open records close truncated and are indexed, and NAND writes in flight complete (step 6). -/
def flushRecords (s : State) : State :=
  if !storeOn s then s
  else
    let s := closeAll s 2
    { s with journal := { s.journal with store := s.journal.store.map (fun r => { r with written := true }) } }

/-- "Power-fail flush complete" (step 7), with θ persisted (R467). -/
def flushDone (s : State) : State :=
  if !storeOn s then { s with nvm := { s.nvm with flushDone := false } }
  else
    let s := if s.plug.image.isSome then persistTheta s else s
    let s := commitEverything (limitEntry s (unitEntry s (ownCode 1 24) 1 0 none16 none16 (ownPayload 24 [])))
    { s with nvm := { s.nvm with flushDone := true } }

/-- Every field output is commanded off (step 8). -/
def outputsOff (s : State) : State := (List.range 32).foldl commandOff s

/-- The flush from step 2 on: intake stops, D3, D4, D7 and D8 are off, publications leave, entries and records are committed. -/
def flush (s : State) : State :=
  let s := { s with
    streams := { s.streams with intake := [] }
    pair := { s.pair with held := [], heldBrk := [], brkDue := [] }
    power := { s.power with domOn := s.power.domOn.filter (fun d => !([3, 4, 7, 8].contains d)) } }
  let s := transmitReady (releaseSummary (persistAll s))
  let s := { s with power := { s.power with domOn := s.power.domOn.filter (· != 2) } }
  outputsOff (flushDone (commitEverything (flushRecords (commitEverything s))))

/-! Leaving and entering operation (Table 1.7) -/

/-- The unit is on its way through Table 3.3 at this step, in Starting or, with a Withdraw-level fault, in Withdrawn (R127, R87). -/
def atStep (s : State) (t : StartStep) : Bool :=
  coreRuns s && (s.power.engine == .starting || s.power.engine == .withdrawn) && s.power.step == t

/-- The core is without power: Retention with VBAT, else Off, where D0 loses what it holds (R752). -/
def powerDown (s : State) : State :=
  let s := startCore s
  let s := if s.power.vbat then s else freshD0 s
  { s with power := { s.power with
    engine := if s.power.vbat then .retention else .off
    vinGood := false, inReset := false, pllLocked := false, laneTestPassed := false, step := .straps, withheldBy := none
    domOn := (if s.power.vbat then [0] else []) ++ s.power.domOn.filter (9 ≤ ·)
    domLost := [], pinsOff := [], retentionErrors := 0, retentionAt := 0 } }

/-- D0 to D8 switched on, D9 and D10 as their field supplies have it (Table 3.3, step 3). -/
def startDomains (s : State) : List Nat := List.range 9 ++ s.power.domOn.filter (9 ≤ ·)

/-- VBAT_APPLIED (Table 1.7). -/
def vbatApplied (s : State) : State :=
  let s := { s with power := { s.power with vbat := true } }
  if s.power.engine == .off then
    let s := freshD0 s
    { s with power := { s.power with engine := .retention, domOn := 0 :: s.power.domOn } }
  else s

/-- VBAT_APPLIED (R26). -/
def execVbatApplied (s : State) : Host.Outcome State Fault Refusal := run vbatApplied s

/-- VIN_GOOD (R103, R107, R126): Starting from Off or Retention. -/
def vinGood (s : State) (holdUpOk : Bool) : State :=
  let off := s.power.engine == .off
  let s := if off then freshD0 s else s
  enterStarting { s with power := { s.power with vinGood := true, vinGoodAt := s.now, holdUpOk := holdUpOk } }
    (if off then .fromOff else .fromRetention) (startDomains s)

/-- VIN_GOOD (R103). -/
def execVinGood (holdUpOk : Bool) (s : State) : Host.Outcome State Fault Refusal :=
  run (fun s => if s.power.engine == .off || s.power.engine == .retention then vinGood s holdUpOk else s) s

/-- VIN_LOW (R91). -/
def execVinLow (s : State) : Host.Outcome State Fault Refusal :=
  run (fun s => if coreRuns s && s.power.vinGood then judgeSummary (ariseU s 0x0600 0) else s) s

/-- VIN_FAILED (R117, R119, R120, R124): the flush, unless a reset has made it, then Retention or Off. -/
def execVinFailed (s : State) : Host.Outcome State Fault Refusal :=
  run (fun s => if s.power.vinGood then powerDown (if coreRuns s then flush s else s) else s) s

/-- NRESET_IN_ACCEPTED (R111): the flush, then every block except D0 is held in reset; the heater holds its last duty (log 49). -/
def resetAccepted (s : State) : State :=
  let s := flush s
  let oven := s.reck.oven
  let s := startCore s
  { s with
    reck := { s.reck with oven := oven }
    power := { s.power with
      engine := .starting, step := .straps, inReset := true, laneTestPassed := false, withheldBy := none
      domOn := s.power.domOn.filter (fun d => !([2, 3, 4, 7, 8].contains d)) } }

/-- NRESET_IN_ACCEPTED (R110). -/
def execNresetInAccepted (s : State) : Host.Outcome State Fault Refusal := run (fun s => if coreRuns s then resetAccepted s else s) s

/-- The charge time of the hold-up store, measured at an entry to Starting to which the command brings none: a free value (R126, log 148). -/
def measureStore (s : State) : State :=
  tookFresh { s with power := { s.power with holdUpOk := freshValue s % 2 == 0 } }

/-- NRESET_IN_RELEASED (R112). -/
def execNresetInReleased (s : State) : Host.Outcome State Fault Refusal :=
  run (fun s => if s.power.inReset then enterStarting (measureStore s) .nreset (startDomains s) else s) s

/-- A commit that has taken effect has its entry (R154): one that still waits is committed. -/
def commitEntryKept (s : State) : State :=
  if !storeOn s then s
  else
    ((s.journal.queue ++ s.pair.unitEntries ++ s.pair.numbered.map (·.2.1)).filter (fun e => e.code == ownCode 5 23)).foldl (fun s e =>
      match placeCommit s e { first := true, second := true } with
      | .done t => t
      | _ => s) s

/-- D5 completes the stNum write that the MRAM port has begun (R101, R792). -/
def finishWrite (s : State) : State :=
  match stnumNext s with
  | some p => if storeOn s then { s with nvm := { s.nvm with stNum := Tab.put 0 s.nvm.stNum p (nextNum (persisted s p)) } } else s
  | none => s

/-- An internal restart (R101): nothing is flushed; records keep what is in the store (R683), a commit its entry (R154). -/
def internalRestart (s : State) : State :=
  enterStarting (measureStore (cutRecords (commitEntryKept (finishWrite s)))) .internalRestart (startDomains s)

/-- VBAT_BELOW_RETENTION_MIN (Table 1.7). -/
def execVbatBelowRetentionMin (s : State) : Host.Outcome State Fault Refusal :=
  run (fun s =>
    let s := { s with power := { s.power with vbat := false } }
    if s.power.engine == .retention then
      let s := freshD0 s
      { s with power := { s.power with engine := .off, domOn := s.power.domOn.filter (· != 0) } }
    else s) s

/-! Start-up (Table 3.3) -/

/-- Go on to a step. -/
def toStep (s : State) (t : StartStep) : State := { s with power := { s.power with step := t } }

/-- A cause of Withheld is found; the first one stays. -/
def withhold (s : State) (c : WithheldCause) : State :=
  { s with power := { s.power with withheldBy := some (s.power.withheldBy.getD c) } }

/-- DATA of fault 0x0500 (R72): the kinds, then the straps concerned. -/
def strapsData (ns : List Nat) (kinds : List Nat) : List Byte :=
  let bad := (List.range 12).filter (fun k => kinds.any (fun d => (strapsKind ns d).contains k))
  octets 1 (kinds.foldl (fun a d => a + 2 ^ d) 0) ++ octets 2 (bad.foldl (fun a k => a + 2 ^ k) 0)

/-- Straps decided (R65 to R73): codes, validity, combinations; D3 and D7 go off where they are not needed. -/
def strapsDecided (s : State) (readings : List (List Nat)) : State :=
  let ns := readings.map strapNibble
  let s := { s with ident := { s.ident with straps := ns, decided := true } }
  let s := { s with
    pair := { s.pair with state := if isTwin s then .pairing else .solo }
    power := { s.power with domOn := s.power.domOn.filter (fun d => (d != 3 || isTwin s) && (d != 7 || adcInputs s != 0)) } }
  let s := match strapsKinds ns with
    | [] => s
    | d :: t => withhold (arise s (keyU 0x0500) d none16 (strapsData ns (d :: t))) .straps
  toStep (adcStartFaults s) .laneTest

/-- STRAPS_DECIDED (R72). -/
def execStrapsDecided (readings : List (List Nat)) (s : State) : Host.Outcome State Fault Refusal :=
  runIf (WellFormed.straps readings) (fun s => if atStep s .straps then judgeSummary (strapsDecided s readings) else s) s

/-- The lane self-test passes (R412): both lanes give one result, which is the one fixed in the logic, from memories without an error. -/
def selfTestPasses (s : State) (p : PatternRun) : Bool := p.x == p.y && p.signature.isSome && signatureOk s p && p.parityOk

/-- LANE_SELF_TEST_DONE (R127, R412). -/
def execLaneSelfTestDone (run_ : PatternRun) (s : State) : Host.Outcome State Fault Refusal :=
  run (fun s =>
    if atStep s .laneTest then
      let pass := selfTestPasses s run_
      let s := toStep s .journal
      judgeSummary (if pass then { s with power := { s.power with laneTestPassed := true } } else ariseU s 0x3100 1)
    else s) s

/-- Number of a start cause. -/
def causeNum (c : StartCause) : Nat :=
  match c with
  | .fromOff => 0
  | .fromRetention => 1
  | .nreset => 2
  | .internalRestart => 3

/-- The start-cause entry is committed ahead of what has been queued (R107, R692); its number is every session's generation (R699). -/
def startEntry (s : State) : State :=
  let e := unitEntry s (ownCode 1 25) 1 0 none16 none16 (ownPayload 25 [causeNum s.power.startCause, if s.nvm.flushDone then 1 else 0])
  let s := match placeCommit s e { first := true, second := true } with
    | .done t => t
    | _ => tallyAdd s 1 32 1
  { s with recallSvc := { s.recallSvc with
    sessions := (List.range 8).foldl (fun (t : Tab Session) i => Tab.put {} t i { sgen := BitVec.ofNat 16 s.journal.jseq }) [] } }

/-- The strap nibbles are compared with those of the previous Starting, and recorded (R85). -/
def compareStraps (s : State) : State :=
  let new := s.ident.straps
  let old := s.nvm.straps
  let s := { s with nvm := { s.nvm with straps := some new } }
  match old with
  | none => s
  | some o => if o = new then s else ariseU (journalEntry s (unitEntry s (ownCode 1 26) 1 0 none16 none16 (ownPayload 26 (o ++ new)))) 0x0540 0

/-- What MRAM holds comes into use: stNum of each publication, the UTC offset (R325, R612), θ where it is valid (R467). -/
def readNvm (s : State) (f : JournalFind) : State :=
  let s := s.nvm.stNum.foldl (fun s p => pubPut s p.1 { pubGet s p.1 with stNum := p.2 }) s
  { s with
    time := { s.time with utcOffset := s.nvm.utcOffset.getD 37 }
    nvm := { s.nvm with thetaLack := if f.thetaOk then s.nvm.thetaLack else none } }

/-- The image of a bank as it reads, with the bits that read wrong. -/
def readRods (r : Rods) (damage : Tab Byte) : Rods :=
  damage.foldl (fun t p => if p.1 < 16384 then Tab.put 0 t p.1 (Tab.get 0 t p.1 ^^^ p.2) else t) r

/-- What the bank in use holds from now on. -/
def bankPut (s : State) (r : Option Rods) : State :=
  if s.nvm.pointer then { s with nvm := { s.nvm with bank1 := r } } else { s with nvm := { s.nvm with bank0 := r } }

/-- The bank in use is read, and its CRC-32 computed (R147): one that fails counts as no earlier image (Table 4.6). -/
def checkBank (s : State) (f : JournalFind) : State :=
  match bankImage s with
  | none => s
  | some r =>
    let r := readRods r f.damage
    if imageCrc r = (if s.nvm.pointer then s.nvm.crc1 else s.nvm.crc0) then bankPut s (some r) else ariseU (bankPut s none) 0x1700 0

/-- The MRAM journal check (Table 3.3, step 7). DESIGN CHOICE (log 141): while D5 is lost nothing is read from MRAM, compared, recorded or
committed. -/
def journalCheck (s : State) (f : JournalFind) : State :=
  let s := toStep s .plug
  let s := if storeOn s then
      let s := startEntry (checkTail s f)
      let s := readEvents (compareStraps s)
      journalFaults (indexPending (checkBank (readNvm s f) f))
    else readEvents s
  if s.power.engine == .withdrawn then toStep s .ports else s

/-- JOURNAL_CHECK (R692). -/
def execJournalCheck (find : JournalFind) (s : State) : Host.Outcome State Fault Refusal :=
  run (fun s => if atStep s .journal then judgeSummary (journalCheck s find) else s) s

/-- The read image of a start-up scan, none of a discarded one (R104, R142). -/
def startImage (r : Option ScanReadings) : Option Image := (r.filter (fun x => !scanMrefBad x)).map imageOf

/-- The first stable image of start-up scans, none without two identical in succession, and the last read image (R104, R142, R145). -/
def startStable : Option Image → List (Option Image) → Option Image × Option Image
  | last, [] => (none, last)
  | last, r :: t => if r.isSome && r == last then (r, r) else startStable r t

/-- Start-up reading ends (R104, R168 to R170). -/
def plugRead (s : State) (scans : List (Option ScanReadings)) : State :=
  let found := startStable none (scans.map startImage)
  let s := toStep (frameOff { s with plug := { s.plug with last := found.2 } }) .ports
  match found.1 with
  | none => withhold (ariseU s 0x1580 1) .plug
  | some img =>
    let s := { s with plug := { s.plug with stable := some img } }
    comparePlug (if globalFails img then withhold (ariseU s 0x1680 1) .plug else adoptImage s img)

/-- START_UP_PLUG_READ (R104). -/
def execStartUpPlugRead (scans : List (Option ScanReadings)) (s : State) : Host.Outcome State Fault Refusal :=
  runIf (WellFormed.scans scans) (fun s => if atStep s .plug then judgeSummary (plugRead s scans) else s) s

/-- A cage at the ports step (R105, R237, R239, R240). -/
def cageStart (s : State) (p : Port) (c : CageRead) : State :=
  let s := portPut s p { portGet s p with modAbs := c.modAbs, txEnabled := portInUse s p && !c.modAbs }
  if !c.modAbs then readA0h s p c.read
  else if portInUse s p then arise s (portKey 0x1980 p) 0 none16 []
  else s

/-- The ports step (Table 3.3, step 9): a Solo unit then serves or is Withheld, a twin waits for its partner unless a cause withholds it. -/
def portsStep (s : State) (cages : List CageRead) : State :=
  let s := toStep s .pairing
  let s := ([Port.p0, .p1, .s0, .s1].zip cages).foldl (fun s x => cageStart s x.1 x.2) s
  if s.power.engine == .starting && (s.pair.state == .solo || s.power.withheldBy.isSome) then finishStarting s else s

/-- PORTS_STEP (R105). -/
def execPortsStep (cages : List CageRead) (s : State) : Host.Outcome State Fault Refusal :=
  runIf (WellFormed.cages cages) (fun s =>
    if atStep s .ports || (atStep s .plug && s.power.engine == .withdrawn) then judgeSummary (portsStep s cages) else s) s

/-! Domains, PLL, VBAT, pins (R40, R88, R97 to R101, R116, R128) -/

/-- D0 is lost (Table 3.2): its slots are empty, and RESTART is read as it is set (R752, R753). -/
def retentionLost (s : State) : State :=
  let s := freshD0 { s with sealSt := { s.sealSt with live := false } }
  let s := if coreReads s then causeGoneU (portStops (eraseEntry { s with sealSt := { s.sealSt with evRestart := false } } 3)) 0x0A00 else s
  keysChanged (judgeFault s (keyU 0x0900) 0 none16 true)

/-- The reaction to the loss of a domain while VIN is good (Table 3.2). DESIGN CHOICE (log 125): a scan in which D8 is lost is discarded as
one whose loop opened. -/
def domainReaction (s : State) (d : Nat) : State :=
  match d with
  | 0 => retentionLost s
  | 2 | 5 => arise s (keyD 0x0640 d) d none16 []
  | 6 => arise { s with power := { s.power with pllLocked := false } } (keyD 0x0640 d) d none16 []
  | 3 => (fun s => if isTwin s then carryLost s else s) (arise s (keyD 0x0680 d) d none16 [])
  | 4 => arise { s with journal := { s.journal with ring := [] } } (keyD 0x0680 d) d none16 []
  | 7 => judgeFault s (keyU 0x42C0) 0 none16 true
  | 8 => arise { s with plug := { s.plug with scanBroken := s.plug.scanBroken || s.plug.scanning } } (keyD 0x0680 d) d none16 []
  | 9 => fieldLost s .a
  | 10 => fieldLost s .b
  | _ => s

/-- D1 is lost: an internal restart (R101), and with it a Withdraw-level fault where D1 was not good by step 4 of Table 3.3 (R128). DESIGN
CHOICE (log 158): step 4 lasts until STRAPS_DECIDED, step 5. -/
def coreLost (s : State) : State :=
  let early := atStep s .straps
  let s := internalRestart s
  if early then arise s (keyD 0x0640 1) 1 none16 [] else s

/-- A supervised domain that is on is lost (R98 to R101). -/
def domainLost (s : State) (d : Nat) : State :=
  if d = 1 then coreLost s
  else settlePair (domainReaction { s with power := { s.power with domLost := addDomain s.power.domLost d } } d)

/-- DOMAIN_LOST (R98). -/
def execDomainLost (d : Fin 11) (s : State) : Host.Outcome State Fault Refusal :=
  run (fun s => if coreRuns s && s.power.vinGood && domainGood s d.val then withTwin (fun s => domainLost s d.val) s else s) s

/-- CORE_PLL_UNLOCK (R40). -/
def execCorePllUnlock (s : State) : Host.Outcome State Fault Refusal :=
  run (fun s =>
    if coreRuns s && s.power.pllLocked then
      judgeSummary (withTwin (fun s => ariseU { s with power := { s.power with pllLocked := false } } 0x06C0 0) s)
    else s) s

/-- The VBAT check (R116): below 2.2 V or absent is the fault; its cause goes at 2.3 V. -/
def vbatCheck (s : State) (mv : Option Nat) : State :=
  let s := { s with power := { s.power with vbatMv := mv, vbat := mv.isSome } }
  match mv with
  | none => judgeFault s (keyU 0x0940) 0 none16 true
  | some v =>
    if v < 2200 then judgeFault s (keyU 0x0940) 0 none16 true
    else if 2300 ≤ v then causeGoneU s 0x0940
    else s

/-- VBAT_CHECK (R116). -/
def execVbatCheck (mv : Option Nat) (s : State) : Host.Outcome State Fault Refusal :=
  run (fun s => if coreRuns s then judgeSummary (vbatCheck s mv) else s) s

/-- STATUS_PIN_CURRENT_LIMIT (R88): the pin is off until it is retried 1.0 s later. -/
def execStatusPinCurrentLimit (pin : StatusPin) (s : State) : Host.Outcome State Fault Refusal :=
  run (fun s =>
    if coreRuns s then
      judgeSummary (ariseU { s with power := { s.power with
        pinsOff := (pin, s.now + ticksPerSec) :: s.power.pinsOff.filter (fun x => x.1 != pin) } } 0x0700 0)
    else s) s

/-! Crossing queues (R43) -/

/-- The parity fault of a port's block. -/
def portParity (s : State) (p : Port) : State :=
  judgeFault (portPut s p { portGet s p with parityAt := some s.now }) (portKey 0x1A40 p) 0 none16 true

/-- The parity fault of C0. -/
def carryParity (s : State) : State :=
  judgeFault { s with pair := { s.pair with parityAt := some s.now } } (keyU 0x29C0) 0 none16 true

/-- A sample's parity error on its way to the ring: it is written as missing (R43). -/
def ringParity (s : State) (slot sec cnt : Nat) : State :=
  ariseU (ringPut { s with ringErrAt := some s.now } slot ⟨sec, cnt⟩ { pres := 2, secLo := sec % 256 }) 0x49C0 0

/-- A parity error in the crossing from the retention domain (R43): the status word is read again in the next cycle, at most 24,415 core
ticks later, and three errors in succession raise the fault. -/
def retentionParity (s : State) : State :=
  let n := if s.now - s.power.retentionAt ≤ 24415 then s.power.retentionErrors + 1 else 1
  let s := { s with power := { s.power with retentionErrors := n, retentionAt := s.now } }
  if 3 ≤ n then judgeFault s (keyU 0x0900) 0 none16 true else s

/-- A session state fails its parity (Table 18.9): every session is FREE, and no response leaves for 1.0 s. -/
def sessionParity (s : State) : State :=
  let s := closeSessions s 4 (fun _ => true)
  judgeFault { s with recallSvc := { s.recallSvc with mutedTo := s.now + ticksPerSec } } (keyU 0x4D40) 0 none16 true

/-- A state memory fails its parity or the comparison of its copies (Tables 7.7, 8.7, 9.5, 11.7, 12.8, 15.10, 18.9, R743; log 124). -/
def memoryParity (s : State) (m : StateMemory) : State :=
  match m with
  | .faultState => ariseU s 0x0740 0
  | .timeCounter => ariseU s 0x0F40 0
  | .handleTable => ariseU s 0x2E40 0
  | .overcurrent => ariseU s 0x3740 0
  | .feeder => ariseU s 0x3740 1
  | .session => sessionParity s
  | .publisher => ariseU s 0x51C0 0
  | .slot n => slotParity s n.val
  | .schedule => ariseU s 0x11C0 0

/-- A parity error in a crossing queue (R43), or in a state memory. -/
def crossingParity (s : State) (x : Crossing) : State :=
  match x with
  | .portRx p => portParity (portTally s p 3) p
  | .portTx p => portParity (portPut s p { portGet s p with txBad := true }) p
  | .carryRx n => carryParity (lanePut s n { laneGet s n with discarded := (laneGet s n).discarded + 1 })
  | .carryTx n => carryParity (emit s (.carryAborted n))
  | .toField _ ch => chPut s ch.val { chGet s ch.val with holdDown := true }
  | .fromField ch => chPut s ch.val { chGet s ch.val with upRun := 0 }
  | .toRing slot sec cnt => ringParity s slot sec cnt
  | .fromRetention => retentionParity s
  | .memory m => memoryParity s m

/-- CROSSING_QUEUE_PARITY (R43). -/
def execCrossingQueueParity (x : Crossing) (s : State) : Host.Outcome State Fault Refusal :=
  run (fun s => if coreRuns s then settlePair (withTwin (fun s => crossingParity s x) s) else s) s

end Sys2Proof.Machine
end

