-- ==== Sys2Proof/Machine/Recall.lean ====
section
/-! DEFINITION. The recall service: requests, answers, cursors, acknowledgements, times as presented, service order (chapter 18). -/
namespace Sys2Proof.Machine

/-! What recall reads -/

/-- OLDEST: the lowest JSEQ held; none where nothing is. -/
def oldestJseq (l : List Committed) : Option Nat := l.head?.map (·.jseq)

/-- The position of a host MAC among those the image lists (R694). -/
def hostOf (s : State) (m : Mac) : Option Nat := (hosts (rods s)).find? (fun h => gHostMac (rods s) h == m.toNat)

/-- The service answers: an engine state of R695, after the ports step, on a station port that receives. -/
def recallOpen (s : State) (p : Port) : Bool :=
  portsDone s && !isProcess p && (portGet s p).up && domainGood s 2
    && (s.power.engine == .withheld || s.power.engine == .serving || s.power.engine == .withdrawn)

/-- Octets 8 + i on of a request's PARAM. -/
def param (r : RecallReq) (i n : Nat) : Nat := field r.param i n

/-- Octets of PARAM that an OP uses (Table 18.2). -/
def paramUsed (op : Nat) : Nat :=
  if op = 0x01 then 8 else if op = 0x10 then 10 else if op = 0x11 then 16 else if op = 0x20 || op = 0x21 then 8 else 0

/-- A malformed request (R696): RFORMAT, an OP that is not listed, or an octet that must be 0 and is not. -/
def malformed (r : RecallReq) : Bool :=
  r.rformat != 1 || !([0x01, 0x02, 0x10, 0x11, 0x20, 0x21].contains r.op.toNat) || r.reserved != 0
    || (r.param.drop (paramUsed r.op.toNat)).any (fun b => b != 0)

/-- The session that a request names and its source holds (R699, Table 18.4). -/
def sessionOf (s : State) (r : RecallReq) : Option Nat :=
  if r.session.toNat < 8 then
    let x := sessionGet s r.session.toNat
    if x.state != .free && x.mac == r.src && x.sgen == r.sgen then some r.session.toNat else none
  else none

/-! Answers (R697) -/

/-- The fields of a response that differ from answer to answer. -/
structure Answer where
  op : Nat
  session : Byte
  tag : Byte
  sgen : BitVec 16
  /-- none where Table 18.4 has no result for the answer -/
  result : Option Nat := some 0
  rflags : Nat := 0
  /-- none where no session is concerned -/
  cursor : Option Nat := none
  data : List Byte := []
  opdata : List Byte := zeros 8
  step : Option Int := none
  aflags : Nat := 0
deriving DecidableEq, Repr

/-- An answer to a request. -/
def answerTo (r : RecallReq) (op : Nat) : Answer := { op := op, session := r.session, tag := r.tag, sgen := r.sgen }

/-- A step as STEP_SEC and STEP_NS: seconds are signed, nanoseconds from 0 to 999,999,999 (Table 18.3). -/
def stepOctets (ns : Int) : List Byte := octets 6 (ns / 1000000000 % 2 ^ 48).toNat ++ octets 4 (ns % 1000000000).toNat

/-- Header and data of a response (Table 18.3); a value that no rule gives is free (log 3). -/
def answerOctets (s : State) (a : Answer) : List Byte :=
  let open_ := fun (i : Nat) (v : Option Nat) => (v.getD (Config.freeValue (s.free + i)) : Nat)
  octets 1 1 ++ octets 1 a.op ++ [a.session, a.tag] ++ octets 2 a.sgen.toNat ++ octets 1 (open_ 0 a.result) ++ octets 1 a.rflags
    ++ octets 8 (open_ 1 (oldestJseq (allCommitted s))) ++ octets 8 s.journal.jseq ++ octets 8 (open_ 2 a.cursor)
    ++ octets 2 a.data.length ++ zeros 2 ++ octets 4 (if a.data = [] then 0 else crc32 a.data) ++ a.opdata
    ++ (match a.step with
      | some d => stepOctets d
      | none => zeros 10)
    ++ octets 1 a.aflags ++ zeros 5 ++ a.data

/-- A response leaves on both station LANs (R697), none for 1.0 s after a session parity error (Table 18.9). -/
def respond (s : State) (dst : Mac) (a : Answer) : State :=
  if s.now < s.recallSvc.mutedTo then s
  else
  let oui := ((fuse s).map (fun f => f.oui.toNat)).getD 0
  sendStation { s with free := s.free + 3 }
    (octets 6 dst.toNat ++ octets 6 (stationMac s) ++ octets 2 0x88B7 ++ octets 3 oui ++ octets 2 0x0C40 ++ answerOctets s a)

/-- An error (Table 18.4): no cursor changes and no mark is set. -/
def respondError (s : State) (r : RecallReq) (result : Nat) : State :=
  respond s r.src { answerTo r 0xE0 with result := some result, cursor := (sessionOf s r).map (fun i => (sessionGet s i).cursor) }

/-- REDIRECT (Table 18.6): the partner's station MAC and SIDE_UID, as HELLO gave them; Table 18.4 has no result for it. -/
def redirectTo (s : State) (r : RecallReq) : State :=
  let mac := (s.pair.hello.map (fun b => b.macBase.toNat + 1)).getD 0
  let side := (s.pair.hello.map (fun b => b.sideUid.toNat)).getD 0
  respond s r.src { answerTo r 0xE1 with result := none, opdata := octets 6 mac ++ octets 1 side ++ zeros 1 }

/-! OPEN and CLOSE (Table 18.5, R711) -/

/-- OPENED, for a session as it stands. -/
def respondOpened (s : State) (r : RecallReq) (i : Nat) : State :=
  let x := sessionGet s i
  respond s r.src { answerTo r 0x81 with session := BitVec.ofNat 8 i, sgen := x.sgen, cursor := some x.cursor }

/-- The session that an OPEN of this source and TAG opened within the last 1.0 s (R711). -/
def openedBy (s : State) (r : RecallReq) : Option Nat :=
  (List.range 8).find? (fun i =>
    let x := sessionGet s i
    x.state != .free && x.mac == r.src && x.openTag == r.tag && decide (s.now ≤ x.openAt + ticksPerSec))

/-- SGEN + 1, skipping 0. -/
def nextGen (g : BitVec 16) : BitVec 16 := if g + 1 = 0 then 1 else g + 1

/-- OPEN (Table 18.5). -/
def openSession (s : State) (h : Nat) (r : RecallReq) : State :=
  match openedBy s r with
  | some i => respondOpened s r i
  | none =>
    match (List.range 8).find? (fun i => (sessionGet s i).state == .free) with
    | none => respondError (tallyAdd s 1 30 1) r 1
    | some i =>
      let oldest := (oldestJseq (allCommitted s)).getD (freshValue s)
      let start := param r 0 8
      let s := sessionPut s i
        { state := .idle, sgen := nextGen (sessionGet s i).sgen, host := h, mac := r.src,
          cursor := if start = 0 || start < oldest then oldest else start, openTag := r.tag, openAt := s.now }
      journalEntry (respondOpened s r i)
        (unitEntry s (ownCode 19 80) 0 0 none16 none16 (ownPayload 80 [i, h, r.src.toNat]))

/-- CLOSE: CLOSED is sent and the session is FREE. -/
def recallClose (s : State) (r : RecallReq) (i : Nat) : State :=
  closeSession (respond s r.src { answerTo r 0x82 with cursor := some (sessionGet s i).cursor }) i 0

/-- A request of a session is queued; it replaces one that waits (Table 18.5). -/
def queueRequest (s : State) (r : RecallReq) (i : Nat) : State :=
  let x := sessionGet s i
  sessionPut s i { x with state := .queued, request := some r, queuedAt := if x.state == .queued then x.queuedAt else s.now }

/-- A request of a listed host, by pair state and OP (R698, R708). -/
def hostRequest (s : State) (h : Nat) (r : RecallReq) : State :=
  if malformed r then (if (sessionOf s r).isSome then respondError s r 8 else tallyAdd s 1 28 1)
  else
    let s := tallyAdd s 1 29 1
    if redirects s then redirectTo s r
    else if r.op = 0x01 then openSession s h r
    else
      match sessionOf s r with
      | none => respondError s r 2
      | some i => if r.op = 0x02 then recallClose s r i else queueRequest s r i

/-- A request frame (R694 to R696). -/
def recallRequest (p : Port) (r : RecallReq) (s : State) : State :=
  if !recallOpen s p then s
  else
    match hostOf s r.src with
    | none => tallyAdd s 1 27 1
    | some h => judgeSummary (hostRequest s h r)

/-! Times as presented (R704) -/

/-- The CODE of start-cause entries and of "time base established" entries (R107, R328). -/
def startCauseCode : Nat := ownCode 1 25
def timeBaseCode : Nat := ownCode 3 6

/-- The difference in ns that a "time base established" entry carries, rounded down: the counter just after the step less just before it,
each in seconds, nanoseconds and half nanoseconds (R328). -/
def entryStep (e : Entry) : Int :=
  let c := Config.payloadContent 6 e.payload
  let at_ := fun (i : Nat) => ((c.getD i 0 : Nat) : Int)
  (2000000000 * (at_ 3 - at_ 0) + 2 * (at_ 4 - at_ 1) + at_ 5 - at_ 2) / 2

/-- The step of the epoch in which entry j of a unit lies: of the unit's first "time base established" entry after the epoch's start-cause
entry and before its next one (R704). -/
def epochStep (all : List Committed) (origin j : Nat) : Option Int :=
  let l : List Committed := all.filter (fun c => c.entry.origin == origin)
  let first : Nat := ((l.filter (fun c => c.entry.code == startCauseCode && decide (c.jseq ≤ j))).getLast?.map (·.jseq)).getD 0
  let next := (l.find? (fun c => c.entry.code == startCauseCode && decide (first < c.jseq))).map (·.jseq)
  (l.find? (fun c => c.entry.code == timeBaseCode && decide (first < c.jseq) && (match next with
    | some n => decide (c.jseq < n)
    | none => true))).map (fun c => entryStep c.entry)

/-- The prefix of an entry (Table 18.7). -/
def entryPrefix (l : List Committed) (c : Committed) : List Byte :=
  let step := if c.entry.mono then epochStep l c.entry.origin c.jseq else none
  let t : Int := (c.entry.sec : Int) * 1000000000 + c.entry.ns + step.getD 0
  octets 2 (entrySize c.entry) ++ octets 1 (if !c.entry.mono then 0 else if step.isSome then 1 else 2) ++ zeros 1 ++ stepOctets t ++ zeros 2

/-! ENTRIES, ACK, RECORD, DONE (R700 to R702) -/

/-- The entries that a response holds: at most n, and 1,440 octets with their prefixes. -/
def packEntries : Nat → Nat → List Committed → List Committed
  | _, _, [] => []
  | n, used, c :: t =>
    if n = 0 || 1440 < used + 16 + entrySize c.entry then [] else c :: packEntries (n - 1) (used + 16 + entrySize c.entry) t

/-- The entries of a response with an uncorrectable read: one is not sent; which one is not stated (free value, Table 18.9). -/
def spoilEntries (s : State) (readOk : Bool) (l : List Committed) : List Committed :=
  if readOk || l = [] then l else l.eraseIdx (freshValue s % l.length)

/-- A read that recall cannot correct (Table 18.9). -/
def readError (s : State) : State := ariseU (tookFresh s) 0x4D80 0

/-- ENTRIES (R700). -/
def serveEntries (s : State) (r : RecallReq) (i : Nat) (readOk : Bool) : State :=
  let l := allCommitted s
  let from_ := param r 0 8
  if from_ != 0 && (match oldestJseq l with
      | some o => decide (from_ < o)
      | none => false) then respondError s r 3
  else if s.journal.jseq < from_ then respondError s r 4
  else
    let start := if from_ = 0 then (sessionGet s i).cursor else from_
    let mask := param r 8 1
    let all := l.filter (fun c => decide (start ≤ c.jseq) && (mask = 0 || mask / 2 ^ c.entry.sev % 2 = 1))
    let sent := packEntries (if param r 9 1 = 0 then 1440 else param r 9 1) 0 all
    let more := sent.length < all.length
    let last := if more then ((sent.getLast?.map (·.jseq)).getD 0) else s.journal.jseq
    let held := (l.filter (fun c => decide (start ≤ c.jseq) && decide (c.jseq ≤ last))).length
    let bad := !readOk && sent ≠ []
    let data := spoilEntries s readOk sent
    let gap := bad || held < last + 1 - start
    let s := respond s r.src { answerTo r 0x90 with
      rflags := (if more then 1 else 0) + (if gap then 2 else 0)
      cursor := some (sessionGet s i).cursor
      data := (data.map (fun c => entryPrefix l c ++ storedOctets c)).flatten
      opdata := octets 1 data.length ++ zeros 7 }
    if bad then readError s else s

/-- Merge an acknowledged range into the ranges of its host, which never touch or overlap: the merged range, and the others. -/
def mergeAck (h a b : Nat) (l : List (Nat × Nat × Nat)) : (Nat × Nat × Nat) × List (Nat × Nat × Nat) :=
  let near := l.filter (fun m => m.1 == h && decide (m.2.1 ≤ b + 1) && decide (a ≤ m.2.2 + 1))
  let rest := l.filter (fun m => !(m.1 == h && decide (m.2.1 ≤ b + 1) && decide (a ≤ m.2.2 + 1)))
  ((h, near.foldl (fun x m => min x m.2.1) a, near.foldl (fun x m => max x m.2.2) b), rest)

/-- Every entry of a page has been acknowledged by its host (R703). -/
def pageAcked (acks : List (Nat × Nat × Nat)) (h : Nat) (p : Page) : Bool :=
  p.entries ≠ [] && p.entries.all (fun c => acks.any (fun m => m.1 == h && decide (m.2.1 ≤ c.jseq) && decide (c.jseq ≤ m.2.2)))

/-- The range a mark names for a page that is complete: the acknowledged range that holds the whole page, or its own where the page was
acknowledged piece by piece. -/
def markRange (acks : List (Nat × Nat × Nat)) (h : Nat) (p : Page) : Nat × Nat :=
  let a := (p.entries.head?.map (·.jseq)).getD 0
  let b := pageLast p
  match acks.find? (fun m => m.1 == h && decide (m.2.1 ≤ a) && decide (b ≤ m.2.2)) with
  | some m => (m.2.1, m.2.2)
  | none => (a, b)

/-- A mark waits; ranges of its host inside it need not wait any longer. -/
def waitMark (l : List (Nat × Bool × Nat × Nat)) (m : Nat × Bool × Nat × Nat) : List (Nat × Bool × Nat × Nat) :=
  if m.2.1 then (if l.contains m then l else l ++ [m])
  else l.filter (fun x => !(x.1 == m.1 && !x.2.1 && decide (m.2.2.1 ≤ x.2.2.1) && decide (x.2.2.2 ≤ m.2.2.2))) ++ [m]

/-- Pages newly complete for a host wait for their mark (R703). A page acknowledged piece by piece waits while its range would take in an
S3 page that is not complete. -/
def waitPages (s : State) (h : Nat) : State :=
  let acks := s.recallSvc.acks
  let whole := fun (a b : Nat) => s.journal.pages.all (fun p =>
    p.2.sev != 3 || !(p.2.entries.all (fun c => decide (a ≤ c.jseq) && decide (c.jseq ≤ b))) || pageAcked acks h p.2)
  { s with recallSvc := { s.recallSvc with
    waiting := (s.journal.pages.filter (fun p => pageAcked acks h p.2 && !p.2.marks.getLsbD h)).foldl (fun w p =>
      let m := markRange acks h p.2
      if whole m.1 m.2 then waitMark w (h, false, m.1, m.2) else w) s.recallSvc.waiting } }

/-- ACK (R701). -/
def serveAck (s : State) (r : RecallReq) (i : Nat) : State :=
  let a := param r 0 8
  let b := param r 8 8
  if s.journal.jseq < b || b < a then respondError s r 4
  else
    let x := sessionGet s i
    let m := mergeAck x.host a b s.recallSvc.acks
    let s := sessionPut { s with recallSvc := { s.recallSvc with acks := m.2 ++ [m.1] } } i { x with cursor := max x.cursor (b + 1) }
    respond (waitPages s x.host) r.src { answerTo r 0x91 with cursor := some (sessionGet s i).cursor }

/-- The index entry of a record (R702), none while it is not committed. -/
def indexOf (l : List Committed) (recno : Nat) : Option Committed :=
  (l.filter (fun c => c.entry.code / 64 * 64 == 0x4400 && field c.entry.payload 0 4 == recno)).getLast?

/-- RECORD (R702, R704, Table 18.4). -/
def serveRecord (s : State) (r : RecallReq) (i : Nat) (readOk : Bool) : State :=
  let recno := param r 0 4
  let off := param r 4 4
  match indexOf (allCommitted s) recno with
  | none => respondError s r 5
  | some c =>
    match s.journal.store.find? (fun x => x.recno == recno && x.jseq != 0) with
    | none => respondError s r 6
    | some x =>
      if off % 1024 != 0 || x.body.length ≤ off then respondError s r 4
      else if !readOk then readError (respondError s r 6)
      else
        let mono := field c.entry.payload 40 1 / 16 % 2 == 1
        let step := if mono then epochStep (allCommitted s) c.entry.origin x.atJseq else none
        respond s r.src { answerTo r 0xA0 with
          rflags := if off + 1024 < x.body.length then 1 else 0
          cursor := some (sessionGet s i).cursor
          data := (x.body.drop off).take 1024
          opdata := octets 4 recno ++ octets 4 off
          step := step
          aflags := (if mono then 1 else 0) + (if step.isSome then 2 else 0) }

/-- DONE (R702, R703, Table 18.4). -/
def serveDone (s : State) (r : RecallReq) (i : Nat) (readOk : Bool) : State :=
  let recno := param r 0 4
  match indexOf (allCommitted s) recno with
  | none => respondError s r 5
  | some c =>
    if !(s.journal.store.any (fun x => x.recno == recno)) then respondError s r 6
    else if !readOk then readError (respondError s r 6)
    else if param r 4 4 != field c.entry.payload 12 4 then respondError s r 7
    else
      let x := sessionGet s i
      respond { s with recallSvc := { s.recallSvc with waiting := waitMark s.recallSvc.waiting (x.host, true, recno, 0) } } r.src
        { answerTo r 0xA1 with cursor := some x.cursor }

/-! Service order (R705) -/

/-- The session served next: cyclic from the token; the lowest when the service is idle and the sessions became QUEUED in this tick. -/
def nextSession (s : State) : Option Nat :=
  let q := fun (i : Nat) => (sessionGet s i).state == .queued
  let fresh := (List.range 8).all (fun i => !q i || (sessionGet s i).queuedAt == s.now)
  ((List.range 8).map (fun i => if fresh then i else (s.recallSvc.token + i) % 8)).find? q

/-- What a request reads is at hand: MRAM behind every write and commit step (R707, R792), the NAND store behind every write (R680,
R706). -/
def readReady (s : State) (r : RecallReq) : Bool :=
  let plugWrites := match s.plug.commit with
    | .writing _ => true
    | _ => false
  if r.op = 0x11 then true
  else !mramWaits s && !plugWrites && (r.op = 0x10 || s.journal.store.all (·.written))

/-- One request of a session is served and answered. -/
def serveRequest (s : State) (i : Nat) (readOk : Bool) : State :=
  let x := sessionGet s i
  match x.request with
  | none => s
  | some r =>
    let s := sessionPut s i { x with state := .idle, request := none }
    let s := { s with recallSvc := { s.recallSvc with token := (i + 1) % 8 } }
    if r.op = 0x10 then serveEntries s r i readOk
    else if r.op = 0x11 then serveAck s r i
    else if r.op = 0x20 then serveRecord s r i readOk
    else serveDone s r i readOk

/-- OPEN (R698). -/
def execOpOpen (p : Port) (r : RecallReq) (s : State) : Host.Outcome State Fault Refusal :=
  runIf (WellFormed.request 0x01 r) (recallRequest p r) s

/-- CLOSE (R698). -/
def execOpClose (p : Port) (r : RecallReq) (s : State) : Host.Outcome State Fault Refusal :=
  runIf (WellFormed.request 0x02 r) (recallRequest p r) s

/-- ENTRIES (R698, R700). -/
def execOpEntries (p : Port) (r : RecallReq) (s : State) : Host.Outcome State Fault Refusal :=
  runIf (WellFormed.request 0x10 r) (recallRequest p r) s

/-- ACK (R698, R701). -/
def execOpAck (p : Port) (r : RecallReq) (s : State) : Host.Outcome State Fault Refusal :=
  runIf (WellFormed.request 0x11 r) (recallRequest p r) s

/-- RECORD (R698, R702). -/
def execOpRecord (p : Port) (r : RecallReq) (s : State) : Host.Outcome State Fault Refusal :=
  runIf (WellFormed.request 0x20 r) (recallRequest p r) s

/-- DONE (R698, R702). -/
def execOpDone (p : Port) (r : RecallReq) (s : State) : Host.Outcome State Fault Refusal :=
  runIf (WellFormed.request 0x21 r) (recallRequest p r) s

/-- MALFORMED_REQUEST (R696). -/
def execMalformedRequest (p : Port) (r : RecallReq) (s : State) : Host.Outcome State Fault Refusal :=
  runIf (WellFormed.anyRequest r) (fun s => if malformed r then recallRequest p r s else s) s

/-- UNLISTED_REQUEST (R694). -/
def execUnlistedRequest (p : Port) (r : RecallReq) (s : State) : Host.Outcome State Fault Refusal :=
  runIf (WellFormed.anyRequest r) (fun s => if (hostOf s r.src).isNone then recallRequest p r s else s) s

/-- RECALL_SERVE (R705): the session chosen is served in one step; its response frees the service. -/
def execRecallServe (readOk : Bool) (s : State) : Host.Outcome State Fault Refusal :=
  run (fun s =>
    if portsDone s && !redirects s then
      match nextSession s with
      | some i => if ((sessionGet s i).request.map (readReady s)).getD true then judgeSummary (serveRequest s i readOk) else s
      | none => s
    else s) s

/-- SESSION_IDLE_TIMEOUT (R698). -/
def execSessionIdleTimeout (sess : Fin 8) (s : State) : Host.Outcome State Fault Refusal :=
  run (fun s => if portsDone s then closeSession s sess.val 1 else s) s

end Sys2Proof.Machine
end

