-- ==== Sys2Proof/Machine/Swap.lean ====
section
/-! DEFINITION. The role swap (R639, R640, R644, R686, Table 16.10). -/
namespace Sys2Proof.Machine

/-- The Active proposes a swap at the next sample boundary when one is possible (Table 16.10, steps 1 and 2). -/
def trySwap (s : State) : State :=
  let s := judgeSwap s
  if s.pair.state == .active && s.pair.swapDue.isSome && s.pair.swap == .none && swapPossible s then proposeSwap s s.journal.latest else s

/-- SWAP_TIMER: the period has expired at the Active (R639). -/
def execSwapTimer (s : State) : Host.Outcome State Fault Refusal :=
  run (fun s =>
    if serving s && s.pair.state == .active then
      settlePair (trySwap { s with pair := { s.pair with swapDue := some (s.pair.swapDue.getD s.now) } })
    else s) s

/-- SWAP_RETRY: 1.0 s after a declined or abandoned swap. -/
def execSwapRetry (s : State) : Host.Outcome State Fault Refusal :=
  run (fun s =>
    if serving s && s.pair.swap == .retry then settlePair (trySwap { s with pair := { s.pair with swap := .none } }) else s) s

/-- SWAP_PROPOSE: the Standby judges the swap on its own state (Table 16.10, step 3). -/
def swapProposed (s : State) (ns : SIndex) : State :=
  if s.pair.state != .standby then s
  else if swapPossible s then carrySend { s with pair := { s.pair with swap := .agreed ns } } 0 (.swap .agree ns)
  else carrySend s 0 (.swap .decline ns)

/-- SWAP_PROPOSE (R639). -/
def execSwapPropose (h : CarryHdr) (ns : SIndex) (s : State) : Host.Outcome State Fault Refusal :=
  run (onCarry h (fun s => if serving s then swapProposed s ns else s)) s

/-- SWAP_AGREE (R639). -/
def execSwapAgree (h : CarryHdr) (ns : SIndex) (s : State) : Host.Outcome State Fault Refusal :=
  run (onCarry h (fun s => if s.pair.swap == .proposed ns then { s with pair := { s.pair with swap := .agreed ns } } else s)) s

/-- SWAP_DECLINE: declined, or abandoned by a start verdict at the partner. -/
def execSwapDecline (h : CarryHdr) (s : State) : Host.Outcome State Fault Refusal := run (onCarry h (fun s => judgeSwap (abandonSwap s))) s

/-- The old Active numbers what it still holds of indices before n_s (R686). -/
def numberBefore : Nat → State → SIndex → State
  | 0, s, _ => s
  | fuel + 1, s, ns =>
    match firstEntry (s.journal.queue.filter (fun e => e.idx.lt ns)) with
    | none => s
    | some e =>
      let t := { s with journal := { s.journal with queue := removeEntry s.journal.queue e } }
      match placeCommit t e { first := true, second := true } with
      | .done u => numberBefore fuel (sendNumbered u s e) ns
      | _ => numberBefore fuel t ns

/-- The Active becomes Standby at n_s: from n_s on its partner numbers. -/
def swapToStandby (s : State) (ns : SIndex) : State :=
  let s := startFollowing (numberBefore (s.journal.queue.length + 1) s ns)
  let q := s.journal.queue
  let s := { s with
    journal := { s.journal with queue := [] }
    pair := { s.pair with state := .standby, partnerState := 2, pairEntries := s.pair.pairEntries ++ q.filter (·.pair) } }
  (q.filter (fun e => !e.pair && e.origin == sideUid s)).foldl placeEntry s

/-- The Standby becomes Active at n_s: it numbers from n_s on; earlier pair entries still wait for the old Active's numbers. -/
def swapToActive (s : State) (ns : SIndex) : State :=
  let s := startDeciding s
  let late := s.pair.pairEntries.filter (fun e => !e.idx.lt ns)
  brkAdvance { s with
    journal := { s.journal with queue := s.journal.queue ++ late ++ s.pair.unitEntries }
    pair := { s.pair with state := .active, partnerState := 3, accepted := true, unitEntries := [], pairEntries := s.pair.pairEntries.filter (fun e => e.idx.lt ns) } }

/-- The roles are exchanged at n_s (Table 16.10, steps 5 to 8), with the pair entry "role swap". -/
def swapRoles (s : State) (ns : SIndex) : State :=
  let s := if s.pair.state == .active then swapToStandby s ns else swapToActive s ns
  let s := { s with pair := { s.pair with swap := .none, swapDue := none, swapFrom := s.now } }
  let s := causeGoneU s 0x57C0
  journalEntry s { indexEntry s (strapRate s) ns (ownCode 21 70) 1 0 none16 none16 false [] with pair := true }

/-- SWAP_AT_INDEX (R639): an agreed swap takes place; one still unanswered is abandoned. -/
def execSwapAtIndex (s : State) : Host.Outcome State Fault Refusal :=
  run (fun s =>
    if !serving s then s
    else
      match s.pair.swap with
      | .agreed ns => settlePair (withTwin (fun s => swapRoles s ns) s)
      | .proposed _ => settlePair (judgeSwap (abandonSwap s))
      | _ => s) s

end Sys2Proof.Machine
end

