-- ==== Sys2Proof/Machine/Dispatch.lean ====
section
/-! DEFINITION. The dispatch: one arm per command, each a direct call of its meaning. -/
namespace Sys2Proof.Machine

def exec (i : Instr) (s : State) : Host.Outcome State Fault Refusal :=
  match i with
  | .vbatApplied => Sys2Proof.Machine.execVbatApplied s
  | .vinGood holdUpOk => Sys2Proof.Machine.execVinGood holdUpOk s
  | .strapsDecided readings => Sys2Proof.Machine.execStrapsDecided readings s
  | .laneSelfTestDone run => Sys2Proof.Machine.execLaneSelfTestDone run s
  | .journalCheck find => Sys2Proof.Machine.execJournalCheck find s
  | .startUpPlugRead scans => Sys2Proof.Machine.execStartUpPlugRead scans s
  | .portsStep cages => Sys2Proof.Machine.execPortsStep cages s
  | .partnerAbsent => Sys2Proof.Machine.execPartnerAbsent s
  | .vinLow => Sys2Proof.Machine.execVinLow s
  | .vinFailed => Sys2Proof.Machine.execVinFailed s
  | .nresetInAccepted => Sys2Proof.Machine.execNresetInAccepted s
  | .nresetInReleased => Sys2Proof.Machine.execNresetInReleased s
  | .domainLost d => Sys2Proof.Machine.execDomainLost d s
  | .corePllUnlock => Sys2Proof.Machine.execCorePllUnlock s
  | .vbatCheck mv => Sys2Proof.Machine.execVbatCheck mv s
  | .vbatLowErase => Sys2Proof.Machine.execVbatLowErase s
  | .vbatBelowRetentionMin => Sys2Proof.Machine.execVbatBelowRetentionMin s
  | .fieldSupplyLost g => Sys2Proof.Machine.execFieldSupplyLost g s
  | .fieldSupplyRestored g => Sys2Proof.Machine.execFieldSupplyRestored g s
  | .statusPinCurrentLimit pin => Sys2Proof.Machine.execStatusPinCurrentLimit pin s
  | .crossingQueueParity x => Sys2Proof.Machine.execCrossingQueueParity x s
  | .plugScanStart => Sys2Proof.Machine.execPlugScanStart s
  | .scanEnd r => Sys2Proof.Machine.execScanEnd r s
  | .presenceCheck det1 det2 type => Sys2Proof.Machine.execPresenceCheck det1 det2 type s
  | .commitInAsserted => Sys2Proof.Machine.execCommitInAsserted s
  | .commitInReleased => Sys2Proof.Machine.execCommitInReleased s
  | .holdComplete => Sys2Proof.Machine.execHoldComplete s
  | .quiescenceMet => Sys2Proof.Machine.execQuiescenceMet s
  | .commitDecision => Sys2Proof.Machine.execCommitDecision s
  | .commitBoundary => Sys2Proof.Machine.execCommitBoundary s
  | .quiescenceTimeout => Sys2Proof.Machine.execQuiescenceTimeout s
  | .frameReceived p f => Sys2Proof.Machine.execFrameReceived p f s
  | .prpEntryForgotten station src => Sys2Proof.Machine.execPrpEntryForgotten station src s
  | .linkDown loss => Sys2Proof.Machine.execLinkDown loss s
  | .linkUp gain => Sys2Proof.Machine.execLinkUp gain s
  | .moduleRemoved p => Sys2Proof.Machine.execModuleRemoved p s
  | .moduleInserted p read => Sys2Proof.Machine.execModuleInserted p read s
  | .transmitterFault p => Sys2Proof.Machine.execTransmitterFault p s
  | .a2hPoll p retry read => Sys2Proof.Machine.execA2hPoll p retry read s
  | .prpSupervisionSend => Sys2Proof.Machine.execPrpSupervisionSend s
  | .tallyInterval => Sys2Proof.Machine.execTallyInterval s
  | .ringOpen p => Sys2Proof.Machine.execRingOpen p s
  | .svFrame p f => Sys2Proof.Machine.execSvFrame p f s
  | .frameOverdue slot => Sys2Proof.Machine.execFrameOverdue slot s
  | .streamDestroyed slot => Sys2Proof.Machine.execStreamDestroyed slot s
  | .streamNotAdmitted slot => Sys2Proof.Machine.execStreamNotAdmitted slot s
  | .breakerMessage p m => Sys2Proof.Machine.execBreakerMessage p m s
  | .breakerStatusExpired slot => Sys2Proof.Machine.execBreakerStatusExpired slot s
  | .breakerDestroyed slot => Sys2Proof.Machine.execBreakerDestroyed slot s
  | .sync p m => Sys2Proof.Machine.execSync p m s
  | .followUp p m => Sys2Proof.Machine.execFollowUp p m s
  | .followUpTimeout p => Sys2Proof.Machine.execFollowUpTimeout p s
  | .announce p m => Sys2Proof.Machine.execAnnounce p m s
  | .masterLost p src => Sys2Proof.Machine.execMasterLost p src s
  | .pdelayReqSend p => Sys2Proof.Machine.execPdelayReqSend p s
  | .pdelayReq p h rx half => Sys2Proof.Machine.execPdelayReq p h rx half s
  | .pdelayResp p m => Sys2Proof.Machine.execPdelayResp p m s
  | .pdelayRespFollowUp p m => Sys2Proof.Machine.execPdelayRespFollowUp p m s
  | .ptpDiscarded p => Sys2Proof.Machine.execPtpDiscarded p s
  | .holdoverExpiry => Sys2Proof.Machine.execHoldoverExpiry s
  | .leapSecond => Sys2Proof.Machine.execLeapSecond s
  | .ppsEdge => Sys2Proof.Machine.execPpsEdge s
  | .twinUpdate => Sys2Proof.Machine.execTwinUpdate s
  | .ovenUpdate err => Sys2Proof.Machine.execOvenUpdate err s
  | .ovenInSpec => Sys2Proof.Machine.execOvenInSpec s
  | .coilUpdate ch => Sys2Proof.Machine.execCoilUpdate ch s
  | .pickEnd ch => Sys2Proof.Machine.execPickEnd ch s
  | .followingError slot => Sys2Proof.Machine.execFollowingError slot s
  | .adcTrigger idx prim k0 k1 => Sys2Proof.Machine.execAdcTrigger idx prim k0 k1 s
  | .urgentCheck input start primDone chkDone prim chk => Sys2Proof.Machine.execUrgentCheck input start primDone chkDone prim chk s
  | .referenceMonitor v => Sys2Proof.Machine.execReferenceMonitor v s
  | .sampleRelease lanes => Sys2Proof.Machine.execSampleRelease lanes s
  | .checkPattern lanes signature parityOk => Sys2Proof.Machine.execCheckPattern lanes signature parityOk s
  | .directionConfirmed z d => Sys2Proof.Machine.execDirectionConfirmed z d s
  | .memoryExpiry z d => Sys2Proof.Machine.execMemoryExpiry z d s
  | .freezeLimit z e => Sys2Proof.Machine.execFreezeLimit z e s
  | .definiteDelayExpiry z e => Sys2Proof.Machine.execDefiniteDelayExpiry z e s
  | .definiteResetExpiry z e => Sys2Proof.Machine.execDefiniteResetExpiry z e s
  | .intermediateTimeout z => Sys2Proof.Machine.execIntermediateTimeout z s
  | .tripMinimumExpiry z => Sys2Proof.Machine.execTripMinimumExpiry z s
  | .bfTimerExpiry z => Sys2Proof.Machine.execBfTimerExpiry z s
  | .deadTimeExpiry z => Sys2Proof.Machine.execDeadTimeExpiry z s
  | .reclaimExpiry z => Sys2Proof.Machine.execReclaimExpiry z s
  | .openTimerExpiry z => Sys2Proof.Machine.execOpenTimerExpiry z s
  | .closePulseEnd z => Sys2Proof.Machine.execClosePulseEnd z s
  | .closeFailure z => Sys2Proof.Machine.execCloseFailure z s
  | .coldLoadArmed z => Sys2Proof.Machine.execColdLoadArmed z s
  | .coldLoadEnd z => Sys2Proof.Machine.execColdLoadEnd z s
  | .testModeEntry z => Sys2Proof.Machine.execTestModeEntry z s
  | .testModeExit z => Sys2Proof.Machine.execTestModeExit z s
  | .thermalPersist => Sys2Proof.Machine.execThermalPersist s
  | .stnumPersisted pub ok => Sys2Proof.Machine.execStnumPersisted pub ok s
  | .retransmissionDue pub => Sys2Proof.Machine.execRetransmissionDue pub s
  | .processTransmit => Sys2Proof.Machine.execProcessTransmit s
  | .statusFramePeriodic => Sys2Proof.Machine.execStatusFramePeriodic s
  | .statusFrameOnChange => Sys2Proof.Machine.execStatusFrameOnChange s
  | .helloSend => Sys2Proof.Machine.execHelloSend s
  | .hello h b => Sys2Proof.Machine.execHello h b s
  | .accept f journal stnums => Sys2Proof.Machine.execAccept f journal stnums s
  | .refuse f => Sys2Proof.Machine.execRefuse f s
  | .carryHeartbeatSend => Sys2Proof.Machine.execCarryHeartbeatSend s
  | .busHeartbeatSend => Sys2Proof.Machine.execBusHeartbeatSend s
  | .heartbeat h b => Sys2Proof.Machine.execHeartbeat h b s
  | .busHeartbeat p dst b => Sys2Proof.Machine.execBusHeartbeat p dst b s
  | .pathSilent p => Sys2Proof.Machine.execPathSilent p s
  | .receipt h rs => Sys2Proof.Machine.execReceipt h rs s
  | .lend h b => Sys2Proof.Machine.execLend h b s
  | .lendTimeout slot idx => Sys2Proof.Machine.execLendTimeout slot idx s
  | .unagreedRelease slot idx => Sys2Proof.Machine.execUnagreedRelease slot idx s
  | .decision h ds => Sys2Proof.Machine.execDecision h ds s
  | .timeExchange h b => Sys2Proof.Machine.execTimeExchange h b s
  | .swapTimer => Sys2Proof.Machine.execSwapTimer s
  | .swapPropose h ns => Sys2Proof.Machine.execSwapPropose h ns s
  | .swapAgree h ns => Sys2Proof.Machine.execSwapAgree h ns s
  | .swapDecline h => Sys2Proof.Machine.execSwapDecline h s
  | .swapRetry => Sys2Proof.Machine.execSwapRetry s
  | .swapAtIndex => Sys2Proof.Machine.execSwapAtIndex s
  | .jentry h e => Sys2Proof.Machine.execJentry h e s
  | .jcheck h jseq ecrc => Sys2Proof.Machine.execJcheck h jseq ecrc s
  | .resync h last journal slots brks stnums n0 => Sys2Proof.Machine.execResync h last journal slots brks stnums n0 s
  | .snapshot h zones pubs pairSeq n1 => Sys2Proof.Machine.execSnapshot h zones pubs pairSeq n1 s
  | .rejoinTimeout => Sys2Proof.Machine.execRejoinTimeout s
  | .carryRetransmit lane => Sys2Proof.Machine.execCarryRetransmit lane s
  | .carryLaneUp lane => Sys2Proof.Machine.execCarryLaneUp lane s
  | .carryLinkLost => Sys2Proof.Machine.execCarryLinkLost s
  | .journalCommit reads => Sys2Proof.Machine.execJournalCommit reads s
  | .tokenRefill => Sys2Proof.Machine.execTokenRefill s
  | .suppressionSummary code zone => Sys2Proof.Machine.execSuppressionSummary code zone s
  | .marksEntry => Sys2Proof.Machine.execMarksEntry s
  | .periodicSnapshot => Sys2Proof.Machine.execPeriodicSnapshot s
  | .recordClose rec => Sys2Proof.Machine.execRecordClose rec s
  | .nandWriteComplete rec ok => Sys2Proof.Machine.execNandWriteComplete rec ok s
  | .opOpen p r => Sys2Proof.Machine.execOpOpen p r s
  | .opClose p r => Sys2Proof.Machine.execOpClose p r s
  | .opEntries p r => Sys2Proof.Machine.execOpEntries p r s
  | .opAck p r => Sys2Proof.Machine.execOpAck p r s
  | .opRecord p r => Sys2Proof.Machine.execOpRecord p r s
  | .opDone p r => Sys2Proof.Machine.execOpDone p r s
  | .malformedRequest p r => Sys2Proof.Machine.execMalformedRequest p r s
  | .unlistedRequest p r => Sys2Proof.Machine.execUnlistedRequest p r s
  | .recallServe readOk => Sys2Proof.Machine.execRecallServe readOk s
  | .sessionIdleTimeout sess => Sys2Proof.Machine.execSessionIdleTimeout sess s
  | .ackInAccepted => Sys2Proof.Machine.execAckInAccepted s
  | .ackInputAccepted => Sys2Proof.Machine.execAckInputAccepted s
  | .faultReactionComplete k => Sys2Proof.Machine.execFaultReactionComplete k s
  | .causeGoneRetest k => Sys2Proof.Machine.execCauseGoneRetest k s
  | .couplerFrameStart g corrupted => Sys2Proof.Machine.execCouplerFrameStart g corrupted s
  | .upstreamFrameReceived ch errors => Sys2Proof.Machine.execUpstreamFrameReceived ch errors s
  | .inputSample ch mv vf => Sys2Proof.Machine.execInputSample ch mv vf s
  | .chatterEnd ch => Sys2Proof.Machine.execChatterEnd ch s
  | .openWireInput ch below => Sys2Proof.Machine.execOpenWireInput ch below s
  | .shortDecision ch bothLegs => Sys2Proof.Machine.execShortDecision ch bothLegs s
  | .hardShort ch bothLegs => Sys2Proof.Machine.execHardShort ch bothLegs s
  | .retry ch => Sys2Proof.Machine.execRetry ch s
  | .overTemperature ch => Sys2Proof.Machine.execOverTemperature ch s
  | .overTemperatureRestart ch => Sys2Proof.Machine.execOverTemperatureRestart ch s
  | .demagEnd ch => Sys2Proof.Machine.execDemagEnd ch s
  | .tcsPulse ch => Sys2Proof.Machine.execTcsPulse ch s
  | .tcsPulseEnd ch mv vf => Sys2Proof.Machine.execTcsPulseEnd ch mv vf s
  | .outputDiagnostic ch d present => Sys2Proof.Machine.execOutputDiagnostic ch d present s
  | .downstreamFrameLoss ch => Sys2Proof.Machine.execDownstreamFrameLoss ch s
  | .couplerFault ch => Sys2Proof.Machine.execCouplerFault ch s
  | .clockCouplerStop g => Sys2Proof.Machine.execClockCouplerStop g s
  | .fieldSideStart g => Sys2Proof.Machine.execFieldSideStart g s
  | .hatchOpened => Sys2Proof.Machine.execHatchOpened s
  | .meshEvent => Sys2Proof.Machine.execMeshEvent s
  | .eraseReadbackFailure => Sys2Proof.Machine.execEraseReadbackFailure s
  | .hatchReport isOpen => Sys2Proof.Machine.execHatchReport isOpen s
  | .meshMonitorTest follows => Sys2Proof.Machine.execMeshMonitorTest follows s
  | .portLive supplyOk => Sys2Proof.Machine.execPortLive supplyOk s
  | .load t => Sys2Proof.Machine.execLoad t s
  | .eraseCommand t => Sys2Proof.Machine.execEraseCommand t s
  | .check t => Sys2Proof.Machine.execCheck t s
  | .transactionDiscarded t => Sys2Proof.Machine.execTransactionDiscarded t s
  | .transactionTimeout => Sys2Proof.Machine.execTransactionTimeout s
  | .portBusyEnd => Sys2Proof.Machine.execPortBusyEnd s
  | .syncReceiptTimeout p => Sys2Proof.Machine.execSyncReceiptTimeout p s
  | .carryLaneDown lane => Sys2Proof.Machine.execCarryLaneDown lane s
  | .heartbeatLanSilent p => Sys2Proof.Machine.execHeartbeatLanSilent p s
  | .pwmPeriodStart ch mean => Sys2Proof.Machine.execPwmPeriodStart ch mean s

end Sys2Proof.Machine
end

