-- ==== Sys2Proof/Machine/Idle.lean ====
section
/-! DEFINITION. What happens on an empty queue. -/
namespace Sys2Proof.Machine

/-- One core tick passes with no command: the clocks move on, and the summary follows what they change (log 2). -/
def idle (s : State) : Host.Outcome State Fault Refusal := run (fun s => judgeSummary (tick s)) s

end Sys2Proof.Machine
end

