-- ==== Sys2Proof/Safety.lean ====
section
/-! DEFINITION. What counts as a safe run, and what the block's own bookkeeping leaves of a state: the frames that statements name. -/
namespace Sys2Proof.Machine

/-- The outcome is a next state. -/
def isNext (o : Host.Outcome State Fault Refusal) : Bool :=
  match o with
  | .next _ => true
  | _ => false

/-- The command completes at the state: it answers a next state, and that state has the property. -/
def Answers (c : Instr) (s : State) (p : State → Prop) : Prop := ∃ t, exec c s = .next t ∧ p t

/-- The fault of a key is Reacting at a level, not acknowledged, its cause present (Table 19.2). -/
def Reacts (s : State) (k : FaultKey) (level : Nat) : Prop :=
  ∃ r, faultGet s k = some r ∧ r.phase = .reacting ∧ r.level = level ∧ r.acked = false ∧ r.causeGone = false

/-- The state without what faults, entries and tallies change: fault states, entries on their way to the journal, tallies, what
leaves the block, and the carry lanes and lists on which a Standby's entries wait (R661). -/
def State.sansRecords (s : State) : State :=
  { s with
    out := [], faults := {}, tally := []
    journal := { s.journal with queue := [], holds := [], buckets := [], snapAt := [], suspended := 0 }
    pair := { s.pair with lane0 := {}, lane1 := {}, unitEntries := [], pairEntries := [] } }

/-- The state without what publishing changes besides: publications, station and pair-node sequence numbers, a station
port's parity error that ends its next frame (R43), and key slots that a frame's read finds corrupt (R750, R783). -/
def State.sansReports (s : State) : State :=
  { s.sansRecords with
    pub := {}
    ports := { s.ports with
      seqStation := 0, seqPair := 0, s0 := { s.ports.s0 with txBad := false, lastTx := none }, s1 := { s.ports.s1 with txBad := false, lastTx := none } }
    sealSt := { s.sealSt with keys := [] } }

/-- The state without what the judgements of the pair block change besides: recall sessions (R714). -/
def State.sansSettled (s : State) : State := { s.sansReports with recallSvc := { s.recallSvc with sessions := [] } }

/-- The state without what a Withdraw-level fault changes besides: the engine state, the commit and the hold, the COIL and TWIN slots,
and where the pair stands (Table 1.7, R150, R166, R721, Table 9.4). -/
def State.sansCourse (s : State) : State :=
  { s.sansSettled with
    power := { s.power with engine := .off }
    plug := { s.plug with commit := .none, hold := .idle }
    reck := { s.reck with coil := [], twin := {} }
    pair := { s.pair with
      lane0 := {}, lane1 := {}, unitEntries := [], pairEntries := [], state := .solo, accepted := false, hello := none, swap := .none
      rejoin := .none, leftPorts := [] } }

/-- The header of the carry frame that a command brings. -/
def carryHeader (c : Instr) : Option CarryHdr :=
  match c with
  | .hello h _ | .heartbeat h _ | .receipt h _ | .lend h _ | .decision h _ | .timeExchange h _ | .swapPropose h _ | .swapAgree h _
  | .swapDecline h | .jentry h _ | .jcheck h _ _ | .resync h _ _ _ _ _ _ | .snapshot h _ _ _ _ => some h
  | .accept f _ _ => some f.hdr
  | .refuse f => some f.hdr
  | _ => none

/-- The carry frame is taken: valid, the next one expected, on a lane that is up (R619). -/
def takes (s : State) (h : CarryHdr) : Bool := carryOn s && (laneGet s h.lane).up && h.valid && h.seq == (laneGet s h.lane).rxSeq

/-- Nothing is on its way through agreement or the intake. -/
def agreementEmpty (s : State) : Prop := s.pair.held = [] ∧ s.pair.heldBrk = [] ∧ s.streams.intake = []

/-- Lane 0 of the carry link can send a frame at once (R620). -/
def lane0Ready (s : State) : Bool := s.pair.lane0.up && s.pair.lane0.unacked.length < 64 && s.pair.lane0.waiting == []

/-- The classes that bookkeeping itself can raise or clear: S3 entry lost, key absent, publisher stopped and unsecured
(R689, R771, Table 15.10); and keys out of the range of Table 19.6. -/
def bookkept (k : FaultKey) : Bool := [0x117, 0x26, 0x144, 0x145].contains (k.code / 64) || decide (65536 ≤ k.scope * 4096 + k.inst)

/-- The recall request that a command brings, and its port. -/
def recallOf (c : Instr) : Option (Port × RecallReq) :=
  match c with
  | .opOpen p r | .opClose p r | .opEntries p r | .opAck p r | .opRecord p r | .opDone p r | .malformedRequest p r
  | .unlistedRequest p r => some (p, r)
  | _ => none

/-- The request reaches the recall service, and a listed host sent it (R694 to R696). -/
def hears (s : State) (p : Port) (r : RecallReq) : Bool := recallOpen s p && (hostOf s r.src).isSome

/-- Where S0 can send, no parity error ending its next frame (R43), a response of OP code `op` to the request leaves on it (R697). -/
def responds (s t : State) (r : RecallReq) (op : Nat) : Prop :=
  canSend s .s0 = true → s.ports.s0.txBad = false → ∃ n l, .frame .s0 (withRct 0xA n l) ∈ t.out ∧ l.take 6 = octets 6 r.src.toNat
    ∧ (l.drop 19).take 2 = [1#8, BitVec.ofNat 8 op]

end Sys2Proof.Machine
end

