-- ==== Sys2Proof/Certificates/Slice0/Obligations.lean ====
section
/-! DEFINITION. The statements for the provers. -/

open Sys2Proof Sys2Proof.Machine

/-! The queue and the step -/

/-- A step runs the command at the front of the queue on the state with the queue's rest (the queue is the model's, log 1). -/
def Obligations.StepRunsFront : Prop :=
  ∀ (c : Instr) (rest : List Instr) (s : State), s.pending = c :: rest → step s = exec c { s with pending := rest }

/-- R303, R304: a step on an empty queue is one core tick (the model's choice, log 2). While CLK_CORE runs the counter, read in units of 2^-32 ns, moves on by INCR,
and a carry of NS to 10^9 adds 1 to SEC; the oscillator of 10MHZ_OUT moves on by INCR while D6 is good; nothing but the clocks and the summary's publication changes. -/
def Obligations.IdleTickCounts : Prop :=
  ∀ s : State, s.pending = [] → ∃ t, step s = .next t ∧ t.pending = [] ∧ t.now = s.now + 1
    ∧ t.sansReports = { s.sansReports with now := s.now + 1, time := t.time }
    ∧ (clockRuns s = true → s.time.ns < 1000000000 → s.time.frac < 65536 → s.time.residue < 65536 →
        s.time.sec + 1 < 2 ^ 48 →
        let incr := 0x280000000 + 2 * max (-32767) (min 32767 (s.reck.clk.u + s.reck.twin.u))
        (((t.time.sec : Int) * 1000000000 + t.time.ns) * 2 ^ 32 + (t.time.frac * 65536 + t.time.residue : Nat)
          = ((s.time.sec : Int) * 1000000000 + s.time.ns) * 2 ^ 32 + (s.time.frac * 65536 + s.time.residue : Nat) + incr)
        ∧ t.time.ns < 1000000000)
    ∧ (clockRuns s = false → t.time = { s.time with nco := t.time.nco })
    ∧ (domainGood s 6 = true → t.time.nco = (s.time.nco + (0x280000000 + 2 * max (-32767) (min 32767 (s.reck.clk.u + s.reck.twin.u))).toNat) % (100 * 2 ^ 32))
    ∧ (domainGood s 6 = false → t.time.nco = s.time.nco)

/-- Every command whose operands the hardware can bring completes, and no other does (the model's choice, log 1): a command stops, with the fault
illFormed, exactly where its operands cannot come from the hardware, and nothing is refused; so a step on a queue of commands that the hardware can
bring takes exactly its front command and answers a next state, from every state, and such a queue never stops the block. -/
def Obligations.QueueNeverStops : Prop :=
  (∀ (c : Instr) (s : State), (WellFormed c = false ↔ exec c s = .fault .illFormed) ∧ ∀ r, exec c s ≠ .refused r)
  ∧ ∀ s : State, (∀ c ∈ s.pending, WellFormed c = true) →
    ∃ t, step s = .next t ∧ t.pending = s.pending.tail ∧ ∀ c ∈ t.pending, WellFormed c = true

/-! Supplies, reset and start-up (chapters 1 to 3) -/

/-- Table 1.7, R103, R107, R112, R115, R124, R126, R752: what the supplies and nRESET_IN make of the engine state, of D0 and of the start cause;
VIN failure ends in Retention where VBAT is present, else in Off with the key slots empty. -/
def Obligations.SuppliesMoveEngine : Prop :=
  (∀ s, s.power.engine = .off → Answers .vbatApplied s (fun t =>
    t.power.engine = .retention ∧ t.power.vbat = true ∧ t.power.domOn = 0 :: s.power.domOn
      ∧ t.sealSt.evRestart = true ∧ t.sealSt.keys = []))
  ∧ (∀ s h, s.power.engine = .off ∨ s.power.engine = .retention → s.ident.fuse1.ok = true ∨ s.ident.fuse2.ok = true →
    Answers (.vinGood h) s (fun t => t.power.engine = .starting ∧ t.power.step = .straps ∧ t.power.vinGood = true
      ∧ t.power.startCause = (if s.power.engine = .off then .fromOff else .fromRetention)
      ∧ t.power.domOn = List.range 9 ++ s.power.domOn.filter (9 ≤ ·) ∧ t.ident = { s.ident with decided := false }
      ∧ t.power.holdUpOk = h ∧ (h = false → Reacts t (keyU 0x4A00) 2)))
  ∧ (∀ s, coreRuns s = true → Answers .nresetInAccepted s (fun t =>
    t.power.engine = .starting ∧ t.power.inReset = true ∧ ∀ d ∈ [2, 3, 4, 7, 8], d ∉ t.power.domOn))
  ∧ (∀ s, s.power.inReset = true → s.ident.fuse1.ok = true ∨ s.ident.fuse2.ok = true → Answers .nresetInReleased s (fun t =>
    t.power.engine = .starting ∧ t.power.inReset = false ∧ t.power.startCause = .nreset ∧ t.power.step = .straps
      ∧ t.sealSt = s.sealSt ∧ t.nvm = s.nvm ∧ (t.power.holdUpOk = false → Reacts t (keyU 0x4A00) 2)))
  ∧ (∀ s, s.power.engine = .retention → Answers .vbatBelowRetentionMin s (fun t =>
    t.power.engine = .off ∧ t.power.vbat = false ∧ t.sealSt.keys = [] ∧ t.nvm = s.nvm))
  ∧ (∀ s, s.power.engine = .retention → Answers .vbatLowErase s (fun t =>
    t = { s with out := [], sealSt := { s.sealSt with
      keys := [], staging := 0, result := 0, evVbatLow := true, erased := false, live := false, busy := false } }))
  ∧ (∀ s, s.power.vinGood = true → Answers .vinFailed s (fun t =>
    t.power.vinGood = false ∧ t.power.vbat = s.power.vbat
      ∧ t.power.engine = (if s.power.vbat then .retention else .off)
      ∧ (s.power.vbat = false → t.sealSt.keys = []) ∧ t.faults = {} ∧ t.zones = [] ∧ t.pub = {}))

/-- R40, R88, R91, R116: the supply faults arise at the level of Table 19.7 where they were Clear; the loss of the PLL withdraws the
unit; a good VBAT reading lets the cause of its fault go. -/
def Obligations.SupplyFaultsArise : Prop :=
  (∀ s, coreRuns s = true → s.power.vinGood = true → faultGet s (keyU 0x0600) = none →
    Answers .vinLow s (fun t => Reacts t (keyU 0x0600) 1 ∧ t.power = s.power))
  ∧ (∀ s, coreRuns s = true → s.power.pllLocked = true → faultGet s (keyU 0x06C0) = none →
    Answers .corePllUnlock s (fun t => Reacts t (keyU 0x06C0) 4 ∧ t.power.engine = .withdrawn ∧ t.power.pllLocked = false))
  ∧ (∀ s mv, coreRuns s = true → (∀ v, mv = some v → v < 2200) → faultGet s (keyU 0x0940) = none →
    Answers (.vbatCheck mv) s (fun t => Reacts t (keyU 0x0940) 2 ∧ t.power.vbatMv = mv))
  ∧ (∀ s v, coreRuns s = true → 2300 ≤ v → (∀ r, faultGet s (keyU 0x0940) = some r → r.level < 4) →
    Answers (.vbatCheck (some v)) s (fun t =>
    faultStands t (keyU 0x0940) = false ∧ t.power.vbatMv = some v))
  ∧ (∀ s p, coreRuns s = true → faultGet s (keyU 0x0700) = none → Answers (.statusPinCurrentLimit p) s (fun t =>
    Reacts t (keyU 0x0700) 1 ∧ pinConducts t p = false ∧ (p, s.now + 400000000) ∈ t.power.pinsOff))

/-- Table 3.3, R72, R85, R127, R325, R692: the first steps of start-up, with what each leaves for the next. -/
def Obligations.StartUpSteps : Prop :=
  (∀ s l, atStep s .straps = true → WellFormed.straps l = true → Answers (.strapsDecided l) s (fun t =>
    t.ident = { s.ident with straps := l.map strapNibble, decided := true } ∧ t.power.step = .laneTest
      ∧ t.power.withheldBy = (if strapsKinds (l.map strapNibble) = [] then s.power.withheldBy else some (s.power.withheldBy.getD .straps))
      ∧ t.pair.state = (if isTwin t then .pairing else .solo)
      ∧ (isTwin t = false → 3 ∉ t.power.domOn) ∧ (adcInputs t = 0 → 7 ∉ t.power.domOn)))
  ∧ (∀ s p, atStep s .laneTest = true → selfTestPasses s p = true → Answers (.laneSelfTestDone p) s (fun t =>
    t.power = { s.power with step := .journal, laneTestPassed := true }))
  ∧ (∀ s p, atStep s .laneTest = true → selfTestPasses s p = false → faultGet s (keyU 0x3100) = none →
    Answers (.laneSelfTestDone p) s (fun t => t.power.step = .journal ∧ t.power.engine = .withdrawn ∧ Reacts t (keyU 0x3100) 4))
  ∧ (∀ s f, atStep s .journal = true → Answers (.journalCheck f) s (fun t =>
    t.power.engine = s.power.engine ∧ t.power.step = (if s.power.engine = .withdrawn then .ports else .plug)
      ∧ (domainGood s 5 = true → t.nvm.straps = some s.ident.straps ∧ t.time.utcOffset = s.nvm.utcOffset.getD 37)))

/-- R104, R145, R168 to R170: start-up reading takes the first two consecutive identical scans as the stable image and adopts what it
gives, D8 off again; without them, or with a global rule that the image breaks (R170), the plug withholds the unit (detail 1 of 0x1580, of
0x1680). -/
def Obligations.StartUpPlugDecides : Prop :=
  (∀ s l img last, atStep s .plug = true → WellFormed.scans l = true → startStable none (l.map startImage) = (some img, last) →
    Answers (.startUpPlugRead l) s (fun t => t.power.step = .ports ∧ t.plug.stable = some img ∧ t.plug.last = last ∧ 8 ∉ t.power.domOn
      ∧ (globalFails img = false → t.power.withheldBy = s.power.withheldBy ∧ t.plug.image = some (buildImage img (bankImage s))
        ∧ ((bankImage s).map fullFp ≠ some (fullFp (buildImage img (bankImage s))) → bankImage t = t.plug.image))
      ∧ (globalFails img = true → t.power.withheldBy = some (s.power.withheldBy.getD .plug) ∧ t.plug.image = s.plug.image ∧ t.nvm = s.nvm
        ∧ (faultGet s (keyU 0x1680) = none → Reacts t (keyU 0x1680) 2))))
  ∧ (∀ s l last, atStep s .plug = true → WellFormed.scans l = true → startStable none (l.map startImage) = (none, last) →
    Answers (.startUpPlugRead l) s (fun t => t.power.step = .ports ∧ t.power.withheldBy = some (s.power.withheldBy.getD .plug)
      ∧ t.plug = { s.plug with last := last } ∧ 8 ∉ t.power.domOn ∧ (faultGet s (keyU 0x1580) = none → Reacts t (keyU 0x1580) 2)))

/-- Table 1.7, R105, R106: the ports step ends Starting in Serving, or in Withheld for the cause found; a twin unit that hears nothing of its
partner serves alone, Active with the partner absent. -/
def Obligations.StartingEnds : Prop :=
  (∀ s l, atStep s .ports = true → s.power.engine = .starting → s.pair.state = .solo → s.power.withheldBy = none → WellFormed.cages l = true →
    Answers (.portsStep l) s (fun t => t.power.engine = .serving ∧ t.power.step = .pairing ∧ t.time.servingAt = s.now))
  ∧ (∀ s l c, atStep s .ports = true → s.power.engine = .starting → s.power.withheldBy = some c → WellFormed.cages l = true →
    Answers (.portsStep l) s (fun t => t.power.engine = .withheld ∧ t.power.step = .pairing ∧ t.power.withheldBy = some c
      ∧ (t.ports.p0.modAbs, t.ports.p1.modAbs, t.ports.s0.modAbs, t.ports.s1.modAbs) = ((l.map (·.modAbs)).getD 0 true, (l.map (·.modAbs)).getD 1 true,
        (l.map (·.modAbs)).getD 2 true, (l.map (·.modAbs)).getD 3 true)))
  ∧ (∀ s, isTwin s = true → portsDone s = true → s.power.engine = .starting → canServe s = true → s.pair.state = .pairing → s.pair.heard = false →
    Answers .partnerAbsent s (fun t => t.power.engine = .serving ∧ t.pair.state = .active ∧ t.pair.absent = true))

/-- Table 3.2, R98 to R101, R128: the reaction to the loss of each supervised domain that is on. -/
def Obligations.DomainLosses : Prop :=
  (∀ s (d : Fin 11), coreRuns s = true → s.power.vinGood = true → domainGood s d.val = true → d.val ∈ [2, 5, 6] →
    faultGet s (keyD 0x0640 d.val) = none → Answers (.domainLost d) s (fun t =>
      t.power.engine = .withdrawn ∧ d.val ∈ t.power.domLost ∧ Reacts t (keyD 0x0640 d.val) 4 ∧ (d.val = 6 → t.power.pllLocked = false)))
  ∧ (∀ s (d : Fin 11), coreRuns s = true → s.power.vinGood = true → domainGood s d.val = true → d.val ∈ [3, 4, 8] →
    faultGet s (keyD 0x0680 d.val) = none → Answers (.domainLost d) s (fun t =>
      (isTwin s = false → t.power.engine = s.power.engine) ∧ d.val ∈ t.power.domLost ∧ Reacts t (keyD 0x0680 d.val) 2
      ∧ (d.val = 3 → isTwin s = true → t.pair.carryUp = false ∧ t.pair.lane0.up = false ∧ t.pair.lane1.up = false)
      ∧ (d.val = 4 → t.journal.ring = []) ∧ (d.val = 8 → s.plug.scanning = true → t.plug.scanBroken = true)))
  ∧ (∀ s, coreRuns s = true → s.power.vinGood = true → domainGood s 1 = true → s.ident.fuse1.ok = true ∨ s.ident.fuse2.ok = true →
    Answers (.domainLost 1) s (fun t => t.power.startCause = .internalRestart ∧ t.power.step = .straps ∧ t.sealSt = s.sealSt
      ∧ (t.power.holdUpOk = false → Reacts t (keyU 0x4A00) 2) ∧ (stnumNext s = none → t.nvm = s.nvm)
      ∧ (∀ p, stnumNext s = some p → storeOn s = true → t.nvm = { s.nvm with stNum := Tab.put 0 s.nvm.stNum p (nextNum (persisted s p)) })
      ∧ (if atStep s .straps = true then t.power.engine = .withdrawn ∧ Reacts t (keyD 0x0640 1) 4
         else t.power.engine = .starting ∧ faultGet t (keyD 0x0640 1) = none)))
  ∧ (∀ s, coreRuns s = true → s.power.vinGood = true → domainGood s 7 = true → faultGet s (keyU 0x42C0) = none →
    Answers (.domainLost 7) s (fun t => 7 ∈ t.power.domLost ∧ Reacts t (keyU 0x42C0) 3))
  ∧ (∀ s, coreRuns s = true → s.power.vinGood = true → domainGood s 0 = true → faultGet s (keyU 0x0900) = none →
    Answers (.domainLost 0) s (fun t => t.sealSt.keys = [] ∧ t.sealSt.latch = false ∧ t.sealSt.live = false ∧ (coreReads s = false → t.sealSt.evRestart = true)
      ∧ 0 ∈ t.power.domLost ∧ Reacts t (keyU 0x0900) 2))
  ∧ (∀ s (d : Fin 11) g, coreRuns s = true → s.power.vinGood = true → domainGood s d.val = true → d.val = 9 + groupNum g →
    faultGet s (keyG 0x3B00 g) = none → Answers (.domainLost d) s (fun t => d.val ∈ t.power.domLost ∧ (groupGet t g).running = false
      ∧ (∀ cc ∈ groupChannels g, (chGet t cc).on = false) ∧ Reacts t (keyG 0x3B00 g) 2))

/-- R97, R100, R122, R575, R577: the two field groups start, stop with their clock coupler, and lose and regain their supply; every output of a
group whose coupler stops opens. -/
def Obligations.FieldGroups : Prop :=
  (∀ s g, Answers (.fieldSideStart g) s (fun t => (groupGet t g).running = true ∧ (groupGet t g).stopped = false
    ∧ 16000 ≤ (groupGet t g).vf ∧ (9 + groupNum g) ∈ t.power.domOn
    ∧ ∀ cc ∈ groupChannels g, (chGet t cc).on = false ∧ (chGet t cc).down = none
      ∧ (chGet t cc).cmdRun = (if (commanded s).contains cc then 0 else 2)))
  ∧ (∀ s g, coreRuns s = true → faultGet s (keyG 0x3B00 g) = none → Answers (.clockCouplerStop g) s (fun t =>
    (groupGet t g).stopped = true ∧ (groupGet t g).halted = true ∧ (∀ cc ∈ groupChannels g, (chGet t cc).on = false) ∧ Reacts t (keyG 0x3B00 g) 2))
  ∧ (∀ s g, coreRuns s = true → faultGet s (keyG 0x3B00 g) = none → Answers (.fieldSupplyLost g) s (fun t =>
    (groupGet t g).running = false ∧ (9 + groupNum g) ∉ t.power.domOn ∧ (∀ cc ∈ groupChannels g, (chGet t cc).on = false)
      ∧ Reacts t (keyG 0x3B00 g) 2))
  ∧ (∀ s g, coreRuns s = true → (groupGet s g).halted = false → (∀ r, faultGet s (keyG 0x3B00 g) = some r → r.level < 4) →
    Answers (.fieldSupplyRestored g) s (fun t => (9 + groupNum g) ∈ t.power.domOn ∧ (9 + groupNum g) ∉ t.power.domLost
      ∧ faultStands t (keyG 0x3B00 g) = false))

/-- R43: what a parity error in each crossing queue does; a memory that fails its parity, or differs from its copy, raises the fault of
its block (Tables 7.7, 8.7, 9.5, 11.7, 12.8, 15.10, 18.9, R743). -/
def Obligations.CrossingParity : Prop :=
  (∀ s p, coreRuns s = true → faultGet s (portKey 0x1A40 p) = none → Answers (.crossingQueueParity (.portRx p)) s (fun t =>
    Reacts t (portKey 0x1A40 p) 2 ∧ (portGet t p).parityAt = some s.now
      ∧ tallyGet t 0 (16 * portNum p + 3) = (tallyGet s 0 (16 * portNum p + 3) + 1) % 2 ^ 32))
  ∧ (∀ s p, coreRuns s = true → faultGet s (portKey 0x1A40 p) = none → Answers (.crossingQueueParity (.portTx p)) s (fun t =>
    Reacts t (portKey 0x1A40 p) 2 ∧ (portGet t p).parityAt = some s.now ∧ ((portGet t p).txBad = true ∨ .aborted p ∈ t.out)))
  ∧ (∀ s n, coreRuns s = true → faultGet s (keyU 0x29C0) = none → Answers (.crossingQueueParity (.carryRx n)) s (fun t =>
    Reacts t (keyU 0x29C0) 2 ∧ t.pair.parityAt = some s.now ∧ (laneGet t n).discarded = (laneGet s n).discarded + 1))
  ∧ (∀ s n, coreRuns s = true → faultGet s (keyU 0x29C0) = none → Answers (.crossingQueueParity (.carryTx n)) s (fun t =>
    Reacts t (keyU 0x29C0) 2 ∧ t.pair.parityAt = some s.now ∧ .carryAborted n ∈ t.out))
  ∧ (∀ s g (ch : Fin 32), coreRuns s = true → Answers (.crossingQueueParity (.toField g ch)) s (fun t =>
    chGet t ch.val = { chGet s ch.val with holdDown := true }))
  ∧ (∀ s (ch : Fin 32), coreRuns s = true → Answers (.crossingQueueParity (.fromField ch)) s (fun t =>
    chGet t ch.val = { chGet s ch.val with upRun := 0 }))
  ∧ (∀ s slot sec cnt, coreRuns s = true → faultGet s (keyU 0x49C0) = none → Answers (.crossingQueueParity (.toRing slot sec cnt)) s (fun t =>
    Tab.get {} t.journal.ring (slot * 130816 + absIndex (strapRate s) ⟨sec, cnt⟩ % 130816) = { pres := 2, secLo := sec % 256 }
      ∧ t.ringErrAt = some s.now ∧ Reacts t (keyU 0x49C0) 1))
  ∧ (∀ s, coreRuns s = true → Answers (.crossingQueueParity .fromRetention) s (fun t =>
    t.power.retentionErrors = (if s.now - s.power.retentionAt ≤ 24415 then s.power.retentionErrors + 1 else 1)
      ∧ t.power.retentionAt = s.now
      ∧ (faultGet s (keyU 0x0900) = none → if 3 ≤ t.power.retentionErrors then Reacts t (keyU 0x0900) 2 else faultGet t (keyU 0x0900) = none)))
  ∧ (∀ s m code, coreRuns s = true →
    (m, code) ∈ [(StateMemory.faultState, 0x0740), (.timeCounter, 0x0F40), (.handleTable, 0x2E40), (.overcurrent, 0x3740), (.feeder, 0x3740),
      (.publisher, 0x51C0), (.schedule, 0x11C0)] → faultGet s (keyU code) = none →
    Answers (.crossingQueueParity (.memory m)) s (fun t => t.power.engine = .withdrawn ∧ Reacts t (keyU code) 4))
  ∧ (∀ s, coreRuns s = true → faultGet s (keyU 0x4D40) = none → Answers (.crossingQueueParity (.memory .session)) s (fun t =>
    (∀ n < 8, (sessionGet t n).state = .free) ∧ t.recallSvc.mutedTo = s.now + 400000000 ∧ Reacts t (keyU 0x4D40) 2))
  ∧ (∀ s (n : Fin 36), coreRuns s = true → faultGet s { code := 0x1180, scope := 10, inst := n.val } = none →
    Answers (.crossingQueueParity (.memory (.slot n))) s (fun t =>
      (n.val = 0 → t.reck.clk.i = 0) ∧ (n.val = 1 → t.reck.oven.i = 0) ∧ (n.val = 2 → t.reck.twin.i = 0)
      ∧ (4 ≤ n.val → (coilGet t (n.val - 4)).loop.i = 0 ∧ (coilGet t (n.val - 4)).phase ≠ .approach ∧ (coilGet t (n.val - 4)).phase ≠ .hold
          ∧ Reacts t { code := 0x1180, scope := 10, inst := n.val } 2)))

/-! The plug (chapter 4) -/

/-- R61, R62, R142 to R145: presence, the start of a scan, and what a scan leaves: one that is not broken, whose reference stays in its band,
and whose read image is identical to the one before it, gives a stable image. -/
def Obligations.PlugReading : Prop :=
  (∀ s a b l, coreRuns s = true → WellFormed.presence l = true → presentNow s a b l = true → Answers (.presenceCheck a b l) s (fun t =>
    t.plug = { s.plug with present := true, absentMs := 0 }
      ∧ (plugServes s = true → s.plug.present = false → s.plug.scanning = false → 8 ∈ t.power.domOn ∧ 8 ∉ t.power.domLost)))
  ∧ (∀ s a b l, coreRuns s = true → WellFormed.presence l = true → presentNow s a b l = false → s.plug.present = true →
    Answers (.presenceCheck a b l) s (fun t =>
      t.plug = { s.plug with
        present := false, absentMs := 0, hold := (holdInvalid s).plug.hold,
        scanBroken := s.plug.scanBroken || (s.plug.scanning && (loopOpen a || loopOpen b)) }
      ∧ (plugServes s = true → s.plug.scanning = false → 8 ∉ t.power.domOn)))
  ∧ (∀ s a b l, plugServes s = true → WellFormed.presence l = true → presentNow s a b l = false → s.plug.present = false → 9 ≤ s.plug.absentMs →
    faultGet s (keyU 0x1500) = none → Answers (.presenceCheck a b l) s (fun t => t.plug.absentMs = 10 ∧ Reacts t (keyU 0x1500) 2))
  ∧ (∀ s, plugServes s = true → s.plug.present = true → s.plug.scanning = false → Answers .plugScanStart s (fun t =>
    t.sansRecords = { s.sansRecords with
      plug := { s.plug with scanning := true, scanBroken := false }
      power := { s.power with domOn := t.power.domOn, domLost := s.power.domLost.filter (· != 8) } }
      ∧ 8 ∈ t.power.domOn ∧ ∀ d, d ≠ 8 → (d ∈ t.power.domOn ↔ d ∈ s.power.domOn)))
  ∧ (∀ s r, plugServes s = true → s.plug.present = true → s.plug.scanning = true → s.plug.scanBroken = false → scanMrefBad r = false →
    Answers (.scanEnd r) s (fun t => t.plug.scanning = false ∧ t.plug.last = some (imageOf r) ∧ 8 ∉ t.power.domOn
      ∧ t.plug.stable = (if s.plug.last = some (imageOf r) then some (imageOf r) else s.plug.stable) ∧ t.plug.image = s.plug.image))
  ∧ (∀ s r, plugServes s = true → s.plug.scanning = true → s.plug.scanBroken = true ∨ s.plug.present = false → Answers (.scanEnd r) s (fun t =>
    t.plug = { s.plug with scanning := false, scanBroken := false, last := none } ∧ 8 ∉ t.power.domOn))
  ∧ (∀ s r, plugServes s = true → s.plug.present = true → s.plug.scanning = true → s.plug.scanBroken = false → scanMrefBad r = true →
    Answers (.scanEnd r) s (fun t =>
      t.plug = { s.plug with scanning := false, last := none, mrefRun := s.plug.mrefRun + 1 }
        ∧ (2 ≤ s.plug.mrefRun → faultGet s (keyU 0x15C0) = none → Reacts t (keyU 0x15C0) 2)))

/-- R147, R149 to R153, R163, R170: the course of a commit: the timed hold, its judgement, the write with its CRC-32 to the inactive bank once quiescent, the
decision, the refusal when the wait expires with a zone busy, and the boundary, where the new image is in force and the bank pointer names it. -/
def Obligations.CommitCourse : Prop :=
  (∀ s, s.plug.hold = .idle → coreRuns s = true → s.power.engine = .serving ∨ s.power.engine = .withheld → s.plug.commit = .none →
    Answers .commitInAsserted s (fun t =>
      t = { s with out := [], plug := { s.plug with hold := .timing (s.plug.present && s.plug.stable.isSome) 0 } }))
  ∧ (∀ s, Answers .commitInReleased s (fun t => t = { s with out := [], plug := { s.plug with hold := .idle } }))
  ∧ (∀ s n img, plugServes s = true → s.plug.hold = .timing true (n + 1) → s.plug.stable = some img → s.plug.commit = .none →
    plugDiffers s img = true → globalFails img = false → Answers .holdComplete s (fun t =>
      t.plug = { s.plug with
        hold := .spent, commit := (if busyZones s (newImage s img) = [] then .writing (newImage s img) else .waiting img) }))
  ∧ (∀ s img, s.plug.commit = .waiting img → busyZones s (newImage s img) = [] → Answers .quiescenceMet s (fun t =>
    t = { s with out := [], plug := { s.plug with commit := .writing (newImage s img) } }))
  ∧ (∀ s img, s.plug.commit = .waiting img → busyZones s (newImage s img) ≠ [] → faultGet s (keyU 0x16C0) = none →
    Answers .quiescenceTimeout s (fun t => t.plug = { s.plug with commit := .none } ∧ Reacts t (keyU 0x16C0) 2))
  ∧ (∀ s new, s.plug.commit = .writing new → storeOn s = true → mramWaits s = false → Answers .commitDecision s (fun t =>
    t = { s with
      out := [], plug := { s.plug with commit := .decided new }
      nvm := (if s.nvm.pointer then { s.nvm with bank0 := some new, crc0 := BitVec.ofNat 32 (crc32 (rodOctets new)) }
              else { s.nvm with bank1 := some new, crc1 := BitVec.ofNat 32 (crc32 (rodOctets new)) }) }))
  ∧ (∀ s new, s.plug.commit = .decided new → coreRuns s = true → storeOn s = true → Answers .commitBoundary s (fun t =>
    t.plug.image = some new ∧ t.plug.commit = .none ∧ t.nvm.pointer = !s.nvm.pointer ∧ t.nvm.bank0 = s.nvm.bank0 ∧ t.nvm.bank1 = s.nvm.bank1))

/-! Ports (chapter 6) -/

/-- R216 to R218: a frame that fails a check is counted in the word of that check and nothing else happens (checks 1 to 4, outside an HSR
ring); on a port that is down nothing happens at all. -/
def Obligations.FrameChecks : Prop :=
  let tallied := fun (s t : State) (p : Port) (w : Nat) =>
    t = { s with out := [], tally := Tab.put 0 s.tally (16 * portNum p + w) (Tab.get 0 s.tally (16 * portNum p + w) + 1) }
  (∀ s p f, (portGet s p).up = false → Answers (.frameReceived p f) s (fun t => t = { s with out := [] }))
  ∧ (∀ s p f, rxOpen s p = true →
    (f.codingOk = false → Answers (.frameReceived p f) s (fun t => tallied s t p 1))
    ∧ (f.codingOk = true → (f.size < 64 ∨ 1536 < f.size) → Answers (.frameReceived p f) s (fun t => tallied s t p 2)))
  ∧ (∀ s p f, rxOpen s p = true → (isProcess p && isHsr s) = false →
    (f.codingOk = true → 64 ≤ f.size → f.size ≤ 1536 → f.fcsOk = false → Answers (.frameReceived p f) s (fun t => tallied s t p 3))
    ∧ (f.codingOk = true → 64 ≤ f.size → f.size ≤ 1536 → f.fcsOk = true → addrOk s p f.dst = false →
      Answers (.frameReceived p f) s (fun t => tallied s t p 4))
    ∧ (f.codingOk = true → 64 ≤ f.size → f.size ≤ 1536 → f.fcsOk = true → addrOk s p f.dst = true → (1 < f.tags.length ∨ 0x88A8 ∈ f.tags) →
      Answers (.frameReceived p f) s (fun t => tallied s t p 5)))

/-- R222, R228, R229, R231: under PRP the first copy of a frame opens its source's entry and is delivered (word 0) with its receive timestamp (R222), a second one within the window is
counted as a duplicate (word 7), and an entry is forgotten when it falls silent. -/
def Obligations.DuplicatesDiscarded : Prop :=
  (∀ s p (f : RxFrame) seq, rxOpen s p = true → (isProcess p = true → isPrp s = true ∧ isHsr s = false) →
    f.codingOk = true → 64 ≤ f.size → f.size ≤ 1536 → f.fcsOk = true → addrOk s p f.dst = true → tagOk f.tags = true →
    f.red = .rct (BitVec.ofNat 4 (lanId p)) seq true true → f.ethertype ≠ 0x88FB → typeOk s p f = true → (p = .p1 → f.twinFromP0 = false) →
    ((∀ x ∈ prpTable s p, x.1 ≠ f.src.toNat) → (prpTable s p).length < 2048 → Answers (.frameReceived p f) s (fun t =>
      t = portTally (portPut (prpPut { s with out := [] } p
        (Tab.insert (prpTable s p) f.src.toNat { highest := seq, window := 1, seen := s.now })) p
          { portGet s p with lastRx := some (rxStamp p f.stamp) }) p 0))
    ∧ (∀ e, (prpTable s p).find? (fun x => x.1 == f.src.toNat) = some (f.src.toNat, e) → (e.highest - seq).toNat < 128 →
      e.window.getLsbD (e.highest - seq).toNat = true → Answers (.frameReceived p f) s (fun t =>
      t = portTally (prpPut { s with out := [] } p (Tab.insert (prpTable s p) f.src.toNat
        { e with window := e.window ||| BitVec.ofNat 128 (2 ^ (e.highest - seq).toNat), seen := s.now })) p 7)))
  ∧ (∀ s b src, Answers (.prpEntryForgotten b src) s (fun t => t = { s with out := [], ports :=
      if b then { s.ports with prpStation := Tab.erase s.ports.prpStation src.toNat }
      else { s.ports with prpProcess := Tab.erase s.ports.prpProcess src.toNat } }))

/-- R212, R213, R219 to R221, R237, R239, R240: links and cages of the four ports, with their faults on a port in use; on S0 and S1 a link comes
up with a partner at 1000 Mb/s full duplex alone; the other ports stay as they are (a parity error that ends the next frame, R43, and the last transmit timestamp, R222, apart). -/
def Obligations.LinksAndCages : Prop :=
  let keeps := fun (s t : State) (q : Port) => { portGet t q with txBad := false, lastTx := none } = { portGet s q with txBad := false, lastTx := none }
  let is := fun (t : State) (p : Port) (x : PortSt) => { portGet t p with txBad := false, lastTx := none } = { x with txBad := false, lastTx := none }
  (∀ s p why, coreRuns s = true → (portGet s p).up = true → lossFits p why = true → Answers (.linkDown ⟨p, why⟩) s (fun t =>
    is t p { portGet s p with up := false, rxLos := (portGet s p).rxLos || why == .rxLos } ∧ (∀ q, q ≠ p → keeps s t q)
      ∧ (portInUse s p = true → faultGet s (portKey 0x1900 p) = none → Reacts t (portKey 0x1900 p) 2)))
  ∧ (∀ s p x, coreRuns s = true → domainGood s 2 = true → (portGet s p).up = false →
    (isProcess p = false → x = some { mbps := 1000, fullDuplex := true }) →
    (∀ r, faultGet s (portKey 0x1900 p) = some r → r.level < 4) → Answers (.linkUp ⟨p, x⟩) s (fun t =>
    is t p { portGet s p with up := true, rxLos := false } ∧ (∀ q, q ≠ p → keeps s t q) ∧ faultStands t (portKey 0x1900 p) = false))
  ∧ (∀ s p x, isProcess p = false → x ≠ some { mbps := 1000, fullDuplex := true } → Answers (.linkUp ⟨p, x⟩) s (fun t => t = { s with out := [] }))
  ∧ (∀ s p, coreRuns s = true → (portGet s p).modAbs = false → Answers (.moduleRemoved p) s (fun t =>
    is t p { portGet s p with
      up := false, modAbs := true, txEnabled := false, a0hRead := false, extCal := false, sgmii := false, values := none, warn := [], alarm := [] }
      ∧ (∀ q, q ≠ p → keeps s t q)
      ∧ (portInUse s p = true → faultGet s (portKey 0x1980 p) = none → Reacts t (portKey 0x1980 p) 2)))
  ∧ (∀ s p read, WellFormed.a0h read = true → portsDone s = true → (portGet s p).modAbs = true → Answers (.moduleInserted p read) s (fun t =>
    (portGet t p).modAbs = false ∧ (portGet t p).txEnabled = portInUse s p ∧ (portGet t p).a0hRead = (busPage read).isSome
      ∧ (∀ a, busPage read = some a → (portGet t p).extCal = (a.getD 92 0).getLsbD 4
        ∧ (portGet t p).sgmii = (!isProcess p && (a.getD 6 0).getLsbD 3))
      ∧ (busPage read = none → (portGet t p).sgmii = false)
      ∧ (∀ q, q ≠ p → portGet t q = portGet s q) ∧ t.zones = s.zones ∧ t.power = s.power))

/-- R239, R241 to R245, R256: a transmitter fault, an open HSR ring, and a poll of a module's diagnostics: the values of the page, unknown under
external calibration, its flags and crossings, and what two reads in succession show; a poll without a result is counted. -/
def Obligations.PortDiagnostics : Prop :=
  (∀ s p, coreRuns s = true → portInUse s p = true → faultGet s (portKey 0x1940 p) = none →
    Answers (.transmitterFault p) s (fun t => Reacts t (portKey 0x1940 p) 2 ∧ t.sansRecords = s.sansRecords))
  ∧ (∀ s p, portsDone s = true → isHsr s = true → isProcess p = true → faultGet s (portKey 0x1A00 p) = none →
    Answers (.ringOpen p) s (fun t => Reacts t (portKey 0x1A00 p) 2 ∧ t.sansRecords = s.sansRecords))
  ∧ (∀ s p retry read a, WellFormed.a0h retry = true → WellFormed.a2h read = true → portsDone s = true → (portGet s p).modAbs = false →
    (portGet s p).a0hRead = true → busPage read = some a → Answers (.a2hPoll p retry read) s (fun t =>
      let alarm := diagShown a (portGet s p).extCal 0
      portGet t p = { portGet s p with
        recFails := 0, txnFails := 0, alarm := alarm, warn := diagShown a (portGet s p).extCal 1
        values := (if (portGet s p).extCal then none else some ((List.range 5).map (fun q => field a (96 + 2 * q) 2))) }
      ∧ (∀ q, q ≠ p → portGet t q = portGet s q)
      ∧ (∀ d < 20, (portGet s p).alarm.getD d false = true → alarm.getD d false = true → faultGet s (sfpKey 0x5940 p) = none →
        Reacts t (sfpKey 0x5940 p) 2)))
  ∧ (∀ s p retry read, WellFormed.a0h retry = true → WellFormed.a2h read = true → portsDone s = true → (portGet s p).modAbs = false →
    (portGet s p).a0hRead = true → busPage read = none → Answers (.a2hPoll p retry read) s (fun t =>
      (portGet t p).txnFails = (portGet s p).txnFails + 1
        ∧ (portGet t p).recFails = (if recovered read then 0 else (portGet s p).recFails + 1)
        ∧ (read.sdaLow = true → recovered read = false → .i2cRecovery p 9 false ∈ t.out)
        ∧ (2 ≤ (portGet s p).txnFails → faultGet s (sfpKey 0x5980 p) = none → (portGet t p).values = none ∧ Reacts t (sfpKey 0x5980 p) 2)
        ∧ (∀ q, q ≠ p → portGet t q = portGet s q)))

/-- R225, R226, R255: a supervision frame of the station MAC leaves on each station port that can send, and its sequence number counts up; the
tally of frames received from the wrong LAN is judged each interval and faults at the third with a rise. -/
def Obligations.SupervisionAndTallies : Prop :=
  (∀ s, portsDone s = true → Answers .prpSupervisionSend s (fun t =>
    t.ports.seqStation = s.ports.seqStation + 1
      ∧ (canSend s .s0 = true → s.ports.s0.txBad = false → .frame .s0 (withRct 0xA s.ports.seqStation (supervisionFrame (stationMac s) s.ports.seqStation.toNat)) ∈ t.out)
      ∧ (canSend s .s1 = true → s.ports.s1.txBad = false → .frame .s1 (withRct 0xB s.ports.seqStation (supervisionFrame (stationMac s) s.ports.seqStation.toNat)) ∈ t.out)
      ∧ (isTwin s = false → isSingleLan s = true → t.pub = s.pub)
      ∧ (isTwin s = false → isSingleLan s = false → s.pub.queue.length < 512 → s.pub.waiting = [] →
        t.pub = { s.pub with queue := s.pub.queue ++ [.supervision false 0] })
      ∧ t.faults = s.faults ∧ t.journal = s.journal))
  ∧ (∀ s, coreRuns s = true → Answers .tallyInterval s (fun t =>
    t.ports.p0.wrongLan = s.ports.p0.wrongLan.judge (tallyGet s 0 8)
      ∧ (tallyGet s 0 8 ≠ s.ports.p0.wrongLan.last → 2 ≤ s.ports.p0.wrongLan.up → faultGet s (portKey 0x19C0 .p0) = none →
        Reacts t (portKey 0x19C0 .p0) 2)))

/-! Streams and breaker reports (chapter 7) -/

/-- R260 to R268: in a unit alone without authentication a first frame makes its slot a candidate, consecutive frames of one identity run on, the
third admits it under the next generation, and frames of another sender or identity are counted on the slot, of two senders in the tick in
which the slot was free the lower address forming the candidate; other slots stay. -/
def Obligations.StreamsAdmitted : Prop :=
  ∀ s p f n, catches s p = true → s.pair.state = .solo → gAuthSv (rods s) = none →
    -- the receive timestamp is referred to the contacts of the port (R222)
    let g := { f with rxTime := f.rxTime - Config.portLatency (portNum p) false }
    frameFails s g = none → windowSlot f.appid.toNat (gSvBase (rods s)) (gSvSize (rods s)) = some n →
    let x := svGet s n
    let gives := fun (y : SvSlot) => Answers (.svFrame p f) s (fun t =>
      svGet t n = y ∧ (∀ m, m ≠ n → svGet t m = svGet s m) ∧ t.streams.intake = s.streams.intake ∧ t.zones = s.zones ∧ t.field = s.field)
    let first := fun (y : SvSlot) => { y with phase := .candidate 1 (lastCnt f), ident := identOf f, formedAt := some s.now }
    (x.phase = .free → gives (first x))
    ∧ (∀ run last, x.phase = .candidate run last → x.ident = identOf f → firstCnt f = (last + 1) % strapRate s →
      (run < 2 → gives { x with phase := .candidate (run + 1) (lastCnt f), formedAt := none })
      ∧ (2 ≤ run → Answers (.svFrame p f) s (fun t =>
        (svGet t n).phase = .admitted ∧ (svGet t n).gen = (x.gen + 1) % 64 ∧ (svGet t n).ident = identOf f
          ∧ (svGet t n).next = addIndex (strapRate s) ⟨fixSecond s g.rxTime (lastCnt f), lastCnt f⟩ 1
          ∧ pipeGet t n = { ovfAt := (pipeGet s n).ovfAt } ∧ (∀ m, m ≠ n → svGet t m = svGet s m) ∧ t.zones = s.zones)))
    ∧ (∀ run last, x.phase = .candidate run last → f.src ≠ x.ident.src →
      gives (if x.formedAt = some s.now ∧ f.src < x.ident.src then first (svTally x 3 1) else svTally x 3 1))
    ∧ (x.phase = .admitted → f.src ≠ x.ident.src → gives (svTally x 3 1))
    ∧ (x.phase = .admitted → f.src = x.ident.src → identOf f ≠ x.ident → gives (svTally x 2 1))

/-- R266, R271, R272, R295, R301, Table 7.1: an overdue frame's indices count as missing and their run lengthens, unless a frame of the slot arrives in that tick; so does the index of a
local trigger without a sample (R524); a destroyed slot is free again with its generation kept; a
stream that a zone needs and that is not admitted has a fault; a frame that fails a rule is counted in that rule's tally and changes nothing
else that processing could see. -/
def Obligations.StreamsLost : Prop :=
  (∀ s (n : Fin 1026), serving s = true → s.pair.state = .solo → (svGet s n).phase = .admitted → n.val < 1024 → Answers (.frameOverdue n) s (fun t =>
      ((svGet s n).heardAt ≠ some s.now → s.pending.any (bringsFrame s n) = false → (svGet t n).next = (succIndex s)^[(svGet s n).ident.noAsdu] (svGet s n).next
        ∧ (svGet t n).run = (svGet s n).run + (svGet s n).ident.noAsdu
        ∧ t.streams.intake.length = s.streams.intake.length + (svGet s n).ident.noAsdu)
      ∧ ((svGet s n).heardAt = some s.now ∨ s.pending.any (bringsFrame s n) = true → t.streams = s.streams)
      ∧ (∀ m, m ≠ n.val → svGet t m = svGet s m) ∧ t.zones = s.zones))
  ∧ (∀ s (n : Fin 1026), serving s = true → s.pair.state = .solo → (svGet s n).phase = .admitted → 1024 ≤ n.val → adcRuns s = true →
    (svGet s n).refix = false → (svGet s n).heardAt ≠ some s.now → Answers (.frameOverdue n) s (fun t =>
      (svGet t n).next = succIndex s (svGet s n).next ∧ (svGet t n).run = (svGet s n).run + 1
        ∧ t.streams.intake.length = s.streams.intake.length + 1 ∧ (∀ m, m ≠ n.val → svGet t m = svGet s m) ∧ t.zones = s.zones))
  ∧ (∀ s (n : Fin 1024), serving s = true → s.pair.state = .solo → (svGet s n).phase = .admitted →
    (∀ x ∈ s.streams.intake, x.slot = n.val) → Answers (.streamDestroyed n) s (fun t =>
      (svGet t n).phase = .free ∧ (svGet t n).gen = (svGet s n).gen ∧ (svGet t n).tally = (svGet s n).tally ∧ t.streams.intake = []
        ∧ (∀ m, m ≠ n.val → svGet t m = svGet s m)))
  ∧ (∀ s (n : Fin 1024), serving s = true → (svGet s n).phase ≠ .admitted →
    zonesWith s (fun r z => zMain r z == some n.val || zVolt r z == some n.val) ≠ [] → faultGet s (keyS 0x2D00 n) = none →
    Answers (.streamNotAdmitted n) s (fun t => Reacts t (keyS 0x2D00 n) 3 ∧ t.streams = s.streams))
  ∧ (∀ s p f w, catches s p = true → frameFails s { f with rxTime := f.rxTime - Config.portLatency (portNum p) false } = some w →
    Answers (.svFrame p f) s (fun t => t.sansReports = s.sansReports ∧ tallyGet t 1 w = (tallyGet s 1 w + 1) % 2 ^ 32))

/-- R268, R286 to R290: breaker reports in a unit alone: a candidate of three consecutive messages is admitted with their status; a later message of
the identity replaces the status; an expired status is counted and marked; a destroyed slot is free with its generation kept. -/
def Obligations.BreakerReports : Prop :=
  (∀ s p (m : BrkMsg) n, catches s p = true → s.pair.state = .solo → brkValid m = true →
    windowSlot m.appid.toNat (gBrkBase (rods s)) (gBrkSize (rods s)) = some n →
    let x := brkGet s n
    let first := fun (y : BrkSlot) => { y with
      phase := .candidate 1 0, src := m.src, gocbRef := m.gocbRef, confRev := m.confRev, stNum := m.stNum, sqNum := m.sqNum
      formedAt := some s.now }
    (x.phase = .free → Answers (.breakerMessage p m) s (fun t => brkGet t n = first x ∧ ∀ k, k ≠ n → brkGet t k = brkGet s k))
    ∧ (∀ run last, x.phase = .candidate run last → m.src ≠ x.src → Answers (.breakerMessage p m) s (fun t =>
      brkGet t n = (if x.formedAt = some s.now ∧ m.src < x.src then first (brkTally x 3) else brkTally x 3)
        ∧ ∀ k, k ≠ n → brkGet t k = brkGet s k))
    ∧ (∀ run last, x.phase = .candidate run last → brkSame x m = true → m.stNum = x.stNum → m.sqNum = x.sqNum + 1 → 2 ≤ run →
      Answers (.breakerMessage p m) s (fun t => (brkGet t n).phase = .admitted ∧ (brkGet t n).gen = (x.gen + 1) % 64
        ∧ (brkGet t n).dbpos = m.dbpos.getD 0 ∧ (brkGet t n).expired = false ∧ ∀ k, k ≠ n → brkGet t k = brkGet s k))
    ∧ (x.phase = .admitted → brkSame x m = true → x.stNum < m.stNum → Answers (.breakerMessage p m) s (fun t =>
      (brkGet t n).phase = .admitted ∧ (brkGet t n).stNum = m.stNum ∧ (brkGet t n).dbpos = m.dbpos.getD 0 ∧ (brkGet t n).expired = false
        ∧ (brkGet t n).gen = x.gen ∧ ∀ k, k ≠ n → brkGet t k = brkGet s k))
    ∧ (x.phase = .admitted → m.src ≠ x.src → Answers (.breakerMessage p m) s (fun t => brkGet t n = brkTally x 3)))
  ∧ (∀ s (n : Fin 256), serving s = true → s.pair.state = .solo → (brkGet s n).phase = .admitted → (brkGet s n).expired = false →
    Answers (.breakerStatusExpired n) s (fun t =>
      t = { s with out := [], streams := { s.streams with brk := Tab.put {} s.streams.brk n { brkTally (brkGet s n) 6 with expired := true } } }))
  ∧ (∀ s (n : Fin 256), serving s = true → s.pair.state = .solo → (brkGet s n).phase = .admitted → (brkGet s n).expired = true →
    Answers (.breakerDestroyed n) s (fun t =>
      brkGet t n = { gen := (brkGet s n).gen, used := (brkGet s n).used, tally := (brkGet s n).tally, intruder := (brkGet s n).intruder }
        ∧ (∀ k, k ≠ n.val → brkGet t k = brkGet s k)
        ∧ (brkUsed s n = true → faultGet s (keyB 0x2D40 n) = none → Reacts t (keyB 0x2D40 n) 2)))

/-! Time and the Reckoner (chapters 8 and 9) -/

/-- R77, R222, R309, R310, R314: a peer-delay request leaves with the process MAC, the domain, the next number and its transmit time, a request
of another clock is answered with the receive and the send time, a response with its follow-up gives the link delay, a second responder makes
it invalid, and a message that R310 refuses is tallied alone. -/
def Obligations.PeerDelay : Prop :=
  let msg := fun (s : State) (p1 : Bool) (kind : Nat) (seq : BitVec 16) (stamp : Int) (req : Option PortId) =>
    ({ messageType := kind, dst := 0x0180C200000E, src := BitVec.ofNat 48 (processMac s), stamp := stamp, requesting := req,
       hdr := { version := 2, domain := ptpDomain s, src := ownPortId s p1, seq := seq } } : PtpOut)
  (∀ s p p1, ptpPort? p = some p1 → clockRuns s = true → canSend s p = true →
    Answers (.pdelayReqSend p) s (fun t => (ptpGet t p1).reqSeq = (ptpGet s p1).reqSeq + 1 ∧ (ptpGet t p1).t1 = txStamp s p
      ∧ (ptpGet t p1).responders = [] ∧ (ptpGet t p1).resp = none ∧ (ptpGet t p1).outstanding = true
      ∧ ((portGet s p).txBad = false → .ptp p (msg s p1 2 ((ptpGet s p1).reqSeq + 1) 0 none) ∈ t.out)))
  ∧ (∀ s p p1 h rx half, ptpPort? p = some p1 → clockRuns s = true → rxOpen s p = true →
    (ptpAccepted s h = true → canSend s p = true → (portGet s p).txBad = false → Answers (.pdelayReq p h rx half) s (fun t =>
      .ptp p (msg s p1 3 h.seq (rxStamp p (2 * rx + (if half then 1 else 0))) (some h.src)) ∈ t.out ∧ .ptp p (msg s p1 10 h.seq (txStamp s p) (some h.src)) ∈ t.out
        ∧ t.time = s.time ∧ t.zones = s.zones ∧ t.streams = s.streams))
    ∧ (ptpAccepted s h = false → Answers (.pdelayReq p h rx half) s (fun t => t = tallyAdd { s with out := [] } 1 (if p1 then 7 else 6) 1)))
  ∧ (∀ s p p1 (m : PtpPdelay), ptpPort? p = some p1 → clockRuns s = true → rxOpen s p = true → ptpAccepted s m.hdr = true →
    (ptpGet s p1).reqSeq = m.hdr.seq →
    ((ptpGet s p1).resp = none → (ptpGet s p1).responders = [] → Answers (.pdelayResp p m) s (fun t =>
      (ptpGet t p1).responders = [m.hdr.src] ∧ (ptpGet t p1).resp = some m ∧ (ptpGet t p1).delays = (ptpGet s p1).delays))
    ∧ (∀ q, (ptpGet s p1).responders = [q] → q ≠ m.hdr.src → Answers (.pdelayResp p m) s (fun t =>
      (ptpGet t p1).responders = [q, m.hdr.src] ∧ delayValid (ptpGet t p1) = false)))
  ∧ (∀ s p p1 (m r : PtpPdelay), ptpPort? p = some p1 → clockRuns s = true → rxOpen s p = true → ptpAccepted s m.hdr = true →
    (ptpGet s p1).resp = some r → (ptpGet s p1).outstanding = true → r.hdr.seq = m.hdr.seq → r.hdr.src = m.hdr.src →
    Answers (.pdelayRespFollowUp p m) s (fun t =>
      (ptpGet t p1).delays
          = (halve ((rxStamp p r.rx - (ptpGet s p1).t1) - (m.stamp - r.stamp) - r.correction - m.correction) :: (ptpGet s p1).delays).take 5
        ∧ (ptpGet t p1).completed = (true :: (ptpGet s p1).completed).take 3 ∧ (ptpGet t p1).outstanding = false
        ∧ (ptpGet t (!p1)).delays = (ptpGet s (!p1)).delays))
  ∧ (∀ s p p1, ptpPort? p = some p1 → rxOpen s p = true → Answers (.ptpDiscarded p) s (fun t =>
    t = tallyAdd { s with out := [] } 1 (if p1 then 7 else 6) 1))

/-- R220, R310, R312, R313, R316: the list of masters of a port: a new sender is noted, one heard again within four intervals is qualified, a lost
one leaves; without its Sync a port is not eligible; an Announce that R310 refuses is tallied alone, and one of a port that is down is none. -/
def Obligations.MastersKept : Prop :=
  (∀ s p p1 (m : PtpAnnounce), ptpPort? p = some p1 → clockRuns s = true → rxOpen s p = true → ptpAccepted s m.hdr = true → announceOk m = true →
    (∀ x ∈ (ptpGet s p1).masters, x.src ≠ m.hdr.src) → Answers (.announce p m) s (fun t =>
      (ptpGet t p1).masters = (ptpGet s p1).masters ++ [{ src := m.hdr.src, ann := m, seen := s.now, qualified := false }]
        ∧ (ptpGet t (!p1)).masters = (ptpGet s (!p1)).masters))
  ∧ (∀ s p p1 (m : PtpAnnounce) x, ptpPort? p = some p1 → clockRuns s = true → rxOpen s p = true → ptpAccepted s m.hdr = true →
    announceOk m = true → x ∈ (ptpGet s p1).masters → x.src = m.hdr.src → s.now - x.seen ≤ 4 * m.interval → Answers (.announce p m) s (fun t =>
      { src := m.hdr.src, ann := m, seen := s.now, qualified := true } ∈ (ptpGet t p1).masters))
  ∧ (∀ s p p1 (m : PtpAnnounce), ptpPort? p = some p1 → clockRuns s = true → rxOpen s p = true → ptpAccepted s m.hdr = true →
    announceOk m = false → Answers (.announce p m) s (fun t =>
      t.time.selected = s.time.selected ∧ ∀ b, (ptpGet t b).masters = (ptpGet s b).masters))
  ∧ (∀ s p p1 (m : PtpAnnounce), ptpPort? p = some p1 → clockRuns s = true → rxOpen s p = true → ptpAccepted s m.hdr = false →
    Answers (.announce p m) s (fun t => t = tallyAdd { s with out := [] } 1 (if p1 then 7 else 6) 1))
  ∧ (∀ s p (m : PtpAnnounce), rxOpen s p = false → Answers (.announce p m) s (fun t => t = { s with out := [] }))
  ∧ (∀ s p p1 src, ptpPort? p = some p1 → coreRuns s = true → Answers (.masterLost p src) s (fun t =>
    (ptpGet t p1).masters = (ptpGet s p1).masters.filter (fun x => x.src != src) ∧ (ptpGet t (!p1)).masters = (ptpGet s (!p1)).masters))
  ∧ (∀ s p p1, ptpPort? p = some p1 → coreRuns s = true → Answers (.syncReceiptTimeout p) s (fun t =>
    (ptpGet t p1).syncOk = false ∧ eligible t p1 = false ∧ (ptpGet t p1).masters = (ptpGet s p1).masters))

/-- R317, R319, R328, R331, R332: a Sync of the best master, at once or with its Follow_Up, gives the port's offset; the first offset of the selected
master steps an unsynchronised counter by it, to within a nanosecond; a TIME frame of the partner gives the offset from it, and steps the
counter of a follower that has no time base. -/
def Obligations.OffsetsFormed : Prop :=
  (∀ s p p1 (m : PtpSync) b, ptpPort? p = some p1 → clockRuns s = true → rxOpen s p = true → ptpAccepted s m.hdr = true →
    bestMaster (ptpGet s p1) = some b → b.src = m.hdr.src →
    (m.twoStep = true → Answers (.sync p m) s (fun t => (ptpGet t p1).sync = some m ∧ (ptpGet t p1).syncOk = true))
    ∧ (m.twoStep = false → delayValid (ptpGet s p1) = true → Answers (.sync p m) s (fun t =>
      (ptpGet t p1).sync = none ∧ (ptpGet t p1).offset = some (rxStamp p m.rx - (m.origin + m.correction + median (ptpGet s p1).delays)))))
  ∧ (∀ s p p1 (m : PtpFollowUp) y, ptpPort? p = some p1 → clockRuns s = true → rxOpen s p = true → ptpAccepted s m.hdr = true →
    (ptpGet s p1).sync = some y → y.hdr.src = m.hdr.src → y.hdr.seq = m.hdr.seq → delayValid (ptpGet s p1) = true →
    let off := rxStamp p y.rx - (m.origin + y.correction + m.correction + median (ptpGet s p1).delays)
    Answers (.followUp p m) s (fun t => (ptpGet t p1).sync = none ∧ (ptpGet t p1).offset = some off
      ∧ (s.time.selected = some (p1, m.hdr.src) → s.time.state = .unsynchronised → 0 ≤ counterValue s - off →
        counterValue s - off < (2 ^ 48 - 1) * 1000000000 * 65536 →
        t.time.state = .acquiring ∧ t.time.stepped = true ∧ t.time.frac = 0 ∧ t.time.residue = 0
          ∧ |counterValue t - (counterValue s - off)| < 65536)))
  ∧ (∀ s p p1, ptpPort? p = some p1 → coreRuns s = true → Answers (.followUpTimeout p) s (fun t =>
    t = ptpPut { s with out := [] } p1 { ptpGet s p1 with sync := none }))
  ∧ (∀ s h b, takes s h = true →
    let off := halve ((b.ownTx - b.partnerRx) + (b.ownRx - b.partnerTx))
    let told := { s with time := { s.time with partnerState := timeOfCode b.leaderState, partnerTimeq := b.leaderTimeq } }
    (s.time.state ≠ .unsynchronised → Answers (.timeExchange h b) s (fun t =>
      t.time.twinOffset = some off ∧ t.time.partnerTimeq = b.leaderTimeq
        ∧ t.pair.lastRx = b.ownRx ∧ t.pair.lastTx = stampValue s ∧ t.time.sec = s.time.sec ∧ t.time.ns = s.time.ns))
    ∧ (formed s = true → s.time.state = .unsynchronised → hasBase (timeOfCode b.leaderState) = true → timeLeads told = false →
      Answers (.timeExchange h b) s (fun t => t.time.state = .acquiring ∧ t.time.stepped = true
        ∧ t.time.twinOffset = some (counterValue t - (counterValue s - off)))))

/-- Table 8.4, R322, R327, R329: the end of Holdover, a leap second, and the pulse each second. -/
def Obligations.TimeEvents : Prop :=
  (∀ s, coreRuns s = true → s.time.state = .holdover → faultGet s (keyU 0x0D80) = none → Answers .holdoverExpiry s (fun t =>
    t.time.state = .freeRunning ∧ t.reck.clk = { s.reck.clk with u := (s.reck.clk.i + 2 ^ 14) / 2 ^ 15 } ∧ Reacts t (keyU 0x0D80) 2
      ∧ t.time.sec = s.time.sec ∧ t.time.ns = s.time.ns))
  ∧ (∀ s up mid, coreRuns s = true → s.time.leap = some (up, mid) → Answers .leapSecond s (fun t =>
    t = { s with
      out := []
      time := { s.time with utcOffset := s.time.utcOffset + (if up then 1 else -1), leap := none }
      nvm := { s.nvm with utcOffset := some (s.time.utcOffset + (if up then 1 else -1)) } }))
  ∧ (∀ s, clockRuns s = true → s.time.state ∈ [.locked, .tracking, .holdover] → (∀ n, s.time.noPpsTo = some n → n < s.time.sec) →
    Answers .ppsEdge s (fun t => t = { s with out := [.pps], time := { s.time with ppsSec := some s.time.sec, nco := ncoOf s } }))
  ∧ (∀ s, (clockRuns s = false ∨ s.time.state ∈ [.unsynchronised, .acquiring, .freeRunning] ∨ ∃ n, s.time.noPpsTo = some n ∧ s.time.sec ≤ n) →
    Answers .ppsEdge s (fun t => t = { s with out := [] }))

/-- R324, R348, R349, R351 to R353: an update of OVEN and TWIN by the control law, the oven in specification, and the following errors of the
slots. -/
def Obligations.SlotUpdates : Prop :=
  (∀ s err, coreRuns s = true → domainGood s 6 = true → Answers (.ovenUpdate err) s (fun t =>
    t.reck.ovenErr = err ∧ t.reck.oven.u = (controlLaw 0x6000 0x0040 0 0x7FFF s.reck.oven (satError err)).u
      ∧ t.reck.oven.i = (controlLaw 0x6000 0x0040 0 0x7FFF s.reck.oven (satError err)).i
      ∧ (100 < (satError err).natAbs → t.time.ovenIn = false) ∧ t.reck.twin = s.reck.twin ∧ t.reck.coil = s.reck.coil))
  ∧ (∀ s, coreRuns s = true → s.reck.ovenErr.natAbs ≤ 100 → (∀ r, faultGet s (keyU 0x0EC0) = some r → r.level < 4) →
    Answers .ovenInSpec s (fun t => t.sansRecords = { s.sansRecords with time := { s.time with ovenIn := true, ovenWas := true } }
      ∧ faultStands t (keyU 0x0EC0) = false))
  ∧ (∀ s off, coreRuns s = true → twinRuns s = true → s.time.twinOffset = some off → Answers .twinUpdate s (fun t =>
    t.sansRecords = { s.sansRecords with reck := { s.reck with
      twin := feTimer 0x0C80 (controlLaw 0x7FFF 0x0100 (-32767) 32767 s.reck.twin (errorLsb off)) (errorLsb off) } }))
  ∧ (∀ s, coreRuns s = true → 30 ≤ s.reck.clk.fe → faultGet s ⟨0x1100, 10, 0⟩ = none → Answers (.followingError 0) s (fun t =>
    Reacts t ⟨0x1100, 10, 0⟩ 2 ∧ t.time.state = (if s.time.state = .locked ∨ s.time.state = .tracking then .acquiring else s.time.state)))
  ∧ (∀ s (n : Fin 36) (cc : Fin 32), coreRuns s = true → n.val = 4 + cc.val →
    20 * gCoilFeTime (rods s) cc ≤ (coilGet s cc).loop.fe → faultGet s ⟨0x1180, 10, n⟩ = none → Answers (.followingError n) s (fun t =>
    Reacts t ⟨0x1180, 10, n⟩ 2 ∧ t.sansRecords = s.sansRecords))

/-- R357 to R360, R366, R574, Table 9.4: a COIL slot counts in Pick, leaves it after the pick time to Hold or Approach with its preset, and regulates with
a fresh reading; a commit that opens its hold current takes it to Idle at its first update. -/
def Obligations.CoilCourse : Prop :=
  (∀ s (cc : Fin 32), coreRuns s = true → (coilGet s cc).phase = .pick → (coilGet s cc).due = false →
    Answers (.coilUpdate cc) s (fun t => t = coilPut { s with out := [] } cc { coilGet s cc with picked := (coilGet s cc).picked + 1, mPick := coilCurrent s cc }))
  ∧ (∀ s (cc : Fin 32), coreRuns s = true → (coilGet s cc).phase = .pick → (coilGet s cc).due = false → coilEnabled (rods s) cc = true →
    20 * chPick (rods s) cc ≤ (coilGet s cc).picked → Answers (.pickEnd cc) s (fun t =>
    t = coilPut { s with out := [] } cc { coilGet s cc with
      phase := if coilSetpoint (rods s) cc < (coilGet s cc).mPick then .approach else .hold
      picked := 0, loop := { i := coilPreset (rods s) cc (coilGet s cc).mPick, u := (coilGet s cc).loop.u, fe := 0 } }))
  ∧ (∀ s (cc : Fin 32), coreRuns s = true → (coilGet s cc).phase = .hold → (coilGet s cc).due = false → (coilGet s cc).fresh = true →
    (chGet s cc).coupler = false →
    let e := satError ((coilSetpoint (rods s) cc : Int) - coilCurrent s cc)
    Answers (.coilUpdate cc) s (fun t =>
      let law := controlLaw (gCoilKp (rods s) cc) (gCoilKi (rods s) cc) 0 (gCoilUmax (rods s) cc) (coilGet s cc).loop e
      coilGet t cc = { coilGet s cc with fresh := false, loop := feTimer (gCoilFeLim (rods s) cc) law e }
      ∧ (∀ k, k ≠ cc.val → coilGet t k = coilGet s k) ∧ t.sansRecords = { s.sansRecords with reck := t.reck }))
  ∧ (∀ s (cc : Fin 32), (coilGet s cc).phase = .hold → (coilGet s cc).due = false → (coilGet s cc).fresh = false ∨ (chGet s cc).coupler = true →
    Answers (.coilUpdate cc) s (fun t => t = { s with out := [] }))
  ∧ (∀ s (cc : Fin 32), coreRuns s = true → (coilGet s cc).due = true → coilEnabled (coilRods s cc) cc = true → coilEnabled (rods s) cc = false →
    Answers (.coilUpdate cc) s (fun t => coilGet t cc = {} ∧ ∀ k, k ≠ cc.val → coilGet t k = coilGet s k))

/-! The local analogue section (chapter 13) -/

/-- R504, R512 to R514, R516 to R522: a trigger forms the result registers of its index, those not set reading 0; an urgent check compares or is
dropped; a reference reading outside its window ends REF_OK at once. -/
def Obligations.LocalAnalogue : Prop :=
  (∀ s idx prim k0 k1, WellFormed (.adcTrigger idx prim k0 k1) = true → adcRuns s = true → serving s = false → s.plug.earlier = none →
    decidedRow s = none → idx.cnt < strapRate s → triggerDue s idx = true → Answers (.adcTrigger idx prim k0 k1) s (fun t =>
      t.adc.produced = addProduced s idx ∧ t.adc.gRef = s.adc.gRefNext ∧ t.adc.refOk = s.adc.refOk ∧ t.free = s.free + 32 ∧ t.plug = s.plug ∧ t.zones = s.zones
        ∧ (∀ e < 32, seqSet (rods s) e = false → Tab.get 0 t.adc.sqr e = 0)
        ∧ (∀ e < 32, seqSet (rods s) e = true → sqrBit (Tab.get 0 t.adc.sqr e) 25 = !s.adc.refOk
          ∧ sqrBit (Tab.get 0 t.adc.sqr e) 26 = seqSkipped (adcInputs s) (rods s) e)))
  ∧ (∀ s (i : Fin 16) at_ start p c, WellFormed.urgent p c = true → adcRuns s = true → s.adc.urgent.find? (fun x => x.1 == i.val) = some (i.val, at_) →
    let k := coveringChecker (adcInputs s) (rods s) i
    let left := s.adc.urgent.filter (fun x => x.1 != i.val)
    (∀ pd cd, yieldsCheck s i k at_ = true ∨ converterBusy s (16 + k) (checkerOver s k) start = true → Answers (.urgentCheck i start pd cd p c) s (fun t =>
      t.adc = { s.adc with urgent := left } ∧ tallyGet t 1 (25 + k) = (tallyGet s 1 (25 + k) + 1) % 2 ^ 32))
    ∧ (∀ cal, yieldsCheck s i k at_ = false → converterBusy s (16 + k) (checkerOver s k) start = false →
      converterBusy s i (primaryOver s i) start = false → endsInTime s start = true → calib s = some cal → s.adc.refOk = true →
      overRange [p] = false → overRange [c] = false →
      comparePasses (corrected s cal (16 + k) i true (rawSum 0 [c])) (corrected s cal i i true (rawSum 0 [p])) = true →
      Answers (.urgentCheck i start true true p c) s (fun t =>
        t.adc.urgent = left ∧ t.adc.flight = s.adc.flight ++ [(i.val, start), (16 + k, start)] ∧ (adcIn t i).fails = 0
          ∧ (adcIn t i).passes = (adcIn s i).passes + 1 ∧ (∀ j, j ≠ i.val → adcIn t j = adcIn s j)))
    ∧ (∀ cd, yieldsCheck s i k at_ = false → converterBusy s (16 + k) (checkerOver s k) start = false →
      converterBusy s i (primaryOver s i) start = false → endsInTime s start = true → s.adc.convFault = [] →
      faultGet s (keyC 0x4180 i) = none → Answers (.urgentCheck i start false cd p c) s (fun t =>
        t.adc.urgent = left ∧ i.val ∈ t.adc.convFault ∧ Reacts t (keyC 0x4180 i) 3 ∧ t.adc.inputs = s.adc.inputs)))
  ∧ (∀ s v, coreRuns s = true → domainGood s 7 = true → Answers (.referenceMonitor v) s (fun t =>
    t.adc.refOk = refOkNext s v ∧ (refInWindow s v = false → t.adc.refOk = false) ∧ t.adc.refReads = (v :: s.adc.refReads).take 9
      ∧ (s.ident.decided = true → t.adc.gRefNext = (if strap s 6 = 1 ∨ strap s 6 = 2 then v else 2 ^ 24)) ∧ t.adc.gRef = s.adc.gRef
      ∧ t.adc.inputs = s.adc.inputs ∧ t.adc.sqr = s.adc.sqr))

/-! The zones (chapters 10 to 12) -/

/-- R35, R294, R386, R396, R397, R400, R410, R630: the sample at the head of the intake is released: both lanes take it. Where their words differ,
or a lane memory fails its parity, it produces nothing and the unit withdraws; else it reaches the history ring, and, of a local stream or a slot
that a zone binds, the pipeline of both lanes, whose words then stand, and the zones of that slot alone; one that no zone binds has no windows.
The pipeline stands at an empty intake and at a sample that may not be released yet. -/
def Obligations.SampleReleased : Prop :=
  (∀ s l, s.streams.intake = [] → Answers (.sampleRelease l) s (fun t => t.sansReports = s.sansReports))
  ∧ (∀ s l x rest, s.streams.intake = x :: rest → serving s = false ∨ releasable s x = false →
    Answers (.sampleRelease l) s (fun t => t.sansReports = s.sansReports))
  ∧ (∀ s l x rest, serving s = true → coreRuns s = true → s.streams.intake = x :: rest → releasable s x = true →
    -- what the sample finds once the pair and the inputs have been served (R454)
    let b := beforeSample { s with out := [], streams := { s.streams with intake := rest } } x
    let formed := decide (1024 ≤ x.slot) || bound b x.slot
    let ox := laneTake b (pipeGet b x.slot) l.x formed x
    let oy := laneTake b (Tab.get {} b.pipesY x.slot) l.y formed x
    let differ := (laneDiffer ox.words oy.words).isSome
    let parity := ox.parityOk && oy.parityOk
    Answers (.sampleRelease l) s (fun t => t.journal.latest = x.idx
      ∧ (b.pair.svDue = [] → t.streams.intake = b.streams.intake)
      ∧ (differ = true ∨ parity = false → t.zones = b.zones ∧ t.journal.ring = b.journal.ring
        ∧ (b.pair.svDue = [] → t.pipes = b.pipes ∧ t.pipesY = b.pipesY))
      ∧ (differ = true → faultGet b (keyU 0x3100) = none → t.power.engine = .withdrawn ∧ Reacts t (keyU 0x3100) 4)
      ∧ (parity = false → faultGet b (keyU 0x3180) = none → t.power.engine = .withdrawn ∧ Reacts t (keyU 0x3180) 4)
      ∧ (differ = false → parity = true → t.journal.ring = (ringWrite b x).journal.ring
        ∧ (formed = false → t.zones = b.zones)
        ∧ (b.pair.svDue = [] → (∀ n, n ≠ x.slot → pipeGet t n = pipeGet b n)
          ∧ (formed = false → (pipeGet t x.slot).win = [] ∧ (pipeGet t x.slot).span = [])
          ∧ (formed = true → (pipeGet t x.slot).words = ox.pipe.words ∧ (pipeGet t x.slot).win = ox.pipe.win
            ∧ Tab.get {} t.pipesY x.slot = oy.pipe))
        ∧ (b.plug.earlier = none → ∀ z, zMain (rods b) z ≠ some x.slot → zVolt (rods b) z ≠ some x.slot → zoneGet t z = zoneGet b z))))

/-- R398, R400: a check pattern passes both lanes while the intake is empty, and a failure withdraws the unit: results that differ, a signature that
is not the one fixed in the logic, a memory that fails its parity. -/
def Obligations.CheckPattern : Prop :=
  (∀ s (p : PatternRun), coreRuns s = true → s.power.laneTestPassed = true → s.streams.intake = [] → Answers (.checkPattern (p.x, p.y) p.signature p.parityOk) s (fun t =>
    (p.x ≠ p.y → faultGet s (keyU 0x3100) = none → t.power.engine = .withdrawn ∧ Reacts t (keyU 0x3100) 4)
    ∧ (signatureOk s p = false → faultGet s (keyU 0x3140) = none → t.power.engine = .withdrawn ∧ Reacts t (keyU 0x3140) 4)
    ∧ (p.parityOk = false → faultGet s (keyU 0x3180) = none → t.power.engine = .withdrawn ∧ Reacts t (keyU 0x3180) 4)
    ∧ t.zones = s.zones ∧ t.streams = s.streams ∧ t.pipes = s.pipes))
  ∧ (∀ s (p : PatternRun), p.x = p.y → signatureOk s p = true → p.parityOk = true → Answers (.checkPattern (p.x, p.y) p.signature p.parityOk) s (fun t => t.sansReports = s.sansReports))
  ∧ (∀ s (p : PatternRun), s.streams.intake ≠ [] → Answers (.checkPattern (p.x, p.y) p.signature p.parityOk) s (fun t => t.sansReports = s.sansReports))

/-- R423, R427, R434 to R436, R440, R457, R459, R470, R471: the end of a wait of one element, direction decision or status of an Enabled zone takes the
effect its rule gives; the zone's other elements and decisions stay. -/
def Obligations.ElementWaitsEnd : Prop :=
  ∀ s (z : Fin 256), serving s = true → zEnabled s z = true →
    let x := zoneGet s z
    let others := fun (t : State) => (∀ y, y ≠ z.val → zoneGet t y = zoneGet s y) ∧ t.pipes = s.pipes ∧ t.streams = s.streams ∧ t.field = s.field
    let els := fun (t : State) (n : Nat) => ∀ k, k ≠ n → elGet (zoneGet t z) k = elGet x k
    let dirs := fun (t : State) (n : Nat) => ∀ k, k ≠ n → dirGet (zoneGet t z) k = dirGet x k
    (∀ d, decisionOn (rods s) z (decNum d) = true → (dirGet x (decNum d)).unavailable = false → (dirGet x (decNum d)).latched = false →
      0 < (dirGet x (decNum d)).rawRun → Answers (.directionConfirmed z d) s (fun t =>
        (dirGet (zoneGet t z) (decNum d)).confirmed = (dirGet x (decNum d)).raw ∧ dirs t (decNum d) ∧ (zoneGet t z).el = x.el ∧ others t))
    ∧ (∀ d m, (dirGet x (decNum d)).mem = some m → Answers (.memoryExpiry z d) s (fun t =>
        (dirGet (zoneGet t z) (decNum d)).mem = none ∧ (dirGet (zoneGet t z) (decNum d)).confirmed = (dirGet x (decNum d)).confirmed
          ∧ ((dirGet x (decNum d)).confirmed ≠ .undecided → (dirGet (zoneGet t z) (decNum d)).latched = true)
          ∧ dirs t (decNum d) ∧ (zoneGet t z).el = x.el ∧ others t))
    ∧ (∀ e, (elGet x (elemNum e)).frozen ≠ 0 → Answers (.freezeLimit z e) s (fun t =>
        elGet (zoneGet t z) (elemNum e) = { frozen := max (elGet x (elemNum e)).frozen (pipeRate s) } ∧ els t (elemNum e)
          ∧ (zoneGet t z).dir = x.dir ∧ others t))
    ∧ (∀ e d, elStart x (elemNum e) = true → elementDelay s z (elemNum e) = some d → Answers (.definiteDelayExpiry z e) s (fun t =>
        elGet (zoneGet t z) (elemNum e) = { elGet x (elemNum e) with c := max (elGet x (elemNum e)).c d, operate := true } ∧ els t (elemNum e)
          ∧ (zoneGet t z).dir = x.dir ∧ others t))
    ∧ (∀ e, elStart x (elemNum e) = true → definiteCurve (rods s) z (elemNum e) = true → Answers (.definiteDelayExpiry z e) s (fun t =>
        elGet (zoneGet t z) (elemNum e) = { elGet x (elemNum e) with j := 2 ^ 40 - 1, operate := true } ∧ els t (elemNum e)
          ∧ (zoneGet t z).dir = x.dir ∧ others t))
    ∧ (∀ e, elemNum e ≤ 2 ∨ elemNum e = 6 ∨ elemNum e = 8 → 1 ≤ elemReset (rods s) z (elemNum e) → elemReset (rods s) z (elemNum e) ≤ 30 →
      (elGet x (elemNum e)).started = false → (elGet x (elemNum e)).frozen = 0 → Answers (.definiteResetExpiry z e) s (fun t =>
        elGet (zoneGet t z) (elemNum e) = {} ∧ els t (elemNum e) ∧ (zoneGet t z).dir = x.dir ∧ others t))
    ∧ (x.brk = .intermediate → Answers (.intermediateTimeout z) s (fun t =>
        (zoneGet t z).brk = .bad ∧ (zoneGet t z).el = x.el ∧ (zoneGet t z).dir = x.dir ∧ others t))
    ∧ (zClpOn (rods s) z = true → x.brk = .opened → Answers (.coldLoadArmed z) s (fun t =>
        (zoneGet t z).armed = true ∧ (zoneGet t z).el = x.el ∧ (zoneGet t z).dir = x.dir ∧ others t))
    ∧ Answers (.coldLoadEnd z) s (fun t => (zoneGet t z).restore = (if x.brk = .opened ∨ x.brk = .closed then 0 else min x.restore 1) ∧ (zoneGet t z).el = x.el ∧ (zoneGet t z).dir = x.dir ∧ others t)

/-- R474, R478, R479, Tables 12.4 and 12.5: the ends of the waits of the trip command, 50BF and 79 of an Enabled zone without a new operate. -/
def Obligations.CommandWaitsEnd : Prop :=
  ∀ s (z : Fin 256), serving s = true → zEnabled s z = true →
    let x := zoneGet s z
    let others := fun (t : State) => (∀ y, y ≠ z.val → zoneGet t y = zoneGet s y) ∧ (zoneGet t z).el = x.el ∧ (zoneGet t z).dir = x.dir
      ∧ t.streams = s.streams ∧ t.field = s.field
    (x.trip = true → x.bf ≠ .operated → tripVerdict (rods s) z x = false → Answers (.tripMinimumExpiry z) s (fun t =>
      (zoneGet t z).trip = false ∧ others t))
    ∧ (zBfOn (rods s) z = true → x.bf = .timing → x.trip = true → tripVerdict (rods s) z x = true →
      bfCriterion (bfCurrentPart (zoneCtx s z x)) x.brk = some true → Answers (.bfTimerExpiry z) s (fun t =>
        (zoneGet t z).bf = .operated ∧ (zoneGet t z).trip = true ∧ (zoneGet t z).ds.bf = true
          ∧ (z79On (rods s) z = true → (zoneGet t z).ar = .lockout) ∧ others t))
    ∧ (z79On (rods s) z = true → (tripVerdict (rods s) z x = true → x.trip = true) → x.bf ≠ .timing → statusBad x.brk = false →
      (x.ar = .dead → x.brk ≠ .closed → x.block = false → Answers (.deadTimeExpiry z) s (fun t =>
        (zoneGet t z).ar = .close ∧ (zoneGet t z).close = true ∧ (zoneGet t z).arTimer = 0 ∧ others t))
      ∧ (x.ar = .reclaim → x.brk ≠ .opened → Answers (.reclaimExpiry z) s (fun t =>
        (zoneGet t z).ar = .ready ∧ (zoneGet t z).arK = 0 ∧ others t))
      ∧ (x.ar = .waitOpen → x.brk ≠ .opened → Answers (.openTimerExpiry z) s (fun t =>
        (zoneGet t z).ar = .lockout ∧ (zoneGet t z).close = false ∧ others t))
      ∧ (x.ar = .close → x.brk ≠ .closed → x.block = false → x.arTimer < pipeRate s / 2 → Answers (.closePulseEnd z) s (fun t =>
        (zoneGet t z).ar = .close ∧ (zoneGet t z).close = false ∧ others t))
      ∧ (x.ar = .close → x.brk ≠ .closed → x.block = false → faultGet s (keyZ 0x3680 z) = none → Answers (.closeFailure z) s (fun t =>
        (zoneGet t z).ar = .lockout ∧ (zoneGet t z).close = false ∧ Reacts t (keyZ 0x3680 z) 2 ∧ others t)))

/-- R467, R481, R482: test mode is entered with a copy of the thermal image and left with the copy discarded, its elements restarting on the status as
it stands (R498); the thermal images of all zones are persisted once the MRAM port is free of stNum writes and commit steps (R792). -/
def Obligations.TestModeAndThermal : Prop :=
  (∀ s (z : Fin 256), serving s = true → zEnabled s z = true → (zoneGet s z).test = false → faultGet s (keyZ 0x3700 z) = none →
    Answers (.testModeEntry z) s (fun t =>
      zoneGet t z = zoneFresh (rods s) z (statusNow s z { zoneGet s z with test := true, thetaCopy := (zoneGet s z).theta })
        ∧ (zoneGet t z).theta = (zoneGet s z).theta ∧ (∀ y, y ≠ z.val → zoneGet t y = zoneGet s y)
        ∧ Reacts t (keyZ 0x3700 z) 2 ∧ t.pub = s.pub ∧ t.pipes = s.pipes))
  ∧ (∀ s (z : Fin 256), serving s = true → zEnabled s z = true → (zoneGet s z).test = true →
    (∀ r, faultGet s (keyZ 0x3700 z) = some r → r.level < 4) → Answers (.testModeExit z) s (fun t =>
      zoneGet t z = zoneFresh (rods s) z (statusNow s z { zoneGet s z with test := false, thetaCopy := 0 })
        ∧ (∀ y, y ≠ z.val → zoneGet t y = zoneGet s y) ∧ faultStands t (keyZ 0x3700 z) = false ∧ t.pub = s.pub ∧ t.pipes = s.pipes))
  ∧ (∀ s, mramWaits s = true → Answers .thermalPersist s (fun t => t = { s with out := [] }))
  ∧ (∀ s, serving s = true → storeOn s = true → mramWaits s = false → Answers .thermalPersist s (fun t =>
    t = { s with out := [], nvm := { s.nvm with theta := t.nvm.theta, thetaLack := t.nvm.thetaLack } }
      ∧ t.nvm.theta = (s.zones.map (fun p => (p.1, p.2.theta))).filter (fun p => p.2 != 0)
      ∧ t.nvm.thetaLack = some ((List.range 256).filter (fun z => zEnabled s z && z49On (rods s) z && !(zoneGet s z).thetaOk))))

/-! Publishing (chapter 15) -/

/-- R77, R226, R585, R588 to R590, R610, R792, R793, R797, R798: the stNum whose turn it is at the MRAM port counts up there,
and a failed read-back withdraws the unit; a
retransmission that falls due is queued with the next sqNum and the schedule moves on; the transmit queue releases its first frame that need not
wait for its stNum, in a unit alone on one LAN from P0; with none it holds them all. -/
def Obligations.PublicationsCourse : Prop :=
  (∀ s (p : Fin 257), coreRuns s = true → storeOn s = true → stnumNext s = some p.val →
    (p.val < 256 → Answers (.stnumPersisted p true) s (fun t =>
      t = { s with
        out := [], pub := { s.pub with writing := none }
        nvm := { s.nvm with stNum := Tab.put 0 s.nvm.stNum p (nextNum (persisted s p)) } }))
    ∧ (p.val = 256 → Answers (.stnumPersisted p true) s (fun t =>
      t.nvm = { s.nvm with stNum := Tab.put 0 s.nvm.stNum p (nextNum (persisted s p)) } ∧ t.pub.writing = none ∧ t.pub.pubs = s.pub.pubs))
    ∧ (faultGet s (keyU 0x5180) = none → Answers (.stnumPersisted p false) s (fun t =>
      t.power.engine = .withdrawn ∧ Reacts t (keyU 0x5180) 4 ∧ t.nvm = s.nvm)))
  ∧ (∀ s (p : Fin 257) ok, stnumNext s ≠ some p.val → Answers (.stnumPersisted p ok) s (fun t => t = { s with out := [] }))
  ∧ (∀ s (p : Fin 257), serving s = true → p.val < 256 → isTwin s = false → s.pair.state = .solo → (pubGet s p).running = true →
    s.pub.queue.length < 512 → Answers (.retransmissionDue p) s (fun t =>
      let x := pubGet s p
      let next := nextDue x x.nth
      pubGet t p = { x with due := next, nth := x.nth + 1, sqNum := nextNum x.sqNum }
        ∧ t.pub.queue = s.pub.queue ++ [.goose p x.stNum false 0 (0x010CCD010000 + p) (gVlanPrio (rods s) * 8192 + gVlanId (rods s))
          (gPubBase (rods s) + p) (goosePdu s p x (nextNum x.sqNum) (3 * ceilDiv (next - x.due) 1000000))]
        ∧ t.zones = s.zones))
  ∧ (∀ s (p : Fin 257), serving s = true → p.val < 256 → (pubGet s p).running = true → 512 ≤ s.pub.queue.length →
    Answers (.retransmissionDue p) s (fun t =>
      pubGet t p = { pubGet s p with due := nextDue (pubGet s p) (pubGet s p).nth, nth := (pubGet s p).nth + 1 } ∧ t.pub.queue = s.pub.queue))
  ∧ (∀ s, (∀ f ∈ s.pub.queue, held s f = true) → Answers .processTransmit s (fun t => t = { s with out := [] }))
  ∧ (∀ s a f b, coreRuns s = true → s.pub.queue = a ++ f :: b → (∀ g ∈ a, held s g = true) → held s f = false → s.pub.waiting = [] →
    Answers .processTransmit s (fun t => t.pub.queue = a ++ b ∧ t.pub.waiting = [] ∧ t.zones = s.zones ∧ t.power = s.power))
  ∧ (∀ s p st c q dst tci app pdu, coreRuns s = true → s.pub.queue = [.goose p st c q dst tci app pdu] → isPersisted s p st = true → s.pub.waiting = [] →
    gAuthGoose (rods s) = none → isTwin s = false → isHsr s = false → isSingleLan s = true → canSend s .p0 = true → s.ports.p0.txBad = false →
    Answers .processTransmit s (fun t => t = portTally { s with
      pub := { s.pub with queue := [] }
      ports := { s.ports with p0 := { s.ports.p0 with lastTx := some (txStamp s .p0) } }
      out := [.frame .p0 (padTo 0 (octets 6 dst ++ octets 6 (processMac s) ++ octets 2 0x8100 ++ octets 2 tci ++ octets 2 0x88B8
        ++ gooseBody app pdu none))] } .p0 14))

/-- R597 to R599, R611: from the first link-up of a station port a status frame leaves each period, and once a key field has changed; SSEQ counts and
the tally pages follow one another. -/
def Obligations.StatusFrames : Prop :=
  let sent := fun (s t : State) => t.pub.sseq = s.pub.sseq + 1 ∧ t.pub.page = (s.pub.page + 1) % pageCount s ∧ t.free = s.free + 1
    ∧ t.zones = s.zones ∧ t.power = s.power
    ∧ (canSend s .s0 = true → s.ports.s0.txBad = false → ∃ u head, u.sansReports = { s with free := s.free + 1 }.sansReports ∧ head.length = 19 ∧
      .frame .s0 (withRct 0xA u.ports.seqStation (head ++ statusBody u)) ∈ t.out)
  (∀ s, statusRuns s = true → Answers .statusFramePeriodic s (sent s))
  ∧ (∀ s, statusRuns s = true → keyFields (readAckIn s) ≠ s.pub.lastKey → Answers .statusFrameOnChange s (sent s))
  ∧ (∀ s, statusRuns s = true → keyFields (readAckIn s) = s.pub.lastKey → Answers .statusFrameOnChange s (fun t => t = { readAckIn s with out := [] }))

/-! The pair (chapter 16) -/

/-- R618 to R621: a carry frame that is invalid or out of order is discarded and counted whatever it carries; unacknowledged frames leave again
with RETX; lanes come up, go down, and the link is lost. -/
def Obligations.CarryLanes : Prop :=
  (∀ s c h, carryHeader c = some h → carryOn s = true → (laneGet s h.lane).up = true →
    h.valid = false ∨ h.seq ≠ (laneGet s h.lane).rxSeq → Answers c s (fun t =>
      t = lanePut { s with out := [] } h.lane { laneGet s h.lane with discarded := (laneGet s h.lane).discarded + 1 }))
  ∧ (∀ s n, carryOn s = true → (laneGet s n).up = true → Answers (.carryRetransmit n) s (fun t =>
    t = { lanePut s n { laneGet s n with resent := (laneGet s n).resent + (laneGet s n).unacked.length } with
          out := (laneGet s n).unacked.map (fun f => carryOut n (carryTx s n f.1 true) f.2) }))
  ∧ (∀ s n, carryOn s = true → (laneGet s n).up = false → (laneGet s (1 - n)).up = true →
    (∀ r, faultGet s (keyU 0x2900) = some r → r.level < 4) → Answers (.carryLaneUp n) s (fun t =>
      t.pair.carryUp = true ∧ t.pair.oneDownAt = none ∧ t.pair.bothUpAt = s.now ∧ faultStands t (keyU 0x2900) = false
        ∧ t.pair.state = s.pair.state ∧ t.power = s.power))
  ∧ (∀ s n, carryOn s = true → (laneGet s n).up = true → (laneGet s (1 - n)).up = true → Answers (.carryLaneDown n) s (fun t =>
    t.pair.oneDownAt = some s.now ∧ t.pair.carryUp = false ∧ carryRuns t = true ∧ t.pair.state = s.pair.state ∧ t.power = s.power))
  ∧ (∀ s, carryOn s = true → s.pair.state = .pairing → faultGet s (keyU 0x2900) = none → Answers .carryLinkLost s (fun t =>
    t.pair.carryUp = false ∧ t.pair.state = .pairing ∧ (carryRuns s = true → Reacts t (keyU 0x2900) 2) ∧ t.power = s.power))
  ∧ (∀ s, carryOn s = true → s.pair.state = .standby → agreementEmpty s → faultGet s (keyU 0x55C0) = none → Answers .carryLinkLost s (fun t =>
    t.pair.carryUp = false ∧ t.pair.state = .shadow ∧ Reacts t (keyU 0x55C0) 2 ∧ t.power = s.power))

/-- R622 to R624, Tables 16.2, 16.5: HELLO carries the unit's identity block and is answered with ACCEPT or with the first condition that fails; at a
fresh formation the unit with the newer journal, or side A of two equal ones, becomes Active and the other Standby, and both serve. -/
def Obligations.PairingExchange : Prop :=
  (∀ s, carryOn s = true → s.pair.carryUp = true → s.plug.image.isSome = true →
    s.pair.state = .pairing ∨ s.pair.state = .shadow ∨ (s.pair.state = .active ∧ s.pair.absent = true) → lane0Ready s = true →
    Answers .helloSend s (fun t => t = { s with
      out := [carryOut 0 (carryTx s 0 s.pair.lane0.txSeq false) (.hello (helloBody s))]
      pair := { s.pair with lane0 := { s.pair.lane0 with
        txSeq := s.pair.lane0.txSeq + 1, unacked := s.pair.lane0.unacked ++ [(s.pair.lane0.txSeq, .hello (helloBody s))] } } }))
  ∧ (∀ s h b, takes s h = true → lane0Ready s = true → pairingCode s b ≠ 0 → Answers (.hello h b) s (fun t => t.pair.hello = some b ∧ t.pair.absent = false ∧ t.pair.state = s.pair.state
      ∧ carryOut 0 (carryTx t 0 s.pair.lane0.txSeq false) (.refuse (pairingCode s b)) ∈ t.out))
  ∧ (∀ s h b, takes s h = true → s.power.engine ≠ .withdrawn → lane0Ready s = true → pairingCode s b = 0 → s.pair.state = .pairing →
    b.pair.toNat ≠ 2 → Answers (.hello h b) s (fun t => t.pair.hello = some b ∧ t.pair.state = .pairing
      ∧ ∃ a, (a = true ↔ b.jseq < s.journal.jseq ∨ b.jseq = s.journal.jseq ∧ side s = 1)
        ∧ carryOut 0 (carryTx t 0 s.pair.lane0.txSeq false) (.accept a (!a)) ∈ t.out))
  ∧ (∀ s h (code : Fin 6), takes s h = true → code.val ≠ 0 → s.power.engine = .starting → side s = 2 →
    faultGet s (keyU 0x5640) = none → Answers (.refuse { hdr := h, code := code }) s (fun t =>
      t.power.engine = .withheld ∧ t.power.withheldBy = some (s.power.withheldBy.getD .pairing) ∧ t.pair.accepted = false
        ∧ Reacts t (keyU 0x5640) 2))
  ∧ (∀ s h (code : Fin 6), takes s h = true → 2 ≤ code.val → serving s = false → s.power.engine ≠ .withdrawn → side s = 1 →
    canBeAdmitted s = true → s.pair.told.engine ≠ 3 → Answers (.refuse { hdr := h, code := code }) s (fun t =>
      t.power.engine = .serving ∧ t.pair.state = .active ∧ t.pair.partnerState = 1 ∧ t.pair.accepted = false))
  ∧ (∀ s (f : AcceptFrame) journal stnums b, takes s f.hdr = true → s.pair.hello = some b → s.pair.state = .pairing → pairingCode s b = 0 →
    canServe s = true → s.pair.told.pair ≠ 2 → Answers (.accept f journal stnums) s (fun t =>
      t.power.engine = .serving ∧ t.pair.accepted = true ∧ t.pair.absent = false ∧ t.pair.swapFrom = s.now ∧
      (if s.pair.told.jseq < s.journal.jseq ∨ s.pair.told.jseq = s.journal.jseq ∧ side s = 1 then t.pair.state = .active ∧ t.pair.partnerState = 3
        else t.pair.state = .standby ∧ t.pair.partnerState = 2)))

/-- R625 to R627, R640, Table 16.13: heartbeats leave on both paths with their numbers; a heard path is not silent; one silent path of an
accepted pair is a fault, a silent LAN another, and with both silent the partner is lost and an Active goes on without it. -/
def Obligations.Heartbeats : Prop :=
  (∀ s, carryOn s = true → lane0Ready s = true → s.pair.oneDownAt = none → s.now < s.pair.bothUpAt + 400000000 →
    Answers .carryHeartbeatSend s (fun t => t.pair.hbCarry = s.pair.hbCarry + 1 ∧ t.pair.unagreed = false
      ∧ carryOut 0 (carryTx s 0 s.pair.lane0.txSeq false) (.heartbeat (heartbeatBody s s.pair.hbCarry)) ∈ t.out))
  ∧ (∀ s m, isTwin s = true → portsDone s = true → s.plug.image.isSome = true → pairMac s = some m → Answers .busHeartbeatSend s (fun t =>
    t.pair.hbBus = s.pair.hbBus + 1 ∧ t.pair.unagreed = false ∧ t.pair.state = s.pair.state ∧ t.zones = s.zones
      ∧ (∀ p, p = .p0 ∨ p = .p1 → canSend s p = true → (portGet s p).txBad = false → ∃ l, .frame p l ∈ t.out ∧ l.take 6 = octets 6 (pairGroup m))))
  ∧ (∀ s h b, takes s h = true → s.pair.state = .pairing → hflag b 4 = false → s.pair.split = false → Answers (.heartbeat h b) s (fun t =>
    t.pair.carrySilent = false ∧ t.pair.partnerFp = b.fp ∧ t.pair.partnerState = b.pair.toNat ∧ t.time.partnerTimeq = b.timeq
      ∧ t.pair.state = .pairing ∧ t.power = s.power))
  ∧ (∀ s p dst b, isTwin s = true → rxOpen s p = true → p = .p0 ∨ p = .p1 → busHeartbeatOk s dst b = true →
    s.pair.state = .pairing → hflag b 4 = false → s.pair.split = false → Answers (.busHeartbeat p dst b) s (fun t =>
    t.pair.busSilent = false ∧ (p = .p0 → t.pair.heardA = true) ∧ (p = .p1 → t.pair.heardB = true) ∧ t.pair.partnerFp = b.fp
      ∧ t.pair.state = .pairing ∧ t.power = s.power))
  ∧ (∀ s, isTwin s = true → serving s = true → s.power.inReset = false → s.pair.absent = false → s.pair.accepted = true → s.pair.busSilent = false →
    faultGet s (keyU 0x5500) = none → Answers (.pathSilent .carry) s (fun t =>
      t.pair.carrySilent = true ∧ t.pair.state = s.pair.state ∧ Reacts t (keyU 0x5500) 2))
  ∧ (∀ s, isTwin s = true → serving s = true → s.power.inReset = false → s.pair.absent = false → s.pair.state = .active → s.pair.carrySilent = true →
    agreementEmpty s → faultGet s (keyU 0x5580) = none → Answers (.pathSilent .bus) s (fun t =>
      t.pair.busSilent = true ∧ t.pair.absent = true ∧ t.pair.accepted = false ∧ t.pair.state = .active ∧ Reacts t (keyU 0x5580) 2))
  ∧ (∀ s, isTwin s = true → coreRuns s = true → s.pair.absent = false → s.pair.accepted = true → s.pair.heardB = true →
    faultGet s (keyU 0x5540) = none → Answers (.heartbeatLanSilent .p0) s (fun t =>
      t.pair.heardA = false ∧ t.pair.heardB = true ∧ t.pair.busSilent = s.pair.busSilent ∧ Reacts t (keyU 0x5540) 2))

/-- R628 to R632, Table 16.8: what receipts, lends, an unagreed release and decision records do at a unit that shares agreement. -/
def Obligations.InputAgreement : Prop :=
  (∀ s h (r : ReceiptRec), takes s h = true → serving s = true → s.pair.state = .standby → s.pair.held = [] → r.kind.val < 2 → r.bitmap = 1 →
    r.first < strapRate s → r.secLo < 256 → (svGet s r.slot).phase ≠ .admitted → Answers (.receipt h [r]) s (fun t =>
      t.pair.receipts = s.pair.receipts ++ [r] ∧ t.pair.held = [] ∧ t.streams = s.streams))
  ∧ (∀ s h (r : ReceiptRec) m, takes s h = true → serving s = true → s.pair.state = .standby → s.pair.heldBrk = [] → s.pair.brkDue = [] →
    (brkGet s r.slot).phase = .free → Answers (.lend h (.breaker r m)) s (fun t =>
      t.pair.heldBrk = [{ slot := r.slot, msg := m, confirmed := true, tick := s.now }] ∧ t.pair.brkDue = [] ∧ t.streams = s.streams))
  ∧ (∀ s (n : Fin 1024) i h, serving s = true → s.pair.state = .standby → findHeld s n i = some h → h.held = true → h.confirmed = false →
    h.sample.kind = .received → lane0Ready s = true → Answers (.lendTimeout n i) s (fun t =>
      t.out = [carryOut 0 (carryTx s 0 s.pair.lane0.txSeq false) (.lend (lendBody s h))] ∧ t.pair.held = s.pair.held ∧ t.streams = s.streams))
  ∧ (∀ s (n : Fin 1024) i h, serving s = true → s.pair.state = .active → formed s = true → findHeld s n i = none → brkUnconfirmed s n i = some h →
    faultGet s (keyU 0x56C0) = none → Answers (.unagreedRelease n i) s (fun t =>
      t.pair.unagreed = true ∧ t.pair.bothLans = true ∧ t.pair.state = .active ∧ Reacts t (keyU 0x56C0) 2))
  ∧ (∀ s h i tq, takes s h = true → serving s = true → s.pair.state = .standby → s.streams.intake = [] →
    Answers (.decision h [.index i tq]) s (fun t => t.pair.agreed = (i, tq) ∧ t.streams = s.streams))
  ∧ (∀ s h n i, takes s h = true → serving s = true → s.pair.state = .standby → (findHeld s n i).isSome = true →
    Answers (.decision h [.refuseLend n i]) s (fun t => t.pair.held = s.pair.held.filter (fun x => !isEntry n i x)
      ∧ svGet t n = svTally (svGet s n) 7 1))

/-- R639, R644, Table 16.10: the course of a role swap: due at the timer, proposed when possible, agreed or declined by the Standby, and done at its
index, where the Active becomes Standby and the Standby Active. -/
def Obligations.SwapCourse : Prop :=
  (∀ s, serving s = true → s.power.inReset = false → s.pair.state = .active → s.pair.swapDue = none → s.pair.swap = .none → Answers .swapTimer s (fun t =>
    t.pair.swapDue = some s.now ∧ t.pair.state = .active
      ∧ t.pair.swap = (if swapPossible s then .proposed (addIndex (strapRate s) s.journal.latest (48 * decim s)) else .none)))
  ∧ (∀ s h ns, takes s h = true → serving s = true → s.pair.state = .standby → Answers (.swapPropose h ns) s (fun t =>
    t.pair.swap = (if swapPossible s then .agreed ns else s.pair.swap) ∧ t.pair.state = .standby))
  ∧ (∀ s h ns, takes s h = true → s.pair.swap = .proposed ns → Answers (.swapAgree h ns) s (fun t => t.pair.swap = .agreed ns ∧ t.pair.state = s.pair.state))
  ∧ (∀ s h ns, takes s h = true → s.pair.state = .active → s.pair.swap = .proposed ns → Answers (.swapDecline h) s (fun t =>
    t.pair.swap = .retry ∧ t.pair.state = .active))
  ∧ (∀ s, serving s = true → s.pair.swap = .retry → s.pair.swapDue = none → Answers .swapRetry s (fun t =>
    t.pair.swap = .none ∧ t.pair.state = s.pair.state))
  ∧ (∀ s ns, serving s = true → s.pair.swap = .agreed ns → s.pair.state = .active → s.journal.queue = [] → Answers .swapAtIndex s (fun t =>
    t.pair.state = .standby ∧ t.pair.partnerState = 2 ∧ t.pair.swap = .none ∧ t.pair.swapDue = none ∧ t.pair.swapFrom = s.now))
  ∧ (∀ s ns, serving s = true → s.pair.swap = .agreed ns → s.pair.state = .standby → Answers .swapAtIndex s (fun t =>
    t.pair.state = .active ∧ t.pair.partnerState = 3 ∧ t.pair.swap = .none ∧ t.pair.swapDue = none ∧ t.pair.swapFrom = s.now))

/-- R641, R642, R649, R661: entries of the pair are numbered by the Active and checked; a rejoin names its first common index, takes the Active's
state and makes the unit Standby; one that takes too long starts again, and the third in succession is a fault. -/
def Obligations.PairJournalAndRejoin : Prop :=
  (∀ s h (e : CarriedEntry), takes s h = true → s.pair.state = .active → formed s = true → e.jseq = 0 → Answers (.jentry h e) s (fun t =>
    entryOf e ∈ t.journal.queue ∧ t.journal.jseq = s.journal.jseq))
  ∧ (∀ s h (e : CarriedEntry), takes s h = true → s.pair.state = .standby → e.jseq ≠ 0 → e.jseq = nextNumber s → (entryOf e).pair = false →
    Answers (.jentry h e) s (fun t => t.pair.numbered.length = s.pair.numbered.length + 1 ∧ nextNumber t = nextNumber s + 1))
  ∧ (∀ s h j x c, takes s h = true → coreRuns s = true → s.pair.state = .active → (allCommitted s).find? (fun c => c.jseq == j) = some c → c.ecrc ≠ x →
    faultGet s (keyU 0x5740) = none → Answers (.jcheck h j x) s (fun t => Reacts t (keyU 0x5740) 2 ∧ t.pair.state = .active))
  ∧ (∀ s h last slots brks stnums n0, takes s h = true → s.pair.state = .active → s.pair.rejoin = .journals →
    Answers (.resync h last [] slots brks stnums n0) s (fun t => t.pair.rejoin = .agreeing n0 ∧ t.pair.state = .active))
  ∧ (∀ s h zones pubs n0 seq n1, takes s h = true → s.pair.state = .rejoining → s.pair.rejoin = .agreeing n0 → indexEnded s n1 = false →
    Answers (.snapshot h zones pubs seq n1) s (fun t => t.pair.state = .rejoining ∧ t.zones = s.zones
      ∧ t.pair.snapDue = some { n1 := n1, zones := zones, pubs := pubs, pairSeq := seq }))
  ∧ (∀ s h z x n0 seq n1, takes s h = true → s.pair.state = .rejoining → s.pair.rejoin = .agreeing n0 → indexEnded s n1 = true →
    s.streams.intake = [] → z < 256 → Answers (.snapshot h [(z, x)] [] seq n1) s (fun t =>
      t.pair.state = .standby ∧ t.pair.partnerState = 2 ∧ t.pair.rejoin = .none ∧ t.pair.absent = false ∧ zoneGet t z = x))
  ∧ (∀ s, isTwin s = true → serving s = true → s.power.inReset = false → s.pair.state = .active → s.pair.rejoin = .journals → agreementEmpty s →
    faultGet s (keyU 0x5780) = none → Answers .rejoinTimeout s (fun t => t.pair.rejoin = .journals ∧ t.pair.rejoinAt = s.now
      ∧ t.pair.rejoinRuns = s.pair.rejoinRuns + 1 ∧ t.pair.state = .active ∧ (2 ≤ s.pair.rejoinRuns → Reacts t (keyU 0x5780) 2)))

/-! The journal (chapter 17) -/

/-- R660, R664, Table 17.5, R688, R689, R792: with no stNum write waiting at the MRAM port, the first entry that may commit takes the next number, the chain's CRC and the next place of its severity's
open page; an entry that fails twice withdraws the unit; an S3 entry that finds no page stops the path. -/
def Obligations.JournalCommits : Prop :=
  let first := fun (s : State) (e : Entry) => journalOpen s = true ∧ storeOn s = true ∧ stnumNext s = none ∧ s.pair.numbered = []
    ∧ (s.pair.state = .active → s.pair.pairEntries = []) ∧ firstEntry (committable s) = some e
  (∀ s reads e n p, first s e → s.journal.opens.getD e.sev none = some n → pageGet s n = some p → p.used + entrySize e ≤ 4096 → reads.first = true →
    Answers (.journalCommit reads) s (fun t => t.journal.jseq = s.journal.jseq + 1 ∧ t.journal.stalled = false
      ∧ t.journal.lastCrc = BitVec.ofNat 32 (entryCrc (s.journal.jseq + 1) s.journal.lastCrc.toNat e)
      ∧ ∃ x ∈ t.journal.pages, x.1 = n ∧ x.2.used = p.used + entrySize e ∧ x.2.entries = p.entries ++
          [{ jseq := s.journal.jseq + 1, prevCrc := s.journal.lastCrc, ecrc := t.journal.lastCrc, entry := e }]))
  ∧ (∀ s reads e n p, first s e → s.journal.opens.getD e.sev none = some n → pageGet s n = some p → p.used + 2 * entrySize e ≤ 4096 →
    reads.first = false → reads.second = false → faultGet s (keyU 0x4600) = none → Answers (.journalCommit reads) s (fun t =>
      t.journal.jseq = s.journal.jseq ∧ t.power.engine = .withdrawn ∧ Reacts t (keyU 0x4600) 4))
  ∧ (∀ s reads e, first s e → e.sev = 3 → roomFor s 3 (entrySize e) = none → faultGet s (keyU 0x4580) = none → Answers (.journalCommit reads) s (fun t =>
      t.journal.jseq = s.journal.jseq ∧ t.journal.stalled = true ∧ t.journal.pages = s.journal.pages ∧ Reacts t (keyU 0x4580) 2))

/-- R666, R667, R672, R703: a refill gives every bucket a token; a key's summary goes out and its count starts again; up to 60 marks leave in one
entry; a periodic snapshot is taken once at index (s, 0), with s divisible by 60 × G.SNAP_PERIOD, and at no other second. -/
def Obligations.JournalUpkeep : Prop :=
  (∀ s, coreRuns s = true → Answers .tokenRefill s (fun t =>
    t = { s with out := [], journal := { s.journal with buckets := t.journal.buckets } }
      ∧ (∀ x ∈ t.journal.buckets, x.2.used ≠ 0 ∨ x.2.suppressed ≠ 0)
      ∧ ∀ k b, (k, b) ∈ s.journal.buckets → 2 ≤ b.used ∨ b.suppressed ≠ 0 → (k, { b with used := b.used - 1 }) ∈ t.journal.buckets))
  ∧ (∀ s code zone, coreRuns s = true → (Tab.get {} s.journal.buckets (code * 65536 + zone)).suppressed ≠ 0 →
    Answers (.suppressionSummary code zone) s (fun t => t.sansRecords = s.sansRecords ∧ t.faults = s.faults
      ∧ (Tab.get {} t.journal.buckets (code * 65536 + zone)).suppressed = 0
      ∧ (Tab.get {} t.journal.buckets (code * 65536 + zone)).used = (Tab.get {} s.journal.buckets (code * 65536 + zone)).used
      ∧ (s.power.engine ≠ .withdrawn → numberedByPartner s = false → (queueLoad s).length < 48 →
          t.journal.queue = s.journal.queue ++ [summaryEntry s code zone (Tab.get {} s.journal.buckets (code * 65536 + zone))])))
  ∧ (∀ s, coreRuns s = true → s.recallSvc.waiting ≠ [] → Answers .marksEntry s (fun t =>
    t.sansRecords = { s.sansRecords with recallSvc := { s.recallSvc with waiting := s.recallSvc.waiting.drop 60 } }))
  ∧ (∀ s, coreRuns s = true → s.journal.latest.sec % (60 * gSnapPeriod (rods s)) = 0 → (4, ⟨s.journal.latest.sec, 0⟩) ∉ s.journal.snapAt →
    Answers .periodicSnapshot s (fun t => (4, ⟨s.journal.latest.sec, 0⟩) ∈ t.journal.snapAt
      ∧ t.sansRecords = { s.sansRecords with journal := { s.sansRecords.journal with snapDue := t.journal.snapDue } }))
  ∧ (∀ s, s.journal.latest.sec % (60 * gSnapPeriod (rods s)) ≠ 0 ∨ (4, ⟨s.journal.latest.sec, 0⟩) ∈ s.journal.snapAt →
    Answers .periodicSnapshot s (fun t => t = { s with out := [] }))

/-- R676, R679, R680, R691: a record that closes has its body in the store where blocks are free, and is lost where there are none; a body is
complete once it is written, and a write that fails retires a block and loses the record. -/
def Obligations.DisturbanceRecords : Prop :=
  let blocks := fun (s : State) (r : DrRecord) => ceilDiv (recordBody s r).length 262144
  (∀ s rec r, coreRuns s = true → s.journal.records.find? (fun x => x.recno == rec && !x.closed) = some r →
    3276 + blocks s (closedRecord s r 0) ≤ freeBlocks s → Answers (.recordClose rec) s (fun t =>
      (∀ x ∈ t.journal.records, x.recno = rec → x.closed = true)
      ∧ ∃ x ∈ t.journal.store, x.recno = rec ∧ x.body = recordBody s (closedRecord s r 0) ∧ x.sev = recordSev s r ∧ x.written = false ∧ x.jseq = 0))
  ∧ (∀ s rec r, coreRuns s = true → s.journal.records.find? (fun x => x.recno == rec && !x.closed) = some r →
    freeBlocks s < blocks s (closedRecord s r 0) → s.journal.store.filter (recordReclaimable s (recordSev s r)) = [] →
    faultGet s (keyU 0x4900) = none → Answers (.recordClose rec) s (fun t =>
      (∀ x ∈ t.journal.records, x.recno ≠ rec) ∧ t.journal.store = s.journal.store ∧ Reacts t (keyU 0x4900) 2))
  ∧ (∀ s rec, coreRuns s = true → ((s.journal.store.filter (fun r => !r.written)).take 4).any (fun r => r.recno == rec) = true →
    Answers (.nandWriteComplete rec true) s (fun t => t = { s with out := [], journal := { s.journal with
      store := s.journal.store.map (fun r => if r.recno = rec then { r with written := true } else r) } }))
  ∧ (∀ s rec, coreRuns s = true → ((s.journal.store.filter (fun r => !r.written)).take 4).any (fun r => r.recno == rec) = true →
    faultGet s (keyU 0x4900) = none → Answers (.nandWriteComplete rec false) s (fun t =>
      t.journal.store = s.journal.store.filter (fun r => r.recno != rec) ∧ t.journal.retired = s.journal.retired + 1 ∧ Reacts t (keyU 0x4900) 2))

/-! Recall (chapter 18) -/

/-- R694 to R699, R708, R711, Tables 18.4 to 18.6: which requests are answered at all, OPEN and CLOSE, a request that waits in its session, and
the partner named by a unit that does not serve recall. -/
def Obligations.RecallRequests : Prop :=
  let served := fun (s : State) (c : Instr) (p : Port) (r : RecallReq) =>
    recallOf c = some (p, r) ∧ WellFormed c = true ∧ hears s p r = true ∧ malformed r = false ∧ redirects s = false
  (∀ s p r h i, served s (.opOpen p r) p r → hostOf s r.src = some h → openedBy s r = none →
    (List.range 8).find? (fun n => (sessionGet s n).state == .free) = some i → Answers (.opOpen p r) s (fun t =>
      (sessionGet t i).state = .idle ∧ (sessionGet t i).host = h ∧ (sessionGet t i).mac = r.src ∧ (sessionGet t i).sgen = nextGen (sessionGet s i).sgen
        ∧ (sessionGet t i).openTag = r.tag ∧ (sessionGet t i).openAt = s.now ∧ (∀ k, k ≠ i → sessionGet t k = sessionGet s k) ∧ responds s t r 0x81
        ∧ ∀ o, oldestJseq (allCommitted s) = some o → (sessionGet t i).cursor = if param r 0 8 = 0 ∨ param r 0 8 < o then o else param r 0 8))
  ∧ (∀ s p r i, served s (.opOpen p r) p r → openedBy s r = some i → Answers (.opOpen p r) s (fun t => t.recallSvc = s.recallSvc ∧ responds s t r 0x81))
  ∧ (∀ s p r, served s (.opOpen p r) p r → openedBy s r = none → (∀ n, n < 8 → (sessionGet s n).state ≠ .free) → Answers (.opOpen p r) s (fun t =>
      t.recallSvc = s.recallSvc ∧ responds s t r 0xE0))
  ∧ (∀ s p r i, served s (.opClose p r) p r → sessionOf s r = some i → Answers (.opClose p r) s (fun t =>
      (sessionGet t i).state = .free ∧ (sessionGet t i).sgen = (sessionGet s i).sgen ∧ (∀ k, k ≠ i → sessionGet t k = sessionGet s k) ∧ responds s t r 0x82))
  ∧ (∀ s c p r i, served s c p r → c = .opEntries p r ∨ c = .opAck p r ∨ c = .opRecord p r ∨ c = .opDone p r → sessionOf s r = some i → Answers c s (fun t =>
      (sessionGet t i).state = .queued ∧ (sessionGet t i).request = some r ∧ (sessionGet t i).cursor = (sessionGet s i).cursor
        ∧ (sessionGet t i).queuedAt = (if (sessionGet s i).state = .queued then (sessionGet s i).queuedAt else s.now)
        ∧ ∀ k, k ≠ i → sessionGet t k = sessionGet s k))
  ∧ (∀ s c p r, served s c p r → c = .opClose p r ∨ c = .opEntries p r ∨ c = .opAck p r ∨ c = .opRecord p r ∨ c = .opDone p r → sessionOf s r = none →
    Answers c s (fun t => t.recallSvc = s.recallSvc ∧ responds s t r 0xE0))
  ∧ (∀ s c p r, recallOf c = some (p, r) → WellFormed c = true → hears s p r = true → malformed r = false → redirects s = true →
    (∀ p' r', c ≠ .malformedRequest p' r' ∧ c ≠ .unlistedRequest p' r') → Answers c s (fun t => t.recallSvc = s.recallSvc ∧ responds s t r 0xE1))
  ∧ (∀ s p r, WellFormed (.malformedRequest p r) = true → hears s p r = true → malformed r = true → Answers (.malformedRequest p r) s (fun t =>
      t.recallSvc = s.recallSvc ∧ (sessionOf s r = none → t.sansReports = s.sansReports ∧ Tab.get 0 t.tally 92 = Tab.get 0 s.tally 92 + 1)
        ∧ ((sessionOf s r).isSome = true → responds s t r 0xE0)))
  ∧ (∀ s p r, WellFormed (.unlistedRequest p r) = true → recallOpen s p = true → hostOf s r.src = none → Answers (.unlistedRequest p r) s (fun t =>
      t = { s with out := [], tally := Tab.put 0 s.tally 91 (Tab.get 0 s.tally 91 + 1) }))

/-- R680, R698, R700 to R707, R792: the session whose turn it is, is served and answered once what it reads is at hand: the token passes on, an ACK moves the cursor past what it acknowledges,
and a record's body and entries are sent; a session idle too long is free. -/
def Obligations.RecallServes : Prop :=
  let next := fun (s : State) (i : Nat) (r : RecallReq) => portsDone s = true ∧ redirects s = false ∧ nextSession s = some i
    ∧ (sessionGet s i).request = some r ∧ readReady s r = true
  (∀ s ok i r, portsDone s = true → nextSession s = some i → (sessionGet s i).request = some r → readReady s r = false →
    Answers (.recallServe ok) s (fun t => t = { s with out := [] }))
  ∧ (∀ s ok i r, next s i r → Answers (.recallServe ok) s (fun t =>
    (sessionGet t i).state = .idle ∧ (sessionGet t i).request = none ∧ (sessionGet t i).sgen = (sessionGet s i).sgen
      ∧ t.recallSvc.token = (i + 1) % 8 ∧ (∀ k, k ≠ i → sessionGet t k = sessionGet s k)
      ∧ (r.op = 0x10 → param r 0 8 = 0 → (sessionGet t i).cursor = (sessionGet s i).cursor ∧ responds s t r 0x90)
      ∧ (r.op = 0x11 → param r 0 8 ≤ param r 8 8 → param r 8 8 ≤ s.journal.jseq →
          (sessionGet t i).cursor = max (sessionGet s i).cursor (param r 8 8 + 1) ∧ responds s t r 0x91)
      ∧ (r.op = 0x11 → s.journal.jseq < param r 8 8 ∨ param r 8 8 < param r 0 8 →
          (sessionGet t i).cursor = (sessionGet s i).cursor ∧ t.recallSvc.acks = s.recallSvc.acks ∧ responds s t r 0xE0)))
  ∧ (∀ s i r c x, next s i r → r.op = 0x20 → indexOf (allCommitted s) (param r 0 4) = some c →
    s.journal.store.find? (fun x => x.recno == param r 0 4 && x.jseq != 0) = some x → param r 4 4 % 1024 = 0 → param r 4 4 < x.body.length →
    Answers (.recallServe true) s (fun t => t.journal.store = s.journal.store ∧ responds s t r 0xA0))
  ∧ (∀ s i r c, next s i r → r.op = 0x21 → indexOf (allCommitted s) (param r 0 4) = some c →
    s.journal.store.any (fun x => x.recno == param r 0 4) = true → param r 4 4 = field c.entry.payload 12 4 → Answers (.recallServe true) s (fun t =>
      t.recallSvc.waiting.contains ((sessionGet s i).host, true, param r 0 4, 0) = true ∧ responds s t r 0xA1))
  ∧ (∀ s (i : Fin 8), portsDone s = true → (sessionGet s i).state ≠ .free → Answers (.sessionIdleTimeout i) s (fun t =>
    (sessionGet t i).state = .free ∧ (sessionGet t i).sgen = (sessionGet s i).sgen ∧ ∀ k, k ≠ i.val → sessionGet t k = sessionGet s k))

/-! Faults (chapter 19) -/

/-- R723 to R730, R740, Table 19.3: an accepted acknowledgement acts on every fault and reaches the outputs for 1.0 ms; a completed reaction is
Present, or Gone once its cause has gone. -/
def Obligations.FaultReactions : Prop :=
  let acts := fun (s t : State) => t.field.ackTo = s.now + 400000 ∧ t.field.ch = s.field.ch
    ∧ ∀ k r, bookkept k = false → faultGet s k = some r → r.level < 4 →
      (r.phase = .present → faultGet t k = some { r with acked := true }) ∧ (r.phase = .gone → faultGet t k = none)
        ∧ (r.phase = .reacting → faultGet t k = some r)
  let kept := fun (s : State) => ∀ x ∈ s.faults.recs, keyNum (recKey x.2) = x.1
  let judges := fun (s : State) => coreRuns s = true ∧ (s.power.engine = .withheld ∨ s.power.engine = .serving ∨ s.power.engine = .withdrawn)
  (∀ s, judges s → kept s → Answers .ackInAccepted s (acts s))
  ∧ (∀ s cc, judges s → kept s → ackInput s = some cc → Answers .ackInputAccepted s (acts s))
  ∧ (∀ s k r, coreRuns s = true → bookkept k = false → faultGet s k = some r → r.level < 4 → r.phase = .reacting → reactionWaits s k = false →
    Answers (.faultReactionComplete k) s (fun t =>
      (r.causeGone = false → goneAtOnce k.code = false → faultGet t k = some { r with phase := .present, acked := false })
        ∧ (r.causeGone = true → faultGet t k = some { r with phase := .gone })
        ∧ (r.causeGone = false → goneAtOnce k.code = true → faultGet t k = some { r with phase := .gone, acked := false })
        ∧ ∀ j, bookkept j = false → keyNum j ≠ keyNum k → faultGet t j = faultGet s j))
  ∧ (∀ s k r, coreRuns s = true → bookkept k = false → faultGet s k = some r → r.level < 4 → r.phase = .reacting → r.retest = true →
    Answers (.causeGoneRetest k) s (fun t => faultGet t k = some { r with retest := false, causeGone := true }
      ∧ ∀ j, bookkept j = false → keyNum j ≠ keyNum k → faultGet t j = faultGet s j))

/-! The field section (chapter 14) -/

/-- R40, R536 to R540, R573, R574: with the clock locked each frame start gives every channel its next frame, that a withheld or corrupted one leaves unapplied; a channel whose
frames are lost opens; an upstream frame that is valid is taken, and 16 in succession end a coupler fault. -/
def Obligations.CouplerFrames : Prop :=
  (∀ s g l, coreRuns s = true → s.power.pllLocked = true → (groupGet s g).running = true → (groupGet s g).stopped = false →
    Answers (.couplerFrameStart g l) s (fun t =>
    t = { s with out := [], field := t.field } ∧ t.field.a = s.field.a ∧ t.field.b = s.field.b
      ∧ (∀ cc, cc ∉ groupChannels g → chGet t cc = chGet s cc)
      ∧ ∀ cc ∈ groupChannels g,
        ((chGet s cc).holdDown = true → (chGet t cc).holdDown = false ∧ (chGet t cc).fseq = (chGet s cc).fseq ∧ (chGet t cc).down = (chGet s cc).down)
        ∧ ((chGet s cc).holdDown = false → (chGet t cc).fseq = ((chGet s cc).fseq + 1) % 64
            ∧ (l.any (fun x => x.val == cc) = true → (chGet t cc).down = (chGet s cc).down)
            ∧ (l.any (fun x => x.val == cc) = false → (chGet t cc).downLost = false
                ∧ (chGet t cc).down = some (downWord s cc (((chGet s cc).fseq + 1) % 64) (commandBit s cc))))))
  ∧ (∀ s g l, s.power.pllLocked = false → Answers (.couplerFrameStart g l) s (fun t =>
    t = { s with out := [], field := t.field } ∧ ∀ cc, (chGet t cc).down = (chGet s cc).down ∧ (chGet t cc).fseq = (chGet s cc).fseq))
  ∧ (∀ s (ch : Fin 32), Answers (.downstreamFrameLoss ch) s (fun t =>
    (chGet t ch).downLost = true ∧ (chGet t ch).on = false ∧ ∀ cc, cc ≠ ch.val → chGet t cc = chGet s cc))
  ∧ (∀ s (ch : Fin 32) e, coreRuns s = true → upValid ((chGet s ch).sent ^^^ e) = false → Answers (.upstreamFrameReceived ch e) s (fun t =>
    t = chPut { s with out := [] } ch { chGet s ch with upRun := 0 }))
  ∧ (∀ s (ch : Fin 32) e w, coreRuns s = true → w = (chGet s ch).sent ^^^ e → upValid w = true → Answers (.upstreamFrameReceived ch e) s (fun t =>
    (chGet t ch).up = some w ∧ (chGet t ch).upRun = min ((chGet s ch).upRun + 1) 16
      ∧ ((chGet t ch).coupler = true ↔ (chGet s ch).coupler = true ∧ (chGet s ch).upRun + 1 < 16)
      ∧ (2 ≤ frameField w 51 2 → faultGet s (keyF 0x3900 ch) = none → Reacts t (keyF 0x3900 ch) 2)
      ∧ (w.getLsbD 56 = true → faultGet s (keyF 0x39C0 ch) = none → Reacts t (keyF 0x39C0 ch) 2)
      ∧ (w.getLsbD 53 = true → faultGet s (keyF 0x3A40 ch) = none → Reacts t (keyF 0x3A40 ch) 2)))
  ∧ (∀ s (ch : Fin 32), coreRuns s = true → faultGet s (keyF 0x3AC0 ch) = none → Answers (.couplerFault ch) s (fun t =>
    (chGet t ch).coupler = true ∧ (chGet t ch).upRun = 0 ∧ Reacts t (keyF 0x3AC0 ch) 2))

/-- R542 to R545: a terminal's samples give its voltage, its raw state with hysteresis and, through the counter, its filtered state; the ends of
chatter and of an open wire. -/
def Obligations.FieldInputs : Prop :=
  (∀ s (ch : Fin 32) mv vf, (groupGet s (groupOf ch)).running = true → Answers (.inputSample ch mv vf) s (fun t =>
    (chGet t ch).vterm = volts mv ∧ (chGet t ch).samples = (chGet s ch).samples + 1 ∧ (groupGet t (groupOf ch)).vf = vf
      ∧ (groupGet t (groupOf ch)).vfOk = decide (16000 ≤ vf ∧ vf ≤ 155000)
      ∧ (∀ cc, cc ≠ ch.val → 16000 ≤ vf ∨ cc ∉ groupChannels (groupOf ch) → chGet t cc = chGet s cc)
      ∧ (vf < 16000 → ∀ cc ∈ groupChannels (groupOf ch), (chGet t cc).on = false)
      ∧ (isIn (chGet s ch) = true → (chGet t ch).raw = (decide (vf ≤ 20 * mv) && rawState (chGet s ch).raw mv vf)
          ∧ (chGet t ch).count = (if (chGet t ch).raw then min ((chGet s ch).count + 1) (8 * downField (chGet s ch) 46 5) else (chGet s ch).count - 1)
          ∧ ((chGet t ch).raw = true → (chGet t ch).count = 8 * downField (chGet s ch) 46 5 → (chGet t ch).filtered = true)
          ∧ ((chGet t ch).raw = false → (chGet t ch).count = 0 → (chGet t ch).filtered = false)
          ∧ ((chGet t ch).count ≠ 0 → (chGet t ch).count ≠ 8 * downField (chGet s ch) 46 5 → (chGet t ch).filtered = (chGet s ch).filtered))))
  ∧ (∀ s (ch : Fin 32), Answers (.chatterEnd ch) s (fun t => t = chPut { s with out := [] } ch { chGet s ch with chatter := false }))
  ∧ (∀ s (ch : Fin 32) below, isIn (chGet s ch) = true → (groupGet s (groupOf ch)).running = true → Answers (.openWireInput ch below) s (fun t =>
    t = chPut { s with out := [] } ch { chGet s ch with openWire := below && downBit (chGet s ch) 44 }))

/-- R553, R562, R568 to R571: a short opens the output and waits for a retry, or latches it; a retry and the end of an over-temperature close it again
while its command stands; the end of demagnetisation lets it follow its frame. -/
def Obligations.OutputProtection : Prop :=
  let shorted := fun (s t : State) (o : Nat) (both : Bool) =>
    (chGet t o).on = false ∧ (chGet t o).demag = some (slowNow s o) ∧ (chGet t o).retry = (chGet s o).retry
      ∧ (chGet t o).latch = (if (chGet s o).retry < 3 then 1 else if (chGet s o).twoLeg || (both && sidePair s o == 2) then 3 else 2)
      ∧ ∀ cc, cc ≠ o → chGet t cc = chGet s cc
  let closes := fun (s : State) (o : Nat) => commandStands (chGet s o) = true ∧ groupLive s o = true ∧ (chGet s o).cmdRun = 2
  (∀ s (ch : Fin 32) both, (chGet s (sideOwner s ch)).on = true → Answers (.shortDecision ch both) s (fun t => shorted s t (sideOwner s ch) both))
  ∧ (∀ s (ch : Fin 32) both, (chGet s (sideOwner s ch)).on = true → Answers (.hardShort ch both) s (fun t => shorted s t (sideOwner s ch) both))
  ∧ (∀ s (ch : Fin 32), (chGet s (sideOwner s ch)).latch = 1 → closes s (sideOwner s ch) → allHot s (sideOwner s ch) = false →
    Answers (.retry ch) s (fun t => (chGet t (sideOwner s ch)).on = true ∧ (chGet t (sideOwner s ch)).latch = 0
      ∧ (chGet t (sideOwner s ch)).retry = (chGet s (sideOwner s ch)).retry + 1 ∧ ∀ cc, cc ≠ sideOwner s ch → chGet t cc = chGet s cc))
  ∧ (∀ s (ch : Fin 32), Answers (.overTemperature ch) s (fun t => (chGet t ch).hot = true
    ∧ (sideOwner s ch = ch → sidePair s ch ≠ 1 → (chGet t ch).on = false)))
  ∧ (∀ s (ch : Fin 32), (chGet s ch).hot = true → Answers (.overTemperatureRestart ch) s (fun t => (chGet t ch).hot = false
    ∧ (sideOwner s ch = ch → sidePair s ch ≠ 1 → closes s ch → (chGet s ch).latch = 0 → (chGet t ch).on = true)))
  ∧ (∀ s (ch : Fin 32), (chGet s (sideOwner s ch)).on = false → Answers (.demagEnd ch) s (fun t => (chGet t (sideOwner s ch)).demag = none
    ∧ ((chGet t (sideOwner s ch)).on = true ↔ closes s (sideOwner s ch) ∧ (chGet s (sideOwner s ch)).latch = 0 ∧ allHot s (sideOwner s ch) = false)))

/-- R551, R556, R557, R572: supervision pulses and what three alike decide; the diagnostics; the mean current and the on-time of a period. -/
def Obligations.OutputSupervision : Prop :=
  (∀ s (ch : Fin 32), sideOwner s ch = ch → supervised s ch = true → Answers (.tcsPulse ch) s (fun t =>
    t = chPut { s with out := [] } ch { chGet s ch with pulse := true }))
  ∧ (∀ s (ch : Fin 32) mv vf, (chGet s ch).pulse = true → vf < 10 * mv → 3 * vf ≤ 10 * mv → (chGet s ch).opens = 2 → (chGet s ch).tcsFailed = false →
    coreRuns s = true → faultGet s (keyF 0x3A80 ch) = none → Answers (.tcsPulseEnd ch mv vf) s (fun t =>
      (chGet t ch).pulse = false ∧ (chGet t ch).tcsFailed = true ∧ Reacts t (keyF 0x3A80 ch) (if gFoTcs (rods s) then 3 else 2)))
  ∧ (∀ s (ch : Fin 32) mv vf, (chGet s ch).pulse = true → 10 * mv ≤ vf → Answers (.tcsPulseEnd ch mv vf) s (fun t =>
      (chGet t ch).pulse = false ∧ (chGet t ch).opens = 0 ∧ (chGet t ch).intacts = min ((chGet s ch).intacts + 1) 3
        ∧ ((chGet t ch).tcsFailed = true ↔ (chGet s ch).tcsFailed = true ∧ (chGet s ch).intacts < 2)))
  ∧ (∀ s (ch : Fin 32) present, isOut (chGet s ch) = true → Answers (.outputDiagnostic ch .overLoad present) s (fun t =>
      t = chPut { s with out := [] } ch { chGet s ch with overLoad := present && (chGet s (sideOwner s ch)).on }))
  ∧ (∀ s (ch : Fin 32) present, isOut (chGet s ch) = true → Answers (.outputDiagnostic ch .openWire present) s (fun t =>
      t = chPut { s with out := [] } ch { chGet s ch with openWire := present && (chGet s (sideOwner s ch)).on }))
  ∧ (∀ s (ch : Fin 32) present, isOut (chGet s ch) = true → Answers (.outputDiagnostic ch .readback present) s (fun t =>
      t = chPut { s with out := [] } ch { chGet s ch with readback := present }))
  ∧ (∀ s (ch : Fin 32) mean, isOut (chGet s ch) = true → (groupGet s (groupOf ch)).running = true → Answers (.pwmPeriodStart ch mean) s (fun t =>
      t = chPut { s with out := [] } ch { chGet s ch with
        curr := min mean 32767
        pwm := if (chGet s (sideOwner s ch)).on then
            (if downBit (chGet s (sideOwner s ch)) 38 then (roundDiv (3200 * downField (chGet s (sideOwner s ch)) 22 16) 32768).toNat else 3200)
          else 0 }))

/-! The seal (chapter 20) -/

/-- R754 to R758, R784, R785: an open hatch, the mesh and a failed erase empty every key slot and end the port; the latter two set the latch. -/
def Obligations.SealErases : Prop :=
  let tampered := fun (s t : State) => t.sealSt.keys = [] ∧ t.sealSt.staging = 0 ∧ t.sealSt.result = 0 ∧ t.sealSt.latch = true ∧ t.sealSt.meshOk = false
    ∧ t.sealSt.live = false ∧ (coreReads s = true → faultGet s (keyU 0x0A00) = none → Reacts t (keyU 0x0A00) 2)
    ∧ (coreReads s = false → t.sealSt.evMesh = true)
  (∀ s, d0Powered s = true → Answers .hatchOpened s (fun t => t.sealSt.keys = [] ∧ t.sealSt.staging = 0 ∧ t.sealSt.result = 0 ∧ t.sealSt.hatchOpen = true
    ∧ t.sealSt.live = false ∧ t.sealSt.latch = s.sealSt.latch ∧ (coreReads s = false → t.sealSt.evHatch = true)))
  ∧ (∀ s, d0Powered s = true → Answers .meshEvent s (tampered s))
  ∧ (∀ s, coreRuns s = true → Answers (.meshMonitorTest false) s (tampered s))
  ∧ (∀ s, Answers (.meshMonitorTest true) s (fun t => t = { s with out := [] }))
  ∧ (∀ s, d0Powered s = true → Answers .eraseReadbackFailure s (fun t => t.sealSt.keys = [] ∧ t.sealSt.heldOff = true ∧ t.sealSt.latch = true
    ∧ t.sealSt.live = false ∧ (coreReads s = true → faultGet s (keyU 0x0A00) = none → Reacts t (keyU 0x0A00) 2)))
  ∧ (∀ s, d0Powered s = true → Answers (.hatchReport true) s (fun t => t.sealSt.hatchReported = true ∧ t.sealSt.live = s.sealSt.live
    ∧ (coreReads s = true → faultGet s (keyU 0x09C0) = none → Reacts t (keyU 0x09C0) 2)))
  ∧ (∀ s, d0Powered s = true → Answers (.hatchReport false) s (fun t => t.sealSt.hatchReported = false ∧ t.sealSt.hatchOpen = false ∧ t.sealSt.live = false))

/-- R759, R760, R762 to R769, R775, Tables 20.3, 20.5 to 20.8: the key loader port and its transactions: the result word that a transaction reads on KL_DOUT, low while busy,
what LOAD, ERASE and CHECK do, the result of one that
fails a check, and what a discarded, overlong or ended one leaves. -/
def Obligations.KeyLoader : Prop :=
  let ready := fun (s : State) (t : KlTransaction) => s.sealSt.live = true ∧ s.sealSt.busy = false ∧ klFails t = none
  (∀ s, d0Powered s = true → s.sealSt.hatchOpen = true → s.sealSt.erased = true → s.sealSt.heldOff = false → s.sealSt.live = false →
    Answers (.portLive true) s (fun t =>
      t = { s with out := [], sealSt := { s.sealSt with live := true, meshOk := true, result := 0, busy := false, ignoring := false } }))
  ∧ (∀ s, d0Powered s = true → Answers (.portLive false) s (fun t => t.sealSt.live = false ∧ t.sealSt.staging = 0))
  ∧ (∀ s x, ready s x → klCode x = 1 → Answers (.load x) s (fun t =>
    keySlot t (klSlot x) = some { key := klKey x, kcv := kcvOf (klKey x), par := parBits (klKey x) (kcvOf (klKey x)) }
      ∧ t.sealSt.result = klResult 1 (klSlot x) (kcvOf (klKey x)).toNat ∧ t.sealSt.busy = true
      ∧ (t.sealSt.latch = true ↔ s.sealSt.latch = true ∧ s.sealSt.meshOk = false)))
  ∧ (∀ s x, ready s x → klCode x = 2 → Answers (.eraseCommand x) s (fun t =>
    keySlot t (klSlot x) = none ∧ t.sealSt.result = klResult 2 (klSlot x) 0 ∧ t.sealSt.latch = s.sealSt.latch))
  ∧ (∀ s x, ready s x → klCode x = 3 → Answers (.check x) s (fun t => t.sealSt.latch = s.sealSt.latch ∧ t.sealSt.result = (match keySlot s (klSlot x) with
    | some k => klResult 3 (klSlot x) k.kcv.toNat
    | none => klResult 4 (klSlot x) 0)))
  ∧ (∀ s c x code early, c = .load x ∨ c = .eraseCommand x ∨ c = .check x ∨ c = .transactionDiscarded x → s.sealSt.live = true → s.sealSt.busy = false →
    klFails x = some (code, early) → Answers c s (fun t =>
      t.sealSt.result = klResult code (if early then 0 else klSlot x) 0 ∧ t.sealSt.staging = 0
        ∧ (coreReads s = true → faultGet s (keyU 0x0A40) = none → Reacts t (keyU 0x0A40) 1)
        ∧ (coreReads s = false → t.sealSt.discards = min 255 (s.sealSt.discards + 1))))
  ∧ (∀ s x, ready s x → Answers (.transactionDiscarded x) s (fun t => t.sealSt.result = s.sealSt.result ∧ t.sealSt.staging = 0
    ∧ (coreReads s = true → faultGet s (keyU 0x0A40) = none → Reacts t (keyU 0x0A40) 1)))
  ∧ (∀ s c x, c = .load x ∨ c = .eraseCommand x ∨ c = .check x ∨ c = .transactionDiscarded x → s.sealSt.live = true → Answers c s (fun t =>
    .klDout ((List.range x.bits.length).map (fun n => !s.sealSt.busy && decide (n < 32) && s.sealSt.result.getLsbD (31 - n))) ∈ t.out))
  ∧ (∀ s, s.sealSt.live = true → Answers .transactionTimeout s (fun t =>
    t.sealSt.ignoring = true ∧ t.sealSt.result = klResult 0xC 0 0 ∧ t.sealSt.staging = 0))
  ∧ (∀ s, Answers .portBusyEnd s (fun t => t = { s with out := [], sealSt := { s.sealSt with busy := false } }))

/-- R752, R757, R759, R785: whatever the commands, a live port has its hatch open, an erase behind it, the mesh intact, and no failed erase; a broken
mesh leaves no loaded slot; and a tamper latch clears only with the loss of D0 or at a LOAD that succeeds while the mesh is intact. -/
def Obligations.SealHolds : Prop :=
  let holds := fun (s : State) =>
    (s.sealSt.live = true → s.sealSt.hatchOpen = true ∧ s.sealSt.erased = true ∧ s.sealSt.meshOk = true ∧ s.sealSt.heldOff = false)
      ∧ (s.sealSt.meshOk = false → s.sealSt.keys = [])
  holds State.reset
  ∧ (∀ s t, holds s → step s = .next t → holds t)
  ∧ ∀ s t, step s = .next t → s.sealSt.latch = true → t.sealSt.latch = false →
    (t.sealSt.keys = [] ∧ (t.sealSt.evRestart = true ∨ domainGood s 0 = true ∧ domainGood t 0 = false))
      ∨ (s.sealSt.live = true ∧ s.sealSt.meshOk = true
        ∧ ∃ x, klFails x = none ∧ klCode x = 1 ∧ t.sealSt.result = klResult 1 (klSlot x) (kcvOf (klKey x)).toNat)

/-! Rules of the spec stated whole -/

/-- R730: acknowledgements are accepted in Withheld, Serving and Withdrawn, where they set ACK in the coupler frames for 1.0 ms, and never in
Starting, where nothing comes of one. -/
def Obligations.AcknowledgementsByState : Prop :=
  let ack := fun (s : State) (c : Instr) => c = .ackInAccepted ∨ (c = .ackInputAccepted ∧ (ackInput s).isSome = true)
  (∀ s c, ack s c → coreRuns s = true → s.power.engine = .withheld ∨ s.power.engine = .serving ∨ s.power.engine = .withdrawn →
    Answers c s (fun t => t.field.ackTo = s.now + 400000))
  ∧ (∀ s c, ack s c → s.power.engine = .starting → Answers c s (fun t =>
    t.field = s.field ∧ ∀ k, bookkept k = false → faultGet t k = faultGet s k))

/-- R5: a transaction on the key loader port, and its discarding, changes no setting; but for the seal, only faults, entries, tallies and what is
published change. -/
def Obligations.KeyLoaderKeepsSettings : Prop :=
  ∀ s c x, c = .load x ∨ c = .eraseCommand x ∨ c = .check x ∨ c = .transactionDiscarded x ∨ c = .transactionTimeout ∨ c = .portBusyEnd →
    Answers c s (fun t => t.plug = s.plug ∧ t.ident = s.ident ∧ t.nvm = s.nvm
      ∧ { t.sansReports with sealSt := s.sealSt } = { s.sansReports with sealSt := s.sealSt })

/-- R785: an erase whose read-back stays unclean clears every LOADED bit, holds the port not live until the next hatch opening, and sets the
tamper latch. -/
def Obligations.FailedErase : Prop :=
  (∀ s, d0Powered s = true → Answers .eraseReadbackFailure s (fun t =>
    (∀ n, keySlot t n = none) ∧ t.sealSt.heldOff = true ∧ t.sealSt.live = false ∧ t.sealSt.latch = true))
  ∧ (∀ s ok, s.sealSt.heldOff = true → s.sealSt.live = false → Answers (.portLive ok) s (fun t => t.sealSt.live = false ∧ t.sealSt.heldOff = true))
  ∧ (∀ s, d0Powered s = true → Answers .hatchOpened s (fun t => t.sealSt.heldOff = false))

/-- R69, R70: a twin side strapped with ST_LAN or ST_ADC other than 7 is an invalid combination (kind 2 of R72), which withholds the unit and raises
the strap fault. -/
def Obligations.InvalidCombinations : Prop :=
  ∀ s l, atStep s .straps = true → WellFormed.straps l = true →
    (l.map strapNibble).getD 0 15 = 1 ∨ (l.map strapNibble).getD 0 15 = 2 →
    (l.map strapNibble).getD 3 15 ≠ 7 ∨ (l.map strapNibble).getD 5 15 ≠ 7 →
    2 ∈ strapsKinds (l.map strapNibble) ∧ Answers (.strapsDecided l) s (fun t =>
      t.power.withheldBy.isSome = true ∧ t.ident.straps = l.map strapNibble ∧ (faultGet s (keyU 0x0500) = none → Reacts t (keyU 0x0500) 2))

/-- R701: an ACK whose range the journal holds sets the cursor to LAST + 1 when that is above it, and every entry from FIRST to LAST is
acknowledged for the session's host position. -/
def Obligations.AckAcknowledges : Prop :=
  ∀ s ok i r, portsDone s = true → redirects s = false → nextSession s = some i → (sessionGet s i).request = some r → r.op = 0x11 →
    param r 0 8 ≤ param r 8 8 → param r 8 8 ≤ s.journal.jseq → Answers (.recallServe ok) s (fun t =>
      (sessionGet t i).cursor = (if (sessionGet s i).cursor < param r 8 8 + 1 then param r 8 8 + 1 else (sessionGet s i).cursor)
        ∧ ∀ j, param r 0 8 ≤ j → j ≤ param r 8 8 → ∃ m ∈ t.recallSvc.acks, m.1 = (sessionGet s i).host ∧ m.2.1 ≤ j ∧ j ≤ m.2.2)

/-- R53, R54, R55: the alarm pins by ST_ALMPOL, HEALTHY_OUT and READY_OUT, where no pin is switched off in current limit (R88). -/
def Obligations.StatusPins : Prop :=
  ∀ s, coreRuns s = true → (∀ x ∈ s.power.pinsOff, x.2 ≤ s.now) → ∀ n : Fin 8,
    (s.ident.decided = true → strap s 10 = 7 → (pinConducts s (.alm n) = true ↔ almActive s n.val = false))
    ∧ (s.ident.decided = true → strap s 10 = 1 → (pinConducts s (.alm n) = true ↔ almActive s n.val = true))
    ∧ (s.ident.decided = false ∨ (strap s 10 ≠ 7 ∧ strap s 10 ≠ 1) → pinConducts s (.alm n) = false)
    ∧ (pinConducts s .healthy = true ↔ healthyOut s = true) ∧ (pinConducts s .ready = true ↔ readyOut s = true)
end

