-- ==== Sys2Proof/Laws/Frame.lean ====
section
/-! SUPPORT. What faults, entries and the summary leave unchanged, once for every operation that makes them. -/
namespace Sys2Proof.Machine

/-- A fold keeps what each of its steps keeps. -/
theorem foldl_keeps {α β : Type} (v : State → β) (f : State → α → State) (h : ∀ s x, v (f s x) = v s) :
    ∀ (l : List α) (s : State), v (l.foldl f s) = v s
  | [], _ => rfl
  | x :: l, s => by rw [List.foldl_cons, foldl_keeps v f h l, h]

/-! Entries -/

@[simp] theorem emit_sansRecords (s : State) (o : Output) : (emit s o).sansRecords = s.sansRecords := rfl
@[simp] theorem tallyAdd_sansRecords (s : State) (p w n : Nat) : (tallyAdd s p w n).sansRecords = s.sansRecords := rfl
@[simp] theorem faultPut_sansRecords (s : State) (k : FaultKey) (r : FaultRec) : (faultPut s k r).sansRecords = s.sansRecords := rfl
@[simp] theorem faultSeq_sansRecords (s : State) (k : FaultKey) : (faultSeq s k).sansRecords = s.sansRecords := rfl
@[simp] theorem reclaimEntries_sansRecords (s : State) : (reclaimEntries s).sansRecords = s.sansRecords := rfl

@[simp] theorem carryPut_sansRecords (s : State) (l : Fin 2) (m : CarryMsg) : (carryPut s l m).sansRecords = s.sansRecords := by
  unfold carryPut
  dsimp only
  split_ifs <;> rfl

@[simp] theorem carrySend_sansRecords (s : State) (l : Fin 2) (m : CarryMsg) : (carrySend s l m).sansRecords = s.sansRecords :=
  foldl_keeps State.sansRecords _ (fun s x => carryPut_sansRecords s l x) _ s

@[simp] theorem placeEntry_sansRecords (s : State) (e : Entry) : (placeEntry s e).sansRecords = s.sansRecords := by
  unfold placeEntry
  split
  · rw [carrySend_sansRecords]; rfl
  · rfl

@[simp] theorem queueEntry_sansRecords (s : State) (e : Entry) : (queueEntry s e).sansRecords = s.sansRecords := by
  unfold queueEntry
  dsimp only
  split_ifs <;> (try simp) <;> (try rfl)

@[simp] theorem limitEntry_sansRecords (s : State) (e : Entry) : (limitEntry s e).sansRecords = s.sansRecords := by
  unfold limitEntry
  dsimp only
  split_ifs <;> (try simp) <;> (try rfl)

@[simp] theorem submitEntry_sansRecords (s : State) (e : Entry) : (submitEntry s e).sansRecords = s.sansRecords := by
  unfold submitEntry
  split_ifs <;> (try simp) <;> (try rfl)

@[simp] theorem reactPlain_sansRecords (s : State) (k : FaultKey) (r : FaultRec) (n : Nat) (d : List Byte) :
    (reactPlain s k r n d).sansRecords = s.sansRecords := by
  simp [reactPlain]

/-- An arising keeps what its reaction keeps. -/
theorem ariseWith_sansRecords (re : State → FaultKey → FaultRec → Nat → List Byte → State)
    (h : ∀ s k r n d, r.level ≠ 4 → (re s k r n d).sansRecords = s.sansRecords) (s : State) (k : FaultKey) (det hdl : Nat)
    (d : List Byte) (hl : max (faultRow k.code).2.1 (raiseLevel s k.code) < 4) :
    (ariseWith re s k det hdl d).sansRecords = s.sansRecords := by
  unfold ariseWith
  split
  · apply h; dsimp only; omega
  · rename_i r _
    dsimp only
    split_ifs with h1 h2 <;> (try rfl) <;> split <;> (try rfl) <;> (apply h; dsimp only; omega)

/-- A row of Table 19.7 below Withdraw is raised below Withdraw. -/
theorem ceiling_lt (s : State) (code : Nat) (h : max (faultRow code).2.1 (faultRow code).1 < 4) :
    max (faultRow code).2.1 (raiseLevel s code) < 4 := by
  unfold raiseLevel
  dsimp only
  split_ifs <;> omega

@[simp] theorem raiseLost_sansRecords (s : State) (e : Entry) : (raiseLost s e).sansRecords = s.sansRecords := by
  unfold raiseLost
  apply ariseWith_sansRecords
  · intros; simp
  · apply ceiling_lt
    split_ifs <;> (try dsimp only) <;> decide

@[simp] theorem journalEntry_sansRecords (s : State) (e : Entry) : (journalEntry s e).sansRecords = s.sansRecords := by
  unfold journalEntry
  dsimp only
  split_ifs <;> simp

theorem react_sansRecords (s : State) (k : FaultKey) (r : FaultRec) (n : Nat) (d : List Byte) (h : r.level ≠ 4) :
    (react s k r n d).sansRecords = s.sansRecords := by
  simp [react, h]

/-- An arising whose level and ceiling lie below Withdraw leaves what entries leave. -/
theorem arise_sansRecords (s : State) (k : FaultKey) (det hdl : Nat) (d : List Byte)
    (h : max (faultRow k.code).2.1 (faultRow k.code).1 < 4) : (arise s k det hdl d).sansRecords = s.sansRecords :=
  ariseWith_sansRecords react (fun s k r n d hl => react_sansRecords s k r n d hl) s k det hdl d (ceiling_lt s k.code h)

@[simp] theorem faultClear_sansRecords (s : State) (k : FaultKey) (r : FaultRec) : (faultClear s k r).sansRecords = s.sansRecords := by
  simp [faultClear]; rfl

@[simp] theorem causeGone_sansRecords (s : State) (k : FaultKey) : (causeGone s k).sansRecords = s.sansRecords := by
  unfold causeGone
  split
  · rfl
  · split
    · rfl
    · split
      · simp
      · split_ifs <;> simp
      · rfl

theorem judgeFault_sansRecords (s : State) (k : FaultKey) (det hdl : Nat) (b : Bool)
    (h : max (faultRow k.code).2.1 (faultRow k.code).1 < 4) : (judgeFault s k det hdl b).sansRecords = s.sansRecords := by
  unfold judgeFault
  split_ifs <;> simp [arise_sansRecords, h]

@[simp] theorem causeGoneU_sansRecords (s : State) (c : Nat) : (causeGoneU s c).sansRecords = s.sansRecords := by simp [causeGoneU]

@[simp] theorem reactionComplete_sansRecords (s : State) (k : FaultKey) : (reactionComplete s k).sansRecords = s.sansRecords := by
  unfold reactionComplete
  split
  · rfl
  · split_ifs <;> simp

@[simp] theorem ackFault_sansRecords (s : State) (k : FaultKey) : (ackFault s k).sansRecords = s.sansRecords := by
  unfold ackFault
  split
  · rfl
  · split
    · rfl
    · split <;> simp

@[simp] theorem syncCondition_sansRecords (s : State) (c : Nat) : (syncCondition s c).sansRecords = s.sansRecords := by
  unfold syncCondition
  dsimp only
  split_ifs <;> (try simp) <;> rfl

@[simp] theorem syncGuarantee_sansRecords (s : State) : (syncGuarantee s).sansRecords = s.sansRecords := by
  unfold syncGuarantee
  split_ifs
  · exact foldl_keeps State.sansRecords syncCondition syncCondition_sansRecords _ s
  · rfl

@[simp] theorem unitSnapshots_sansRecords (s : State) (t : Nat) (i : SIndex) : (unitSnapshots s t i).sansRecords = s.sansRecords := by
  unfold unitSnapshots
  split
  · rfl
  · dsimp only
    rw [foldl_keeps State.sansRecords _ (fun s x => by simp)]
    rfl

/-! Keys and the summary -/

theorem judgeKey_sansRecords (s : State) (n : Nat) : (judgeKey s n).sansRecords = s.sansRecords := by
  unfold judgeKey
  apply judgeFault_sansRecords
  dsimp only
  decide

@[simp] theorem judgeKeys_sansRecords (s : State) : (judgeKeys s).sansRecords = s.sansRecords := by
  unfold judgeKeys
  dsimp only
  rw [judgeFault_sansRecords _ _ _ _ _ (by decide), judgeFault_sansRecords _ _ _ _ _ (by decide)]
  exact foldl_keeps State.sansRecords judgeKey judgeKey_sansRecords _ s

/-- What keeps the larger frame keeps the smaller one. -/
theorem sansReports_of (s t : State) (h : t.sansRecords = s.sansRecords) : t.sansReports = s.sansReports := by
  have e : ∀ u : State, u.sansReports = { u.sansRecords with
    pub := {}
    ports := { u.sansRecords.ports with
      seqStation := 0, seqPair := 0
      s0 := { u.sansRecords.ports.s0 with txBad := false, lastTx := none }, s1 := { u.sansRecords.ports.s1 with txBad := false, lastTx := none } }
    sealSt := { u.sansRecords.sealSt with keys := [] } } := fun _ => rfl
  rw [e, e, h]

theorem sansSettled_of (s t : State) (h : t.sansReports = s.sansReports) : t.sansSettled = s.sansSettled := by
  have e : ∀ u : State, u.sansSettled = { u.sansReports with recallSvc := { u.sansReports.recallSvc with sessions := [] } } := fun _ => rfl
  rw [e, e, h]

theorem sansCourse_of (s t : State) (h : t.sansSettled = s.sansSettled) : t.sansCourse = s.sansCourse := by
  have e : ∀ u : State, u.sansCourse = { u.sansSettled with
      power := { u.sansSettled.power with engine := .off }
      plug := { u.sansSettled.plug with commit := .none, hold := .idle }
      reck := { u.sansSettled.reck with coil := [], twin := {} }
      pair := { u.sansSettled.pair with
        lane0 := {}, lane1 := {}, unitEntries := [], pairEntries := [], state := .solo, accepted := false, hello := none, swap := .none
        rejoin := .none, leftPorts := [] } } := fun _ => rfl
  rw [e, e, h]

theorem sansCourse_of_records (s t : State) (h : t.sansRecords = s.sansRecords) : t.sansCourse = s.sansCourse :=
  sansCourse_of _ _ (sansSettled_of _ _ (sansReports_of _ _ h))

@[simp] theorem readKey_sansReports (s : State) (n : Nat) : (readKey s n).1.sansReports = s.sansReports := by
  unfold readKey
  split
  · rfl
  · split_ifs
    · rfl
    · dsimp only
      rw [sansReports_of _ _ (judgeKeys_sansRecords _), sansReports_of _ _ (journalEntry_sansRecords _ _)]
      rfl

@[simp] theorem gooseKey_sansReports (s : State) (z : Bool) : (gooseKey s z).1.sansReports = s.sansReports := by
  unfold gooseKey
  split
  · rfl
  · rename_i n _
    dsimp only
    split <;> exact readKey_sansReports s n

theorem sendUnit_sansReports (s : State) (p : Port) (o : Output) (h : p = .s0 ∨ p = .s1) :
    (sendUnit s p o).sansReports = s.sansReports := by
  unfold sendUnit
  dsimp only
  rcases h with rfl | rfl <;> split_ifs <;> rfl

@[simp] theorem sendStation_sansReports (s : State) (l : List Byte) : (sendStation s l).sansReports = s.sansReports := by
  unfold sendStation sendCopy
  dsimp only
  rw [sendUnit_sansReports _ _ _ (.inr rfl), sendUnit_sansReports _ _ _ (.inl rfl)]
  rfl

@[simp] theorem sendSummary_sansReports (s : State) (l : List Byte) : (sendSummary s l).sansReports = s.sansReports := by
  unfold sendSummary
  dsimp only
  split_ifs <;> simp

@[simp] theorem releaseSummary_sansReports (s : State) : (releaseSummary s).sansReports = s.sansReports := by
  unfold releaseSummary
  dsimp only
  rw [foldl_keeps State.sansReports _ (fun s f => by split <;> simp)]
  rfl

@[simp] theorem handGoose_sansReports (s : State) (st : Nat) (c : Bool) (l : List Byte) : (handGoose s 256 st c l).sansReports = s.sansReports := by
  unfold handGoose
  simp
  rfl

@[simp] theorem pubSet_sansReports (s : State) (p : Nat) (i : SIndex) (t : Nat × Nat) (q : Nat) (l : List Byte) (r e : Nat) (d : List Byte)
    (b : Bool) : (pubSet s p i t q l r e d b).sansReports = s.sansReports := by
  unfold pubSet
  dsimp only
  split_ifs <;> rfl

@[simp] theorem summaryChange_sansReports (s : State) : (summaryChange s).sansReports = s.sansReports := by
  unfold summaryChange handChange
  simp
  rfl

/-- Judging the summary leaves everything but its publication and what sending it meets. -/
@[simp] theorem judgeSummary_sansReports (s : State) : (judgeSummary s).sansReports = s.sansReports := by
  unfold judgeSummary
  split_ifs <;> simp

/-! A Withdraw-level fault -/

@[simp] theorem enterWithdrawn_sansCourse (s : State) : (enterWithdrawn s).sansCourse = s.sansCourse := rfl

@[simp] theorem coilIdle_sansCourse (s : State) (cc : Nat) : (coilIdle s cc).sansCourse = s.sansCourse := by
  unfold coilIdle
  rw [sansCourse_of_records _ _ (causeGone_sansRecords _ _)]
  rfl

@[simp] theorem coilsIdle_sansCourse (s : State) : (coilsIdle s).sansCourse = s.sansCourse :=
  foldl_keeps State.sansCourse coilIdle coilIdle_sansCourse _ s

theorem twinStopped_sansCourse (s : State) : (twinStopped s false).sansCourse = s.sansCourse := by
  unfold twinStopped
  rw [sansCourse_of_records _ _ (causeGone_sansRecords _ _)]
  rfl

@[simp] theorem withdraw_sansCourse (s : State) : (withdraw s).sansCourse = s.sansCourse := by
  unfold withdraw
  dsimp only
  split_ifs <;> simp [twinStopped_sansCourse]

@[simp] theorem react_sansCourse (s : State) (k : FaultKey) (r : FaultRec) (n : Nat) (d : List Byte) :
    (react s k r n d).sansCourse = s.sansCourse := by
  unfold react
  split_ifs
  · dsimp only
    have h : (journalEntry (faultSeq (faultPut s k r) k) (faultEntry s k r n d)).sansCourse = s.sansCourse :=
      sansCourse_of_records _ _ (by simp)
    split_ifs
    · rw [withdraw_sansCourse, sansCourse_of_records _ _ (unitSnapshots_sansRecords _ _ _), h]
    · exact h
  · exact sansCourse_of_records _ _ (by simp)

/-- An arising of any fault leaves this. -/
@[simp] theorem arise_sansCourse (s : State) (k : FaultKey) (det hdl : Nat) (d : List Byte) :
    (arise s k det hdl d).sansCourse = s.sansCourse := by
  unfold arise ariseWith
  split
  · simp
  · dsimp only
    split_ifs <;> (try rfl) <;> split <;> (try rfl) <;> simp

@[simp] theorem ariseU_sansCourse (s : State) (c det : Nat) : (ariseU s c det).sansCourse = s.sansCourse := by simp [ariseU]

@[simp] theorem judgeFault_sansCourse (s : State) (k : FaultKey) (det hdl : Nat) (b : Bool) :
    (judgeFault s k det hdl b).sansCourse = s.sansCourse := by
  unfold judgeFault
  split_ifs <;> simp [sansCourse_of_records _ _ (causeGone_sansRecords _ _)]

end Sys2Proof.Machine
end

