-- ==== Sys2Proof/Laws/Faults.lean ====
section
/-! SUPPORT. Fault records read back after they are stored, and which of them bookkeeping can change. -/
namespace Sys2Proof.Machine

theorem find_insert {α : Type} (k : Nat) (v : α) (j : Nat) : ∀ t : Tab α,
    (Tab.insert t k v).find? (fun p => p.1 == j) = if j = k then some (k, v) else t.find? (fun p => p.1 == j)
  | [] => by
    by_cases h : j = k
    · simp [Tab.insert, h]
    · simp [Tab.insert, h, Ne.symm h]
  | (k', v') :: t => by
    simp only [Tab.insert]
    split
    · by_cases h : j = k
      · simp [h]
      · simp [h, Ne.symm h]
    · split
      · rename_i h
        subst h
        by_cases e : j = k
        · simp [e]
        · have e' : ¬ k = j := fun x => e x.symm
          simp [e, e']
      · rename_i h1 h2
        simp only [List.find?_cons, find_insert k v j t]
        by_cases e : k' = j
        · have : j ≠ k := by omega
          simp [e, this]
        · have : (k' == j) = false := by simpa using e
          rw [this]

theorem find_erase {α : Type} (k j : Nat) : ∀ t : Tab α,
    (Tab.erase t k).find? (fun p => p.1 == j) = if j = k then none else t.find? (fun p => p.1 == j)
  | [] => by simp [Tab.erase]
  | (k', v') :: t => by
    simp only [Tab.erase]
    split
    · rename_i e
      rw [find_erase k j t]
      by_cases h : j = k
      · simp [h]
      · have : k' ≠ j := by omega
        simp [h, this]
    · rename_i e
      simp only [List.find?_cons, find_erase k j t]
      by_cases h : k' = j
      · have : j ≠ k := by omega
        simp [h, this]
      · have : (k' == j) = false := by simpa using h
        rw [this]

/-- A stored record is read back; the others stay. -/
theorem faultGet_faultPut (s : State) (k : FaultKey) (r : FaultRec) (j : FaultKey) :
    faultGet (faultPut s k r) j = if keyNum j = keyNum k then some r else faultGet s j := by
  unfold faultGet faultPut
  dsimp only
  rw [find_insert]
  by_cases h : keyNum j = keyNum k <;> simp [h]

/-- Reading a record looks at the records alone. -/
theorem faultGet_congr {s t : State} (h : t.faults.recs = s.faults.recs) (k : FaultKey) : faultGet t k = faultGet s k := by
  unfold faultGet; rw [h]

@[simp] theorem faultGet_faultSeq (s : State) (k j : FaultKey) : faultGet (faultSeq s k) j = faultGet s j := rfl
@[simp] theorem emit_faults (s : State) (o : Output) : (emit s o).faults = s.faults := rfl
@[simp] theorem tallyAdd_faults (s : State) (p w n : Nat) : (tallyAdd s p w n).faults = s.faults := rfl

@[simp] theorem carryPut_faults (s : State) (l : Fin 2) (m : CarryMsg) : (carryPut s l m).faults = s.faults := by
  unfold carryPut
  dsimp only
  split_ifs <;> rfl

@[simp] theorem carrySend_faults (s : State) (l : Fin 2) (m : CarryMsg) : (carrySend s l m).faults = s.faults :=
  foldl_keeps State.faults _ (fun s x => carryPut_faults s l x) _ s

@[simp] theorem placeEntry_faults (s : State) (e : Entry) : (placeEntry s e).faults = s.faults := by
  unfold placeEntry
  split_ifs <;> simp

@[simp] theorem queueEntry_faults (s : State) (e : Entry) : (queueEntry s e).faults = s.faults := by
  unfold queueEntry
  dsimp only
  split_ifs <;> simp

@[simp] theorem limitEntry_faults (s : State) (e : Entry) : (limitEntry s e).faults = s.faults := by
  unfold limitEntry
  dsimp only
  split_ifs <;> simp

@[simp] theorem submitEntry_faults (s : State) (e : Entry) : (submitEntry s e).faults = s.faults := by
  unfold submitEntry
  split_ifs <;> simp

@[simp] theorem faultGet_submitEntry (s : State) (e : Entry) (k : FaultKey) : faultGet (submitEntry s e) k = faultGet s k :=
  faultGet_congr (by simp) k

@[simp] theorem unitSnapshots_faults (s : State) (t : Nat) (i : SIndex) : (unitSnapshots s t i).faults = s.faults := by
  unfold unitSnapshots
  split
  · rfl
  · dsimp only
    rw [foldl_keeps State.faults _ (fun s x => by simp)]

/-- A plain reaction stores its record. -/
@[simp] theorem faultGet_reactPlain (s : State) (k : FaultKey) (r : FaultRec) (n : Nat) (d : List Byte) (j : FaultKey) :
    faultGet (reactPlain s k r n d) j = if keyNum j = keyNum k then some r else faultGet s j := by
  simp [reactPlain, faultGet_faultPut]

/-- An arising with a reaction that stores its record under its key changes that key alone. -/
theorem ariseWith_other (re : State → FaultKey → FaultRec → Nat → List Byte → State) (s : State) (k j : FaultKey) (hj : keyNum j ≠ keyNum k)
    (h : ∀ r n d, faultGet (re s k r n d) j = faultGet s j) (det hdl : Nat) (d : List Byte) :
    faultGet (ariseWith re s k det hdl d) j = faultGet s j := by
  unfold ariseWith
  split
  · apply h
  · dsimp only
    split_ifs <;> (try rfl) <;> split <;> first | rfl | apply h | (rw [faultGet_faultPut]; simp [hj])

/-- An arising of a fault that is Clear moves it to Reacting (Table 19.3). -/
theorem ariseWith_clear (re : State → FaultKey → FaultRec → Nat → List Byte → State) (s : State) (k : FaultKey)
    (h : faultGet s k = none) (det hdl : Nat) (d : List Byte) :
    ariseWith re s k det hdl d = re s k
      { code := k.code / 64 * 64 + det, scope := k.scope, inst := k.inst, level := raiseLevel s k.code, phase := .reacting, acked := false,
        causeGone := false, retest := false, merges := 0, raiseJseq := 0, handle := hdl } 1 d := by
  unfold ariseWith
  rw [h]

/-! The records that entries, keys and the summary cannot change -/

/-- The other fault records. -/
def steady (s : State) (k : FaultKey) : Option FaultRec := if bookkept k then none else faultGet s k

theorem steady_congr {s t : State} (h : t.faults = s.faults) : steady t = steady s := by
  funext k
  simp [steady, faultGet_congr (congrArg Faults.recs h) k]

/-- Keys of different classes have different numbers. -/
theorem keyNum_ne (j k : FaultKey) (hj : j.scope * 4096 + j.inst < 65536) (hk : k.scope * 4096 + k.inst < 65536) (h : j.code / 64 ≠ k.code / 64) :
    keyNum j ≠ keyNum k := by
  unfold keyNum
  omega

/-- A change of one bookkept record is not seen. -/
theorem steady_of_other (s t : State) (k : FaultKey) (hc : [0x117, 0x26, 0x144, 0x145].contains (k.code / 64) = true)
    (hr : k.scope * 4096 + k.inst < 65536) (h : ∀ j, keyNum j ≠ keyNum k → faultGet t j = faultGet s j) : steady t = steady s := by
  funext j
  unfold steady
  split
  · rfl
  · rename_i hb
    simp only [bookkept, Bool.or_eq_true, decide_eq_true_eq, not_or] at hb
    apply h
    apply keyNum_ne j k (Nat.lt_of_not_le hb.2) hr
    intro e
    exact hb.1 (e ▸ hc)

theorem raiseLost_steady (s : State) (e : Entry) : steady (raiseLost s e) = steady s := by
  unfold raiseLost
  split
  · exact steady_of_other _ _ { code := 0x45C0, scope := 1, inst := e.zone } (by dsimp only; decide) (by dsimp only; omega)
      (fun j hj => ariseWith_other _ _ _ _ hj (fun r n d => by simp [hj]) _ _ _)
  · exact steady_of_other _ _ (keyU 0x45C0) (by decide) (by decide)
      (fun j hj => ariseWith_other _ _ _ _ hj (fun r n d => by simp [hj]) _ _ _)

@[simp] theorem journalEntry_steady (s : State) (e : Entry) : steady (journalEntry s e) = steady s := by
  unfold journalEntry
  dsimp only
  split_ifs
  · rw [raiseLost_steady, steady_congr (submitEntry_faults s e)]
  · rw [steady_congr (submitEntry_faults s e)]

/-- What a reaction leaves of the other records. -/
theorem react_other (s : State) (k : FaultKey) (r : FaultRec) (n : Nat) (d : List Byte) (j : FaultKey) (hj : keyNum j ≠ keyNum k)
    (h : r.level ≠ 4) : faultGet (react s k r n d) j = faultGet s j := by
  simp [react, h, hj]

theorem arise_other (s : State) (k j : FaultKey) (hj : keyNum j ≠ keyNum k) (hl : max (faultRow k.code).2.1 (faultRow k.code).1 < 4)
    (det hdl : Nat) (d : List Byte) : faultGet (arise s k det hdl d) j = faultGet s j := by
  have hr := ceiling_lt s k.code hl
  have hre : ∀ r n d, r.level ≠ 4 → faultGet (react s k r n d) j = faultGet s j := fun r n d h => by simp [react, h, hj]
  unfold arise ariseWith
  split
  · apply hre; dsimp only; omega
  · dsimp only
    split_ifs <;> (try rfl) <;> split <;> first | rfl | (apply hre; dsimp only; omega) | (rw [faultGet_faultPut]; simp [hj])

theorem causeGone_other (s : State) (k j : FaultKey) (hj : keyNum j ≠ keyNum k) : faultGet (causeGone s k) j = faultGet s j := by
  have hc : ∀ r, faultGet (faultClear s k r) j = faultGet s j := fun r => by
    unfold faultClear
    simp only [faultGet_submitEntry, faultGet_faultSeq]
    unfold faultGet
    dsimp only
    rw [find_erase, if_neg hj]
  unfold causeGone
  split
  · rfl
  · split
    · rfl
    · split
      · rw [faultGet_faultPut]; simp [hj]
      · split_ifs
        · exact hc _
        · simp [hj]
      · rfl

/-- Becoming unfit ends the causes of COIL and TWIN following errors alone (Table 9.5). -/
theorem withdraw_other (s : State) (j : FaultKey) (hr : j.scope * 4096 + j.inst < 65536) (h5 : j.code / 64 ≠ 0x45) (h6 : j.code / 64 ≠ 0x46) :
    faultGet (withdraw s) j = faultGet s j := by
  have coil : ∀ (u : State) (cc : Nat), cc < 32 → faultGet (coilIdle u cc) j = faultGet u j := fun u cc hc => by
    unfold coilIdle
    rw [causeGone_other _ { code := 0x1180, scope := 10, inst := 4 + cc } j (by
      unfold keyNum
      dsimp only
      omega)]
    rfl
  have coils : ∀ (l : List Nat) (u : State), (∀ n ∈ l, n < 32) → faultGet (l.foldl coilIdle u) j = faultGet u j := fun l => by
    induction l with
    | nil => intro u _; rfl
    | cons x l ih => intro u hl; rw [List.foldl_cons, ih _ (fun n hn => hl n (List.mem_cons_of_mem _ hn)), coil u x (hl x List.mem_cons_self)]
  have idle : ∀ u : State, faultGet (coilsIdle u) j = faultGet u j := fun u => coils _ u (fun n hn => List.mem_range.mp hn)
  have twin : ∀ u : State, faultGet (twinStopped u false) j = faultGet u j := fun u => by
    unfold twinStopped
    rw [causeGone_other _ { code := 0x1140, scope := 10, inst := 2 } j (by
      unfold keyNum
      dsimp only
      omega)]
    rfl
  have start : faultGet (enterWithdrawn s) j = faultGet s j := rfl
  unfold withdraw
  dsimp only
  split_ifs
  · rw [twin, idle, start]
  · rw [idle, start]

/-- The COIL and TWIN rows of Table 19.7 are below Withdraw. -/
theorem raiseLevel_slot (s : State) (code : Nat) (h : code / 64 = 0x45 ∨ code / 64 = 0x46) : raiseLevel s code ≠ 4 := by
  have hc : faultRowCode code = code / 64 * 64 := by
    have hb : code / 1024 = 4 := by omega
    simp [faultRowCode, hb]
  have hf : faultRow code = faultRow (code / 64 * 64) := by
    have : faultRowCode (code / 64 * 64) = code / 64 * 64 := by
      have hb : code / 64 * 64 / 1024 = 4 := by omega
      simp [faultRowCode, hb]
    simp only [faultRow, hc, this]
  unfold raiseLevel
  rw [hf, hc]
  rcases h with h | h <;> rw [h] <;> simp [faultRow, faultRowCode, faultTable]

theorem judgeFault_other (s : State) (k j : FaultKey) (hj : keyNum j ≠ keyNum k) (hl : max (faultRow k.code).2.1 (faultRow k.code).1 < 4)
    (det hdl : Nat) (b : Bool) : faultGet (judgeFault s k det hdl b) j = faultGet s j := by
  unfold judgeFault
  split_ifs
  · rfl
  · exact arise_other s k j hj hl det hdl []
  · exact causeGone_other s k j hj
  · rfl

theorem judgeFault_steady (s : State) (k : FaultKey) (hc : [0x117, 0x26, 0x144, 0x145].contains (k.code / 64) = true)
    (hr : k.scope * 4096 + k.inst < 65536) (hl : max (faultRow k.code).2.1 (faultRow k.code).1 < 4) (det hdl : Nat) (b : Bool) :
    steady (judgeFault s k det hdl b) = steady s :=
  steady_of_other _ _ k hc hr (fun j hj => judgeFault_other s k j hj hl det hdl b)

theorem judgeKey_steady (s : State) (n : Nat) (h : n < 16) : steady (judgeKey s n) = steady s := by
  unfold judgeKey
  dsimp only
  exact judgeFault_steady s _ (by dsimp only; decide) (by dsimp only; omega) (by dsimp only; decide) _ _ _

theorem foldl_steady (f : State → Nat → State) (m : Nat) (h : ∀ s n, n < m → steady (f s n) = steady s) :
    ∀ (l : List Nat) (s : State), (∀ n ∈ l, n < m) → steady (l.foldl f s) = steady s
  | [], _, _ => rfl
  | x :: l, s, hl => by
    rw [List.foldl_cons, foldl_steady f m h l _ (fun n hn => hl n (List.mem_cons_of_mem _ hn)), h s x (hl x List.mem_cons_self)]

@[simp] theorem judgeKeys_steady (s : State) : steady (judgeKeys s) = steady s := by
  unfold judgeKeys
  dsimp only
  rw [judgeFault_steady _ (keyU 0x5140) (by decide) (by decide) (by decide), judgeFault_steady _ (keyU 0x5100) (by decide) (by decide) (by decide)]
  exact foldl_steady judgeKey 16 judgeKey_steady _ s (fun n hn => List.mem_range.mp hn)

@[simp] theorem readKey_steady (s : State) (n : Nat) : steady (readKey s n).1 = steady s := by
  unfold readKey
  split
  · rfl
  · split_ifs
    · rfl
    · dsimp only
      rw [judgeKeys_steady, journalEntry_steady]
      exact steady_congr rfl

@[simp] theorem gooseKey_steady (s : State) (z : Bool) : steady (gooseKey s z).1 = steady s := by
  unfold gooseKey
  split
  · rfl
  · rename_i n _
    dsimp only
    split <;> exact readKey_steady s n

@[simp] theorem sendUnit_faults (s : State) (p : Port) (o : Output) : (sendUnit s p o).faults = s.faults := by
  unfold sendUnit
  dsimp only
  split_ifs <;> cases p <;> rfl

@[simp] theorem sendStation_faults (s : State) (l : List Byte) : (sendStation s l).faults = s.faults := by
  unfold sendStation sendCopy
  simp

@[simp] theorem sendSummary_steady (s : State) (l : List Byte) : steady (sendSummary s l) = steady s := by
  unfold sendSummary
  dsimp only
  split_ifs
  · rw [steady_congr (sendStation_faults _ _), gooseKey_steady]
  · exact gooseKey_steady s _

@[simp] theorem releaseSummary_steady (s : State) : steady (releaseSummary s) = steady s := by
  unfold releaseSummary
  dsimp only
  rw [foldl_keeps steady _ (fun s f => by split <;> simp)]
  exact steady_congr rfl

@[simp] theorem handGoose_steady (s : State) (st : Nat) (c : Bool) (l : List Byte) : steady (handGoose s 256 st c l) = steady s := by
  unfold handGoose
  simp
  exact steady_congr rfl

@[simp] theorem pubSet_faults (s : State) (p : Nat) (i : SIndex) (t : Nat × Nat) (q : Nat) (l : List Byte) (r e : Nat) (d : List Byte)
    (b : Bool) : (pubSet s p i t q l r e d b).faults = s.faults := by
  unfold pubSet
  dsimp only
  split_ifs <;> rfl

@[simp] theorem summaryChange_steady (s : State) : steady (summaryChange s) = steady s := by
  unfold summaryChange handChange
  dsimp only
  rw [handGoose_steady, steady_congr (pubSet_faults _ _ _ _ _ _ _ _ _ _)]
  exact steady_congr rfl

/-- Judging the summary leaves the fault records that bookkeeping cannot change. -/
@[simp] theorem judgeSummary_steady (s : State) : steady (judgeSummary s) = steady s := by
  unfold judgeSummary
  split_ifs <;> simp

/-- A record that bookkeeping cannot change reads the same. -/
theorem faultGet_of_steady {s t : State} (h : steady t = steady s) (k : FaultKey) (hk : bookkept k = false) : faultGet t k = faultGet s k := by
  have := congrFun h k
  simpa [steady, hk] using this

/-- A fault that is Clear arises: its record is in Reacting at the level of Table 19.7, whatever its entries meet. -/
theorem arise_clear (s : State) (k : FaultKey) (hb : bookkept k = false) (h : faultGet s k = none) (det hdl : Nat) (d : List Byte) :
    faultGet (arise s k det hdl d) k = some
      { code := k.code / 64 * 64 + det, scope := k.scope, inst := k.inst, level := raiseLevel s k.code, phase := .reacting, acked := false,
        causeGone := false, retest := false, merges := 0, raiseJseq := 0, handle := hdl } := by
  unfold arise
  rw [ariseWith_clear react s k h]
  unfold react
  split
  · rename_i hl
    dsimp only at hl ⊢
    have e : ∀ u : State, faultGet u k = steady u k := fun u => by simp [steady, hb]
    split_ifs
    · have hr : k.scope * 4096 + k.inst < 65536 := by
        simp only [bookkept, Bool.or_eq_false_iff, decide_eq_false_iff_not] at hb
        omega
      rw [withdraw_other _ _ hr (fun h => raiseLevel_slot s k.code (.inl h) hl) (fun h => raiseLevel_slot s k.code (.inr h) hl), faultGet_congr (congrArg Faults.recs (unitSnapshots_faults _ _ _)), e,
        journalEntry_steady, ← e, faultGet_faultSeq, faultGet_faultPut]
      simp
    · rw [e, journalEntry_steady, ← e, faultGet_faultSeq, faultGet_faultPut]
      simp
  · simp

end Sys2Proof.Machine
end

