-- ==== Sys2Proof/Laws/Run.lean ====
section
/-! SUPPORT. What every meaning does to the queue and to the outcome. -/
namespace Sys2Proof.Machine

/-- A meaning answers the next state that its effect makes of the state with nothing left the block yet, the queue as it was. -/
theorem run_next (f : State → State) (s : State) : run f s = .next { f { s with out := [] } with pending := s.pending } := rfl

theorem runIf_next (f : State → State) (s : State) (b : Bool) (h : b = true) :
    runIf b f s = .next { f { s with out := [] } with pending := s.pending } := by
  simp [runIf, h, run_next]

/-- A command that runs an effect completes, with whatever the effect gives. -/
theorem answers_of_run {c : Instr} {s : State} {f : State → State} {p : State → Prop} (he : exec c s = run f s)
    (h : p { f { s with out := [] } with pending := s.pending }) : Answers c s p := ⟨_, he, h⟩

theorem answers_of_runIf {c : Instr} {s : State} {b : Bool} {f : State → State} {p : State → Prop} (he : exec c s = runIf b f s)
    (hb : b = true) (h : p { f { s with out := [] } with pending := s.pending }) : Answers c s p :=
  ⟨_, he.trans (runIf_next f s b hb), h⟩

end Sys2Proof.Machine
end

