-- ==== Sys2Proof/Laws/Summary.lean ====
section
/-! SUPPORT. The fields of a state that judging the summary leaves. -/
namespace Sys2Proof.Machine

@[simp] theorem judgeSummary_now (s : State) : (judgeSummary s).now = s.now := by have e := congrArg State.now (judgeSummary_sansReports s); exact e
@[simp] theorem judgeSummary_free (s : State) : (judgeSummary s).free = s.free := by have e := congrArg State.free (judgeSummary_sansReports s); exact e
@[simp] theorem judgeSummary_power (s : State) : (judgeSummary s).power = s.power := by have e := congrArg State.power (judgeSummary_sansReports s); exact e
@[simp] theorem judgeSummary_ident (s : State) : (judgeSummary s).ident = s.ident := by have e := congrArg State.ident (judgeSummary_sansReports s); exact e
@[simp] theorem judgeSummary_nvm (s : State) : (judgeSummary s).nvm = s.nvm := by have e := congrArg State.nvm (judgeSummary_sansReports s); exact e
@[simp] theorem judgeSummary_plug (s : State) : (judgeSummary s).plug = s.plug := by have e := congrArg State.plug (judgeSummary_sansReports s); exact e
@[simp] theorem judgeSummary_streams (s : State) : (judgeSummary s).streams = s.streams := by have e := congrArg State.streams (judgeSummary_sansReports s); exact e
@[simp] theorem judgeSummary_time (s : State) : (judgeSummary s).time = s.time := by have e := congrArg State.time (judgeSummary_sansReports s); exact e
@[simp] theorem judgeSummary_reck (s : State) : (judgeSummary s).reck = s.reck := by have e := congrArg State.reck (judgeSummary_sansReports s); exact e
@[simp] theorem judgeSummary_pipes (s : State) : (judgeSummary s).pipes = s.pipes := by have e := congrArg State.pipes (judgeSummary_sansReports s); exact e
@[simp] theorem judgeSummary_zones (s : State) : (judgeSummary s).zones = s.zones := by have e := congrArg State.zones (judgeSummary_sansReports s); exact e
@[simp] theorem judgeSummary_adc (s : State) : (judgeSummary s).adc = s.adc := by have e := congrArg State.adc (judgeSummary_sansReports s); exact e
@[simp] theorem judgeSummary_field (s : State) : (judgeSummary s).field = s.field := by have e := congrArg State.field (judgeSummary_sansReports s); exact e
@[simp] theorem judgeSummary_recallSvc (s : State) : (judgeSummary s).recallSvc = s.recallSvc := by have e := congrArg State.recallSvc (judgeSummary_sansReports s); exact e
@[simp] theorem judgeSummary_refusedRise (s : State) : (judgeSummary s).refusedRise = s.refusedRise := by have e := congrArg State.refusedRise (judgeSummary_sansReports s); exact e
@[simp] theorem judgeSummary_intakeRise (s : State) : (judgeSummary s).intakeRise = s.intakeRise := by have e := congrArg State.intakeRise (judgeSummary_sansReports s); exact e
@[simp] theorem judgeSummary_ringErrAt (s : State) : (judgeSummary s).ringErrAt = s.ringErrAt := by have e := congrArg State.ringErrAt (judgeSummary_sansReports s); exact e
@[simp] theorem judgeSummary_pending (s : State) : (judgeSummary s).pending = s.pending := by have e := congrArg State.pending (judgeSummary_sansReports s); exact e
@[simp] theorem judgeSummary_pair_state (s : State) : (judgeSummary s).pair.state = s.pair.state := by have e := congrArg (fun t => t.pair.state) (judgeSummary_sansReports s); exact e
@[simp] theorem judgeSummary_pair_accepted (s : State) : (judgeSummary s).pair.accepted = s.pair.accepted := by have e := congrArg (fun t => t.pair.accepted) (judgeSummary_sansReports s); exact e
@[simp] theorem judgeSummary_pair_absent (s : State) : (judgeSummary s).pair.absent = s.pair.absent := by have e := congrArg (fun t => t.pair.absent) (judgeSummary_sansReports s); exact e
@[simp] theorem judgeSummary_pair_split (s : State) : (judgeSummary s).pair.split = s.pair.split := by have e := congrArg (fun t => t.pair.split) (judgeSummary_sansReports s); exact e
@[simp] theorem judgeSummary_pair_swap (s : State) : (judgeSummary s).pair.swap = s.pair.swap := by have e := congrArg (fun t => t.pair.swap) (judgeSummary_sansReports s); exact e
@[simp] theorem judgeSummary_pair_rejoin (s : State) : (judgeSummary s).pair.rejoin = s.pair.rejoin := by have e := congrArg (fun t => t.pair.rejoin) (judgeSummary_sansReports s); exact e
@[simp] theorem judgeSummary_pair_partnerState (s : State) : (judgeSummary s).pair.partnerState = s.pair.partnerState := by have e := congrArg (fun t => t.pair.partnerState) (judgeSummary_sansReports s); exact e
@[simp] theorem judgeSummary_pair_partnerFp (s : State) : (judgeSummary s).pair.partnerFp = s.pair.partnerFp := by have e := congrArg (fun t => t.pair.partnerFp) (judgeSummary_sansReports s); exact e
@[simp] theorem judgeSummary_pair_hello (s : State) : (judgeSummary s).pair.hello = s.pair.hello := by have e := congrArg (fun t => t.pair.hello) (judgeSummary_sansReports s); exact e
@[simp] theorem judgeSummary_pair_carryUp (s : State) : (judgeSummary s).pair.carryUp = s.pair.carryUp := by have e := congrArg (fun t => t.pair.carryUp) (judgeSummary_sansReports s); exact e
@[simp] theorem judgeSummary_pair_carrySilent (s : State) : (judgeSummary s).pair.carrySilent = s.pair.carrySilent := by have e := congrArg (fun t => t.pair.carrySilent) (judgeSummary_sansReports s); exact e
@[simp] theorem judgeSummary_pair_busSilent (s : State) : (judgeSummary s).pair.busSilent = s.pair.busSilent := by have e := congrArg (fun t => t.pair.busSilent) (judgeSummary_sansReports s); exact e
@[simp] theorem judgeSummary_pair_heardA (s : State) : (judgeSummary s).pair.heardA = s.pair.heardA := by have e := congrArg (fun t => t.pair.heardA) (judgeSummary_sansReports s); exact e
@[simp] theorem judgeSummary_pair_heardB (s : State) : (judgeSummary s).pair.heardB = s.pair.heardB := by have e := congrArg (fun t => t.pair.heardB) (judgeSummary_sansReports s); exact e
@[simp] theorem judgeSummary_pair_held (s : State) : (judgeSummary s).pair.held = s.pair.held := by have e := congrArg (fun t => t.pair.held) (judgeSummary_sansReports s); exact e
@[simp] theorem judgeSummary_pair_heldBrk (s : State) : (judgeSummary s).pair.heldBrk = s.pair.heldBrk := by have e := congrArg (fun t => t.pair.heldBrk) (judgeSummary_sansReports s); exact e
@[simp] theorem judgeSummary_pair_receipts (s : State) : (judgeSummary s).pair.receipts = s.pair.receipts := by have e := congrArg (fun t => t.pair.receipts) (judgeSummary_sansReports s); exact e
@[simp] theorem judgeSummary_pair_inputs (s : State) : (judgeSummary s).pair.inputs = s.pair.inputs := by have e := congrArg (fun t => t.pair.inputs) (judgeSummary_sansReports s); exact e
@[simp] theorem judgeSummary_pair_agreed (s : State) : (judgeSummary s).pair.agreed = s.pair.agreed := by have e := congrArg (fun t => t.pair.agreed) (judgeSummary_sansReports s); exact e
@[simp] theorem judgeSummary_pair_bothLans (s : State) : (judgeSummary s).pair.bothLans = s.pair.bothLans := by have e := congrArg (fun t => t.pair.bothLans) (judgeSummary_sansReports s); exact e
@[simp] theorem judgeSummary_pair_hbCarry (s : State) : (judgeSummary s).pair.hbCarry = s.pair.hbCarry := by have e := congrArg (fun t => t.pair.hbCarry) (judgeSummary_sansReports s); exact e
@[simp] theorem judgeSummary_pair_hbBus (s : State) : (judgeSummary s).pair.hbBus = s.pair.hbBus := by have e := congrArg (fun t => t.pair.hbBus) (judgeSummary_sansReports s); exact e
@[simp] theorem judgeSummary_pair_restarted (s : State) : (judgeSummary s).pair.restarted = s.pair.restarted := by have e := congrArg (fun t => t.pair.restarted) (judgeSummary_sansReports s); exact e
@[simp] theorem judgeSummary_pair_unagreed (s : State) : (judgeSummary s).pair.unagreed = s.pair.unagreed := by have e := congrArg (fun t => t.pair.unagreed) (judgeSummary_sansReports s); exact e
@[simp] theorem judgeSummary_pair_rejoinAt (s : State) : (judgeSummary s).pair.rejoinAt = s.pair.rejoinAt := by have e := congrArg (fun t => t.pair.rejoinAt) (judgeSummary_sansReports s); exact e
@[simp] theorem judgeSummary_pair_swapFrom (s : State) : (judgeSummary s).pair.swapFrom = s.pair.swapFrom := by have e := congrArg (fun t => t.pair.swapFrom) (judgeSummary_sansReports s); exact e
@[simp] theorem judgeSummary_pair_swapDue (s : State) : (judgeSummary s).pair.swapDue = s.pair.swapDue := by have e := congrArg (fun t => t.pair.swapDue) (judgeSummary_sansReports s); exact e
@[simp] theorem judgeSummary_pair_numbered (s : State) : (judgeSummary s).pair.numbered = s.pair.numbered := by have e := congrArg (fun t => t.pair.numbered) (judgeSummary_sansReports s); exact e
@[simp] theorem judgeSummary_ports_p0 (s : State) : (judgeSummary s).ports.p0 = s.ports.p0 := by have e := congrArg (fun t => t.ports.p0) (judgeSummary_sansReports s); exact e
@[simp] theorem judgeSummary_ports_p1 (s : State) : (judgeSummary s).ports.p1 = s.ports.p1 := by have e := congrArg (fun t => t.ports.p1) (judgeSummary_sansReports s); exact e
@[simp] theorem judgeSummary_ports_prpProcess (s : State) : (judgeSummary s).ports.prpProcess = s.ports.prpProcess := by have e := congrArg (fun t => t.ports.prpProcess) (judgeSummary_sansReports s); exact e
@[simp] theorem judgeSummary_ports_prpStation (s : State) : (judgeSummary s).ports.prpStation = s.ports.prpStation := by have e := congrArg (fun t => t.ports.prpStation) (judgeSummary_sansReports s); exact e
@[simp] theorem judgeSummary_ports_seqProcess (s : State) : (judgeSummary s).ports.seqProcess = s.ports.seqProcess := by have e := congrArg (fun t => t.ports.seqProcess) (judgeSummary_sansReports s); exact e
@[simp] theorem judgeSummary_ports_seqHsr (s : State) : (judgeSummary s).ports.seqHsr = s.ports.seqHsr := by have e := congrArg (fun t => t.ports.seqHsr) (judgeSummary_sansReports s); exact e
@[simp] theorem judgeSummary_sealSt_result (s : State) : (judgeSummary s).sealSt.result = s.sealSt.result := by have e := congrArg (fun t => t.sealSt.result) (judgeSummary_sansReports s); exact e
@[simp] theorem judgeSummary_sealSt_staging (s : State) : (judgeSummary s).sealSt.staging = s.sealSt.staging := by have e := congrArg (fun t => t.sealSt.staging) (judgeSummary_sansReports s); exact e
@[simp] theorem judgeSummary_sealSt_evHatch (s : State) : (judgeSummary s).sealSt.evHatch = s.sealSt.evHatch := by have e := congrArg (fun t => t.sealSt.evHatch) (judgeSummary_sansReports s); exact e
@[simp] theorem judgeSummary_sealSt_evMesh (s : State) : (judgeSummary s).sealSt.evMesh = s.sealSt.evMesh := by have e := congrArg (fun t => t.sealSt.evMesh) (judgeSummary_sansReports s); exact e
@[simp] theorem judgeSummary_sealSt_evVbatLow (s : State) : (judgeSummary s).sealSt.evVbatLow = s.sealSt.evVbatLow := by have e := congrArg (fun t => t.sealSt.evVbatLow) (judgeSummary_sansReports s); exact e
@[simp] theorem judgeSummary_sealSt_evRestart (s : State) : (judgeSummary s).sealSt.evRestart = s.sealSt.evRestart := by have e := congrArg (fun t => t.sealSt.evRestart) (judgeSummary_sansReports s); exact e
@[simp] theorem judgeSummary_sealSt_discards (s : State) : (judgeSummary s).sealSt.discards = s.sealSt.discards := by have e := congrArg (fun t => t.sealSt.discards) (judgeSummary_sansReports s); exact e
@[simp] theorem judgeSummary_sealSt_loadMap (s : State) : (judgeSummary s).sealSt.loadMap = s.sealSt.loadMap := by have e := congrArg (fun t => t.sealSt.loadMap) (judgeSummary_sansReports s); exact e
@[simp] theorem judgeSummary_sealSt_latch (s : State) : (judgeSummary s).sealSt.latch = s.sealSt.latch := by have e := congrArg (fun t => t.sealSt.latch) (judgeSummary_sansReports s); exact e
@[simp] theorem judgeSummary_sealSt_hatchOpen (s : State) : (judgeSummary s).sealSt.hatchOpen = s.sealSt.hatchOpen := by have e := congrArg (fun t => t.sealSt.hatchOpen) (judgeSummary_sansReports s); exact e
@[simp] theorem judgeSummary_sealSt_hatchReported (s : State) : (judgeSummary s).sealSt.hatchReported = s.sealSt.hatchReported := by have e := congrArg (fun t => t.sealSt.hatchReported) (judgeSummary_sansReports s); exact e
@[simp] theorem judgeSummary_sealSt_erased (s : State) : (judgeSummary s).sealSt.erased = s.sealSt.erased := by have e := congrArg (fun t => t.sealSt.erased) (judgeSummary_sansReports s); exact e
@[simp] theorem judgeSummary_sealSt_meshOk (s : State) : (judgeSummary s).sealSt.meshOk = s.sealSt.meshOk := by have e := congrArg (fun t => t.sealSt.meshOk) (judgeSummary_sansReports s); exact e
@[simp] theorem judgeSummary_sealSt_heldOff (s : State) : (judgeSummary s).sealSt.heldOff = s.sealSt.heldOff := by have e := congrArg (fun t => t.sealSt.heldOff) (judgeSummary_sansReports s); exact e
@[simp] theorem judgeSummary_sealSt_live (s : State) : (judgeSummary s).sealSt.live = s.sealSt.live := by have e := congrArg (fun t => t.sealSt.live) (judgeSummary_sansReports s); exact e
@[simp] theorem judgeSummary_sealSt_busy (s : State) : (judgeSummary s).sealSt.busy = s.sealSt.busy := by have e := congrArg (fun t => t.sealSt.busy) (judgeSummary_sansReports s); exact e
@[simp] theorem judgeSummary_sealSt_ignoring (s : State) : (judgeSummary s).sealSt.ignoring = s.sealSt.ignoring := by have e := congrArg (fun t => t.sealSt.ignoring) (judgeSummary_sansReports s); exact e
@[simp] theorem judgeSummary_journal_jseq (s : State) : (judgeSummary s).journal.jseq = s.journal.jseq := by have e := congrArg (fun t => t.journal.jseq) (judgeSummary_sansReports s); exact e
@[simp] theorem judgeSummary_journal_lastCrc (s : State) : (judgeSummary s).journal.lastCrc = s.journal.lastCrc := by have e := congrArg (fun t => t.journal.lastCrc) (judgeSummary_sansReports s); exact e
@[simp] theorem judgeSummary_journal_pages (s : State) : (judgeSummary s).journal.pages = s.journal.pages := by have e := congrArg (fun t => t.journal.pages) (judgeSummary_sansReports s); exact e
@[simp] theorem judgeSummary_journal_gens (s : State) : (judgeSummary s).journal.gens = s.journal.gens := by have e := congrArg (fun t => t.journal.gens) (judgeSummary_sansReports s); exact e
@[simp] theorem judgeSummary_journal_opens (s : State) : (judgeSummary s).journal.opens = s.journal.opens := by have e := congrArg (fun t => t.journal.opens) (judgeSummary_sansReports s); exact e
@[simp] theorem judgeSummary_journal_ctlA (s : State) : (judgeSummary s).journal.ctlA = s.journal.ctlA := by have e := congrArg (fun t => t.journal.ctlA) (judgeSummary_sansReports s); exact e
@[simp] theorem judgeSummary_journal_ctlB (s : State) : (judgeSummary s).journal.ctlB = s.journal.ctlB := by have e := congrArg (fun t => t.journal.ctlB) (judgeSummary_sansReports s); exact e
@[simp] theorem judgeSummary_journal_latest (s : State) : (judgeSummary s).journal.latest = s.journal.latest := by have e := congrArg (fun t => t.journal.latest) (judgeSummary_sansReports s); exact e
@[simp] theorem judgeSummary_journal_stalled (s : State) : (judgeSummary s).journal.stalled = s.journal.stalled := by have e := congrArg (fun t => t.journal.stalled) (judgeSummary_sansReports s); exact e
@[simp] theorem judgeSummary_journal_ring (s : State) : (judgeSummary s).journal.ring = s.journal.ring := by have e := congrArg (fun t => t.journal.ring) (judgeSummary_sansReports s); exact e
@[simp] theorem judgeSummary_journal_recno (s : State) : (judgeSummary s).journal.recno = s.journal.recno := by have e := congrArg (fun t => t.journal.recno) (judgeSummary_sansReports s); exact e
@[simp] theorem judgeSummary_journal_records (s : State) : (judgeSummary s).journal.records = s.journal.records := by have e := congrArg (fun t => t.journal.records) (judgeSummary_sansReports s); exact e
@[simp] theorem judgeSummary_journal_store (s : State) : (judgeSummary s).journal.store = s.journal.store := by have e := congrArg (fun t => t.journal.store) (judgeSummary_sansReports s); exact e
@[simp] theorem judgeSummary_journal_retired (s : State) : (judgeSummary s).journal.retired = s.journal.retired := by have e := congrArg (fun t => t.journal.retired) (judgeSummary_sansReports s); exact e

@[simp] theorem judgeSummary_pipesY (s : State) : (judgeSummary s).pipesY = s.pipesY := by have e := congrArg State.pipesY (judgeSummary_sansReports s); exact e

/-- A port's state without the parity error that ends its next frame (R43) and its last transmit timestamp (R222). -/
theorem judgeSummary_portGet (s : State) (p : Port) :
    { portGet (judgeSummary s) p with txBad := false, lastTx := none } = { portGet s p with txBad := false, lastTx := none } := by
  cases p
  · have e := congrArg (fun t => { t.ports.p0 with txBad := false, lastTx := none }) (judgeSummary_sansReports s); exact e
  · have e := congrArg (fun t => { t.ports.p1 with txBad := false, lastTx := none }) (judgeSummary_sansReports s); exact e
  · have e := congrArg (fun t => t.ports.s0) (judgeSummary_sansReports s); exact e
  · have e := congrArg (fun t => t.ports.s1) (judgeSummary_sansReports s); exact e

@[simp] theorem judgeSummary_portGet_up (s : State) (p : Port) : (portGet (judgeSummary s) p).up = (portGet s p).up := by
  have e := congrArg PortSt.up (judgeSummary_portGet s p); exact e

/-- A fault record that bookkeeping cannot change reads the same after the summary has been judged. -/
theorem judgeSummary_faultGet (s : State) (k : FaultKey) (hk : bookkept k = false) : faultGet (judgeSummary s) k = faultGet s k :=
  faultGet_of_steady (judgeSummary_steady s) k hk

/-! Arisings, for statements about one fault -/

/-- A fault that is Clear arises and reacts at the level of Table 19.7. -/
theorem reacts_of_arise {s : State} {k : FaultKey} (h : faultGet s k = none) (hb : bookkept k = false) (det hdl : Nat) (d : List Byte)
    {l : Nat} (hl : raiseLevel s k.code = l) : Reacts (arise s k det hdl d) k l :=
  ⟨_, arise_clear s k hb h det hdl d, rfl, hl, rfl, rfl⟩

theorem reacts_judgeSummary {s : State} {k : FaultKey} {l : Nat} (hb : bookkept k = false) (h : Reacts s k l) : Reacts (judgeSummary s) k l := by
  obtain ⟨r, h1, h2⟩ := h
  exact ⟨r, by rw [judgeSummary_faultGet _ _ hb, h1], h2⟩

/-- Below Withdraw an arising leaves the engine and the plug. -/
theorem arise_power (s : State) (k : FaultKey) (det hdl : Nat) (d : List Byte) (h : max (faultRow k.code).2.1 (faultRow k.code).1 < 4) :
    (arise s k det hdl d).power = s.power := by
  have e := congrArg State.power (arise_sansRecords s k det hdl d h); exact e

theorem arise_plug (s : State) (k : FaultKey) (det hdl : Nat) (d : List Byte) (h : max (faultRow k.code).2.1 (faultRow k.code).1 < 4) :
    (arise s k det hdl d).plug = s.plug := by
  have e := congrArg State.plug (arise_sansRecords s k det hdl d h); exact e

theorem coreRuns_congr {s t : State} (h : t.power = s.power) : coreRuns t = coreRuns s := by unfold coreRuns; rw [h]

@[simp] theorem causeGone_power (s : State) (k : FaultKey) : (causeGone s k).power = s.power := by
  have e := congrArg State.power (causeGone_sansRecords s k); exact e

theorem withdraw_power (s : State) : (withdraw s).power = { s.power with engine := .withdrawn } := by
  have coil : ∀ (u : State) (cc : Nat), (coilIdle u cc).power = u.power := fun u cc => by
    unfold coilIdle
    rw [causeGone_power]
    rfl
  have idle : ∀ u : State, (coilsIdle u).power = u.power := fun u => foldl_keeps State.power coilIdle coil _ u
  have twin : ∀ u : State, (twinStopped u false).power = u.power := fun u => by
    unfold twinStopped
    rw [causeGone_power]
  have start : (enterWithdrawn s).power = { s.power with engine := .withdrawn } := rfl
  unfold withdraw
  dsimp only
  split_ifs
  · rw [twin, idle, start]
  · rw [idle, start]

/-- A Withdraw-level reaction withdraws the unit while its core runs (R721, Table 1.7). -/
theorem react_withdraws (s : State) (k : FaultKey) (r : FaultRec) (n : Nat) (d : List Byte) (hl : r.level = 4) (hc : coreRuns s = true) :
    (react s k r n d).power = { s.power with engine := .withdrawn } := by
  unfold react
  simp only [hl, if_true]
  have e1 : (journalEntry (faultSeq (faultPut s k r) k) (faultEntry s k r n d)).power = s.power := by
    have e := congrArg State.power (journalEntry_sansRecords (faultSeq (faultPut s k r) k) (faultEntry s k r n d)); exact e
  rw [if_pos ((coreRuns_congr e1).trans hc)]
  have e2 : ∀ (u : State) (i : SIndex), (withdraw (unitSnapshots u 0 i)).power = { u.power with engine := .withdrawn } := by
    intro u i
    have e : (unitSnapshots u 0 i).power = u.power := by have e := congrArg State.power (unitSnapshots_sansRecords u 0 i); exact e
    rw [withdraw_power, e]
  rw [e2, e1]

/-- A Withdraw-level fault that is Clear withdraws the unit when it arises. -/
theorem arise_withdraws (s : State) (k : FaultKey) (det hdl : Nat) (d : List Byte) (h : faultGet s k = none) (hl : raiseLevel s k.code = 4)
    (hc : coreRuns s = true) : (arise s k det hdl d).power = { s.power with engine := .withdrawn } := by
  unfold arise
  rw [ariseWith_clear react s k h]
  exact react_withdraws s k _ 1 d hl hc

end Sys2Proof.Machine
end

