-- ==== Sys2Proof/Laws/Settle.lean ====
section
/-! SUPPORT. What the judgements of the pair block and of the time block leave: recall sessions by role, the guarantee, publishing, the
TWIN slot, and the conditions of Table 8.7. -/
namespace Sys2Proof.Machine

/-! Zone publications -/

@[simp] theorem numbered_sansReports (s : State) (f : TxFrame) : (numbered s f).1.sansReports = s.sansReports := by
  unfold numbered
  split
  · dsimp only; split <;> rfl
  · rfl

@[simp] theorem numbered_faults (s : State) (f : TxFrame) : (numbered s f).1.faults = s.faults := by
  unfold numbered
  split
  · dsimp only; split <;> rfl
  · rfl

theorem sansReports_pub (s : State) (p : Publisher) : ({ s with pub := p } : State).sansReports = s.sansReports := rfl

@[simp] theorem enqueue_sansReports (s : State) (f : TxFrame) : (enqueue s f).sansReports = s.sansReports := by
  unfold enqueue
  split
  · dsimp only; rw [sansReports_pub, numbered_sansReports]
  · split
    · split
      · dsimp only; rw [sansReports_pub, numbered_sansReports]
      · rfl
    · rfl

@[simp] theorem enqueue_faults (s : State) (f : TxFrame) : (enqueue s f).faults = s.faults := by
  unfold enqueue
  split
  · dsimp only; simp
  · split
    · split
      · dsimp only; simp
      · rfl
    · rfl

@[simp] theorem zoneHand_sansReports (s : State) (z st : Nat) (c : Bool) (l : List Byte) : (handGoose s z st c l).sansReports = s.sansReports := by
  unfold handGoose
  split
  · split_ifs
    · simp
    · rfl
    · rfl
  · rw [releaseSummary_sansReports]; rfl

@[simp] theorem zoneHand_steady (s : State) (z st : Nat) (c : Bool) (l : List Byte) : steady (handGoose s z st c l) = steady s := by
  unfold handGoose
  split
  · split_ifs
    · exact steady_congr (by simp)
    · exact steady_congr rfl
    · rfl
  · rw [releaseSummary_steady]; exact steady_congr rfl

@[simp] theorem zoneChangeAt_sansReports (s : State) (z : Nat) (i : SIndex) (t : Nat × Nat) : (zoneChangeAt s z i t).sansReports = s.sansReports := by
  unfold zoneChangeAt handChange
  dsimp only
  split_ifs <;> simp

@[simp] theorem zoneChangeAt_steady (s : State) (z : Nat) (i : SIndex) (t : Nat × Nat) : steady (zoneChangeAt s z i t) = steady s := by
  unfold zoneChangeAt handChange
  dsimp only
  split_ifs <;> (try rw [zoneHand_steady]) <;> exact steady_congr (by simp)

@[simp] theorem zoneChangeNow_sansReports (s : State) (z : Nat) : (zoneChangeNow s z).sansReports = s.sansReports := by simp [zoneChangeNow]
@[simp] theorem zoneChangeNow_steady (s : State) (z : Nat) : steady (zoneChangeNow s z) = steady s := by simp [zoneChangeNow]

@[simp] theorem startPublishing_sansReports (s : State) (l : List Nat) : (startPublishing s l).sansReports = s.sansReports :=
  foldl_keeps State.sansReports zoneChangeNow zoneChangeNow_sansReports l s
@[simp] theorem startPublishing_steady (s : State) (l : List Nat) : steady (startPublishing s l) = steady s :=
  foldl_keeps steady zoneChangeNow zoneChangeNow_steady l s

@[simp] theorem authChanged_sansReports (s : State) : (authChanged s).sansReports = s.sansReports := by
  have hk : (judgeKeys s).sansReports = s.sansReports := sansReports_of _ _ (judgeKeys_sansRecords s)
  unfold authChanged
  dsimp only
  split_ifs <;>
    simp [sansReports_pub, hk, foldl_keeps State.sansReports zoneChangeNow zoneChangeNow_sansReports]

theorem steady_pub (s : State) (p : Publisher) : steady { s with pub := p } = steady s := steady_congr rfl

@[simp] theorem authChanged_steady (s : State) : steady (authChanged s) = steady s := by
  unfold authChanged
  dsimp only
  split_ifs <;> simp [steady_pub, foldl_keeps steady zoneChangeNow zoneChangeNow_steady]

/-! Sessions by role -/

theorem sansSettled_records {s t : State} (h : t.sansRecords = s.sansRecords) : t.sansSettled = s.sansSettled :=
  sansSettled_of _ _ (sansReports_of _ _ h)

@[simp] theorem closeSession_sansSettled (s : State) (i c : Nat) : (closeSession s i c).sansSettled = s.sansSettled := by
  unfold closeSession
  dsimp only
  split
  · rfl
  · rw [sansSettled_records (journalEntry_sansRecords _ _)]; rfl

@[simp] theorem closeSession_steady (s : State) (i c : Nat) : steady (closeSession s i c) = steady s := by
  unfold closeSession
  dsimp only
  split
  · rfl
  · rw [journalEntry_steady]; exact steady_congr rfl

@[simp] theorem roleSessions_sansSettled (s : State) : (roleSessions s).sansSettled = s.sansSettled := by
  unfold roleSessions closeSessions
  split
  · exact foldl_keeps State.sansSettled _ (fun s i => by split <;> simp) _ s
  · rfl

@[simp] theorem roleSessions_steady (s : State) : steady (roleSessions s) = steady s := by
  unfold roleSessions closeSessions
  split
  · exact foldl_keeps steady _ (fun s i => by split <;> simp) _ s
  · rfl

@[simp] theorem syncCondition_faults (s : State) (c : Nat) : (syncCondition s c).faults = s.faults := by
  unfold syncCondition
  dsimp only
  split_ifs <;> simp

@[simp] theorem syncGuarantee_faults (s : State) : (syncGuarantee s).faults = s.faults := by
  unfold syncGuarantee
  split_ifs
  · exact foldl_keeps State.faults syncCondition syncCondition_faults _ s
  · rfl

/-- Settling after a command of the pair block leaves this. -/
@[simp] theorem settlePair_sansSettled (s : State) : (settlePair s).sansSettled = s.sansSettled := by
  unfold settlePair
  rw [sansSettled_of _ _ (judgeSummary_sansReports _), sansSettled_records (syncGuarantee_sansRecords _), roleSessions_sansSettled]
  split_ifs
  · exact sansSettled_of _ _ (authChanged_sansReports s)
  · rfl

@[simp] theorem settlePair_steady (s : State) : steady (settlePair s) = steady s := by
  unfold settlePair
  rw [judgeSummary_steady, steady_congr (syncGuarantee_faults _), roleSessions_steady]
  split_ifs <;> simp

/-! The TWIN slot -/

/-- Stopping the TWIN slot changes the Reckoner alone, beside entries. -/
theorem withTwin_frame (f : State → State) (s : State) :
    ({ withTwin f s with reck := {} } : State).sansRecords = ({ f s with reck := {} } : State).sansRecords := by
  have e : ∀ u : State, ({ u with reck := {} } : State).sansRecords = { u.sansRecords with reck := {} } := fun _ => rfl
  rw [e, e]
  unfold withTwin
  dsimp only
  split_ifs
  · unfold twinStopped
    dsimp only
    rw [causeGone_sansRecords]
    rfl
  · rfl

/-- Its fault is the only one it touches. -/
theorem withTwin_faultGet (f : State → State) (s : State) (k : FaultKey) (hk : k.scope * 4096 + k.inst < 65536) (hc : k.code / 64 ≠ 0x45) :
    faultGet (withTwin f s) k = faultGet (f s) k := by
  unfold withTwin
  dsimp only
  split_ifs
  · unfold twinStopped
    dsimp only
    rw [causeGone_other _ { code := 0x1140, scope := 10, inst := 2 } k
      (keyNum_ne k { code := 0x1140, scope := 10, inst := 2 } hk (by decide) hc)]
    rfl
  · rfl

/-! Fields, from the frames -/

theorem keeps_now {s t : State} (h : t.sansSettled = s.sansSettled) : t.now = s.now := by have e := congrArg State.now h; exact e
theorem keeps_free {s t : State} (h : t.sansSettled = s.sansSettled) : t.free = s.free := by have e := congrArg State.free h; exact e
theorem keeps_power {s t : State} (h : t.sansSettled = s.sansSettled) : t.power = s.power := by have e := congrArg State.power h; exact e
theorem keeps_ident {s t : State} (h : t.sansSettled = s.sansSettled) : t.ident = s.ident := by have e := congrArg State.ident h; exact e
theorem keeps_nvm {s t : State} (h : t.sansSettled = s.sansSettled) : t.nvm = s.nvm := by have e := congrArg State.nvm h; exact e
theorem keeps_plug {s t : State} (h : t.sansSettled = s.sansSettled) : t.plug = s.plug := by have e := congrArg State.plug h; exact e
theorem keeps_streams {s t : State} (h : t.sansSettled = s.sansSettled) : t.streams = s.streams := by have e := congrArg State.streams h; exact e
theorem keeps_time {s t : State} (h : t.sansSettled = s.sansSettled) : t.time = s.time := by have e := congrArg State.time h; exact e
theorem keeps_reck {s t : State} (h : t.sansSettled = s.sansSettled) : t.reck = s.reck := by have e := congrArg State.reck h; exact e
theorem keeps_pipes {s t : State} (h : t.sansSettled = s.sansSettled) : t.pipes = s.pipes := by have e := congrArg State.pipes h; exact e
theorem keeps_pipesY {s t : State} (h : t.sansSettled = s.sansSettled) : t.pipesY = s.pipesY := by have e := congrArg State.pipesY h; exact e
theorem keeps_zones {s t : State} (h : t.sansSettled = s.sansSettled) : t.zones = s.zones := by have e := congrArg State.zones h; exact e
theorem keeps_adc {s t : State} (h : t.sansSettled = s.sansSettled) : t.adc = s.adc := by have e := congrArg State.adc h; exact e
theorem keeps_field {s t : State} (h : t.sansSettled = s.sansSettled) : t.field = s.field := by have e := congrArg State.field h; exact e
theorem keeps_refusedRise {s t : State} (h : t.sansSettled = s.sansSettled) : t.refusedRise = s.refusedRise := by have e := congrArg State.refusedRise h; exact e
theorem keeps_intakeRise {s t : State} (h : t.sansSettled = s.sansSettled) : t.intakeRise = s.intakeRise := by have e := congrArg State.intakeRise h; exact e
theorem keeps_ringErrAt {s t : State} (h : t.sansSettled = s.sansSettled) : t.ringErrAt = s.ringErrAt := by have e := congrArg State.ringErrAt h; exact e
theorem keeps_pending {s t : State} (h : t.sansSettled = s.sansSettled) : t.pending = s.pending := by have e := congrArg State.pending h; exact e
theorem keeps_recallSvc {s t : State} (h : t.sansReports = s.sansReports) : t.recallSvc = s.recallSvc := by have e := congrArg State.recallSvc h; exact e
theorem keeps_pub {s t : State} (h : t.sansRecords = s.sansRecords) : t.pub = s.pub := by have e := congrArg State.pub h; exact e
theorem keeps_ports {s t : State} (h : t.sansRecords = s.sansRecords) : t.ports = s.ports := by have e := congrArg State.ports h; exact e
theorem keeps_sealSt {s t : State} (h : t.sansRecords = s.sansRecords) : t.sealSt = s.sealSt := by have e := congrArg State.sealSt h; exact e

@[simp] theorem settlePair_now (s : State) : (settlePair s).now = s.now := keeps_now (settlePair_sansSettled s)
@[simp] theorem settlePair_free (s : State) : (settlePair s).free = s.free := keeps_free (settlePair_sansSettled s)
@[simp] theorem settlePair_power (s : State) : (settlePair s).power = s.power := keeps_power (settlePair_sansSettled s)
@[simp] theorem settlePair_ident (s : State) : (settlePair s).ident = s.ident := keeps_ident (settlePair_sansSettled s)
@[simp] theorem settlePair_nvm (s : State) : (settlePair s).nvm = s.nvm := keeps_nvm (settlePair_sansSettled s)
@[simp] theorem settlePair_plug (s : State) : (settlePair s).plug = s.plug := keeps_plug (settlePair_sansSettled s)
@[simp] theorem settlePair_streams (s : State) : (settlePair s).streams = s.streams := keeps_streams (settlePair_sansSettled s)
@[simp] theorem settlePair_time (s : State) : (settlePair s).time = s.time := keeps_time (settlePair_sansSettled s)
@[simp] theorem settlePair_reck (s : State) : (settlePair s).reck = s.reck := keeps_reck (settlePair_sansSettled s)
@[simp] theorem settlePair_pipes (s : State) : (settlePair s).pipes = s.pipes := keeps_pipes (settlePair_sansSettled s)
@[simp] theorem settlePair_pipesY (s : State) : (settlePair s).pipesY = s.pipesY := keeps_pipesY (settlePair_sansSettled s)
@[simp] theorem settlePair_zones (s : State) : (settlePair s).zones = s.zones := keeps_zones (settlePair_sansSettled s)
@[simp] theorem settlePair_adc (s : State) : (settlePair s).adc = s.adc := keeps_adc (settlePair_sansSettled s)
@[simp] theorem settlePair_field (s : State) : (settlePair s).field = s.field := keeps_field (settlePair_sansSettled s)
@[simp] theorem settlePair_refusedRise (s : State) : (settlePair s).refusedRise = s.refusedRise := keeps_refusedRise (settlePair_sansSettled s)
@[simp] theorem settlePair_intakeRise (s : State) : (settlePair s).intakeRise = s.intakeRise := keeps_intakeRise (settlePair_sansSettled s)
@[simp] theorem settlePair_ringErrAt (s : State) : (settlePair s).ringErrAt = s.ringErrAt := keeps_ringErrAt (settlePair_sansSettled s)
@[simp] theorem settlePair_pending (s : State) : (settlePair s).pending = s.pending := keeps_pending (settlePair_sansSettled s)
@[simp] theorem settlePair_pair_state (s : State) : (settlePair s).pair.state = s.pair.state := by have e := congrArg (fun t => t.pair.state) (settlePair_sansSettled s); exact e
@[simp] theorem settlePair_pair_accepted (s : State) : (settlePair s).pair.accepted = s.pair.accepted := by have e := congrArg (fun t => t.pair.accepted) (settlePair_sansSettled s); exact e
@[simp] theorem settlePair_pair_absent (s : State) : (settlePair s).pair.absent = s.pair.absent := by have e := congrArg (fun t => t.pair.absent) (settlePair_sansSettled s); exact e
@[simp] theorem settlePair_pair_split (s : State) : (settlePair s).pair.split = s.pair.split := by have e := congrArg (fun t => t.pair.split) (settlePair_sansSettled s); exact e
@[simp] theorem settlePair_pair_swap (s : State) : (settlePair s).pair.swap = s.pair.swap := by have e := congrArg (fun t => t.pair.swap) (settlePair_sansSettled s); exact e
@[simp] theorem settlePair_pair_rejoin (s : State) : (settlePair s).pair.rejoin = s.pair.rejoin := by have e := congrArg (fun t => t.pair.rejoin) (settlePair_sansSettled s); exact e
@[simp] theorem settlePair_pair_partnerState (s : State) : (settlePair s).pair.partnerState = s.pair.partnerState := by have e := congrArg (fun t => t.pair.partnerState) (settlePair_sansSettled s); exact e
@[simp] theorem settlePair_pair_partnerFp (s : State) : (settlePair s).pair.partnerFp = s.pair.partnerFp := by have e := congrArg (fun t => t.pair.partnerFp) (settlePair_sansSettled s); exact e
@[simp] theorem settlePair_pair_hello (s : State) : (settlePair s).pair.hello = s.pair.hello := by have e := congrArg (fun t => t.pair.hello) (settlePair_sansSettled s); exact e
@[simp] theorem settlePair_pair_carryUp (s : State) : (settlePair s).pair.carryUp = s.pair.carryUp := by have e := congrArg (fun t => t.pair.carryUp) (settlePair_sansSettled s); exact e
@[simp] theorem settlePair_pair_carrySilent (s : State) : (settlePair s).pair.carrySilent = s.pair.carrySilent := by have e := congrArg (fun t => t.pair.carrySilent) (settlePair_sansSettled s); exact e
@[simp] theorem settlePair_pair_busSilent (s : State) : (settlePair s).pair.busSilent = s.pair.busSilent := by have e := congrArg (fun t => t.pair.busSilent) (settlePair_sansSettled s); exact e
@[simp] theorem settlePair_pair_heardA (s : State) : (settlePair s).pair.heardA = s.pair.heardA := by have e := congrArg (fun t => t.pair.heardA) (settlePair_sansSettled s); exact e
@[simp] theorem settlePair_pair_heardB (s : State) : (settlePair s).pair.heardB = s.pair.heardB := by have e := congrArg (fun t => t.pair.heardB) (settlePair_sansSettled s); exact e
@[simp] theorem settlePair_pair_held (s : State) : (settlePair s).pair.held = s.pair.held := by have e := congrArg (fun t => t.pair.held) (settlePair_sansSettled s); exact e
@[simp] theorem settlePair_pair_heldBrk (s : State) : (settlePair s).pair.heldBrk = s.pair.heldBrk := by have e := congrArg (fun t => t.pair.heldBrk) (settlePair_sansSettled s); exact e
@[simp] theorem settlePair_pair_receipts (s : State) : (settlePair s).pair.receipts = s.pair.receipts := by have e := congrArg (fun t => t.pair.receipts) (settlePair_sansSettled s); exact e
@[simp] theorem settlePair_pair_inputs (s : State) : (settlePair s).pair.inputs = s.pair.inputs := by have e := congrArg (fun t => t.pair.inputs) (settlePair_sansSettled s); exact e
@[simp] theorem settlePair_pair_agreed (s : State) : (settlePair s).pair.agreed = s.pair.agreed := by have e := congrArg (fun t => t.pair.agreed) (settlePair_sansSettled s); exact e
@[simp] theorem settlePair_pair_bothLans (s : State) : (settlePair s).pair.bothLans = s.pair.bothLans := by have e := congrArg (fun t => t.pair.bothLans) (settlePair_sansSettled s); exact e
@[simp] theorem settlePair_pair_hbCarry (s : State) : (settlePair s).pair.hbCarry = s.pair.hbCarry := by have e := congrArg (fun t => t.pair.hbCarry) (settlePair_sansSettled s); exact e
@[simp] theorem settlePair_pair_hbBus (s : State) : (settlePair s).pair.hbBus = s.pair.hbBus := by have e := congrArg (fun t => t.pair.hbBus) (settlePair_sansSettled s); exact e
@[simp] theorem settlePair_pair_restarted (s : State) : (settlePair s).pair.restarted = s.pair.restarted := by have e := congrArg (fun t => t.pair.restarted) (settlePair_sansSettled s); exact e
@[simp] theorem settlePair_pair_unagreed (s : State) : (settlePair s).pair.unagreed = s.pair.unagreed := by have e := congrArg (fun t => t.pair.unagreed) (settlePair_sansSettled s); exact e
@[simp] theorem settlePair_pair_rejoinAt (s : State) : (settlePair s).pair.rejoinAt = s.pair.rejoinAt := by have e := congrArg (fun t => t.pair.rejoinAt) (settlePair_sansSettled s); exact e
@[simp] theorem settlePair_pair_rejoinRuns (s : State) : (settlePair s).pair.rejoinRuns = s.pair.rejoinRuns := by have e := congrArg (fun t => t.pair.rejoinRuns) (settlePair_sansSettled s); exact e
@[simp] theorem settlePair_pair_swapFrom (s : State) : (settlePair s).pair.swapFrom = s.pair.swapFrom := by have e := congrArg (fun t => t.pair.swapFrom) (settlePair_sansSettled s); exact e
@[simp] theorem settlePair_pair_swapDue (s : State) : (settlePair s).pair.swapDue = s.pair.swapDue := by have e := congrArg (fun t => t.pair.swapDue) (settlePair_sansSettled s); exact e
@[simp] theorem settlePair_pair_numbered (s : State) : (settlePair s).pair.numbered = s.pair.numbered := by have e := congrArg (fun t => t.pair.numbered) (settlePair_sansSettled s); exact e
@[simp] theorem settlePair_pair_carryLost (s : State) : (settlePair s).pair.carryLost = s.pair.carryLost := by have e := congrArg (fun t => t.pair.carryLost) (settlePair_sansSettled s); exact e
@[simp] theorem settlePair_ports_p0 (s : State) : (settlePair s).ports.p0 = s.ports.p0 := by have e := congrArg (fun t => t.ports.p0) (settlePair_sansSettled s); exact e
@[simp] theorem settlePair_ports_p1 (s : State) : (settlePair s).ports.p1 = s.ports.p1 := by have e := congrArg (fun t => t.ports.p1) (settlePair_sansSettled s); exact e
@[simp] theorem settlePair_ports_prpProcess (s : State) : (settlePair s).ports.prpProcess = s.ports.prpProcess := by have e := congrArg (fun t => t.ports.prpProcess) (settlePair_sansSettled s); exact e
@[simp] theorem settlePair_ports_prpStation (s : State) : (settlePair s).ports.prpStation = s.ports.prpStation := by have e := congrArg (fun t => t.ports.prpStation) (settlePair_sansSettled s); exact e
@[simp] theorem settlePair_ports_seqProcess (s : State) : (settlePair s).ports.seqProcess = s.ports.seqProcess := by have e := congrArg (fun t => t.ports.seqProcess) (settlePair_sansSettled s); exact e
@[simp] theorem settlePair_ports_seqHsr (s : State) : (settlePair s).ports.seqHsr = s.ports.seqHsr := by have e := congrArg (fun t => t.ports.seqHsr) (settlePair_sansSettled s); exact e
@[simp] theorem settlePair_journal_jseq (s : State) : (settlePair s).journal.jseq = s.journal.jseq := by have e := congrArg (fun t => t.journal.jseq) (settlePair_sansSettled s); exact e
@[simp] theorem settlePair_journal_lastCrc (s : State) : (settlePair s).journal.lastCrc = s.journal.lastCrc := by have e := congrArg (fun t => t.journal.lastCrc) (settlePair_sansSettled s); exact e
@[simp] theorem settlePair_journal_pages (s : State) : (settlePair s).journal.pages = s.journal.pages := by have e := congrArg (fun t => t.journal.pages) (settlePair_sansSettled s); exact e
@[simp] theorem settlePair_journal_latest (s : State) : (settlePair s).journal.latest = s.journal.latest := by have e := congrArg (fun t => t.journal.latest) (settlePair_sansSettled s); exact e
@[simp] theorem settlePair_journal_stalled (s : State) : (settlePair s).journal.stalled = s.journal.stalled := by have e := congrArg (fun t => t.journal.stalled) (settlePair_sansSettled s); exact e
@[simp] theorem settlePair_journal_ring (s : State) : (settlePair s).journal.ring = s.journal.ring := by have e := congrArg (fun t => t.journal.ring) (settlePair_sansSettled s); exact e
@[simp] theorem settlePair_journal_recno (s : State) : (settlePair s).journal.recno = s.journal.recno := by have e := congrArg (fun t => t.journal.recno) (settlePair_sansSettled s); exact e
@[simp] theorem settlePair_journal_records (s : State) : (settlePair s).journal.records = s.journal.records := by have e := congrArg (fun t => t.journal.records) (settlePair_sansSettled s); exact e
@[simp] theorem settlePair_journal_store (s : State) : (settlePair s).journal.store = s.journal.store := by have e := congrArg (fun t => t.journal.store) (settlePair_sansSettled s); exact e
@[simp] theorem settlePair_journal_retired (s : State) : (settlePair s).journal.retired = s.journal.retired := by have e := congrArg (fun t => t.journal.retired) (settlePair_sansSettled s); exact e

/-- A port's state without the parity error that ends its next frame (R43) and its last transmit timestamp (R222). -/
theorem settlePair_portGet (s : State) (p : Port) :
    { portGet (settlePair s) p with txBad := false, lastTx := none } = { portGet s p with txBad := false, lastTx := none } := by
  cases p
  · have e := congrArg (fun t => { t.ports.p0 with txBad := false, lastTx := none }) (settlePair_sansSettled s); exact e
  · have e := congrArg (fun t => { t.ports.p1 with txBad := false, lastTx := none }) (settlePair_sansSettled s); exact e
  · have e := congrArg (fun t => t.ports.s0) (settlePair_sansSettled s); exact e
  · have e := congrArg (fun t => t.ports.s1) (settlePair_sansSettled s); exact e

/-- A fault record that bookkeeping cannot change reads the same after the pair has settled. -/
theorem settlePair_faultGet (s : State) (k : FaultKey) (hk : bookkept k = false) : faultGet (settlePair s) k = faultGet s k :=
  faultGet_of_steady (settlePair_steady s) k hk

theorem reacts_settlePair {s : State} {k : FaultKey} {l : Nat} (hb : bookkept k = false) (h : Reacts s k l) : Reacts (settlePair s) k l := by
  obtain ⟨r, h1, h2⟩ := h
  exact ⟨r, by rw [settlePair_faultGet _ _ hb, h1], h2⟩

end Sys2Proof.Machine
end

