-- ==== Sys2Proof/Laws/Tab.lean ====
section
/-! SUPPORT. Sparse tables: read after write, and the canonical form that every operation keeps. -/
namespace Sys2Proof.Tab

variable {α : Type}

/-- Every key of the table lies above `k`. -/
def above (k : Nat) (t : Tab α) : Bool := t.all (fun p => k < p.1)

theorem get_of_above (d : α) : ∀ (t : Tab α) (k : Nat), above k t = true → get d t k = d
  | [], _, _ => rfl
  | (k', v) :: t, k, h => by
    simp only [above, List.all_cons, Bool.and_eq_true, decide_eq_true_eq] at h
    have : k' ≠ k := by omega
    simp only [get, this, if_false]
    exact get_of_above d t k h.2

theorem above_of_lt {k k' : Nat} (t : Tab α) (h : k ≤ k') (a : above k' t = true) : above k t = true := by
  simp only [above, List.all_eq_true, decide_eq_true_eq] at *
  intro p hp
  have := a p hp
  omega

/-- An insertion is read back, and nothing else changes. -/
theorem get_insert (d : α) : ∀ (t : Tab α) (k : Nat) (v : α) (j : Nat), get d (insert t k v) j = if j = k then v else get d t j
  | [], k, v, j => by
    simp only [insert, get]
    by_cases h : k = j <;> simp [h, eq_comm]
  | (k', v') :: t, k, v, j => by
    simp only [insert]
    split
    · simp only [get]
      by_cases h : k = j
      · simp [h]
      · simp [h, Ne.symm h]
    · split
      · rename_i h
        subst h
        simp only [get]
        by_cases h : k = j
        · simp [h]
        · simp [h, Ne.symm h]
      · simp only [get, get_insert d t k v j]
        rename_i h
        by_cases e : k' = j
        · have : j ≠ k := by omega
          simp [e, this]
        · simp [e]

/-- An erasure leaves every other entry, and nothing at its key. -/
theorem get_erase (d : α) : ∀ (t : Tab α) (k j : Nat), get d (erase t k) j = if j = k then d else get d t j
  | [], _, _ => by simp [erase, get]
  | (k', v') :: t, k, j => by
    simp only [erase]
    split
    · rename_i e
      rw [get_erase d t k j]
      by_cases h : j = k
      · simp [h]
      · have : k' ≠ j := by omega
        simp [h, get, this]
    · rename_i e
      simp only [get, get_erase d t k j]
      by_cases h : k' = j
      · have : j ≠ k := by omega
        simp [h, this]
      · simp [h]

theorem above_erase (t : Tab α) (k j : Nat) (h : above j t = true) : above j (erase t k) = true := by
  induction t with
  | nil => rfl
  | cons p t ih =>
    obtain ⟨k', v'⟩ := p
    simp only [above, List.all_cons, Bool.and_eq_true] at h
    simp only [erase]
    split
    · exact ih h.2
    · simp only [above, List.all_cons, Bool.and_eq_true]
      exact ⟨h.1, ih h.2⟩

theorem above_insert (t : Tab α) (k j : Nat) (v : α) (hk : j < k) (h : above j t = true) : above j (insert t k v) = true := by
  induction t with
  | nil => simp [insert, above, hk]
  | cons p t ih =>
    obtain ⟨k', v'⟩ := p
    simp only [above, List.all_cons, Bool.and_eq_true] at h
    simp only [insert]
    split
    · simp [above, hk]; exact ⟨by simpa using h.1, by simpa using h.2⟩
    · split
      · simp only [above, List.all_cons, Bool.and_eq_true]; exact ⟨by simp [hk], h.2⟩
      · simp only [above, List.all_cons, Bool.and_eq_true]; exact ⟨h.1, ih h.2⟩

variable [DecidableEq α]

theorem wf_cons {d : α} {k : Nat} {v : α} {t : Tab α} :
    wf d ((k, v) :: t) = true ↔ v ≠ d ∧ above k t = true ∧ wf d t = true := by
  simp [wf, above, and_assoc]

/-- A write is read back, and nothing else changes. -/
@[simp] theorem get_put (d : α) (t : Tab α) (k : Nat) (v : α) (j : Nat) : get d (put d t k v) j = if j = k then v else get d t j := by
  unfold put
  by_cases e : v = d
  · subst e
    simp [get_erase]
  · simp only [e, if_false]
    exact get_insert d t k v j

/-- Erasing keeps the canonical form. -/
theorem wf_erase (d : α) : ∀ (t : Tab α) (k : Nat), wf d t = true → wf d (erase t k) = true
  | [], _, _ => rfl
  | (k', v') :: t, k, h => by
    have h' := wf_cons.mp h
    simp only [erase]
    split
    · exact wf_erase d t k h'.2.2
    · exact wf_cons.mpr ⟨h'.1, above_erase t k k' h'.2.1, wf_erase d t k h'.2.2⟩

/-- Inserting a value other than the default keeps the canonical form. -/
theorem wf_insert (d : α) : ∀ (t : Tab α) (k : Nat) (v : α), v ≠ d → wf d t = true → wf d (insert t k v) = true
  | [], k, v, hv, _ => by simp [insert, wf, hv]
  | (k', v') :: t, k, v, hv, h => by
    have h' := wf_cons.mp h
    simp only [insert]
    split
    · rename_i hk
      refine wf_cons.mpr ⟨hv, ?_, h⟩
      simp only [above, List.all_cons, Bool.and_eq_true, decide_eq_true_eq]
      exact ⟨hk, above_of_lt t (Nat.le_of_lt hk) h'.2.1⟩
    · split
      · rename_i hk
        subst hk
        exact wf_cons.mpr ⟨hv, h'.2.1, h'.2.2⟩
      · rename_i h1 h2
        exact wf_cons.mpr ⟨h'.1, above_insert t k k' v (by omega) h'.2.1, wf_insert d t k v hv h'.2.2⟩

/-- A write keeps the canonical form. -/
theorem wf_put (d : α) (t : Tab α) (k : Nat) (v : α) (h : wf d t = true) : wf d (put d t k v) = true := by
  unfold put
  split
  · exact wf_erase d t k h
  · rename_i e
    exact wf_insert d t k v e h

end Sys2Proof.Tab
end

