-- ==== Sys2Proof/Laws/State.lean ====
section
/-! SUPPORT. The named updates of the state: what each leaves unchanged, field by field, and what it is read back as. -/
namespace Sys2Proof.Machine

/-! emit -/

@[simp] theorem emit_pending (s : State) (o : Output) : (emit s o).pending = s.pending := rfl
@[simp] theorem emit_now (s : State) (o : Output) : (emit s o).now = s.now := rfl
@[simp] theorem emit_free (s : State) (o : Output) : (emit s o).free = s.free := rfl
@[simp] theorem emit_power (s : State) (o : Output) : (emit s o).power = s.power := rfl
@[simp] theorem emit_ident (s : State) (o : Output) : (emit s o).ident = s.ident := rfl
@[simp] theorem emit_nvm (s : State) (o : Output) : (emit s o).nvm = s.nvm := rfl
@[simp] theorem emit_plug (s : State) (o : Output) : (emit s o).plug = s.plug := rfl
@[simp] theorem emit_faults_kept (s : State) (o : Output) : (emit s o).faults = s.faults := rfl
@[simp] theorem emit_journal (s : State) (o : Output) : (emit s o).journal = s.journal := rfl
@[simp] theorem emit_ports (s : State) (o : Output) : (emit s o).ports = s.ports := rfl
@[simp] theorem emit_streams (s : State) (o : Output) : (emit s o).streams = s.streams := rfl
@[simp] theorem emit_time (s : State) (o : Output) : (emit s o).time = s.time := rfl
@[simp] theorem emit_reck (s : State) (o : Output) : (emit s o).reck = s.reck := rfl
@[simp] theorem emit_pipes (s : State) (o : Output) : (emit s o).pipes = s.pipes := rfl
@[simp] theorem emit_pipesY (s : State) (o : Output) : (emit s o).pipesY = s.pipesY := rfl
@[simp] theorem emit_zones (s : State) (o : Output) : (emit s o).zones = s.zones := rfl
@[simp] theorem emit_adc (s : State) (o : Output) : (emit s o).adc = s.adc := rfl
@[simp] theorem emit_field (s : State) (o : Output) : (emit s o).field = s.field := rfl
@[simp] theorem emit_pub (s : State) (o : Output) : (emit s o).pub = s.pub := rfl
@[simp] theorem emit_pair (s : State) (o : Output) : (emit s o).pair = s.pair := rfl
@[simp] theorem emit_recallSvc (s : State) (o : Output) : (emit s o).recallSvc = s.recallSvc := rfl
@[simp] theorem emit_sealSt (s : State) (o : Output) : (emit s o).sealSt = s.sealSt := rfl
@[simp] theorem emit_tally (s : State) (o : Output) : (emit s o).tally = s.tally := rfl
@[simp] theorem emit_refusedRise (s : State) (o : Output) : (emit s o).refusedRise = s.refusedRise := rfl
@[simp] theorem emit_intakeRise (s : State) (o : Output) : (emit s o).intakeRise = s.intakeRise := rfl
@[simp] theorem emit_ringErrAt (s : State) (o : Output) : (emit s o).ringErrAt = s.ringErrAt := rfl

/-! tookFresh -/

@[simp] theorem tookFresh_pending (s : State) : (tookFresh s).pending = s.pending := rfl
@[simp] theorem tookFresh_out (s : State) : (tookFresh s).out = s.out := rfl
@[simp] theorem tookFresh_now (s : State) : (tookFresh s).now = s.now := rfl
@[simp] theorem tookFresh_power (s : State) : (tookFresh s).power = s.power := rfl
@[simp] theorem tookFresh_ident (s : State) : (tookFresh s).ident = s.ident := rfl
@[simp] theorem tookFresh_nvm (s : State) : (tookFresh s).nvm = s.nvm := rfl
@[simp] theorem tookFresh_plug (s : State) : (tookFresh s).plug = s.plug := rfl
@[simp] theorem tookFresh_faults (s : State) : (tookFresh s).faults = s.faults := rfl
@[simp] theorem tookFresh_journal (s : State) : (tookFresh s).journal = s.journal := rfl
@[simp] theorem tookFresh_ports (s : State) : (tookFresh s).ports = s.ports := rfl
@[simp] theorem tookFresh_streams (s : State) : (tookFresh s).streams = s.streams := rfl
@[simp] theorem tookFresh_time (s : State) : (tookFresh s).time = s.time := rfl
@[simp] theorem tookFresh_reck (s : State) : (tookFresh s).reck = s.reck := rfl
@[simp] theorem tookFresh_pipes (s : State) : (tookFresh s).pipes = s.pipes := rfl
@[simp] theorem tookFresh_pipesY (s : State) : (tookFresh s).pipesY = s.pipesY := rfl
@[simp] theorem tookFresh_zones (s : State) : (tookFresh s).zones = s.zones := rfl
@[simp] theorem tookFresh_adc (s : State) : (tookFresh s).adc = s.adc := rfl
@[simp] theorem tookFresh_field (s : State) : (tookFresh s).field = s.field := rfl
@[simp] theorem tookFresh_pub (s : State) : (tookFresh s).pub = s.pub := rfl
@[simp] theorem tookFresh_pair (s : State) : (tookFresh s).pair = s.pair := rfl
@[simp] theorem tookFresh_recallSvc (s : State) : (tookFresh s).recallSvc = s.recallSvc := rfl
@[simp] theorem tookFresh_sealSt (s : State) : (tookFresh s).sealSt = s.sealSt := rfl
@[simp] theorem tookFresh_tally (s : State) : (tookFresh s).tally = s.tally := rfl
@[simp] theorem tookFresh_refusedRise (s : State) : (tookFresh s).refusedRise = s.refusedRise := rfl
@[simp] theorem tookFresh_intakeRise (s : State) : (tookFresh s).intakeRise = s.intakeRise := rfl
@[simp] theorem tookFresh_ringErrAt (s : State) : (tookFresh s).ringErrAt = s.ringErrAt := rfl

/-! tallyAdd -/

@[simp] theorem tallyAdd_pending (s : State) (p w n : Nat) : (tallyAdd s p w n).pending = s.pending := rfl
@[simp] theorem tallyAdd_out (s : State) (p w n : Nat) : (tallyAdd s p w n).out = s.out := rfl
@[simp] theorem tallyAdd_now (s : State) (p w n : Nat) : (tallyAdd s p w n).now = s.now := rfl
@[simp] theorem tallyAdd_free (s : State) (p w n : Nat) : (tallyAdd s p w n).free = s.free := rfl
@[simp] theorem tallyAdd_power (s : State) (p w n : Nat) : (tallyAdd s p w n).power = s.power := rfl
@[simp] theorem tallyAdd_ident (s : State) (p w n : Nat) : (tallyAdd s p w n).ident = s.ident := rfl
@[simp] theorem tallyAdd_nvm (s : State) (p w n : Nat) : (tallyAdd s p w n).nvm = s.nvm := rfl
@[simp] theorem tallyAdd_plug (s : State) (p w n : Nat) : (tallyAdd s p w n).plug = s.plug := rfl
@[simp] theorem tallyAdd_faults_kept (s : State) (p w n : Nat) : (tallyAdd s p w n).faults = s.faults := rfl
@[simp] theorem tallyAdd_journal (s : State) (p w n : Nat) : (tallyAdd s p w n).journal = s.journal := rfl
@[simp] theorem tallyAdd_ports (s : State) (p w n : Nat) : (tallyAdd s p w n).ports = s.ports := rfl
@[simp] theorem tallyAdd_streams (s : State) (p w n : Nat) : (tallyAdd s p w n).streams = s.streams := rfl
@[simp] theorem tallyAdd_time (s : State) (p w n : Nat) : (tallyAdd s p w n).time = s.time := rfl
@[simp] theorem tallyAdd_reck (s : State) (p w n : Nat) : (tallyAdd s p w n).reck = s.reck := rfl
@[simp] theorem tallyAdd_pipes (s : State) (p w n : Nat) : (tallyAdd s p w n).pipes = s.pipes := rfl
@[simp] theorem tallyAdd_pipesY (s : State) (p w n : Nat) : (tallyAdd s p w n).pipesY = s.pipesY := rfl
@[simp] theorem tallyAdd_zones (s : State) (p w n : Nat) : (tallyAdd s p w n).zones = s.zones := rfl
@[simp] theorem tallyAdd_adc (s : State) (p w n : Nat) : (tallyAdd s p w n).adc = s.adc := rfl
@[simp] theorem tallyAdd_field (s : State) (p w n : Nat) : (tallyAdd s p w n).field = s.field := rfl
@[simp] theorem tallyAdd_pub (s : State) (p w n : Nat) : (tallyAdd s p w n).pub = s.pub := rfl
@[simp] theorem tallyAdd_pair (s : State) (p w n : Nat) : (tallyAdd s p w n).pair = s.pair := rfl
@[simp] theorem tallyAdd_recallSvc (s : State) (p w n : Nat) : (tallyAdd s p w n).recallSvc = s.recallSvc := rfl
@[simp] theorem tallyAdd_sealSt (s : State) (p w n : Nat) : (tallyAdd s p w n).sealSt = s.sealSt := rfl
@[simp] theorem tallyAdd_refusedRise (s : State) (p w n : Nat) : (tallyAdd s p w n).refusedRise = s.refusedRise := rfl
@[simp] theorem tallyAdd_intakeRise (s : State) (p w n : Nat) : (tallyAdd s p w n).intakeRise = s.intakeRise := rfl
@[simp] theorem tallyAdd_ringErrAt (s : State) (p w n : Nat) : (tallyAdd s p w n).ringErrAt = s.ringErrAt := rfl

/-! faultPut -/

@[simp] theorem faultPut_pending (s : State) (k : FaultKey) (r : FaultRec) : (faultPut s k r).pending = s.pending := rfl
@[simp] theorem faultPut_out (s : State) (k : FaultKey) (r : FaultRec) : (faultPut s k r).out = s.out := rfl
@[simp] theorem faultPut_now (s : State) (k : FaultKey) (r : FaultRec) : (faultPut s k r).now = s.now := rfl
@[simp] theorem faultPut_free (s : State) (k : FaultKey) (r : FaultRec) : (faultPut s k r).free = s.free := rfl
@[simp] theorem faultPut_power (s : State) (k : FaultKey) (r : FaultRec) : (faultPut s k r).power = s.power := rfl
@[simp] theorem faultPut_ident (s : State) (k : FaultKey) (r : FaultRec) : (faultPut s k r).ident = s.ident := rfl
@[simp] theorem faultPut_nvm (s : State) (k : FaultKey) (r : FaultRec) : (faultPut s k r).nvm = s.nvm := rfl
@[simp] theorem faultPut_plug (s : State) (k : FaultKey) (r : FaultRec) : (faultPut s k r).plug = s.plug := rfl
@[simp] theorem faultPut_journal (s : State) (k : FaultKey) (r : FaultRec) : (faultPut s k r).journal = s.journal := rfl
@[simp] theorem faultPut_ports (s : State) (k : FaultKey) (r : FaultRec) : (faultPut s k r).ports = s.ports := rfl
@[simp] theorem faultPut_streams (s : State) (k : FaultKey) (r : FaultRec) : (faultPut s k r).streams = s.streams := rfl
@[simp] theorem faultPut_time (s : State) (k : FaultKey) (r : FaultRec) : (faultPut s k r).time = s.time := rfl
@[simp] theorem faultPut_reck (s : State) (k : FaultKey) (r : FaultRec) : (faultPut s k r).reck = s.reck := rfl
@[simp] theorem faultPut_pipes (s : State) (k : FaultKey) (r : FaultRec) : (faultPut s k r).pipes = s.pipes := rfl
@[simp] theorem faultPut_pipesY (s : State) (k : FaultKey) (r : FaultRec) : (faultPut s k r).pipesY = s.pipesY := rfl
@[simp] theorem faultPut_zones (s : State) (k : FaultKey) (r : FaultRec) : (faultPut s k r).zones = s.zones := rfl
@[simp] theorem faultPut_adc (s : State) (k : FaultKey) (r : FaultRec) : (faultPut s k r).adc = s.adc := rfl
@[simp] theorem faultPut_field (s : State) (k : FaultKey) (r : FaultRec) : (faultPut s k r).field = s.field := rfl
@[simp] theorem faultPut_pub (s : State) (k : FaultKey) (r : FaultRec) : (faultPut s k r).pub = s.pub := rfl
@[simp] theorem faultPut_pair (s : State) (k : FaultKey) (r : FaultRec) : (faultPut s k r).pair = s.pair := rfl
@[simp] theorem faultPut_recallSvc (s : State) (k : FaultKey) (r : FaultRec) : (faultPut s k r).recallSvc = s.recallSvc := rfl
@[simp] theorem faultPut_sealSt (s : State) (k : FaultKey) (r : FaultRec) : (faultPut s k r).sealSt = s.sealSt := rfl
@[simp] theorem faultPut_tally (s : State) (k : FaultKey) (r : FaultRec) : (faultPut s k r).tally = s.tally := rfl
@[simp] theorem faultPut_refusedRise (s : State) (k : FaultKey) (r : FaultRec) : (faultPut s k r).refusedRise = s.refusedRise := rfl
@[simp] theorem faultPut_intakeRise (s : State) (k : FaultKey) (r : FaultRec) : (faultPut s k r).intakeRise = s.intakeRise := rfl
@[simp] theorem faultPut_ringErrAt (s : State) (k : FaultKey) (r : FaultRec) : (faultPut s k r).ringErrAt = s.ringErrAt := rfl

/-! faultSeq -/

@[simp] theorem faultSeq_pending (s : State) (k : FaultKey) : (faultSeq s k).pending = s.pending := rfl
@[simp] theorem faultSeq_out (s : State) (k : FaultKey) : (faultSeq s k).out = s.out := rfl
@[simp] theorem faultSeq_now (s : State) (k : FaultKey) : (faultSeq s k).now = s.now := rfl
@[simp] theorem faultSeq_free (s : State) (k : FaultKey) : (faultSeq s k).free = s.free := rfl
@[simp] theorem faultSeq_power (s : State) (k : FaultKey) : (faultSeq s k).power = s.power := rfl
@[simp] theorem faultSeq_ident (s : State) (k : FaultKey) : (faultSeq s k).ident = s.ident := rfl
@[simp] theorem faultSeq_nvm (s : State) (k : FaultKey) : (faultSeq s k).nvm = s.nvm := rfl
@[simp] theorem faultSeq_plug (s : State) (k : FaultKey) : (faultSeq s k).plug = s.plug := rfl
@[simp] theorem faultSeq_journal (s : State) (k : FaultKey) : (faultSeq s k).journal = s.journal := rfl
@[simp] theorem faultSeq_ports (s : State) (k : FaultKey) : (faultSeq s k).ports = s.ports := rfl
@[simp] theorem faultSeq_streams (s : State) (k : FaultKey) : (faultSeq s k).streams = s.streams := rfl
@[simp] theorem faultSeq_time (s : State) (k : FaultKey) : (faultSeq s k).time = s.time := rfl
@[simp] theorem faultSeq_reck (s : State) (k : FaultKey) : (faultSeq s k).reck = s.reck := rfl
@[simp] theorem faultSeq_pipes (s : State) (k : FaultKey) : (faultSeq s k).pipes = s.pipes := rfl
@[simp] theorem faultSeq_pipesY (s : State) (k : FaultKey) : (faultSeq s k).pipesY = s.pipesY := rfl
@[simp] theorem faultSeq_zones (s : State) (k : FaultKey) : (faultSeq s k).zones = s.zones := rfl
@[simp] theorem faultSeq_adc (s : State) (k : FaultKey) : (faultSeq s k).adc = s.adc := rfl
@[simp] theorem faultSeq_field (s : State) (k : FaultKey) : (faultSeq s k).field = s.field := rfl
@[simp] theorem faultSeq_pub (s : State) (k : FaultKey) : (faultSeq s k).pub = s.pub := rfl
@[simp] theorem faultSeq_pair (s : State) (k : FaultKey) : (faultSeq s k).pair = s.pair := rfl
@[simp] theorem faultSeq_recallSvc (s : State) (k : FaultKey) : (faultSeq s k).recallSvc = s.recallSvc := rfl
@[simp] theorem faultSeq_sealSt (s : State) (k : FaultKey) : (faultSeq s k).sealSt = s.sealSt := rfl
@[simp] theorem faultSeq_tally (s : State) (k : FaultKey) : (faultSeq s k).tally = s.tally := rfl
@[simp] theorem faultSeq_refusedRise (s : State) (k : FaultKey) : (faultSeq s k).refusedRise = s.refusedRise := rfl
@[simp] theorem faultSeq_intakeRise (s : State) (k : FaultKey) : (faultSeq s k).intakeRise = s.intakeRise := rfl
@[simp] theorem faultSeq_ringErrAt (s : State) (k : FaultKey) : (faultSeq s k).ringErrAt = s.ringErrAt := rfl

/-! svPut -/

@[simp] theorem svPut_pending (s : State) (n : Nat) (x : SvSlot) : (svPut s n x).pending = s.pending := rfl
@[simp] theorem svPut_out (s : State) (n : Nat) (x : SvSlot) : (svPut s n x).out = s.out := rfl
@[simp] theorem svPut_now (s : State) (n : Nat) (x : SvSlot) : (svPut s n x).now = s.now := rfl
@[simp] theorem svPut_free (s : State) (n : Nat) (x : SvSlot) : (svPut s n x).free = s.free := rfl
@[simp] theorem svPut_power (s : State) (n : Nat) (x : SvSlot) : (svPut s n x).power = s.power := rfl
@[simp] theorem svPut_ident (s : State) (n : Nat) (x : SvSlot) : (svPut s n x).ident = s.ident := rfl
@[simp] theorem svPut_nvm (s : State) (n : Nat) (x : SvSlot) : (svPut s n x).nvm = s.nvm := rfl
@[simp] theorem svPut_plug (s : State) (n : Nat) (x : SvSlot) : (svPut s n x).plug = s.plug := rfl
@[simp] theorem svPut_faults (s : State) (n : Nat) (x : SvSlot) : (svPut s n x).faults = s.faults := rfl
@[simp] theorem svPut_journal (s : State) (n : Nat) (x : SvSlot) : (svPut s n x).journal = s.journal := rfl
@[simp] theorem svPut_ports (s : State) (n : Nat) (x : SvSlot) : (svPut s n x).ports = s.ports := rfl
@[simp] theorem svPut_time (s : State) (n : Nat) (x : SvSlot) : (svPut s n x).time = s.time := rfl
@[simp] theorem svPut_reck (s : State) (n : Nat) (x : SvSlot) : (svPut s n x).reck = s.reck := rfl
@[simp] theorem svPut_pipes (s : State) (n : Nat) (x : SvSlot) : (svPut s n x).pipes = s.pipes := rfl
@[simp] theorem svPut_pipesY (s : State) (n : Nat) (x : SvSlot) : (svPut s n x).pipesY = s.pipesY := rfl
@[simp] theorem svPut_zones (s : State) (n : Nat) (x : SvSlot) : (svPut s n x).zones = s.zones := rfl
@[simp] theorem svPut_adc (s : State) (n : Nat) (x : SvSlot) : (svPut s n x).adc = s.adc := rfl
@[simp] theorem svPut_field (s : State) (n : Nat) (x : SvSlot) : (svPut s n x).field = s.field := rfl
@[simp] theorem svPut_pub (s : State) (n : Nat) (x : SvSlot) : (svPut s n x).pub = s.pub := rfl
@[simp] theorem svPut_pair (s : State) (n : Nat) (x : SvSlot) : (svPut s n x).pair = s.pair := rfl
@[simp] theorem svPut_recallSvc (s : State) (n : Nat) (x : SvSlot) : (svPut s n x).recallSvc = s.recallSvc := rfl
@[simp] theorem svPut_sealSt (s : State) (n : Nat) (x : SvSlot) : (svPut s n x).sealSt = s.sealSt := rfl
@[simp] theorem svPut_tally (s : State) (n : Nat) (x : SvSlot) : (svPut s n x).tally = s.tally := rfl
@[simp] theorem svPut_refusedRise (s : State) (n : Nat) (x : SvSlot) : (svPut s n x).refusedRise = s.refusedRise := rfl
@[simp] theorem svPut_intakeRise (s : State) (n : Nat) (x : SvSlot) : (svPut s n x).intakeRise = s.intakeRise := rfl
@[simp] theorem svPut_ringErrAt (s : State) (n : Nat) (x : SvSlot) : (svPut s n x).ringErrAt = s.ringErrAt := rfl

/-! brkPut -/

@[simp] theorem brkPut_pending (s : State) (n : Nat) (x : BrkSlot) : (brkPut s n x).pending = s.pending := rfl
@[simp] theorem brkPut_out (s : State) (n : Nat) (x : BrkSlot) : (brkPut s n x).out = s.out := rfl
@[simp] theorem brkPut_now (s : State) (n : Nat) (x : BrkSlot) : (brkPut s n x).now = s.now := rfl
@[simp] theorem brkPut_free (s : State) (n : Nat) (x : BrkSlot) : (brkPut s n x).free = s.free := rfl
@[simp] theorem brkPut_power (s : State) (n : Nat) (x : BrkSlot) : (brkPut s n x).power = s.power := rfl
@[simp] theorem brkPut_ident (s : State) (n : Nat) (x : BrkSlot) : (brkPut s n x).ident = s.ident := rfl
@[simp] theorem brkPut_nvm (s : State) (n : Nat) (x : BrkSlot) : (brkPut s n x).nvm = s.nvm := rfl
@[simp] theorem brkPut_plug (s : State) (n : Nat) (x : BrkSlot) : (brkPut s n x).plug = s.plug := rfl
@[simp] theorem brkPut_faults (s : State) (n : Nat) (x : BrkSlot) : (brkPut s n x).faults = s.faults := rfl
@[simp] theorem brkPut_journal (s : State) (n : Nat) (x : BrkSlot) : (brkPut s n x).journal = s.journal := rfl
@[simp] theorem brkPut_ports (s : State) (n : Nat) (x : BrkSlot) : (brkPut s n x).ports = s.ports := rfl
@[simp] theorem brkPut_time (s : State) (n : Nat) (x : BrkSlot) : (brkPut s n x).time = s.time := rfl
@[simp] theorem brkPut_reck (s : State) (n : Nat) (x : BrkSlot) : (brkPut s n x).reck = s.reck := rfl
@[simp] theorem brkPut_pipes (s : State) (n : Nat) (x : BrkSlot) : (brkPut s n x).pipes = s.pipes := rfl
@[simp] theorem brkPut_pipesY (s : State) (n : Nat) (x : BrkSlot) : (brkPut s n x).pipesY = s.pipesY := rfl
@[simp] theorem brkPut_zones (s : State) (n : Nat) (x : BrkSlot) : (brkPut s n x).zones = s.zones := rfl
@[simp] theorem brkPut_adc (s : State) (n : Nat) (x : BrkSlot) : (brkPut s n x).adc = s.adc := rfl
@[simp] theorem brkPut_field (s : State) (n : Nat) (x : BrkSlot) : (brkPut s n x).field = s.field := rfl
@[simp] theorem brkPut_pub (s : State) (n : Nat) (x : BrkSlot) : (brkPut s n x).pub = s.pub := rfl
@[simp] theorem brkPut_pair (s : State) (n : Nat) (x : BrkSlot) : (brkPut s n x).pair = s.pair := rfl
@[simp] theorem brkPut_recallSvc (s : State) (n : Nat) (x : BrkSlot) : (brkPut s n x).recallSvc = s.recallSvc := rfl
@[simp] theorem brkPut_sealSt (s : State) (n : Nat) (x : BrkSlot) : (brkPut s n x).sealSt = s.sealSt := rfl
@[simp] theorem brkPut_tally (s : State) (n : Nat) (x : BrkSlot) : (brkPut s n x).tally = s.tally := rfl
@[simp] theorem brkPut_refusedRise (s : State) (n : Nat) (x : BrkSlot) : (brkPut s n x).refusedRise = s.refusedRise := rfl
@[simp] theorem brkPut_intakeRise (s : State) (n : Nat) (x : BrkSlot) : (brkPut s n x).intakeRise = s.intakeRise := rfl
@[simp] theorem brkPut_ringErrAt (s : State) (n : Nat) (x : BrkSlot) : (brkPut s n x).ringErrAt = s.ringErrAt := rfl

/-! pipePut -/

@[simp] theorem pipePut_pending (s : State) (n : Nat) (x : Pipe) : (pipePut s n x).pending = s.pending := rfl
@[simp] theorem pipePut_out (s : State) (n : Nat) (x : Pipe) : (pipePut s n x).out = s.out := rfl
@[simp] theorem pipePut_now (s : State) (n : Nat) (x : Pipe) : (pipePut s n x).now = s.now := rfl
@[simp] theorem pipePut_free (s : State) (n : Nat) (x : Pipe) : (pipePut s n x).free = s.free := rfl
@[simp] theorem pipePut_power (s : State) (n : Nat) (x : Pipe) : (pipePut s n x).power = s.power := rfl
@[simp] theorem pipePut_ident (s : State) (n : Nat) (x : Pipe) : (pipePut s n x).ident = s.ident := rfl
@[simp] theorem pipePut_nvm (s : State) (n : Nat) (x : Pipe) : (pipePut s n x).nvm = s.nvm := rfl
@[simp] theorem pipePut_plug (s : State) (n : Nat) (x : Pipe) : (pipePut s n x).plug = s.plug := rfl
@[simp] theorem pipePut_faults (s : State) (n : Nat) (x : Pipe) : (pipePut s n x).faults = s.faults := rfl
@[simp] theorem pipePut_journal (s : State) (n : Nat) (x : Pipe) : (pipePut s n x).journal = s.journal := rfl
@[simp] theorem pipePut_ports (s : State) (n : Nat) (x : Pipe) : (pipePut s n x).ports = s.ports := rfl
@[simp] theorem pipePut_streams (s : State) (n : Nat) (x : Pipe) : (pipePut s n x).streams = s.streams := rfl
@[simp] theorem pipePut_time (s : State) (n : Nat) (x : Pipe) : (pipePut s n x).time = s.time := rfl
@[simp] theorem pipePut_reck (s : State) (n : Nat) (x : Pipe) : (pipePut s n x).reck = s.reck := rfl
@[simp] theorem pipePut_pipesY (s : State) (n : Nat) (x : Pipe) : (pipePut s n x).pipesY = s.pipesY := rfl
@[simp] theorem pipePut_zones (s : State) (n : Nat) (x : Pipe) : (pipePut s n x).zones = s.zones := rfl
@[simp] theorem pipePut_adc (s : State) (n : Nat) (x : Pipe) : (pipePut s n x).adc = s.adc := rfl
@[simp] theorem pipePut_field (s : State) (n : Nat) (x : Pipe) : (pipePut s n x).field = s.field := rfl
@[simp] theorem pipePut_pub (s : State) (n : Nat) (x : Pipe) : (pipePut s n x).pub = s.pub := rfl
@[simp] theorem pipePut_pair (s : State) (n : Nat) (x : Pipe) : (pipePut s n x).pair = s.pair := rfl
@[simp] theorem pipePut_recallSvc (s : State) (n : Nat) (x : Pipe) : (pipePut s n x).recallSvc = s.recallSvc := rfl
@[simp] theorem pipePut_sealSt (s : State) (n : Nat) (x : Pipe) : (pipePut s n x).sealSt = s.sealSt := rfl
@[simp] theorem pipePut_tally (s : State) (n : Nat) (x : Pipe) : (pipePut s n x).tally = s.tally := rfl
@[simp] theorem pipePut_refusedRise (s : State) (n : Nat) (x : Pipe) : (pipePut s n x).refusedRise = s.refusedRise := rfl
@[simp] theorem pipePut_intakeRise (s : State) (n : Nat) (x : Pipe) : (pipePut s n x).intakeRise = s.intakeRise := rfl
@[simp] theorem pipePut_ringErrAt (s : State) (n : Nat) (x : Pipe) : (pipePut s n x).ringErrAt = s.ringErrAt := rfl

/-! lanesPut -/

@[simp] theorem lanesPut_pending (s : State) (n : Nat) (x y : Pipe) : (lanesPut s n x y).pending = s.pending := rfl
@[simp] theorem lanesPut_out (s : State) (n : Nat) (x y : Pipe) : (lanesPut s n x y).out = s.out := rfl
@[simp] theorem lanesPut_now (s : State) (n : Nat) (x y : Pipe) : (lanesPut s n x y).now = s.now := rfl
@[simp] theorem lanesPut_free (s : State) (n : Nat) (x y : Pipe) : (lanesPut s n x y).free = s.free := rfl
@[simp] theorem lanesPut_power (s : State) (n : Nat) (x y : Pipe) : (lanesPut s n x y).power = s.power := rfl
@[simp] theorem lanesPut_ident (s : State) (n : Nat) (x y : Pipe) : (lanesPut s n x y).ident = s.ident := rfl
@[simp] theorem lanesPut_nvm (s : State) (n : Nat) (x y : Pipe) : (lanesPut s n x y).nvm = s.nvm := rfl
@[simp] theorem lanesPut_plug (s : State) (n : Nat) (x y : Pipe) : (lanesPut s n x y).plug = s.plug := rfl
@[simp] theorem lanesPut_faults (s : State) (n : Nat) (x y : Pipe) : (lanesPut s n x y).faults = s.faults := rfl
@[simp] theorem lanesPut_journal (s : State) (n : Nat) (x y : Pipe) : (lanesPut s n x y).journal = s.journal := rfl
@[simp] theorem lanesPut_ports (s : State) (n : Nat) (x y : Pipe) : (lanesPut s n x y).ports = s.ports := rfl
@[simp] theorem lanesPut_streams (s : State) (n : Nat) (x y : Pipe) : (lanesPut s n x y).streams = s.streams := rfl
@[simp] theorem lanesPut_time (s : State) (n : Nat) (x y : Pipe) : (lanesPut s n x y).time = s.time := rfl
@[simp] theorem lanesPut_reck (s : State) (n : Nat) (x y : Pipe) : (lanesPut s n x y).reck = s.reck := rfl
@[simp] theorem lanesPut_zones (s : State) (n : Nat) (x y : Pipe) : (lanesPut s n x y).zones = s.zones := rfl
@[simp] theorem lanesPut_adc (s : State) (n : Nat) (x y : Pipe) : (lanesPut s n x y).adc = s.adc := rfl
@[simp] theorem lanesPut_field (s : State) (n : Nat) (x y : Pipe) : (lanesPut s n x y).field = s.field := rfl
@[simp] theorem lanesPut_pub (s : State) (n : Nat) (x y : Pipe) : (lanesPut s n x y).pub = s.pub := rfl
@[simp] theorem lanesPut_pair (s : State) (n : Nat) (x y : Pipe) : (lanesPut s n x y).pair = s.pair := rfl
@[simp] theorem lanesPut_recallSvc (s : State) (n : Nat) (x y : Pipe) : (lanesPut s n x y).recallSvc = s.recallSvc := rfl
@[simp] theorem lanesPut_sealSt (s : State) (n : Nat) (x y : Pipe) : (lanesPut s n x y).sealSt = s.sealSt := rfl
@[simp] theorem lanesPut_tally (s : State) (n : Nat) (x y : Pipe) : (lanesPut s n x y).tally = s.tally := rfl
@[simp] theorem lanesPut_refusedRise (s : State) (n : Nat) (x y : Pipe) : (lanesPut s n x y).refusedRise = s.refusedRise := rfl
@[simp] theorem lanesPut_intakeRise (s : State) (n : Nat) (x y : Pipe) : (lanesPut s n x y).intakeRise = s.intakeRise := rfl
@[simp] theorem lanesPut_ringErrAt (s : State) (n : Nat) (x y : Pipe) : (lanesPut s n x y).ringErrAt = s.ringErrAt := rfl

/-! pipeClear -/

@[simp] theorem pipeClear_pending (s : State) (n : Nat) : (pipeClear s n).pending = s.pending := rfl
@[simp] theorem pipeClear_out (s : State) (n : Nat) : (pipeClear s n).out = s.out := rfl
@[simp] theorem pipeClear_now (s : State) (n : Nat) : (pipeClear s n).now = s.now := rfl
@[simp] theorem pipeClear_free (s : State) (n : Nat) : (pipeClear s n).free = s.free := rfl
@[simp] theorem pipeClear_power (s : State) (n : Nat) : (pipeClear s n).power = s.power := rfl
@[simp] theorem pipeClear_ident (s : State) (n : Nat) : (pipeClear s n).ident = s.ident := rfl
@[simp] theorem pipeClear_nvm (s : State) (n : Nat) : (pipeClear s n).nvm = s.nvm := rfl
@[simp] theorem pipeClear_plug (s : State) (n : Nat) : (pipeClear s n).plug = s.plug := rfl
@[simp] theorem pipeClear_faults (s : State) (n : Nat) : (pipeClear s n).faults = s.faults := rfl
@[simp] theorem pipeClear_journal (s : State) (n : Nat) : (pipeClear s n).journal = s.journal := rfl
@[simp] theorem pipeClear_ports (s : State) (n : Nat) : (pipeClear s n).ports = s.ports := rfl
@[simp] theorem pipeClear_streams (s : State) (n : Nat) : (pipeClear s n).streams = s.streams := rfl
@[simp] theorem pipeClear_time (s : State) (n : Nat) : (pipeClear s n).time = s.time := rfl
@[simp] theorem pipeClear_reck (s : State) (n : Nat) : (pipeClear s n).reck = s.reck := rfl
@[simp] theorem pipeClear_zones (s : State) (n : Nat) : (pipeClear s n).zones = s.zones := rfl
@[simp] theorem pipeClear_adc (s : State) (n : Nat) : (pipeClear s n).adc = s.adc := rfl
@[simp] theorem pipeClear_field (s : State) (n : Nat) : (pipeClear s n).field = s.field := rfl
@[simp] theorem pipeClear_pub (s : State) (n : Nat) : (pipeClear s n).pub = s.pub := rfl
@[simp] theorem pipeClear_pair (s : State) (n : Nat) : (pipeClear s n).pair = s.pair := rfl
@[simp] theorem pipeClear_recallSvc (s : State) (n : Nat) : (pipeClear s n).recallSvc = s.recallSvc := rfl
@[simp] theorem pipeClear_sealSt (s : State) (n : Nat) : (pipeClear s n).sealSt = s.sealSt := rfl
@[simp] theorem pipeClear_tally (s : State) (n : Nat) : (pipeClear s n).tally = s.tally := rfl
@[simp] theorem pipeClear_refusedRise (s : State) (n : Nat) : (pipeClear s n).refusedRise = s.refusedRise := rfl
@[simp] theorem pipeClear_intakeRise (s : State) (n : Nat) : (pipeClear s n).intakeRise = s.intakeRise := rfl
@[simp] theorem pipeClear_ringErrAt (s : State) (n : Nat) : (pipeClear s n).ringErrAt = s.ringErrAt := rfl

/-! zonePut -/

@[simp] theorem zonePut_pending (s : State) (n : Nat) (x : Zone) : (zonePut s n x).pending = s.pending := rfl
@[simp] theorem zonePut_out (s : State) (n : Nat) (x : Zone) : (zonePut s n x).out = s.out := rfl
@[simp] theorem zonePut_now (s : State) (n : Nat) (x : Zone) : (zonePut s n x).now = s.now := rfl
@[simp] theorem zonePut_free (s : State) (n : Nat) (x : Zone) : (zonePut s n x).free = s.free := rfl
@[simp] theorem zonePut_power (s : State) (n : Nat) (x : Zone) : (zonePut s n x).power = s.power := rfl
@[simp] theorem zonePut_ident (s : State) (n : Nat) (x : Zone) : (zonePut s n x).ident = s.ident := rfl
@[simp] theorem zonePut_nvm (s : State) (n : Nat) (x : Zone) : (zonePut s n x).nvm = s.nvm := rfl
@[simp] theorem zonePut_plug (s : State) (n : Nat) (x : Zone) : (zonePut s n x).plug = s.plug := rfl
@[simp] theorem zonePut_faults (s : State) (n : Nat) (x : Zone) : (zonePut s n x).faults = s.faults := rfl
@[simp] theorem zonePut_journal (s : State) (n : Nat) (x : Zone) : (zonePut s n x).journal = s.journal := rfl
@[simp] theorem zonePut_ports (s : State) (n : Nat) (x : Zone) : (zonePut s n x).ports = s.ports := rfl
@[simp] theorem zonePut_streams (s : State) (n : Nat) (x : Zone) : (zonePut s n x).streams = s.streams := rfl
@[simp] theorem zonePut_time (s : State) (n : Nat) (x : Zone) : (zonePut s n x).time = s.time := rfl
@[simp] theorem zonePut_reck (s : State) (n : Nat) (x : Zone) : (zonePut s n x).reck = s.reck := rfl
@[simp] theorem zonePut_pipes (s : State) (n : Nat) (x : Zone) : (zonePut s n x).pipes = s.pipes := rfl
@[simp] theorem zonePut_pipesY (s : State) (n : Nat) (x : Zone) : (zonePut s n x).pipesY = s.pipesY := rfl
@[simp] theorem zonePut_adc (s : State) (n : Nat) (x : Zone) : (zonePut s n x).adc = s.adc := rfl
@[simp] theorem zonePut_field (s : State) (n : Nat) (x : Zone) : (zonePut s n x).field = s.field := rfl
@[simp] theorem zonePut_pub (s : State) (n : Nat) (x : Zone) : (zonePut s n x).pub = s.pub := rfl
@[simp] theorem zonePut_pair (s : State) (n : Nat) (x : Zone) : (zonePut s n x).pair = s.pair := rfl
@[simp] theorem zonePut_recallSvc (s : State) (n : Nat) (x : Zone) : (zonePut s n x).recallSvc = s.recallSvc := rfl
@[simp] theorem zonePut_sealSt (s : State) (n : Nat) (x : Zone) : (zonePut s n x).sealSt = s.sealSt := rfl
@[simp] theorem zonePut_tally (s : State) (n : Nat) (x : Zone) : (zonePut s n x).tally = s.tally := rfl
@[simp] theorem zonePut_refusedRise (s : State) (n : Nat) (x : Zone) : (zonePut s n x).refusedRise = s.refusedRise := rfl
@[simp] theorem zonePut_intakeRise (s : State) (n : Nat) (x : Zone) : (zonePut s n x).intakeRise = s.intakeRise := rfl
@[simp] theorem zonePut_ringErrAt (s : State) (n : Nat) (x : Zone) : (zonePut s n x).ringErrAt = s.ringErrAt := rfl

/-! coilPut -/

@[simp] theorem coilPut_pending (s : State) (n : Nat) (x : Coil) : (coilPut s n x).pending = s.pending := rfl
@[simp] theorem coilPut_out (s : State) (n : Nat) (x : Coil) : (coilPut s n x).out = s.out := rfl
@[simp] theorem coilPut_now (s : State) (n : Nat) (x : Coil) : (coilPut s n x).now = s.now := rfl
@[simp] theorem coilPut_free (s : State) (n : Nat) (x : Coil) : (coilPut s n x).free = s.free := rfl
@[simp] theorem coilPut_power (s : State) (n : Nat) (x : Coil) : (coilPut s n x).power = s.power := rfl
@[simp] theorem coilPut_ident (s : State) (n : Nat) (x : Coil) : (coilPut s n x).ident = s.ident := rfl
@[simp] theorem coilPut_nvm (s : State) (n : Nat) (x : Coil) : (coilPut s n x).nvm = s.nvm := rfl
@[simp] theorem coilPut_plug (s : State) (n : Nat) (x : Coil) : (coilPut s n x).plug = s.plug := rfl
@[simp] theorem coilPut_faults (s : State) (n : Nat) (x : Coil) : (coilPut s n x).faults = s.faults := rfl
@[simp] theorem coilPut_journal (s : State) (n : Nat) (x : Coil) : (coilPut s n x).journal = s.journal := rfl
@[simp] theorem coilPut_ports (s : State) (n : Nat) (x : Coil) : (coilPut s n x).ports = s.ports := rfl
@[simp] theorem coilPut_streams (s : State) (n : Nat) (x : Coil) : (coilPut s n x).streams = s.streams := rfl
@[simp] theorem coilPut_time (s : State) (n : Nat) (x : Coil) : (coilPut s n x).time = s.time := rfl
@[simp] theorem coilPut_pipes (s : State) (n : Nat) (x : Coil) : (coilPut s n x).pipes = s.pipes := rfl
@[simp] theorem coilPut_pipesY (s : State) (n : Nat) (x : Coil) : (coilPut s n x).pipesY = s.pipesY := rfl
@[simp] theorem coilPut_zones (s : State) (n : Nat) (x : Coil) : (coilPut s n x).zones = s.zones := rfl
@[simp] theorem coilPut_adc (s : State) (n : Nat) (x : Coil) : (coilPut s n x).adc = s.adc := rfl
@[simp] theorem coilPut_field (s : State) (n : Nat) (x : Coil) : (coilPut s n x).field = s.field := rfl
@[simp] theorem coilPut_pub (s : State) (n : Nat) (x : Coil) : (coilPut s n x).pub = s.pub := rfl
@[simp] theorem coilPut_pair (s : State) (n : Nat) (x : Coil) : (coilPut s n x).pair = s.pair := rfl
@[simp] theorem coilPut_recallSvc (s : State) (n : Nat) (x : Coil) : (coilPut s n x).recallSvc = s.recallSvc := rfl
@[simp] theorem coilPut_sealSt (s : State) (n : Nat) (x : Coil) : (coilPut s n x).sealSt = s.sealSt := rfl
@[simp] theorem coilPut_tally (s : State) (n : Nat) (x : Coil) : (coilPut s n x).tally = s.tally := rfl
@[simp] theorem coilPut_refusedRise (s : State) (n : Nat) (x : Coil) : (coilPut s n x).refusedRise = s.refusedRise := rfl
@[simp] theorem coilPut_intakeRise (s : State) (n : Nat) (x : Coil) : (coilPut s n x).intakeRise = s.intakeRise := rfl
@[simp] theorem coilPut_ringErrAt (s : State) (n : Nat) (x : Coil) : (coilPut s n x).ringErrAt = s.ringErrAt := rfl

/-! chPut -/

@[simp] theorem chPut_pending (s : State) (n : Nat) (x : Channel) : (chPut s n x).pending = s.pending := rfl
@[simp] theorem chPut_out (s : State) (n : Nat) (x : Channel) : (chPut s n x).out = s.out := rfl
@[simp] theorem chPut_now (s : State) (n : Nat) (x : Channel) : (chPut s n x).now = s.now := rfl
@[simp] theorem chPut_free (s : State) (n : Nat) (x : Channel) : (chPut s n x).free = s.free := rfl
@[simp] theorem chPut_power (s : State) (n : Nat) (x : Channel) : (chPut s n x).power = s.power := rfl
@[simp] theorem chPut_ident (s : State) (n : Nat) (x : Channel) : (chPut s n x).ident = s.ident := rfl
@[simp] theorem chPut_nvm (s : State) (n : Nat) (x : Channel) : (chPut s n x).nvm = s.nvm := rfl
@[simp] theorem chPut_plug (s : State) (n : Nat) (x : Channel) : (chPut s n x).plug = s.plug := rfl
@[simp] theorem chPut_faults (s : State) (n : Nat) (x : Channel) : (chPut s n x).faults = s.faults := rfl
@[simp] theorem chPut_journal (s : State) (n : Nat) (x : Channel) : (chPut s n x).journal = s.journal := rfl
@[simp] theorem chPut_ports (s : State) (n : Nat) (x : Channel) : (chPut s n x).ports = s.ports := rfl
@[simp] theorem chPut_streams (s : State) (n : Nat) (x : Channel) : (chPut s n x).streams = s.streams := rfl
@[simp] theorem chPut_time (s : State) (n : Nat) (x : Channel) : (chPut s n x).time = s.time := rfl
@[simp] theorem chPut_reck (s : State) (n : Nat) (x : Channel) : (chPut s n x).reck = s.reck := rfl
@[simp] theorem chPut_pipes (s : State) (n : Nat) (x : Channel) : (chPut s n x).pipes = s.pipes := rfl
@[simp] theorem chPut_pipesY (s : State) (n : Nat) (x : Channel) : (chPut s n x).pipesY = s.pipesY := rfl
@[simp] theorem chPut_zones (s : State) (n : Nat) (x : Channel) : (chPut s n x).zones = s.zones := rfl
@[simp] theorem chPut_adc (s : State) (n : Nat) (x : Channel) : (chPut s n x).adc = s.adc := rfl
@[simp] theorem chPut_pub (s : State) (n : Nat) (x : Channel) : (chPut s n x).pub = s.pub := rfl
@[simp] theorem chPut_pair (s : State) (n : Nat) (x : Channel) : (chPut s n x).pair = s.pair := rfl
@[simp] theorem chPut_recallSvc (s : State) (n : Nat) (x : Channel) : (chPut s n x).recallSvc = s.recallSvc := rfl
@[simp] theorem chPut_sealSt (s : State) (n : Nat) (x : Channel) : (chPut s n x).sealSt = s.sealSt := rfl
@[simp] theorem chPut_tally (s : State) (n : Nat) (x : Channel) : (chPut s n x).tally = s.tally := rfl
@[simp] theorem chPut_refusedRise (s : State) (n : Nat) (x : Channel) : (chPut s n x).refusedRise = s.refusedRise := rfl
@[simp] theorem chPut_intakeRise (s : State) (n : Nat) (x : Channel) : (chPut s n x).intakeRise = s.intakeRise := rfl
@[simp] theorem chPut_ringErrAt (s : State) (n : Nat) (x : Channel) : (chPut s n x).ringErrAt = s.ringErrAt := rfl

/-! pubPut -/

@[simp] theorem pubPut_pending (s : State) (n : Nat) (x : Publication) : (pubPut s n x).pending = s.pending := rfl
@[simp] theorem pubPut_out (s : State) (n : Nat) (x : Publication) : (pubPut s n x).out = s.out := rfl
@[simp] theorem pubPut_now (s : State) (n : Nat) (x : Publication) : (pubPut s n x).now = s.now := rfl
@[simp] theorem pubPut_free (s : State) (n : Nat) (x : Publication) : (pubPut s n x).free = s.free := rfl
@[simp] theorem pubPut_power (s : State) (n : Nat) (x : Publication) : (pubPut s n x).power = s.power := rfl
@[simp] theorem pubPut_ident (s : State) (n : Nat) (x : Publication) : (pubPut s n x).ident = s.ident := rfl
@[simp] theorem pubPut_nvm (s : State) (n : Nat) (x : Publication) : (pubPut s n x).nvm = s.nvm := rfl
@[simp] theorem pubPut_plug (s : State) (n : Nat) (x : Publication) : (pubPut s n x).plug = s.plug := rfl
@[simp] theorem pubPut_faults (s : State) (n : Nat) (x : Publication) : (pubPut s n x).faults = s.faults := rfl
@[simp] theorem pubPut_journal (s : State) (n : Nat) (x : Publication) : (pubPut s n x).journal = s.journal := rfl
@[simp] theorem pubPut_ports (s : State) (n : Nat) (x : Publication) : (pubPut s n x).ports = s.ports := rfl
@[simp] theorem pubPut_streams (s : State) (n : Nat) (x : Publication) : (pubPut s n x).streams = s.streams := rfl
@[simp] theorem pubPut_time (s : State) (n : Nat) (x : Publication) : (pubPut s n x).time = s.time := rfl
@[simp] theorem pubPut_reck (s : State) (n : Nat) (x : Publication) : (pubPut s n x).reck = s.reck := rfl
@[simp] theorem pubPut_pipes (s : State) (n : Nat) (x : Publication) : (pubPut s n x).pipes = s.pipes := rfl
@[simp] theorem pubPut_pipesY (s : State) (n : Nat) (x : Publication) : (pubPut s n x).pipesY = s.pipesY := rfl
@[simp] theorem pubPut_zones (s : State) (n : Nat) (x : Publication) : (pubPut s n x).zones = s.zones := rfl
@[simp] theorem pubPut_adc (s : State) (n : Nat) (x : Publication) : (pubPut s n x).adc = s.adc := rfl
@[simp] theorem pubPut_field (s : State) (n : Nat) (x : Publication) : (pubPut s n x).field = s.field := rfl
@[simp] theorem pubPut_pair (s : State) (n : Nat) (x : Publication) : (pubPut s n x).pair = s.pair := rfl
@[simp] theorem pubPut_recallSvc (s : State) (n : Nat) (x : Publication) : (pubPut s n x).recallSvc = s.recallSvc := rfl
@[simp] theorem pubPut_sealSt (s : State) (n : Nat) (x : Publication) : (pubPut s n x).sealSt = s.sealSt := rfl
@[simp] theorem pubPut_tally (s : State) (n : Nat) (x : Publication) : (pubPut s n x).tally = s.tally := rfl
@[simp] theorem pubPut_refusedRise (s : State) (n : Nat) (x : Publication) : (pubPut s n x).refusedRise = s.refusedRise := rfl
@[simp] theorem pubPut_intakeRise (s : State) (n : Nat) (x : Publication) : (pubPut s n x).intakeRise = s.intakeRise := rfl
@[simp] theorem pubPut_ringErrAt (s : State) (n : Nat) (x : Publication) : (pubPut s n x).ringErrAt = s.ringErrAt := rfl

/-! sessionPut -/

@[simp] theorem sessionPut_pending (s : State) (n : Nat) (x : Session) : (sessionPut s n x).pending = s.pending := rfl
@[simp] theorem sessionPut_out (s : State) (n : Nat) (x : Session) : (sessionPut s n x).out = s.out := rfl
@[simp] theorem sessionPut_now (s : State) (n : Nat) (x : Session) : (sessionPut s n x).now = s.now := rfl
@[simp] theorem sessionPut_free (s : State) (n : Nat) (x : Session) : (sessionPut s n x).free = s.free := rfl
@[simp] theorem sessionPut_power (s : State) (n : Nat) (x : Session) : (sessionPut s n x).power = s.power := rfl
@[simp] theorem sessionPut_ident (s : State) (n : Nat) (x : Session) : (sessionPut s n x).ident = s.ident := rfl
@[simp] theorem sessionPut_nvm (s : State) (n : Nat) (x : Session) : (sessionPut s n x).nvm = s.nvm := rfl
@[simp] theorem sessionPut_plug (s : State) (n : Nat) (x : Session) : (sessionPut s n x).plug = s.plug := rfl
@[simp] theorem sessionPut_faults (s : State) (n : Nat) (x : Session) : (sessionPut s n x).faults = s.faults := rfl
@[simp] theorem sessionPut_journal (s : State) (n : Nat) (x : Session) : (sessionPut s n x).journal = s.journal := rfl
@[simp] theorem sessionPut_ports (s : State) (n : Nat) (x : Session) : (sessionPut s n x).ports = s.ports := rfl
@[simp] theorem sessionPut_streams (s : State) (n : Nat) (x : Session) : (sessionPut s n x).streams = s.streams := rfl
@[simp] theorem sessionPut_time (s : State) (n : Nat) (x : Session) : (sessionPut s n x).time = s.time := rfl
@[simp] theorem sessionPut_reck (s : State) (n : Nat) (x : Session) : (sessionPut s n x).reck = s.reck := rfl
@[simp] theorem sessionPut_pipes (s : State) (n : Nat) (x : Session) : (sessionPut s n x).pipes = s.pipes := rfl
@[simp] theorem sessionPut_pipesY (s : State) (n : Nat) (x : Session) : (sessionPut s n x).pipesY = s.pipesY := rfl
@[simp] theorem sessionPut_zones (s : State) (n : Nat) (x : Session) : (sessionPut s n x).zones = s.zones := rfl
@[simp] theorem sessionPut_adc (s : State) (n : Nat) (x : Session) : (sessionPut s n x).adc = s.adc := rfl
@[simp] theorem sessionPut_field (s : State) (n : Nat) (x : Session) : (sessionPut s n x).field = s.field := rfl
@[simp] theorem sessionPut_pub (s : State) (n : Nat) (x : Session) : (sessionPut s n x).pub = s.pub := rfl
@[simp] theorem sessionPut_pair (s : State) (n : Nat) (x : Session) : (sessionPut s n x).pair = s.pair := rfl
@[simp] theorem sessionPut_sealSt (s : State) (n : Nat) (x : Session) : (sessionPut s n x).sealSt = s.sealSt := rfl
@[simp] theorem sessionPut_tally (s : State) (n : Nat) (x : Session) : (sessionPut s n x).tally = s.tally := rfl
@[simp] theorem sessionPut_refusedRise (s : State) (n : Nat) (x : Session) : (sessionPut s n x).refusedRise = s.refusedRise := rfl
@[simp] theorem sessionPut_intakeRise (s : State) (n : Nat) (x : Session) : (sessionPut s n x).intakeRise = s.intakeRise := rfl
@[simp] theorem sessionPut_ringErrAt (s : State) (n : Nat) (x : Session) : (sessionPut s n x).ringErrAt = s.ringErrAt := rfl

/-! pageUpd -/

@[simp] theorem pageUpd_pending (s : State) (n : Nat) (f : Page → Page) : (pageUpd s n f).pending = s.pending := rfl
@[simp] theorem pageUpd_out (s : State) (n : Nat) (f : Page → Page) : (pageUpd s n f).out = s.out := rfl
@[simp] theorem pageUpd_now (s : State) (n : Nat) (f : Page → Page) : (pageUpd s n f).now = s.now := rfl
@[simp] theorem pageUpd_free (s : State) (n : Nat) (f : Page → Page) : (pageUpd s n f).free = s.free := rfl
@[simp] theorem pageUpd_power (s : State) (n : Nat) (f : Page → Page) : (pageUpd s n f).power = s.power := rfl
@[simp] theorem pageUpd_ident (s : State) (n : Nat) (f : Page → Page) : (pageUpd s n f).ident = s.ident := rfl
@[simp] theorem pageUpd_nvm (s : State) (n : Nat) (f : Page → Page) : (pageUpd s n f).nvm = s.nvm := rfl
@[simp] theorem pageUpd_plug (s : State) (n : Nat) (f : Page → Page) : (pageUpd s n f).plug = s.plug := rfl
@[simp] theorem pageUpd_faults (s : State) (n : Nat) (f : Page → Page) : (pageUpd s n f).faults = s.faults := rfl
@[simp] theorem pageUpd_ports (s : State) (n : Nat) (f : Page → Page) : (pageUpd s n f).ports = s.ports := rfl
@[simp] theorem pageUpd_streams (s : State) (n : Nat) (f : Page → Page) : (pageUpd s n f).streams = s.streams := rfl
@[simp] theorem pageUpd_time (s : State) (n : Nat) (f : Page → Page) : (pageUpd s n f).time = s.time := rfl
@[simp] theorem pageUpd_reck (s : State) (n : Nat) (f : Page → Page) : (pageUpd s n f).reck = s.reck := rfl
@[simp] theorem pageUpd_pipes (s : State) (n : Nat) (f : Page → Page) : (pageUpd s n f).pipes = s.pipes := rfl
@[simp] theorem pageUpd_pipesY (s : State) (n : Nat) (f : Page → Page) : (pageUpd s n f).pipesY = s.pipesY := rfl
@[simp] theorem pageUpd_zones (s : State) (n : Nat) (f : Page → Page) : (pageUpd s n f).zones = s.zones := rfl
@[simp] theorem pageUpd_adc (s : State) (n : Nat) (f : Page → Page) : (pageUpd s n f).adc = s.adc := rfl
@[simp] theorem pageUpd_field (s : State) (n : Nat) (f : Page → Page) : (pageUpd s n f).field = s.field := rfl
@[simp] theorem pageUpd_pub (s : State) (n : Nat) (f : Page → Page) : (pageUpd s n f).pub = s.pub := rfl
@[simp] theorem pageUpd_pair (s : State) (n : Nat) (f : Page → Page) : (pageUpd s n f).pair = s.pair := rfl
@[simp] theorem pageUpd_recallSvc (s : State) (n : Nat) (f : Page → Page) : (pageUpd s n f).recallSvc = s.recallSvc := rfl
@[simp] theorem pageUpd_sealSt (s : State) (n : Nat) (f : Page → Page) : (pageUpd s n f).sealSt = s.sealSt := rfl
@[simp] theorem pageUpd_tally (s : State) (n : Nat) (f : Page → Page) : (pageUpd s n f).tally = s.tally := rfl
@[simp] theorem pageUpd_refusedRise (s : State) (n : Nat) (f : Page → Page) : (pageUpd s n f).refusedRise = s.refusedRise := rfl
@[simp] theorem pageUpd_intakeRise (s : State) (n : Nat) (f : Page → Page) : (pageUpd s n f).intakeRise = s.intakeRise := rfl
@[simp] theorem pageUpd_ringErrAt (s : State) (n : Nat) (f : Page → Page) : (pageUpd s n f).ringErrAt = s.ringErrAt := rfl

/-! zeroSlots -/

@[simp] theorem zeroSlots_pending (s : State) : (zeroSlots s).pending = s.pending := rfl
@[simp] theorem zeroSlots_out (s : State) : (zeroSlots s).out = s.out := rfl
@[simp] theorem zeroSlots_now (s : State) : (zeroSlots s).now = s.now := rfl
@[simp] theorem zeroSlots_free (s : State) : (zeroSlots s).free = s.free := rfl
@[simp] theorem zeroSlots_power (s : State) : (zeroSlots s).power = s.power := rfl
@[simp] theorem zeroSlots_ident (s : State) : (zeroSlots s).ident = s.ident := rfl
@[simp] theorem zeroSlots_nvm (s : State) : (zeroSlots s).nvm = s.nvm := rfl
@[simp] theorem zeroSlots_plug (s : State) : (zeroSlots s).plug = s.plug := rfl
@[simp] theorem zeroSlots_faults (s : State) : (zeroSlots s).faults = s.faults := rfl
@[simp] theorem zeroSlots_journal (s : State) : (zeroSlots s).journal = s.journal := rfl
@[simp] theorem zeroSlots_ports (s : State) : (zeroSlots s).ports = s.ports := rfl
@[simp] theorem zeroSlots_streams (s : State) : (zeroSlots s).streams = s.streams := rfl
@[simp] theorem zeroSlots_time (s : State) : (zeroSlots s).time = s.time := rfl
@[simp] theorem zeroSlots_reck (s : State) : (zeroSlots s).reck = s.reck := rfl
@[simp] theorem zeroSlots_pipes (s : State) : (zeroSlots s).pipes = s.pipes := rfl
@[simp] theorem zeroSlots_pipesY (s : State) : (zeroSlots s).pipesY = s.pipesY := rfl
@[simp] theorem zeroSlots_zones (s : State) : (zeroSlots s).zones = s.zones := rfl
@[simp] theorem zeroSlots_adc (s : State) : (zeroSlots s).adc = s.adc := rfl
@[simp] theorem zeroSlots_field (s : State) : (zeroSlots s).field = s.field := rfl
@[simp] theorem zeroSlots_pub (s : State) : (zeroSlots s).pub = s.pub := rfl
@[simp] theorem zeroSlots_pair (s : State) : (zeroSlots s).pair = s.pair := rfl
@[simp] theorem zeroSlots_recallSvc (s : State) : (zeroSlots s).recallSvc = s.recallSvc := rfl
@[simp] theorem zeroSlots_tally (s : State) : (zeroSlots s).tally = s.tally := rfl
@[simp] theorem zeroSlots_refusedRise (s : State) : (zeroSlots s).refusedRise = s.refusedRise := rfl
@[simp] theorem zeroSlots_intakeRise (s : State) : (zeroSlots s).intakeRise = s.intakeRise := rfl
@[simp] theorem zeroSlots_ringErrAt (s : State) : (zeroSlots s).ringErrAt = s.ringErrAt := rfl

/-! emptySlot -/

@[simp] theorem emptySlot_pending (s : State) (n : Nat) : (emptySlot s n).pending = s.pending := rfl
@[simp] theorem emptySlot_out (s : State) (n : Nat) : (emptySlot s n).out = s.out := rfl
@[simp] theorem emptySlot_now (s : State) (n : Nat) : (emptySlot s n).now = s.now := rfl
@[simp] theorem emptySlot_free (s : State) (n : Nat) : (emptySlot s n).free = s.free := rfl
@[simp] theorem emptySlot_power (s : State) (n : Nat) : (emptySlot s n).power = s.power := rfl
@[simp] theorem emptySlot_ident (s : State) (n : Nat) : (emptySlot s n).ident = s.ident := rfl
@[simp] theorem emptySlot_nvm (s : State) (n : Nat) : (emptySlot s n).nvm = s.nvm := rfl
@[simp] theorem emptySlot_plug (s : State) (n : Nat) : (emptySlot s n).plug = s.plug := rfl
@[simp] theorem emptySlot_faults (s : State) (n : Nat) : (emptySlot s n).faults = s.faults := rfl
@[simp] theorem emptySlot_journal (s : State) (n : Nat) : (emptySlot s n).journal = s.journal := rfl
@[simp] theorem emptySlot_ports (s : State) (n : Nat) : (emptySlot s n).ports = s.ports := rfl
@[simp] theorem emptySlot_streams (s : State) (n : Nat) : (emptySlot s n).streams = s.streams := rfl
@[simp] theorem emptySlot_time (s : State) (n : Nat) : (emptySlot s n).time = s.time := rfl
@[simp] theorem emptySlot_reck (s : State) (n : Nat) : (emptySlot s n).reck = s.reck := rfl
@[simp] theorem emptySlot_pipes (s : State) (n : Nat) : (emptySlot s n).pipes = s.pipes := rfl
@[simp] theorem emptySlot_pipesY (s : State) (n : Nat) : (emptySlot s n).pipesY = s.pipesY := rfl
@[simp] theorem emptySlot_zones (s : State) (n : Nat) : (emptySlot s n).zones = s.zones := rfl
@[simp] theorem emptySlot_adc (s : State) (n : Nat) : (emptySlot s n).adc = s.adc := rfl
@[simp] theorem emptySlot_field (s : State) (n : Nat) : (emptySlot s n).field = s.field := rfl
@[simp] theorem emptySlot_pub (s : State) (n : Nat) : (emptySlot s n).pub = s.pub := rfl
@[simp] theorem emptySlot_pair (s : State) (n : Nat) : (emptySlot s n).pair = s.pair := rfl
@[simp] theorem emptySlot_recallSvc (s : State) (n : Nat) : (emptySlot s n).recallSvc = s.recallSvc := rfl
@[simp] theorem emptySlot_tally (s : State) (n : Nat) : (emptySlot s n).tally = s.tally := rfl
@[simp] theorem emptySlot_refusedRise (s : State) (n : Nat) : (emptySlot s n).refusedRise = s.refusedRise := rfl
@[simp] theorem emptySlot_intakeRise (s : State) (n : Nat) : (emptySlot s n).intakeRise = s.intakeRise := rfl
@[simp] theorem emptySlot_ringErrAt (s : State) (n : Nat) : (emptySlot s n).ringErrAt = s.ringErrAt := rfl

/-! setCounter -/

@[simp] theorem setCounter_pending (s : State) (off : Int) : (setCounter s off).pending = s.pending := rfl
@[simp] theorem setCounter_out (s : State) (off : Int) : (setCounter s off).out = s.out := rfl
@[simp] theorem setCounter_now (s : State) (off : Int) : (setCounter s off).now = s.now := rfl
@[simp] theorem setCounter_free (s : State) (off : Int) : (setCounter s off).free = s.free := rfl
@[simp] theorem setCounter_power (s : State) (off : Int) : (setCounter s off).power = s.power := rfl
@[simp] theorem setCounter_ident (s : State) (off : Int) : (setCounter s off).ident = s.ident := rfl
@[simp] theorem setCounter_nvm (s : State) (off : Int) : (setCounter s off).nvm = s.nvm := rfl
@[simp] theorem setCounter_plug (s : State) (off : Int) : (setCounter s off).plug = s.plug := rfl
@[simp] theorem setCounter_faults (s : State) (off : Int) : (setCounter s off).faults = s.faults := rfl
@[simp] theorem setCounter_journal (s : State) (off : Int) : (setCounter s off).journal = s.journal := rfl
@[simp] theorem setCounter_ports (s : State) (off : Int) : (setCounter s off).ports = s.ports := rfl
@[simp] theorem setCounter_streams (s : State) (off : Int) : (setCounter s off).streams = s.streams := rfl
@[simp] theorem setCounter_reck (s : State) (off : Int) : (setCounter s off).reck = s.reck := rfl
@[simp] theorem setCounter_pipes (s : State) (off : Int) : (setCounter s off).pipes = s.pipes := rfl
@[simp] theorem setCounter_pipesY (s : State) (off : Int) : (setCounter s off).pipesY = s.pipesY := rfl
@[simp] theorem setCounter_zones (s : State) (off : Int) : (setCounter s off).zones = s.zones := rfl
@[simp] theorem setCounter_adc (s : State) (off : Int) : (setCounter s off).adc = s.adc := rfl
@[simp] theorem setCounter_field (s : State) (off : Int) : (setCounter s off).field = s.field := rfl
@[simp] theorem setCounter_pub (s : State) (off : Int) : (setCounter s off).pub = s.pub := rfl
@[simp] theorem setCounter_pair (s : State) (off : Int) : (setCounter s off).pair = s.pair := rfl
@[simp] theorem setCounter_recallSvc (s : State) (off : Int) : (setCounter s off).recallSvc = s.recallSvc := rfl
@[simp] theorem setCounter_sealSt (s : State) (off : Int) : (setCounter s off).sealSt = s.sealSt := rfl
@[simp] theorem setCounter_tally (s : State) (off : Int) : (setCounter s off).tally = s.tally := rfl
@[simp] theorem setCounter_refusedRise (s : State) (off : Int) : (setCounter s off).refusedRise = s.refusedRise := rfl
@[simp] theorem setCounter_intakeRise (s : State) (off : Int) : (setCounter s off).intakeRise = s.intakeRise := rfl
@[simp] theorem setCounter_ringErrAt (s : State) (off : Int) : (setCounter s off).ringErrAt = s.ringErrAt := rfl

/-! groupPut -/

@[simp] theorem groupPut_pending (s : State) (g : Group) (x : GroupSt) : (groupPut s g x).pending = s.pending := by cases g <;> rfl
@[simp] theorem groupPut_out (s : State) (g : Group) (x : GroupSt) : (groupPut s g x).out = s.out := by cases g <;> rfl
@[simp] theorem groupPut_now (s : State) (g : Group) (x : GroupSt) : (groupPut s g x).now = s.now := by cases g <;> rfl
@[simp] theorem groupPut_free (s : State) (g : Group) (x : GroupSt) : (groupPut s g x).free = s.free := by cases g <;> rfl
@[simp] theorem groupPut_power (s : State) (g : Group) (x : GroupSt) : (groupPut s g x).power = s.power := by cases g <;> rfl
@[simp] theorem groupPut_ident (s : State) (g : Group) (x : GroupSt) : (groupPut s g x).ident = s.ident := by cases g <;> rfl
@[simp] theorem groupPut_nvm (s : State) (g : Group) (x : GroupSt) : (groupPut s g x).nvm = s.nvm := by cases g <;> rfl
@[simp] theorem groupPut_plug (s : State) (g : Group) (x : GroupSt) : (groupPut s g x).plug = s.plug := by cases g <;> rfl
@[simp] theorem groupPut_faults (s : State) (g : Group) (x : GroupSt) : (groupPut s g x).faults = s.faults := by cases g <;> rfl
@[simp] theorem groupPut_journal (s : State) (g : Group) (x : GroupSt) : (groupPut s g x).journal = s.journal := by cases g <;> rfl
@[simp] theorem groupPut_ports (s : State) (g : Group) (x : GroupSt) : (groupPut s g x).ports = s.ports := by cases g <;> rfl
@[simp] theorem groupPut_streams (s : State) (g : Group) (x : GroupSt) : (groupPut s g x).streams = s.streams := by cases g <;> rfl
@[simp] theorem groupPut_time (s : State) (g : Group) (x : GroupSt) : (groupPut s g x).time = s.time := by cases g <;> rfl
@[simp] theorem groupPut_reck (s : State) (g : Group) (x : GroupSt) : (groupPut s g x).reck = s.reck := by cases g <;> rfl
@[simp] theorem groupPut_pipes (s : State) (g : Group) (x : GroupSt) : (groupPut s g x).pipes = s.pipes := by cases g <;> rfl
@[simp] theorem groupPut_pipesY (s : State) (g : Group) (x : GroupSt) : (groupPut s g x).pipesY = s.pipesY := by cases g <;> rfl
@[simp] theorem groupPut_zones (s : State) (g : Group) (x : GroupSt) : (groupPut s g x).zones = s.zones := by cases g <;> rfl
@[simp] theorem groupPut_adc (s : State) (g : Group) (x : GroupSt) : (groupPut s g x).adc = s.adc := by cases g <;> rfl
@[simp] theorem groupPut_pub (s : State) (g : Group) (x : GroupSt) : (groupPut s g x).pub = s.pub := by cases g <;> rfl
@[simp] theorem groupPut_pair (s : State) (g : Group) (x : GroupSt) : (groupPut s g x).pair = s.pair := by cases g <;> rfl
@[simp] theorem groupPut_recallSvc (s : State) (g : Group) (x : GroupSt) : (groupPut s g x).recallSvc = s.recallSvc := by cases g <;> rfl
@[simp] theorem groupPut_sealSt (s : State) (g : Group) (x : GroupSt) : (groupPut s g x).sealSt = s.sealSt := by cases g <;> rfl
@[simp] theorem groupPut_tally (s : State) (g : Group) (x : GroupSt) : (groupPut s g x).tally = s.tally := by cases g <;> rfl
@[simp] theorem groupPut_refusedRise (s : State) (g : Group) (x : GroupSt) : (groupPut s g x).refusedRise = s.refusedRise := by cases g <;> rfl
@[simp] theorem groupPut_intakeRise (s : State) (g : Group) (x : GroupSt) : (groupPut s g x).intakeRise = s.intakeRise := by cases g <;> rfl
@[simp] theorem groupPut_ringErrAt (s : State) (g : Group) (x : GroupSt) : (groupPut s g x).ringErrAt = s.ringErrAt := by cases g <;> rfl

/-! portPut -/

@[simp] theorem portPut_pending (s : State) (p : Port) (x : PortSt) : (portPut s p x).pending = s.pending := by cases p <;> rfl
@[simp] theorem portPut_out (s : State) (p : Port) (x : PortSt) : (portPut s p x).out = s.out := by cases p <;> rfl
@[simp] theorem portPut_now (s : State) (p : Port) (x : PortSt) : (portPut s p x).now = s.now := by cases p <;> rfl
@[simp] theorem portPut_free (s : State) (p : Port) (x : PortSt) : (portPut s p x).free = s.free := by cases p <;> rfl
@[simp] theorem portPut_power (s : State) (p : Port) (x : PortSt) : (portPut s p x).power = s.power := by cases p <;> rfl
@[simp] theorem portPut_ident (s : State) (p : Port) (x : PortSt) : (portPut s p x).ident = s.ident := by cases p <;> rfl
@[simp] theorem portPut_nvm (s : State) (p : Port) (x : PortSt) : (portPut s p x).nvm = s.nvm := by cases p <;> rfl
@[simp] theorem portPut_plug (s : State) (p : Port) (x : PortSt) : (portPut s p x).plug = s.plug := by cases p <;> rfl
@[simp] theorem portPut_faults (s : State) (p : Port) (x : PortSt) : (portPut s p x).faults = s.faults := by cases p <;> rfl
@[simp] theorem portPut_journal (s : State) (p : Port) (x : PortSt) : (portPut s p x).journal = s.journal := by cases p <;> rfl
@[simp] theorem portPut_streams (s : State) (p : Port) (x : PortSt) : (portPut s p x).streams = s.streams := by cases p <;> rfl
@[simp] theorem portPut_time (s : State) (p : Port) (x : PortSt) : (portPut s p x).time = s.time := by cases p <;> rfl
@[simp] theorem portPut_reck (s : State) (p : Port) (x : PortSt) : (portPut s p x).reck = s.reck := by cases p <;> rfl
@[simp] theorem portPut_pipes (s : State) (p : Port) (x : PortSt) : (portPut s p x).pipes = s.pipes := by cases p <;> rfl
@[simp] theorem portPut_pipesY (s : State) (p : Port) (x : PortSt) : (portPut s p x).pipesY = s.pipesY := by cases p <;> rfl
@[simp] theorem portPut_zones (s : State) (p : Port) (x : PortSt) : (portPut s p x).zones = s.zones := by cases p <;> rfl
@[simp] theorem portPut_adc (s : State) (p : Port) (x : PortSt) : (portPut s p x).adc = s.adc := by cases p <;> rfl
@[simp] theorem portPut_field (s : State) (p : Port) (x : PortSt) : (portPut s p x).field = s.field := by cases p <;> rfl
@[simp] theorem portPut_pub (s : State) (p : Port) (x : PortSt) : (portPut s p x).pub = s.pub := by cases p <;> rfl
@[simp] theorem portPut_pair (s : State) (p : Port) (x : PortSt) : (portPut s p x).pair = s.pair := by cases p <;> rfl
@[simp] theorem portPut_recallSvc (s : State) (p : Port) (x : PortSt) : (portPut s p x).recallSvc = s.recallSvc := by cases p <;> rfl
@[simp] theorem portPut_sealSt (s : State) (p : Port) (x : PortSt) : (portPut s p x).sealSt = s.sealSt := by cases p <;> rfl
@[simp] theorem portPut_tally (s : State) (p : Port) (x : PortSt) : (portPut s p x).tally = s.tally := by cases p <;> rfl
@[simp] theorem portPut_refusedRise (s : State) (p : Port) (x : PortSt) : (portPut s p x).refusedRise = s.refusedRise := by cases p <;> rfl
@[simp] theorem portPut_intakeRise (s : State) (p : Port) (x : PortSt) : (portPut s p x).intakeRise = s.intakeRise := by cases p <;> rfl
@[simp] theorem portPut_ringErrAt (s : State) (p : Port) (x : PortSt) : (portPut s p x).ringErrAt = s.ringErrAt := by cases p <;> rfl

/-! ptpPut -/

@[simp] theorem ptpPut_pending (s : State) (p : Bool) (x : PtpPort) : (ptpPut s p x).pending = s.pending := by cases p <;> rfl
@[simp] theorem ptpPut_out (s : State) (p : Bool) (x : PtpPort) : (ptpPut s p x).out = s.out := by cases p <;> rfl
@[simp] theorem ptpPut_now (s : State) (p : Bool) (x : PtpPort) : (ptpPut s p x).now = s.now := by cases p <;> rfl
@[simp] theorem ptpPut_free (s : State) (p : Bool) (x : PtpPort) : (ptpPut s p x).free = s.free := by cases p <;> rfl
@[simp] theorem ptpPut_power (s : State) (p : Bool) (x : PtpPort) : (ptpPut s p x).power = s.power := by cases p <;> rfl
@[simp] theorem ptpPut_ident (s : State) (p : Bool) (x : PtpPort) : (ptpPut s p x).ident = s.ident := by cases p <;> rfl
@[simp] theorem ptpPut_nvm (s : State) (p : Bool) (x : PtpPort) : (ptpPut s p x).nvm = s.nvm := by cases p <;> rfl
@[simp] theorem ptpPut_plug (s : State) (p : Bool) (x : PtpPort) : (ptpPut s p x).plug = s.plug := by cases p <;> rfl
@[simp] theorem ptpPut_faults (s : State) (p : Bool) (x : PtpPort) : (ptpPut s p x).faults = s.faults := by cases p <;> rfl
@[simp] theorem ptpPut_journal (s : State) (p : Bool) (x : PtpPort) : (ptpPut s p x).journal = s.journal := by cases p <;> rfl
@[simp] theorem ptpPut_ports (s : State) (p : Bool) (x : PtpPort) : (ptpPut s p x).ports = s.ports := by cases p <;> rfl
@[simp] theorem ptpPut_streams (s : State) (p : Bool) (x : PtpPort) : (ptpPut s p x).streams = s.streams := by cases p <;> rfl
@[simp] theorem ptpPut_reck (s : State) (p : Bool) (x : PtpPort) : (ptpPut s p x).reck = s.reck := by cases p <;> rfl
@[simp] theorem ptpPut_pipes (s : State) (p : Bool) (x : PtpPort) : (ptpPut s p x).pipes = s.pipes := by cases p <;> rfl
@[simp] theorem ptpPut_pipesY (s : State) (p : Bool) (x : PtpPort) : (ptpPut s p x).pipesY = s.pipesY := by cases p <;> rfl
@[simp] theorem ptpPut_zones (s : State) (p : Bool) (x : PtpPort) : (ptpPut s p x).zones = s.zones := by cases p <;> rfl
@[simp] theorem ptpPut_adc (s : State) (p : Bool) (x : PtpPort) : (ptpPut s p x).adc = s.adc := by cases p <;> rfl
@[simp] theorem ptpPut_field (s : State) (p : Bool) (x : PtpPort) : (ptpPut s p x).field = s.field := by cases p <;> rfl
@[simp] theorem ptpPut_pub (s : State) (p : Bool) (x : PtpPort) : (ptpPut s p x).pub = s.pub := by cases p <;> rfl
@[simp] theorem ptpPut_pair (s : State) (p : Bool) (x : PtpPort) : (ptpPut s p x).pair = s.pair := by cases p <;> rfl
@[simp] theorem ptpPut_recallSvc (s : State) (p : Bool) (x : PtpPort) : (ptpPut s p x).recallSvc = s.recallSvc := by cases p <;> rfl
@[simp] theorem ptpPut_sealSt (s : State) (p : Bool) (x : PtpPort) : (ptpPut s p x).sealSt = s.sealSt := by cases p <;> rfl
@[simp] theorem ptpPut_tally (s : State) (p : Bool) (x : PtpPort) : (ptpPut s p x).tally = s.tally := by cases p <;> rfl
@[simp] theorem ptpPut_refusedRise (s : State) (p : Bool) (x : PtpPort) : (ptpPut s p x).refusedRise = s.refusedRise := by cases p <;> rfl
@[simp] theorem ptpPut_intakeRise (s : State) (p : Bool) (x : PtpPort) : (ptpPut s p x).intakeRise = s.intakeRise := by cases p <;> rfl
@[simp] theorem ptpPut_ringErrAt (s : State) (p : Bool) (x : PtpPort) : (ptpPut s p x).ringErrAt = s.ringErrAt := by cases p <;> rfl

/-! lanePut -/

@[simp] theorem lanePut_pending (s : State) (n : Fin 2) (x : Lane) : (lanePut s n x).pending = s.pending := by unfold lanePut; split <;> rfl
@[simp] theorem lanePut_out (s : State) (n : Fin 2) (x : Lane) : (lanePut s n x).out = s.out := by unfold lanePut; split <;> rfl
@[simp] theorem lanePut_now (s : State) (n : Fin 2) (x : Lane) : (lanePut s n x).now = s.now := by unfold lanePut; split <;> rfl
@[simp] theorem lanePut_free (s : State) (n : Fin 2) (x : Lane) : (lanePut s n x).free = s.free := by unfold lanePut; split <;> rfl
@[simp] theorem lanePut_power (s : State) (n : Fin 2) (x : Lane) : (lanePut s n x).power = s.power := by unfold lanePut; split <;> rfl
@[simp] theorem lanePut_ident (s : State) (n : Fin 2) (x : Lane) : (lanePut s n x).ident = s.ident := by unfold lanePut; split <;> rfl
@[simp] theorem lanePut_nvm (s : State) (n : Fin 2) (x : Lane) : (lanePut s n x).nvm = s.nvm := by unfold lanePut; split <;> rfl
@[simp] theorem lanePut_plug (s : State) (n : Fin 2) (x : Lane) : (lanePut s n x).plug = s.plug := by unfold lanePut; split <;> rfl
@[simp] theorem lanePut_faults (s : State) (n : Fin 2) (x : Lane) : (lanePut s n x).faults = s.faults := by unfold lanePut; split <;> rfl
@[simp] theorem lanePut_journal (s : State) (n : Fin 2) (x : Lane) : (lanePut s n x).journal = s.journal := by unfold lanePut; split <;> rfl
@[simp] theorem lanePut_ports (s : State) (n : Fin 2) (x : Lane) : (lanePut s n x).ports = s.ports := by unfold lanePut; split <;> rfl
@[simp] theorem lanePut_streams (s : State) (n : Fin 2) (x : Lane) : (lanePut s n x).streams = s.streams := by unfold lanePut; split <;> rfl
@[simp] theorem lanePut_time (s : State) (n : Fin 2) (x : Lane) : (lanePut s n x).time = s.time := by unfold lanePut; split <;> rfl
@[simp] theorem lanePut_reck (s : State) (n : Fin 2) (x : Lane) : (lanePut s n x).reck = s.reck := by unfold lanePut; split <;> rfl
@[simp] theorem lanePut_pipes (s : State) (n : Fin 2) (x : Lane) : (lanePut s n x).pipes = s.pipes := by unfold lanePut; split <;> rfl
@[simp] theorem lanePut_pipesY (s : State) (n : Fin 2) (x : Lane) : (lanePut s n x).pipesY = s.pipesY := by unfold lanePut; split <;> rfl
@[simp] theorem lanePut_zones (s : State) (n : Fin 2) (x : Lane) : (lanePut s n x).zones = s.zones := by unfold lanePut; split <;> rfl
@[simp] theorem lanePut_adc (s : State) (n : Fin 2) (x : Lane) : (lanePut s n x).adc = s.adc := by unfold lanePut; split <;> rfl
@[simp] theorem lanePut_field (s : State) (n : Fin 2) (x : Lane) : (lanePut s n x).field = s.field := by unfold lanePut; split <;> rfl
@[simp] theorem lanePut_pub (s : State) (n : Fin 2) (x : Lane) : (lanePut s n x).pub = s.pub := by unfold lanePut; split <;> rfl
@[simp] theorem lanePut_recallSvc (s : State) (n : Fin 2) (x : Lane) : (lanePut s n x).recallSvc = s.recallSvc := by unfold lanePut; split <;> rfl
@[simp] theorem lanePut_sealSt (s : State) (n : Fin 2) (x : Lane) : (lanePut s n x).sealSt = s.sealSt := by unfold lanePut; split <;> rfl
@[simp] theorem lanePut_tally (s : State) (n : Fin 2) (x : Lane) : (lanePut s n x).tally = s.tally := by unfold lanePut; split <;> rfl
@[simp] theorem lanePut_refusedRise (s : State) (n : Fin 2) (x : Lane) : (lanePut s n x).refusedRise = s.refusedRise := by unfold lanePut; split <;> rfl
@[simp] theorem lanePut_intakeRise (s : State) (n : Fin 2) (x : Lane) : (lanePut s n x).intakeRise = s.intakeRise := by unfold lanePut; split <;> rfl
@[simp] theorem lanePut_ringErrAt (s : State) (n : Fin 2) (x : Lane) : (lanePut s n x).ringErrAt = s.ringErrAt := by unfold lanePut; split <;> rfl

/-! What is read back -/

@[simp] theorem svGet_svPut (s : State) (n k : Nat) (x : SvSlot) : svGet (svPut s n x) k = if k = n then x else svGet s k := by
  simp [svGet, svPut]
@[simp] theorem brkGet_brkPut (s : State) (n k : Nat) (x : BrkSlot) : brkGet (brkPut s n x) k = if k = n then x else brkGet s k := by
  simp [brkGet, brkPut]
@[simp] theorem pipeGet_pipePut (s : State) (n k : Nat) (x : Pipe) : pipeGet (pipePut s n x) k = if k = n then x else pipeGet s k := by
  simp [pipeGet, pipePut]
@[simp] theorem zoneGet_zonePut (s : State) (n k : Nat) (x : Zone) : zoneGet (zonePut s n x) k = if k = n then x else zoneGet s k := by
  simp [zoneGet, zonePut]
@[simp] theorem coilGet_coilPut (s : State) (n k : Nat) (x : Coil) : coilGet (coilPut s n x) k = if k = n then x else coilGet s k := by
  simp [coilGet, coilPut]
@[simp] theorem chGet_chPut (s : State) (n k : Nat) (x : Channel) : chGet (chPut s n x) k = if k = n then x else chGet s k := by
  simp [chGet, chPut]
@[simp] theorem pubGet_pubPut (s : State) (n k : Nat) (x : Publication) : pubGet (pubPut s n x) k = if k = n then x else pubGet s k := by
  simp [pubGet, pubPut]
@[simp] theorem sessionGet_sessionPut (s : State) (n k : Nat) (x : Session) : sessionGet (sessionPut s n x) k = if k = n then x else sessionGet s k := by
  simp [sessionGet, sessionPut]
@[simp] theorem tallyGet_tallyAdd (s : State) (p w n q v : Nat) :
    tallyGet (tallyAdd s p w n) q v = if q * 64 + v = p * 64 + w then (tallyGet s p w + n) % 2 ^ 32 else tallyGet s q v := by
  unfold tallyGet tallyAdd
  simp only [Tab.get_put]
  split
  · simp [BitVec.toNat_add, BitVec.toNat_ofNat]
  · rfl
@[simp] theorem groupGet_groupPut (s : State) (g h : Group) (x : GroupSt) : groupGet (groupPut s g x) h = if h = g then x else groupGet s h := by
  cases g <;> cases h <;> rfl
@[simp] theorem portGet_portPut (s : State) (p q : Port) (x : PortSt) : portGet (portPut s p x) q = if q = p then x else portGet s q := by
  cases p <;> cases q <;> rfl
@[simp] theorem ptpGet_ptpPut (s : State) (p q : Bool) (x : PtpPort) : ptpGet (ptpPut s p x) q = if q = p then x else ptpGet s q := by
  cases p <;> cases q <;> rfl
@[simp] theorem laneGet_lanePut (s : State) (n m : Fin 2) (x : Lane) : laneGet (lanePut s n x) m = if m = n then x else laneGet s m := by
  match n, m with
  | 0, 0 => rfl
  | 0, 1 => rfl
  | 1, 0 => rfl
  | 1, 1 => rfl

/-! Tables keep their canonical form -/

theorem svPut_wf (s : State) (n : Nat) (x : SvSlot) (h : Tab.wf {} s.streams.sv = true) : Tab.wf {} (svPut s n x).streams.sv = true := Tab.wf_put _ _ _ _ h
theorem brkPut_wf (s : State) (n : Nat) (x : BrkSlot) (h : Tab.wf {} s.streams.brk = true) : Tab.wf {} (brkPut s n x).streams.brk = true := Tab.wf_put _ _ _ _ h
theorem pipePut_wf (s : State) (n : Nat) (x : Pipe) (h : Tab.wf {} s.pipes = true) : Tab.wf {} (pipePut s n x).pipes = true := Tab.wf_put _ _ _ _ h
theorem zonePut_wf (s : State) (n : Nat) (x : Zone) (h : Tab.wf {} s.zones = true) : Tab.wf {} (zonePut s n x).zones = true := Tab.wf_put _ _ _ _ h
theorem coilPut_wf (s : State) (n : Nat) (x : Coil) (h : Tab.wf {} s.reck.coil = true) : Tab.wf {} (coilPut s n x).reck.coil = true := Tab.wf_put _ _ _ _ h
theorem chPut_wf (s : State) (n : Nat) (x : Channel) (h : Tab.wf {} s.field.ch = true) : Tab.wf {} (chPut s n x).field.ch = true := Tab.wf_put _ _ _ _ h
theorem pubPut_wf (s : State) (n : Nat) (x : Publication) (h : Tab.wf {} s.pub.pubs = true) : Tab.wf {} (pubPut s n x).pub.pubs = true := Tab.wf_put _ _ _ _ h
theorem sessionPut_wf (s : State) (n : Nat) (x : Session) (h : Tab.wf {} s.recallSvc.sessions = true) : Tab.wf {} (sessionPut s n x).recallSvc.sessions = true := Tab.wf_put _ _ _ _ h
theorem tallyAdd_wf (s : State) (p w n : Nat) (h : Tab.wf 0 s.tally = true) : Tab.wf 0 (tallyAdd s p w n).tally = true := Tab.wf_put _ _ _ _ h

end Sys2Proof.Machine
end

