-- ==== Sys2Proof/Laws/Unit.lean ====
section
/-! SUPPORT. What the zones' starts, an image's judgement and the entry into service leave of the unit. -/
namespace Sys2Proof.Machine

/-- The unit without its zones, samples, journal and field channels: what the start of zones leaves. -/
def State.unitOnly (s : State) : State :=
  { s.sansSettled with
    zones := [], reck := {}, journal := {}, streams := {}, pipes := [], adc := {}, field := {}, free := 0, recallSvc := {}
    refusedRise := {}, intakeRise := {}, ringErrAt := none }

theorem unitOnly_of {s t : State} (h : t.sansSettled = s.sansSettled) : t.unitOnly = s.unitOnly := by
  have e : ∀ u : State, u.unitOnly = { u.sansSettled with
    zones := [], reck := {}, journal := {}, streams := {}, pipes := [], adc := {}, field := {}, free := 0, recallSvc := {}
    refusedRise := {}, intakeRise := {}, ringErrAt := none } := fun _ => rfl
  rw [e, e, h]

theorem unitOnly_records {s t : State} (h : t.sansRecords = s.sansRecords) : t.unitOnly = s.unitOnly := unitOnly_of (sansSettled_records h)
theorem unitOnly_reports {s t : State} (h : t.sansReports = s.sansReports) : t.unitOnly = s.unitOnly := unitOnly_of (sansSettled_of _ _ h)

theorem unit_power {s t : State} (h : t.unitOnly = s.unitOnly) : t.power = s.power := by have e := congrArg State.power h; exact e
theorem unit_plug {s t : State} (h : t.unitOnly = s.unitOnly) : t.plug = s.plug := by have e := congrArg State.plug h; exact e
theorem unit_nvm {s t : State} (h : t.unitOnly = s.unitOnly) : t.nvm = s.nvm := by have e := congrArg State.nvm h; exact e
theorem unit_ident {s t : State} (h : t.unitOnly = s.unitOnly) : t.ident = s.ident := by have e := congrArg State.ident h; exact e
theorem unit_time {s t : State} (h : t.unitOnly = s.unitOnly) : t.time = s.time := by have e := congrArg State.time h; exact e
theorem unit_now {s t : State} (h : t.unitOnly = s.unitOnly) : t.now = s.now := by have e := congrArg State.now h; exact e
theorem unit_pairState {s t : State} (h : t.unitOnly = s.unitOnly) : t.pair.state = s.pair.state := by have e := congrArg (fun u => u.pair.state) h; exact e
theorem unit_absent {s t : State} (h : t.unitOnly = s.unitOnly) : t.pair.absent = s.pair.absent := by have e := congrArg (fun u => u.pair.absent) h; exact e

@[simp] theorem causeGone_unitOnly (s : State) (k : FaultKey) : (causeGone s k).unitOnly = s.unitOnly := unitOnly_records (causeGone_sansRecords s k)
theorem arise_unitOnly (s : State) (k : FaultKey) (det hdl : Nat) (d : List Byte) (h : max (faultRow k.code).2.1 (faultRow k.code).1 < 4) :
    (arise s k det hdl d).unitOnly = s.unitOnly := unitOnly_records (arise_sansRecords s k det hdl d h)
theorem judgeFault_unitOnly (s : State) (k : FaultKey) (det hdl : Nat) (b : Bool) (h : max (faultRow k.code).2.1 (faultRow k.code).1 < 4) :
    (judgeFault s k det hdl b).unitOnly = s.unitOnly := unitOnly_records (judgeFault_sansRecords s k det hdl b h)
@[simp] theorem authChanged_unitOnly (s : State) : (authChanged s).unitOnly = s.unitOnly := unitOnly_reports (authChanged_sansReports s)
@[simp] theorem judgeSummary_unitOnly (s : State) : (judgeSummary s).unitOnly = s.unitOnly := unitOnly_reports (judgeSummary_sansReports s)
@[simp] theorem settlePair_unitOnly (s : State) : (settlePair s).unitOnly = s.unitOnly := unitOnly_of (settlePair_sansSettled s)
@[simp] theorem startPublishing_unitOnly (s : State) (l : List Nat) : (startPublishing s l).unitOnly = s.unitOnly :=
  unitOnly_reports (startPublishing_sansReports s l)
@[simp] theorem journalEntry_unitOnly (s : State) (e : Entry) : (journalEntry s e).unitOnly = s.unitOnly := unitOnly_records (journalEntry_sansRecords s e)
@[simp] theorem submitEntry_unitOnly (s : State) (e : Entry) : (submitEntry s e).unitOnly = s.unitOnly := unitOnly_records (submitEntry_sansRecords s e)
@[simp] theorem limitEntry_unitOnly (s : State) (e : Entry) : (limitEntry s e).unitOnly = s.unitOnly := unitOnly_records (limitEntry_sansRecords s e)

/-! Zones -/

@[simp] theorem zonePut_unitOnly (s : State) (z : Nat) (x : Zone) : (zonePut s z x).unitOnly = s.unitOnly := rfl
@[simp] theorem coilPut_unitOnly (s : State) (cc : Nat) (c : Coil) : (coilPut s cc c).unitOnly = s.unitOnly := rfl

@[simp] theorem coilCommand_unitOnly (s : State) (cc : Nat) (on : Bool) : (coilCommand s cc on).unitOnly = s.unitOnly := by
  unfold coilCommand coilIdle coilPick
  split_ifs <;> simp

@[simp] theorem coilsFollow_unitOnly (l : List Nat) (s : State) : (coilsFollow l s).unitOnly = s.unitOnly := by
  unfold coilsFollow
  exact foldl_keeps State.unitOnly _ (fun t cc => by split_ifs <;> simp) _ s

@[simp] theorem zoneRestart_unitOnly (s : State) (z : Nat) (x : Zone) : (zoneRestart s z x).unitOnly = s.unitOnly := by
  simp [zoneRestart]

@[simp] theorem presentDataset_unitOnly (s : State) (z : Nat) : (presentDataset s z).unitOnly = s.unitOnly := by
  simp [presentDataset]

@[simp] theorem startZones_unitOnly (s : State) : (startZones s).unitOnly = s.unitOnly := by
  unfold startZones
  split
  · rfl
  · exact foldl_keeps State.unitOnly _ (fun t z => by simp) _ s

/-- The engine as it enters Serving, before its zones start (Table 1.7). -/
def servingState (s : State) : State :=
  { s with power := { s.power with engine := .serving, withheldBy := none }, time := { s.time with servingAt := s.now } }

@[simp] theorem takeValidity_unitOnly (s : State) : (takeValidity s).unitOnly = s.unitOnly := by
  unfold takeValidity
  refine foldl_keeps State.unitOnly _ (fun t cc => ?_) _ s
  rfl

/-- Zones start and publish. -/
def zonesServe (s : State) : State :=
  let t := authChanged (startZones (takeValidity s))
  startPublishing t (publishingZones t)

theorem enterServing_eq (s : State) : enterServing s =
    if (s.power.engine == .starting) = true then holdAfterStarting (zonesServe (servingState s)) else zonesServe (servingState s) := by
  unfold enterServing zonesServe servingState
  rfl

@[simp] theorem zonesServe_unitOnly (s : State) : (zonesServe s).unitOnly = s.unitOnly := by
  unfold zonesServe
  dsimp only
  rw [startPublishing_unitOnly, authChanged_unitOnly, startZones_unitOnly, takeValidity_unitOnly]

theorem holdAfterStarting_eq (s : State) : ∃ h, holdAfterStarting s = { s with plug := { s.plug with hold := h } } := by
  unfold holdAfterStarting
  split
  · exact ⟨s.plug.hold, rfl⟩
  · exact ⟨_, rfl⟩

/-- The entry into service: the unit's fields, whatever its zones do. -/
theorem enterServing_unit (s : State) : ∃ h, (enterServing s).unitOnly = { (servingState s).unitOnly with plug := { s.plug with hold := h } } := by
  rw [enterServing_eq]
  have hv := zonesServe_unitOnly (servingState s)
  generalize zonesServe (servingState s) = v at *
  split
  · obtain ⟨h, e⟩ := holdAfterStarting_eq v
    refine ⟨h, ?_⟩
    rw [e]
    have e2 : ({ v with plug := { v.plug with hold := h } } : State).unitOnly = { v.unitOnly with plug := { v.unitOnly.plug with hold := h } } := rfl
    rw [e2, hv]
    rfl
  · exact ⟨s.plug.hold, by rw [hv]; rfl⟩

theorem enterServing_power (s : State) : (enterServing s).power = { s.power with engine := .serving, withheldBy := none } := by
  obtain ⟨h, e⟩ := enterServing_unit s
  have e := congrArg State.power e
  exact e

theorem enterServing_time (s : State) : (enterServing s).time = { s.time with servingAt := s.now } := by
  obtain ⟨h, e⟩ := enterServing_unit s
  have e := congrArg State.time e
  exact e

theorem enterServing_pair (s : State) : (enterServing s).pair.state = s.pair.state ∧ (enterServing s).pair.absent = s.pair.absent := by
  obtain ⟨h, e⟩ := enterServing_unit s
  have e1 := congrArg (fun u => u.pair.state) e
  have e2 := congrArg (fun u => u.pair.absent) e
  exact ⟨e1, e2⟩

/-! An image's judgement -/

@[simp] theorem judgeZone_unitOnly (s : State) (z : Nat) : (judgeZone s z).unitOnly = s.unitOnly := by
  unfold judgeZone
  dsimp only
  rw [judgeFault_unitOnly, judgeFault_unitOnly, judgeFault_unitOnly, judgeFault_unitOnly] <;> (unfold keyZ; dsimp only; decide)

theorem keyF_row (code cc : Nat) (h : cc < 32) (c : Nat) (hc : c = code + 0x400 * (cc / 16)) : (keyF code cc).code = c := by
  simp [keyF, hc]

@[simp] theorem judgeChannels_unitOnly (s : State) : (judgeChannels s).unitOnly = s.unitOnly := by
  unfold judgeChannels
  have e : ∀ (l : List Nat) (u : State), (∀ x ∈ l, x < 32) → (l.foldl (fun s cc =>
    let couple := cc % 2 == 0 && coupleFault (rods s) (cc / 2)
    judgeFault s (keyF 0x3B80 cc) (if couple then 0 else 1) none16 (couple || demagFault (rods s) cc)) u).unitOnly = u.unitOnly := by
    intro l
    induction l with
    | nil => intro u _; rfl
    | cons x l ih =>
      intro u h
      rw [List.foldl_cons, ih _ (fun y hy => h y (List.mem_cons_of_mem _ hy))]
      apply judgeFault_unitOnly
      have hx := h x List.mem_cons_self
      unfold keyF
      dsimp only
      have : x / 16 = 0 ∨ x / 16 = 1 := by omega
      rcases this with h0 | h0 <;> rw [h0] <;> decide
  exact e _ s (fun x hx => List.mem_range.mp hx)

@[simp] theorem judgeImage_unitOnly (s : State) : (judgeImage s).unitOnly = s.unitOnly := by
  unfold judgeImage judgeSequence
  simp only [authChanged_unitOnly, judgeChannels_unitOnly]
  rw [judgeFault_unitOnly _ _ _ _ _ (by decide), judgeFault_unitOnly _ _ _ _ _ (by decide)]
  exact foldl_keeps State.unitOnly judgeZone judgeZone_unitOnly _ s

@[simp] theorem adoptTheta_unitOnly (s : State) : (adoptTheta s).unitOnly = s.unitOnly := by
  unfold adoptTheta
  split
  · rfl
  · refine foldl_keeps State.unitOnly _ (fun t z => ?_) _ s
    dsimp only
    split_ifs
    · simp
    · rw [arise_unitOnly _ _ _ _ _ (by unfold keyZ; dsimp only; decide)]
      simp

end Sys2Proof.Machine
end

