-- ==== Sys2Proof/Tests/Slice0.lean ====
section
/-! SUPPORT. The smoke test of WellFormed, small tests of single steps, and a state and operands that meet the hypotheses of each
statement. -/
-- one test after the other: side by side they reserve a stack each
set_option Elab.async false
namespace Sys2Proof.Machine

/-! Small states -/

/-- Every strap at code 7: a unit alone, PRP, no local analogue. -/
def soloStraps : List Nat := [7, 7, 7, 7, 7, 7, 7, 0, 0, 7, 7, 7]

/-- A unit alone that serves. -/
def sOn : State :=
  { State.reset with
    now := 10000000000
    power := { engine := .serving, vinGood := true, vbat := true, domOn := List.range 11, step := .pairing, laneTestPassed := true, pllLocked := true }
    ident := { straps := soloStraps, decided := true } }

/-- The unit in an engine state, at a step of start-up. -/
def sAt (e : EngineState) (t : StartStep) : State := { sOn with power := { sOn.power with engine := e, step := t } }

/-- A port with a module and link. -/
def portUp : PortSt := { up := true, modAbs := false, txEnabled := true, a0hRead := true }
/-- The unit with every port up. -/
def sPorts : State := { sOn with ports := { p0 := portUp, p1 := portUp, s0 := portUp, s1 := portUp } }

/-- The unit with other straps. -/
def withStraps (s : State) (l : List Nat) : State := { s with ident := { s.ident with straps := l } }

/-- Side A of a pair in a pair state, its carry link up. -/
def sPair (p : PairState) : State :=
  { withStraps sPorts (soloStraps.set 0 1) with
    pair := { state := p, lane0 := { up := true }, lane1 := { up := true }, carryUp := true, carrySilent := false, busSilent := false, accepted := true,
              partnerState := if p == .active then 3 else 2 } }

/-- An image with SV and breaker windows, a pair identity, an input, an output and zone 0 with 51P, 50P, 67P, CLP, 50BF and 79. -/
def zoneImage : Rods :=
  [(15, 1), (131, 1), (133, 8), (141, 1), (143, 8), (259, 1), (384, 1), (392, 2), (816, 0), (825, 5), (923, 1)] ++
  [(1025, 1), (1027, 1), (1032, 5), (1036, 5), (1038, 5), (1051, 1), (1066, 1), (1068, 1), (1069, 1)]

/-- A unit with that image in force. -/
def withImage (s : State) : State := { s with plug := { s.plug with present := true, image := some zoneImage } }
def sZone : State := withImage sPorts

/-- A fault record. -/
def aFault (k : FaultKey) (level : Nat) (phase : FaultPhase) : FaultRec :=
  { code := k.code, scope := k.scope, inst := k.inst, level := level, phase := phase, acked := false, causeGone := false, retest := false, merges := 0,
    raiseJseq := 0, handle := none16 }

/-- The state with one fault that is not Clear. -/
def withFault (s : State) (k : FaultKey) (r : FaultRec) : State := { s with faults := { s.faults with recs := [(keyNum k, r)] } }

/-- A fault that is Clear has no level. -/
theorem level_of_clear {s : State} {k : FaultKey} (h : faultGet s k = none) : ∀ r, faultGet s k = some r → r.level < 4 := by
  intro r e
  rw [h] at e
  cases e

/-- An I2C transaction that brings a page, and one that is not acknowledged. -/
def i2cOk (a : List Byte) : I2c := { sdaLow := false, sclLow := false, freedAfter := none, page := some a }
def i2cNack : I2c := { sdaLow := false, sclLow := false, freedAfter := none, page := none }

/-! WellFormed: each check refuses an ill-formed term (log 1) -/

theorem test_straps_eleven_refused : WellFormed (.strapsDecided (List.replicate 11 (List.replicate 16 1250000))) = false := by decide
theorem test_straps_fifteen_readings_refused : WellFormed (.strapsDecided (List.replicate 12 (List.replicate 15 1250000))) = false := by decide
theorem test_scans_one_refused : WellFormed (.startUpPlugRead [none]) = false := by decide
theorem test_scans_nine_refused : WellFormed (.startUpPlugRead (List.replicate 9 none)) = false := by decide
theorem test_cages_three_refused : WellFormed (.portsStep (List.replicate 3 { modAbs := true, read := i2cNack })) = false := by decide
theorem test_cages_short_page_refused :
    WellFormed (.portsStep (List.replicate 4 { modAbs := false, read := i2cOk (zeros 95) })) = false := by decide
theorem test_presence_fifteen_samples_refused : WellFormed (.presenceCheck (some 1) (some 1) (List.replicate 15 833890)) = false := by decide
theorem test_a0h_page_refused : WellFormed (.moduleInserted .p0 (i2cOk (zeros 97))) = false := by decide
theorem test_a2h_page_refused : WellFormed (.a2hPoll .p0 i2cNack (i2cOk (zeros 119))) = false := by decide
theorem test_a0h_retry_page_refused : WellFormed (.a2hPoll .p0 (i2cOk []) i2cNack) = false := by decide
theorem test_trigger_fifteen_sets_refused : WellFormed (.adcTrigger ⟨0, 0⟩ (List.replicate 15 none) none none) = false := by decide
theorem test_trigger_code_refused : WellFormed (.adcTrigger ⟨0, 0⟩ (List.replicate 16 none) (some [131072]) none) = false := by decide
theorem test_trigger_empty_set_refused : WellFormed (.adcTrigger ⟨0, 0⟩ (List.replicate 16 none) none (some [])) = false := by decide
theorem test_urgent_code_refused : WellFormed (.urgentCheck 0 0 true true 0 (-131073)) = false := by decide

/-- A request of 48 octets. -/
def aRequest (op : Byte) : RecallReq :=
  { src := 5, rformat := 1, op := op, session := 0, tag := 0, sgen := 1, reserved := 0, param := zeros 40 }

theorem test_open_with_close_op_refused : WellFormed (.opOpen .s0 (aRequest 2)) = false := by decide
theorem test_close_with_open_op_refused : WellFormed (.opClose .s0 (aRequest 1)) = false := by decide
theorem test_entries_op_refused : WellFormed (.opEntries .s0 (aRequest 1)) = false := by decide
theorem test_ack_op_refused : WellFormed (.opAck .s0 (aRequest 1)) = false := by decide
theorem test_record_op_refused : WellFormed (.opRecord .s0 (aRequest 1)) = false := by decide
theorem test_done_op_refused : WellFormed (.opDone .s0 (aRequest 1)) = false := by decide
theorem test_malformed_short_refused : WellFormed (.malformedRequest .s0 { aRequest 1 with param := [] }) = false := by decide
theorem test_unlisted_short_refused : WellFormed (.unlistedRequest .s0 { aRequest 1 with param := [] }) = false := by decide
theorem test_ill_formed_faults : exec (.portsStep []) State.reset = .fault .illFormed := rfl

/-- The unit with a plug being scanned. -/
def sScan : State := { sOn with plug := { present := true, scanning := true } }

/-! Hypotheses met: the step, supplies and start-up -/

theorem test_hyp_stepRunsFront : ({ State.reset with pending := [.portBusyEnd] } : State).pending = .portBusyEnd :: [] := by decide

theorem test_hyp_idleTickCounts : sOn.pending = [] ∧ clockRuns sOn = true ∧ sOn.time.ns < 1000000000 ∧ sOn.time.frac < 65536
    ∧ sOn.time.residue < 65536 ∧ sOn.time.sec + 1 < 2 ^ 48 ∧ clockRuns State.reset = false := by decide

theorem test_hyp_queueNeverStops : ∀ c ∈ ({ State.reset with pending := [.portBusyEnd, .vinLow] } : State).pending, WellFormed c = true := by decide

theorem test_hyp_suppliesMoveEngine : State.reset.power.engine = .off ∧ (sAt .retention .straps).power.engine = .retention
    ∧ (State.reset.ident.fuse1.ok = true ∨ State.reset.ident.fuse2.ok = true) ∧ coreRuns sOn = true
    ∧ ({ sOn with power := { sOn.power with inReset := true } } : State).power.inReset = true
    ∧ (sOn.ident.fuse1.ok = true ∨ sOn.ident.fuse2.ok = true) ∧ sOn.power.vinGood = true := by decide

theorem test_hyp_supplyFaultsArise : coreRuns sOn = true ∧ sOn.power.vinGood = true ∧ sOn.power.pllLocked = true
    ∧ faultGet sOn (keyU 0x0600) = none ∧ faultGet sOn (keyU 0x06C0) = none ∧ faultGet sOn (keyU 0x0940) = none
    ∧ faultGet sOn (keyU 0x0700) = none ∧ 2300 ≤ 2300 ∧ (∀ r, faultGet sOn (keyU 0x0940) = some r → r.level < 4)
    ∧ ∀ v, some 2199 = some v → v < 2200 := by
  and_intros <;> decide

/-- Readings of 12 straps, all open: 1.25 V or more. -/
def openStraps : List (List Nat) := List.replicate 12 (List.replicate 16 1250000)
/-- A run of the check pattern that goes well. -/
def goodRun : PatternRun := { x := 1, y := 1, signature := none, parityOk := true }
/-- An A0h read that fails on a cage without a module. -/
def noCages : List CageRead := List.replicate 4 { modAbs := true, read := i2cNack }

theorem test_hyp_startUpSteps : atStep (sAt .starting .straps) .straps = true ∧ WellFormed.straps openStraps = true
    ∧ atStep (sAt .starting .laneTest) .laneTest = true ∧ selfTestPasses (sAt .starting .laneTest) { goodRun with y := 2 } = false ∧ faultGet (sAt .starting .laneTest) (keyU 0x3100) = none
    ∧ atStep (sAt .starting .journal) .journal = true ∧ domainGood (sAt .starting .journal) 5 = true := by decide

/-- The self-test passes with the signature that the logic fixes, whatever it is. -/
theorem test_hyp_startUpSteps_passes : ∃ p, selfTestPasses (sAt .starting .laneTest) p = true :=
  ⟨{ goodRun with signature := some (Config.checkSignature (fNom (sAt .starting .laneTest)) (strapRate (sAt .starting .laneTest))) }, by
    simp [selfTestPasses, signatureOk, goodRun]⟩

/-- Twin side A with ST_LAN at code 2 (Table 2.8): 6.19 kΩ and 12.4 kΩ against 24.9 kΩ to 1.250 V. -/
def badStraps : List (List Nat) := (openStraps.set 0 (List.replicate 16 248874)).set 3 (List.replicate 16 415550)

theorem test_hyp_invalidCombinations : atStep (sAt .starting .straps) .straps = true ∧ WellFormed.straps badStraps = true
    ∧ (badStraps.map strapNibble).getD 0 15 = 1 ∧ (badStraps.map strapNibble).getD 3 15 ≠ 7
    ∧ faultGet (sAt .starting .straps) (keyU 0x0500) = none := by decide

/-- The currents in pA of a scan of a plug with these beads, by linear index and code (R136): 1.000 V over the bead's resistance. -/
def beadScan (l : List (Nat × Nat)) : ScanReadings :=
  { mref := [], baseline := [], current := l.map (fun p => (p.1, ((1000000000000 / beadNominal p.2 : Nat) : Int))) }
/-- The check beads of rows 0 to 7 (R195). -/
def checkBeads : List (Nat × Nat) := [(120, 10), (121, 9), (122, 11), (123, 11), (124, 12), (125, 13), (126, 14), (127, 15)]
/-- The scan of a plug with a plug identity, a publication base and its check beads; and of one without its check beads. -/
def plugScan : ScanReadings := beadScan ([(0, 1), (6, 1)] ++ checkBeads ++ [(259, 1)])
def badScan : ScanReadings := beadScan [(0, 1), (6, 1), (259, 1)]
/-- The read image of the first. -/
def scanned : Image := imageOf plugScan

theorem test_hyp_startUpPlugDecides : atStep (sAt .starting .plug) .plug = true ∧ WellFormed.scans [some plugScan, some plugScan] = true
    ∧ startStable none ([some plugScan, some plugScan].map startImage) = (some scanned, some scanned) ∧ globalFails scanned = false
    ∧ bankImage (sAt .starting .plug) = none := by decide +kernel

theorem test_hyp_startUpPlugDecides_global : WellFormed.scans [some badScan, some badScan] = true
    ∧ startStable none ([some badScan, some badScan].map startImage) = (some (imageOf badScan), some (imageOf badScan))
    ∧ globalFails (imageOf badScan) = true ∧ faultGet (sAt .starting .plug) (keyU 0x1680) = none := by decide +kernel

theorem test_hyp_startUpPlugDecides_unstable : WellFormed.scans [some plugScan, none, some plugScan] = true
    ∧ startStable none ([some plugScan, none, some plugScan].map startImage) = (none, some scanned)
    ∧ faultGet (sAt .starting .plug) (keyU 0x1580) = none := by decide +kernel

theorem test_hyp_startingEnds : atStep (sAt .starting .ports) .ports = true ∧ (sAt .starting .ports).pair.state = .solo
    ∧ (sAt .starting .ports).power.withheldBy = none ∧ WellFormed.cages noCages = true
    ∧ ({ sAt .starting .ports with power := { (sAt .starting .ports).power with withheldBy := some .plug } } : State).power.withheldBy = some .plug := by
  decide

/-- A twin unit that waits for its partner. -/
def sWaits : State :=
  { withImage (sPair .pairing) with
    power := { sOn.power with engine := .starting }
    pair := { (sPair .pairing).pair with carrySilent := true } }

theorem test_hyp_startingEnds_absent : isTwin sWaits = true ∧ portsDone sWaits = true ∧ sWaits.power.engine = .starting ∧ canServe sWaits = true
    ∧ sWaits.pair.state = .pairing ∧ sWaits.pair.heard = false := by decide

theorem test_hyp_domainLosses : (∀ d ∈ [0, 1, 2, 3, 4, 5, 6, 8, 9, 10], domainGood sOn d = true ∧ faultGet sOn (keyD 0x0640 d) = none
      ∧ faultGet sOn (keyD 0x0680 d) = none) ∧ domainGood sOn 7 = true ∧ isTwin sOn = false ∧ isTwin (sPair .active) = true
    ∧ domainGood (sPair .active) 3 = true ∧ sScan.plug.scanning = true ∧ domainGood sScan 8 = true
    ∧ faultGet sOn (keyU 0x42C0) = none ∧ faultGet sOn (keyU 0x0900) = none ∧ faultGet sOn (keyG 0x3B00 .a) = none
    ∧ (sAt .starting .straps).power.engine = .starting ∧ domainGood (sAt .starting .straps) 1 = true := by decide

theorem test_hyp_fieldGroups : ∀ g ∈ [Group.a, Group.b], coreRuns sOn = true ∧ faultGet sOn (keyG 0x3B00 g) = none
    ∧ (groupGet sOn g).halted = false := by decide

theorem test_hyp_crossingParity : coreRuns sOn = true ∧ faultGet sOn (portKey 0x1A40 .s1) = none ∧ faultGet sOn (keyU 0x29C0) = none
    ∧ faultGet sOn (keyU 0x49C0) = none ∧ faultGet sOn (keyU 0x0900) = none
    ∧ (∀ c ∈ [0x0740, 0x0F40, 0x2E40, 0x3740, 0x51C0, 0x11C0, 0x4D40], faultGet sOn (keyU c) = none)
    ∧ faultGet sOn { code := 0x1180, scope := 10, inst := 5 } = none := by decide

/-! Hypotheses met: the plug -/

/-- Sixteen samples on PLG_TYPE of 49.9 kΩ against 24.9 kΩ to 1.250 V: code 4. -/
def plgType : List Nat := List.replicate 16 833890

theorem test_hyp_plugReading : WellFormed.presence plgType = true ∧ presentNow sOn (some 1) (some 99) plgType = true
    ∧ presentNow sScan (some 100) (some 1) plgType = false ∧ presentNow sScan (some 1) none plgType = false
    ∧ presentNow sScan (some 1) (some 1) (plgType.set 3 600000) = false
    ∧ sScan.plug.present = true ∧ plugServes sScan = true ∧ sScan.plug.scanning = true ∧ sScan.plug.scanBroken = false
    ∧ sOn.plug.present = false ∧ plugServes sOn = true ∧ ({ sOn with plug := { present := true } } : State).plug.scanning = false
    ∧ 9 ≤ ({ sOn with plug := { absentMs := 9 } } : State).plug.absentMs ∧ faultGet sOn (keyU 0x1500) = none
    ∧ scanMrefBad plugScan = false ∧ scanMrefBad { plugScan with mref := [(0, 989999)] } = true
    ∧ scanMrefBad { plugScan with mref := [(0, 990000), (1, 1010000)] } = false
    ∧ 2 ≤ ({ sScan with plug := { sScan.plug with mrefRun := 2 } } : State).plug.mrefRun ∧ faultGet sScan (keyU 0x15C0) = none := by decide +kernel

/-- The unit with a stable image, at a point of a commit. -/
def sCommit (h : Hold) (c : Commit) : State := { sOn with plug := { present := true, stable := some scanned, hold := h, commit := c } }

theorem test_hyp_commitCourse : (sCommit .idle .none).plug.hold = .idle ∧ (sCommit .idle .none).power.engine = .serving
    ∧ plugServes (sCommit (.timing true 1) .none) = true ∧ plugDiffers (sCommit (.timing true 1) .none) scanned = true
    ∧ globalFails scanned = false ∧ coreRuns (sCommit .spent (.decided [])) = true ∧ storeOn (sCommit .spent (.decided [])) = true ∧ mramWaits (sCommit .spent (.writing [])) = false
    ∧ storeOn (sCommit .spent (.writing [])) = true := by
  decide +kernel

theorem test_hyp_commitCourse_quiescent : (sCommit .spent (.waiting [])).plug.commit = .waiting []
    ∧ busyZones (sCommit .spent (.waiting [])) (newImage (sCommit .spent (.waiting [])) []) = [] := by decide +kernel

/-- The unit with zone 0 in a trip while a commit of an empty plug waits. -/
def sBusy : State := { sOn with
  plug := { present := true, image := some [(133, 1), (1025, 1)], hold := .spent, commit := .waiting [] }
  zones := [(0, { el := [(3, { started := true })] })] }

theorem test_hyp_commitCourse_busy : sBusy.plug.commit = .waiting []
    ∧ busyZones sBusy (newImage sBusy []) ≠ [] ∧ faultGet sBusy (keyU 0x16C0) = none := by decide +kernel

/-! Hypotheses met: ports -/

/-- A frame on the station bus to the station MAC of the factory unit (block base 0), that passes every check. -/
def aFrame : RxFrame :=
  { codingOk := true, size := 64, fcsOk := true, dst := 0x01154E000100, src := 5, tags := [], red := .none, ethertype := 0x88B7, proto := 0x0C40,
    peerDelay := false, ptp := .none, ownSupervision := false, twinFromP0 := false, stamp := 7 }

theorem test_hyp_frameChecks : (portGet sOn .s0).up = false ∧ rxOpen sPorts .s0 = true
    ∧ (isProcess .s0 && isHsr sPorts) = false ∧ addrOk sPorts .s0 aFrame.dst = true ∧ addrOk sPorts .s0 7 = false
    ∧ ({ aFrame with size := 63 }.size < 64 ∨ 1536 < { aFrame with size := 63 }.size)
    ∧ ({ aFrame with size := 1537 }.size < 64 ∨ 1536 < { aFrame with size := 1537 }.size)
    ∧ (1 < ({ aFrame with tags := [0x8100, 0x8100] } : RxFrame).tags.length ∨ 0x88A8 ∈ ({ aFrame with tags := [] } : RxFrame).tags) := by decide

/-- The same frame with a redundancy trailer of LAN A. -/
def prpFrame : RxFrame := { aFrame with red := .rct (BitVec.ofNat 4 (lanId .s0)) 9 true true }

theorem test_hyp_duplicatesDiscarded : rxOpen sPorts .s0 = true ∧ (isProcess .s0 = true → isPrp sPorts = true ∧ isHsr sPorts = false) ∧ 64 ≤ prpFrame.size ∧ prpFrame.size ≤ 1536
    ∧ addrOk sPorts .s0 prpFrame.dst = true ∧ tagOk prpFrame.tags = true ∧ prpFrame.red = .rct (BitVec.ofNat 4 (lanId .s0)) 9 true true
    ∧ prpFrame.ethertype ≠ 0x88FB ∧ typeOk sPorts .s0 prpFrame = true ∧ prpFrame.twinFromP0 = false ∧ (∀ x ∈ prpTable sPorts .s0, x.1 ≠ prpFrame.src.toNat)
    ∧ (prpTable sPorts .s0).length < 2048 := by decide

/-- The station bus has heard number 9 of that source. -/
def sHeard : State := { sPorts with ports := { sPorts.ports with prpStation := [(5, { highest := 10, window := 3, seen := 0 })] } }

theorem test_hyp_duplicatesDiscarded_second :
    (prpTable sHeard .s0).find? (fun x => x.1 == prpFrame.src.toNat) = some (prpFrame.src.toNat, { highest := 10, window := 3, seen := 0 })
    ∧ ((10 : BitVec 16) - 9).toNat < 128 ∧ (3 : BitVec 128).getLsbD ((10 : BitVec 16) - 9).toNat = true := by decide

/-- An A0h page with nothing in it. -/
def a0hPage : List Byte := zeros 96

theorem test_hyp_linksAndCages : coreRuns sPorts = true ∧ (portGet sPorts .p1).up = true ∧ portInUse sPorts .p1 = true
    ∧ lossFits .p1 .highBer = true ∧ lossFits .s0 .autonegotiation = true ∧ lossFits .s0 .highBer = false
    ∧ WellFormed.a0h (i2cOk a0hPage) = true ∧ busPage (i2cOk a0hPage) = some a0hPage ∧ busPage i2cNack = none
    ∧ (some { mbps := 100, fullDuplex := true } : Option LinkPartner) ≠ some { mbps := 1000, fullDuplex := true }
    ∧ faultGet sPorts (portKey 0x1900 .p1) = none ∧ domainGood sOn 2 = true
    ∧ (portGet { sOn with ports := { sOn.ports with s1 := { portUp with up := false } } } .s1).up = false
    ∧ (∀ r, faultGet sOn (portKey 0x1900 .s1) = some r → r.level < 4)
    ∧ (portGet sPorts .p0).modAbs = false ∧ faultGet sPorts (portKey 0x1980 .p0) = none
    ∧ portsDone sOn = true ∧ (portGet sOn .s0).modAbs = true := by
  and_intros <;> decide

/-- The unit under HSR. -/
def sHsr : State := withStraps sPorts (soloStraps.set 3 1)
/-- Diagnostics with the high-alarm flag of the temperature (octet 112, bit 7). -/
def hotPage : List Byte := (zeros 120).set 112 0x80
/-- The unit whose last poll showed that flag. -/
def sWarm : State := { sPorts with ports := { sPorts.ports with s0 := { portUp with alarm := [true] } } }
/-- SDA stays low after the ninth pulse. -/
def i2cStuck : I2c := { sdaLow := true, sclLow := false, freedAfter := none, page := none }

theorem test_hyp_portDiagnostics : coreRuns sPorts = true ∧ portInUse sPorts .s1 = true ∧ faultGet sPorts (portKey 0x1940 .s1) = none
    ∧ portsDone sHsr = true ∧ isHsr sHsr = true ∧ isProcess .p1 = true ∧ faultGet sHsr (portKey 0x1A00 .p1) = none
    ∧ portsDone sWarm = true ∧ (portGet sWarm .s0).modAbs = false ∧ (portGet sWarm .s0).a0hRead = true ∧ WellFormed.a2h (i2cOk hotPage) = true
    ∧ busPage (i2cOk hotPage) = some hotPage ∧ (portGet sWarm .s0).alarm.getD 0 false = true
    ∧ (diagShown hotPage (portGet sWarm .s0).extCal 0).getD 0 false = true
    ∧ faultGet sWarm (sfpKey 0x5940 .s0) = none ∧ WellFormed.a2h i2cStuck = true ∧ busPage i2cStuck = none ∧ i2cStuck.sdaLow = true
    ∧ recovered i2cStuck = false ∧ faultGet sPorts (sfpKey 0x5980 .s0) = none
    ∧ 2 ≤ (portGet { sPorts with ports := { sPorts.ports with s0 := { portUp with txnFails := 2 } } } .s0).txnFails := by
  decide +kernel

theorem test_hyp_supervisionAndTallies : portsDone sPorts = true ∧ canSend sPorts .s0 = true ∧ canSend sPorts .s1 = true
    ∧ sPorts.ports.s0.txBad = false ∧ sPorts.ports.s1.txBad = false ∧ isTwin sPorts = false ∧ isSingleLan sPorts = false ∧ isSingleLan (withStraps sPorts (soloStraps.set 3 2)) = true
    ∧ sPorts.pub.queue.length < 512 ∧ sPorts.pub.waiting = [] ∧ coreRuns sPorts = true
    ∧ tallyGet { sPorts with tally := [(8, 1)] } 0 8 ≠ sPorts.ports.p0.wrongLan.last
    ∧ 2 ≤ ({ up := 2 } : Rise).up ∧ faultGet sPorts (portKey 0x19C0 .p0) = none := by decide

/-! Hypotheses met: streams and breaker reports -/

/-- An ASDU of smpCnt n. -/
def anAsdu (n : Nat) : AsduRaw :=
  { svId := [0x41], smpCnt := octets 2 n, confRev := octets 4 1, smpSynch := [2], smpRate := none, smpMod := none, seqData := zeros 64, gmIdentity := none }

/-- A frame of two ASDUs to slot 0 of the image's window (base 0x0001 of Table 5.2's beads). -/
def anSv (n : Nat) : SvFrame :=
  { src := 5, appid := 1, length := 100, apduOctets := 100, reserved1 := 0, savPduOk := true, noAsdu := some 2, seqAsduOk := true,
    asdus := [anAsdu n, anAsdu (n + 1)], tag := none, signed := [], rxTime := 0 }

/-- The unit with slot 0 as given. -/
def withSlot (x : SvSlot) : State := { sZone with streams := { sZone.streams with sv := [(0, x)] } }
/-- Slot 0 as a candidate, with a run behind it up to smpCnt 1. -/
def aCandidate (run : Nat) : SvSlot := { phase := .candidate run 1, ident := identOf (anSv 2) }
/-- Slot 0 admitted. -/
def anAdmitted : SvSlot := { phase := .admitted, gen := 0, ident := identOf (anSv 2) }

/-- The frame as the stream catcher sees it, its timestamp referred to the contacts of the port (R222). -/
def seenAt (p : Port) (f : SvFrame) : SvFrame := { f with rxTime := f.rxTime - Config.portLatency (portNum p) false }

theorem test_hyp_streamsAdmitted : catches sZone .p0 = true ∧ sZone.pair.state = .solo ∧ frameFails sZone (seenAt .p0 (anSv 2)) = none
    ∧ gAuthSv (rods sZone) = none
    ∧ windowSlot (anSv 2).appid.toNat (gSvBase (rods sZone)) (gSvSize (rods sZone)) = some 0 ∧ (svGet sZone 0).phase = .free
    ∧ (svGet (withSlot (aCandidate 1)) 0).phase = .candidate 1 1 ∧ (anSv 2).src = (svGet (withSlot (aCandidate 1)) 0).ident.src
    ∧ (svGet (withSlot (aCandidate 1)) 0).ident = identOf (anSv 2) ∧ firstCnt (anSv 2) = (1 + 1) % strapRate (withSlot (aCandidate 1))
    ∧ (svGet (withSlot (aCandidate 2)) 0).phase = .candidate 2 1 ∧ { anSv 2 with src := 6 }.src ≠ (svGet (withSlot (aCandidate 2)) 0).ident.src
    ∧ (svGet (withSlot { aCandidate 1 with formedAt := some sZone.now }) 0).formedAt = some sZone.now ∧ (4 : Mac) < (aCandidate 1).ident.src
    ∧ (svGet (withSlot anAdmitted) 0).phase = .admitted ∧ { anSv 2 with src := 6 }.src ≠ (svGet (withSlot anAdmitted) 0).ident.src
    ∧ identOf { anSv 2 with asdus := [anAsdu 2], noAsdu := some 1 } ≠ (svGet (withSlot anAdmitted) 0).ident
    ∧ frameFails sZone (seenAt .p0 { anSv 2 with src := 6 }) = none := by decide +kernel

/-- A sample of slot 0. -/
def aSample (k : SampleKind) : Sample := { slot := 0, idx := ⟨1, 0⟩, kind := k, chans := [], blocked := false, jumped := false }
/-- Slot 0 admitted with a sample at the intake. -/
def sIntake (k : SampleKind) : State := { withSlot anAdmitted with streams := { (withSlot anAdmitted).streams with intake := [aSample k] } }

theorem test_hyp_streamsLost : serving (sIntake .received) = true ∧ (sIntake .received).pair.state = .solo
    ∧ (svGet (sIntake .received) 0).phase = .admitted ∧ (svGet (sIntake .received) 0).heardAt ≠ some (sIntake .received).now
    ∧ (svGet (withSlot { anAdmitted with heardAt := some sZone.now }) 0).heardAt = some sZone.now
    ∧ (sIntake .received).pending.any (bringsFrame (sIntake .received) 0) = false
    ∧ ({ withSlot anAdmitted with pending := [.svFrame .p0 (anSv 2)] } : State).pending.any (bringsFrame (withSlot anAdmitted) 0) = true
    ∧ (∀ x ∈ (sIntake .received).streams.intake, x.slot = 0) ∧ catches sZone .p1 = true
    ∧ frameFails sZone (seenAt .p1 { anSv 2 with length := 99 }) = some 1 ∧ frameFails sZone (seenAt .p1 { anSv 2 with appid := 0 }) = some 0 := by
  decide +kernel

/-- A unit with 8 local inputs, its local stream LS0 admitted. -/
def sLocal : State :=
  { withStraps sZone (soloStraps.set 5 1) with streams := { sZone.streams with sv := [(1024, { anAdmitted with ident := { anAdmitted.ident with noAsdu := 1 } })] } }

theorem test_hyp_streamsLost_local : serving sLocal = true ∧ sLocal.pair.state = .solo ∧ (svGet sLocal 1024).phase = .admitted ∧ 1024 ≤ (1024 : Fin 1026).val
    ∧ adcRuns sLocal = true ∧ (svGet sLocal 1024).refix = false ∧ (svGet sLocal 1024).heardAt ≠ some sLocal.now := by decide +kernel

/-- A unit whose zone 0 has slot 0 for its main stream, and no breaker window. -/
def sSmall : State := { sPorts with plug := { present := true, image := some [(133, 1), (1025, 1)] } }

theorem test_hyp_streamsLost_notAdmitted : serving sSmall = true ∧ (svGet sSmall 0).phase ≠ .admitted
    ∧ zonesWith sSmall (fun r z => zMain r z == some 0 || zVolt r z == some 0) ≠ [] ∧ faultGet sSmall (keyS 0x2D00 0) = none := by decide +kernel

/-- A breaker message of slot 0. -/
def aMessage : BrkMsg :=
  { src := 5, appid := 1, gocbRef := [0x41], timeAllowedToLive := 1000, stNum := 3, sqNum := 4, simulation := false, confRev := 1, ndsCom := false,
    numEntries := 1, dbpos := some 2, quality := none, apdu := [] }

/-- The unit with breaker slot 0 as given. -/
def withBrk (x : BrkSlot) : State := { sZone with streams := { sZone.streams with brk := [(0, x)] } }
/-- A breaker slot of that identity. -/
def aBrk (p : SlotPhase) : BrkSlot := { phase := p, src := 5, gocbRef := [0x41], confRev := 1, stNum := 3, sqNum := 3 }

theorem test_hyp_breakerReports : catches sZone .p0 = true ∧ sZone.pair.state = .solo ∧ brkValid aMessage = true
    ∧ windowSlot aMessage.appid.toNat (gBrkBase (rods sZone)) (gBrkSize (rods sZone)) = some 0 ∧ (brkGet sZone 0).phase = .free
    ∧ (brkGet (withBrk (aBrk (.candidate 2 0))) 0).phase = .candidate 2 0 ∧ brkSame (aBrk (.candidate 2 0)) aMessage = true
    ∧ aMessage.stNum = (aBrk (.candidate 2 0)).stNum ∧ aMessage.sqNum = (aBrk (.candidate 2 0)).sqNum + 1
    ∧ (brkGet (withBrk (aBrk .admitted)) 0).phase = .admitted ∧ (aBrk .admitted).stNum < { aMessage with stNum := 4 }.stNum
    ∧ { aMessage with src := 6 }.src ≠ (aBrk .admitted).src ∧ { aMessage with src := 4 }.src < (aBrk (.candidate 1 0)).src
    ∧ { aBrk (.candidate 1 0) with formedAt := some sZone.now }.formedAt = some sZone.now ∧ (brkGet (withBrk (aBrk .admitted)) 0).expired = false
    ∧ (brkGet (withBrk { aBrk .admitted with expired := true }) 0).expired = true
    ∧ faultGet (withBrk { aBrk .admitted with expired := true }) (keyB 0x2D40 0) = none := by decide +kernel

/-! Hypotheses met: time and the Reckoner -/

/-- What the messages of the clock 1 carry: PTP version 2, domain 7 (ST_PTPDOM at code 7). -/
def aPtpHdr (seq : BitVec 16) : PtpHdr := { version := 2, domain := 7, src := ⟨1, 1⟩, seq := seq }
/-- An Announce of the clock 1. -/
def anAnnounce : PtpAnnounce :=
  { hdr := aPtpHdr 0, gmIdentity := 1, priority1 := 128, clockClass := 6, clockAccuracy := 0x21, variance := 0, priority2 := 128, stepsRemoved := 1,
    alternateMaster := false, ptpTimescale := true, utcOffset := 37, utcOffsetValid := true, leap61 := false, leap59 := false, interval := 400000000 }
/-- That clock as a qualified master, and its Sync. -/
def aMaster : Master := { src := ⟨1, 1⟩, ann := anAnnounce, seen := 9900000000, qualified := true }
def aSync (two : Bool) : PtpSync :=
  { hdr := aPtpHdr 4, twoStep := two, origin := 0, correction := 0, rx := 2000, interval := 8192000000 }
/-- A response to request 3. -/
def aResp : PtpPdelay := { hdr := aPtpHdr 3, stamp := 100, correction := 0, rx := 400 }
/-- Port P0 with a master, a link delay and a request on its way. -/
def aPtp : PtpPort := { masters := [aMaster], reqSeq := 3, outstanding := true, delays := [65536], completed := [true], syncOk := true }
/-- The unit with P0 as given, its counter at 1000 s. -/
def sPtp (t : PtpPort) : State := { sPorts with time := { sec := 1000, p0 := t, selected := some (false, ⟨1, 1⟩) } }
/-- The unit in a time state. -/
def sTime (t : TimeState) : State := { sPorts with time := { state := t, sec := 1000, leap := some (true, 86400) } }

theorem test_hyp_peerDelay : ptpPort? .p0 = some false ∧ ptpPort? .p1 = some true ∧ clockRuns (sPtp aPtp) = true ∧ rxOpen (sPtp aPtp) .p0 = true
    ∧ canSend (sPtp aPtp) .p0 = true ∧ (portGet (sPtp aPtp) .p0).txBad = false ∧ ptpAccepted (sPtp aPtp) (aPtpHdr 3) = true
    ∧ ptpAccepted (sPtp aPtp) { aPtpHdr 3 with version := 1 } = false ∧ ptpAccepted (sPtp aPtp) { aPtpHdr 3 with domain := 0 } = false
    ∧ ptpAccepted (sPtp aPtp) { aPtpHdr 3 with src := ownPortId (sPtp aPtp) true } = false
    ∧ (ptpGet (sPtp aPtp) false).reqSeq = aResp.hdr.seq ∧ (ptpGet (sPtp aPtp) false).resp = none ∧ (ptpGet (sPtp aPtp) false).responders = []
    ∧ (ptpGet (sPtp { aPtp with responders := [⟨2, 1⟩] }) false).responders = [⟨2, 1⟩] ∧ (⟨2, 1⟩ : PortId) ≠ aResp.hdr.src
    ∧ (ptpGet (sPtp { aPtp with resp := some aResp }) false).resp = some aResp
    ∧ (ptpGet (sPtp { aPtp with resp := some aResp }) false).outstanding = true := by decide

theorem test_hyp_mastersKept : announceOk anAnnounce = true ∧ (∀ x ∈ (ptpGet sPorts false).masters, x.src ≠ anAnnounce.hdr.src)
    ∧ rxOpen sPorts .p0 = true ∧ rxOpen sOn .p0 = false ∧ ptpAccepted sPorts anAnnounce.hdr = true
    ∧ ptpAccepted sPorts { anAnnounce.hdr with domain := 3 } = false
    ∧ aMaster ∈ (ptpGet (sPtp aPtp) false).masters ∧ aMaster.src = anAnnounce.hdr.src ∧ (sPtp aPtp).now - aMaster.seen ≤ 4 * anAnnounce.interval
    ∧ announceOk { anAnnounce with alternateMaster := true } = false ∧ announceOk { anAnnounce with stepsRemoved := 255 } = false := by decide

theorem test_hyp_offsetsFormed : bestMaster (ptpGet (sPtp aPtp) false) = some aMaster ∧ aMaster.src = (aSync true).hdr.src ∧ (aSync true).twoStep = true
    ∧ (aSync false).twoStep = false ∧ delayValid (ptpGet (sPtp aPtp) false) = true ∧ ptpAccepted (sPtp aPtp) (aSync true).hdr = true
    ∧ rxOpen (sPtp aPtp) .p0 = true ∧ (ptpGet (sPtp { aPtp with sync := some (aSync true) }) false).sync = some (aSync true)
    ∧ (sPtp { aPtp with sync := some (aSync true) }).time.selected = some (false, ⟨1, 1⟩)
    ∧ (sPtp { aPtp with sync := some (aSync true) }).time.state = .unsynchronised := by decide

/-- The Follow_Up whose origin is the counter's reading less the link delay gives an offset of the receive timestamp less the counter: with it
the step lands in the counter's range, whatever the latency of the port is. -/
theorem test_hyp_offsetsFormed_step : ∃ o : Int,
    let s := sPtp { aPtp with sync := some (aSync true) }
    let off := rxStamp .p0 (aSync true).rx - (o + (aSync true).correction + 0 + median (ptpGet s false).delays)
    0 ≤ counterValue s - off ∧ counterValue s - off < (2 ^ 48 - 1) * 1000000000 * 65536 := by
  refine ⟨rxStamp .p0 (aSync true).rx, ?_⟩
  have h : median (ptpGet (sPtp { aPtp with sync := some (aSync true) }) false).delays = 65536 := by decide
  have c : counterValue (sPtp { aPtp with sync := some (aSync true) }) = 65536000000000000 := by decide
  have z : (aSync true).correction = 0 := rfl
  simp only [h, c, z]
  omega

/-- A carry header that is taken on an untouched lane. -/
def aHdr : CarryHdr := { lane := 0, seq := 0, ackn := 0, valid := true }
/-- A TIME frame of a leader that has a time base. -/
def aTime : TimeBody :=
  { partnerTx := 0, partnerRx := 0, ownTx := 0, ownRx := 0, leaderState := 3, leaderTimeq := 0 }
/-- A Standby without a time base. -/
def sUntimed : State := { sPair .active with pair := { (sPair .active).pair with state := .standby } }

theorem test_hyp_offsetsFormed_twin : takes (sPair .active) aHdr = true
    ∧ takes { sPair .active with time := { state := .acquiring } } aHdr = true
    ∧ ({ sPair .active with time := { state := .acquiring } } : State).time.state ≠ .unsynchronised
    ∧ takes sUntimed aHdr = true ∧ formed sUntimed = true ∧ sUntimed.time.state = .unsynchronised ∧ hasBase (timeOfCode aTime.leaderState) = true
    ∧ timeLeads { sUntimed with time := { sUntimed.time with partnerState := timeOfCode aTime.leaderState, partnerTimeq := aTime.leaderTimeq } } = false := by
  decide

theorem test_hyp_timeEvents : coreRuns (sTime .holdover) = true ∧ (sTime .holdover).time.state = .holdover
    ∧ faultGet (sTime .holdover) (keyU 0x0D80) = none ∧ (sTime .locked).time.leap = some (true, 86400) ∧ clockRuns (sTime .locked) = true
    ∧ (sTime .locked).time.state ∈ [TimeState.locked, .tracking, .holdover] ∧ (∀ n, (sTime .locked).time.noPpsTo = some n → n < (sTime .locked).time.sec)
    ∧ (sTime .acquiring).time.state ∈ [TimeState.unsynchronised, .acquiring, .freeRunning]
    ∧ (∃ n, ({ sTime .locked with time := { (sTime .locked).time with noPpsTo := some 1001 } } : State).time.noPpsTo = some n
      ∧ (sTime .locked).time.sec ≤ n) := by
  and_intros <;> decide

/-- Standby with the partner's time leading, its offset known. -/
def sTwin : State :=
  { sPair .active with
    time := { state := .freeRunning, twinOffset := some 0, partnerState := .locked }
    pair := { (sPair .active).pair with state := .standby } }

/-- The image with a hold current on the output, channel 1. -/
def coilImage : Rods := zoneImage.takeWhile (fun p => p.1 < 393) ++ [(396, 5)]
/-- A unit with that image and the COIL slot of channel 1. -/
def sCoil (c : Coil) : State :=
  { sPorts with plug := { present := true, image := some coilImage }, reck := { coil := [(1, c)] } }

theorem test_hyp_slotUpdates : coreRuns sOn = true ∧ domainGood sOn 6 = true ∧ sOn.reck.ovenErr.natAbs ≤ 100
    ∧ (∀ r, faultGet sOn (keyU 0x0EC0) = some r → r.level < 4) ∧ coreRuns sTwin = true ∧ twinRuns sTwin = true ∧ sTwin.time.twinOffset = some 0
    ∧ 30 ≤ ({ sOn with reck := { clk := { fe := 30 } } } : State).reck.clk.fe ∧ faultGet sOn ⟨0x1100, 10, 0⟩ = none
    ∧ 20 * gCoilFeTime (rods (sCoil { phase := .hold, loop := { fe := 200 } })) 1 ≤ (coilGet (sCoil { phase := .hold, loop := { fe := 200 } }) 1).loop.fe
    ∧ faultGet (sCoil { phase := .hold, loop := { fe := 200 } }) ⟨0x1180, 10, 5⟩ = none := by
  and_intros <;> decide

theorem test_hyp_coilCourse : coreRuns (sCoil { phase := .pick }) = true ∧ (coilGet (sCoil { phase := .pick }) 1).phase = .pick
    ∧ coilEnabled (rods (sCoil { phase := .pick })) 1 = true ∧ (coilGet (sCoil { phase := .hold, fresh := true }) 1).phase = .hold
    ∧ 20 * chPick (rods (sCoil { phase := .pick, picked := 100000 })) 1 ≤ (coilGet (sCoil { phase := .pick, picked := 100000 }) 1).picked
    ∧ (coilGet (sCoil { phase := .hold, fresh := true }) 1).fresh = true ∧ (coilGet (sCoil { phase := .hold }) 1).fresh = false
    ∧ (coilGet (sCoil { phase := .pick }) 1).due = false ∧ (coilGet (sCoil { phase := .hold }) 1).due = false
    ∧ (chGet (sCoil { phase := .hold, fresh := true }) 1).coupler = false
    ∧ (chGet { sCoil { phase := .hold, fresh := true } with field := { ch := [(1, { coupler := true })] } } 1).coupler = true := by decide

/-- After a commit that opens the hold current of channel 1: the image before it regulated. -/
def sReleased : State :=
  { sCoil { phase := .hold, due := true } with plug := { present := true, image := some zoneImage, earlier := some (coilImage, ⟨5, 0⟩) } }

theorem test_hyp_coilCourse_commit : coreRuns sReleased = true ∧ (coilGet sReleased 1).due = true ∧ coilEnabled (coilRods sReleased 1) 1 = true
    ∧ coilEnabled (rods sReleased) 1 = false := by decide

/-! Hypotheses met: the local analogue section -/

/-- A unit with 8 local inputs that waits for its ports. -/
def sAdc : State :=
  { withStraps (sAt .starting .ports) (soloStraps.set 5 1) with
    adc := { refOk := true, urgent := [(3, 9999999999)] } }
/-- The first sixteen triggers' codes: every conversion complete, at 0. -/
def someSets : List ConvSet := List.replicate 16 (some [0, 0])

theorem test_hyp_localAnalogue : WellFormed (.adcTrigger ⟨0, 1⟩ someSets none none) = true ∧ adcRuns sAdc = true ∧ serving sAdc = false
    ∧ sAdc.plug.earlier = none ∧ (⟨0, 1⟩ : SIndex).cnt < strapRate sAdc ∧ decidedRow sAdc = none ∧ triggerDue sAdc ⟨0, 1⟩ = true
    ∧ WellFormed.urgent 0 131071 = true
    ∧ sAdc.adc.urgent.find? (fun x => x.1 == 3) = some (3, 9999999999)
    ∧ converterBusy sAdc 16 0 0 = true ∧ yieldsCheck sAdc 3 (coveringChecker (adcInputs sAdc) (rods sAdc) 3) 9999999999 = false
    ∧ converterBusy sAdc (16 + coveringChecker (adcInputs sAdc) (rods sAdc) 3) (checkerOver sAdc (coveringChecker (adcInputs sAdc) (rods sAdc) 3)) 100
      = false
    ∧ converterBusy sAdc 3 (primaryOver sAdc 3) 100 = false ∧ endsInTime sAdc 100 = true ∧ (calib sAdc).isSome = true ∧ sAdc.adc.refOk = true ∧ sAdc.adc.convFault = [] ∧ faultGet sAdc (keyC 0x4180 3) = none
    ∧ overRange [0] = false := by
  and_intros <;> decide

theorem test_hyp_localAnalogue_passes : ∀ k, calib sAdc = some k →
    comparePasses (corrected sAdc k (16 + coveringChecker (adcInputs sAdc) (rods sAdc) 3) 3 true (rawSum 0 [0]))
      (corrected sAdc k 3 3 true (rawSum 0 [0])) = true := by
  intro k h
  cases h
  decide

/-- A sequence whose entry 0 converts input 0. -/
theorem test_hyp_localAnalogue_sequence : seqSet (rods { sAdc with plug := { sAdc.plug with image := some [(640, 1)] } }) 0 = true
    ∧ seqSet (rods sAdc) 0 = false := by decide

theorem test_hyp_localAnalogue_window : domainGood sOn 7 = true ∧ coreRuns sOn = true ∧ refInWindow sAdc 0 = false ∧ refInWindow sAdc 16777216 = true := by decide

/-! Hypotheses met: the zones -/

/-- A step to the sample of the intake, both lanes taking it as given. -/
def lanesOf (s : State) (l : Lanes) : LaneOut × LaneOut :=
  let b := beforeSample { s with out := [], streams := { s.streams with intake := [] } } (aSample .received)
  (laneTake b (pipeGet b 0) l.x (bound b 0) (aSample .received), laneTake b (Tab.get {} b.pipesY 0) l.y (bound b 0) (aSample .received))

theorem test_hyp_sampleReleased : sZone.streams.intake = [] ∧ serving (sIntake .received) = true ∧ coreRuns (sIntake .received) = true
    ∧ (sIntake .received).streams.intake = aSample .received :: [] ∧ releasable (sIntake .received) (aSample .received) = true
    ∧ (beforeSample { sIntake .received with streams := { (sIntake .received).streams with intake := [] } } (aSample .received)).pair.svDue = []
    ∧ (sIntake .received).plug.earlier = none ∧ faultGet (sIntake .received) (keyU 0x3100) = none
    ∧ faultGet (sIntake .received) (keyU 0x3180) = none := by decide +kernel

/-- A sample at the intake of a unit whose image has no zone: unbound; in the other unit the slot is bound. -/
def sUnbound : State := { sOn with plug := { present := true, image := some [(133, 1)] }, streams := { intake := [aSample .received] } }

/-- A formed Standby releases no sample before the INDEX record of its index. -/
theorem test_hyp_sampleReleased_waits : (let s : State := { sPair .standby with streams := { intake := [aSample .received] } }
    s.streams.intake = [aSample .received] ∧ serving s = true ∧ releasable s (aSample .received) = false)
    ∧ serving { sIntake .received with power := (sAt .withheld .pairing).power } = false := by decide +kernel

theorem test_hyp_sampleReleased_lanes : bound (beforeSample (sIntake .received) (aSample .received)) 0 = true
    ∧ serving sUnbound = true ∧ releasable sUnbound (aSample .received) = true ∧ bound (beforeSample sUnbound (aSample .received)) 0 = false
    ∧ (laneDiffer (lanesOf sUnbound ⟨none, none⟩).1.words (lanesOf sUnbound ⟨none, none⟩).2.words).isSome = false
    ∧ ((lanesOf sUnbound ⟨none, none⟩).1.parityOk && (lanesOf sUnbound ⟨none, none⟩).2.parityOk) = true
    ∧ (laneDiffer (lanesOf sUnbound ⟨some (.word 0 0 1), none⟩).1.words (lanesOf sUnbound ⟨some (.word 0 0 1), none⟩).2.words).isSome = true := by
  decide +kernel

/-- Lane X keeps a word whose parity bit is wrong (R400). -/
def sFlipped : State :=
  { sUnbound with pipes := [(0, { span := [{ idx := ⟨0, 0⟩, words := [(1, 0)], blocked := false, par := [parityOfWord 0] }] })] }

theorem test_hyp_sampleReleased_parity : serving sFlipped = true ∧ releasable sFlipped (aSample .received) = true
    ∧ ((lanesOf sFlipped ⟨none, none⟩).1.parityOk && (lanesOf sFlipped ⟨none, none⟩).2.parityOk) = false
    ∧ faultGet sFlipped (keyU 0x3180) = none := by decide +kernel

/-- Two lanes alike do not differ. -/
theorem laneDiffer_self (x : Tab (Int × Nat)) : laneDiffer x x = none := by
  unfold laneDiffer
  rw [Option.map_eq_none_iff, List.find?_eq_none]
  intro p hp
  obtain ⟨i, hi, rfl⟩ := List.mem_iff_getElem.mp hp
  simp

/-- Whatever a lane makes of a sample, its parity verdict is on the memories it found. -/
theorem laneTake_parityOk (s : State) (p : Pipe) (u : Option LaneUpset) (formed : Bool) (smp : Sample) :
    (laneTake s p u formed smp).parityOk = memoryOk (upsetMemory u p) := by
  unfold laneTake
  dsimp only
  repeat' split
  all_goals rfl

theorem test_hyp_sampleReleased_formed : (laneDiffer (lanesOf (sIntake .received) ⟨none, none⟩).1.words
      (lanesOf (sIntake .received) ⟨none, none⟩).2.words).isSome = false
    ∧ ((lanesOf (sIntake .received) ⟨none, none⟩).1.parityOk && (lanesOf (sIntake .received) ⟨none, none⟩).2.parityOk) = true := by
  let b := beforeSample { sIntake .received with streams := { (sIntake .received).streams with intake := [] } } (aSample .received)
  have x : pipeGet b 0 = {} := by decide +kernel
  have y : Tab.get {} b.pipesY 0 = {} := by decide +kernel
  show (laneDiffer (laneTake b (pipeGet b 0) none (bound b 0) (aSample .received)).words
      (laneTake b (Tab.get {} b.pipesY 0) none (bound b 0) (aSample .received)).words).isSome = false
    ∧ ((laneTake b (pipeGet b 0) none (bound b 0) (aSample .received)).parityOk
      && (laneTake b (Tab.get {} b.pipesY 0) none (bound b 0) (aSample .received)).parityOk) = true
  rw [x, y, laneDiffer_self, laneTake_parityOk]
  exact ⟨rfl, by decide⟩

theorem test_hyp_checkPattern : coreRuns sOn = true ∧ sOn.power.laneTestPassed = true ∧ sOn.streams.intake = []
    ∧ faultGet sOn (keyU 0x3140) = none ∧ faultGet sOn (keyU 0x3100) = none ∧ faultGet sOn (keyU 0x3180) = none
    ∧ goodRun.x = goodRun.y ∧ { goodRun with y := 2 }.x ≠ { goodRun with y := 2 }.y ∧ { goodRun with parityOk := false }.parityOk = false
    ∧ signatureOk sOn goodRun = true ∧ sUnbound.streams.intake ≠ [] := by decide

/-- A signature other than the one that the logic fixes, whatever it is. -/
theorem test_hyp_checkPattern_signature : ∃ p, signatureOk sOn p = false :=
  ⟨{ goodRun with signature := some (Config.checkSignature (fNom sOn) (strapRate sOn) + 1) }, by simp [signatureOk]⟩

/-- The unit with zone 0 as given. -/
def sz (x : Zone) : State := { sZone with zones := [(0, x)] }

/-- Zone 0 with definite time for 51P, phase A started. -/
def sDefinite : State :=
  { sz { el := [(0, { started := true })] } with plug := { sZone.plug with image := some (Tab.put 0 zoneImage (zoneIndex 0 9) 8) } }

theorem test_hyp_elementWaitsEnd : serving (sz {}) = true ∧ zEnabled (sz {}) 0 = true ∧ decisionOn (rods (sz {})) 0 (decNum .pA) = true
    ∧ (dirGet (zoneGet (sz { dir := [(0, { rawRun := 1 })] }) 0) (decNum .pA)).unavailable = false
    ∧ (dirGet (zoneGet (sz { dir := [(0, { rawRun := 1 })] }) 0) (decNum .pA)).latched = false
    ∧ 0 < (dirGet (zoneGet (sz { dir := [(0, { rawRun := 1 })] }) 0) (decNum .pA)).rawRun
    ∧ (dirGet (zoneGet (sz { dir := [(0, { mem := some (1, 1, 0) })] }) 0) (decNum .pA)).mem = some (1, 1, 0)
    ∧ (elGet (zoneGet (sz { el := [(3, { frozen := 1 })] }) 0) (elemNum .e50pA)).frozen ≠ 0
    ∧ elStart (zoneGet (sz { el := [(3, { started := true })] }) 0) (elemNum .e50pA) = true
    ∧ (elementDelay (sz {}) 0 (elemNum .e50pA)).isSome = true
    ∧ zEnabled sDefinite 0 = true ∧ definiteCurve (rods sDefinite) 0 (elemNum .e51pA) = true ∧ elStart (zoneGet sDefinite 0) (elemNum .e51pA) = true
    ∧ elemNum .e51pA ≤ 2 ∧ 1 ≤ elemReset (rods (sz {})) 0 (elemNum .e51pA) ∧ elemReset (rods (sz {})) 0 (elemNum .e51pA) ≤ 30
    ∧ (elGet (zoneGet (sz { el := [(0, { j := 5 })] }) 0) (elemNum .e51pA)).started = false
    ∧ (elGet (zoneGet (sz { el := [(0, { j := 5 })] }) 0) (elemNum .e51pA)).frozen = 0
    ∧ (zoneGet (sz { brk := .intermediate }) 0).brk = .intermediate ∧ zClpOn (rods (sz {})) 0 = true
    ∧ (zoneGet (sz { brk := .opened }) 0).brk = .opened := by decide +kernel

/-- Zone 0 with an operate that keeps its trip command, its breaker closed. -/
def tripped : Zone := { el := [(3, { started := true, operate := true })], trip := true, bf := .timing, brk := .closed }

theorem test_hyp_commandWaitsEnd_trip : (zoneGet (sz { trip := true }) 0).trip = true ∧ (zoneGet (sz { trip := true }) 0).bf ≠ .operated
    ∧ tripVerdict (rods (sz {})) 0 (zoneGet (sz { trip := true }) 0) = false ∧ zBfOn (rods (sz tripped)) 0 = true
    ∧ (zoneGet (sz tripped) 0).bf = .timing ∧ (zoneGet (sz tripped) 0).trip = true ∧ tripVerdict (rods (sz tripped)) 0 (zoneGet (sz tripped) 0) = true
    ∧ bfCriterion (bfCurrentPart (zoneCtx (sz tripped) 0 (zoneGet (sz tripped) 0))) (zoneGet (sz tripped) 0).brk = some true := by decide +kernel

theorem test_hyp_commandWaitsEnd_close : z79On (rods (sz {})) 0 = true ∧ tripVerdict (rods (sz {})) 0 { ar := .dead, brk := .opened } = false
    ∧ statusBad .opened = false ∧ statusBad .closed = false
    ∧ (zoneGet (sz { ar := .dead, brk := .opened }) 0).ar = .dead ∧ (zoneGet (sz { ar := .dead, brk := .opened }) 0).brk ≠ .closed
    ∧ (zoneGet (sz { ar := .dead, brk := .opened }) 0).block = false ∧ (zoneGet (sz { ar := .reclaim, brk := .closed }) 0).ar = .reclaim
    ∧ (zoneGet (sz { ar := .reclaim, brk := .closed }) 0).brk ≠ .opened ∧ (zoneGet (sz { ar := .waitOpen, brk := .closed }) 0).ar = .waitOpen
    ∧ (zoneGet (sz { ar := .close, brk := .opened }) 0).ar = .close
    ∧ (zoneGet (sz { ar := .close, brk := .opened }) 0).arTimer < pipeRate (sz { ar := .close, brk := .opened }) / 2
    ∧ faultGet (sz { ar := .close, brk := .opened }) (keyZ 0x3680 0) = none := by decide +kernel

theorem test_hyp_testModeAndThermal : (zoneGet (sz {}) 0).test = false ∧ faultGet (sz {}) (keyZ 0x3700 0) = none
    ∧ (zoneGet (sz { test := true }) 0).test = true ∧ (∀ r, faultGet (sz { test := true }) (keyZ 0x3700 0) = some r → r.level < 4)
    ∧ storeOn (sz {}) = true ∧ mramWaits (sz {}) = false
    ∧ mramWaits { sz {} with pub := { pubs := [(0, { stNum := 5 })] } } = true := by
  and_intros <;> decide

/-! Hypotheses met: publishing -/

/-- The unit with publication 0 as given and stNum 4 of it persisted. -/
def sPub (x : Publication) : State :=
  { sZone with nvm := { stNum := [(0, 4)] }, pub := { pubs := [(0, x)] } }
/-- A frame of publication 0. -/
def aGoose (stNum : Nat) : TxFrame := .goose 0 stNum false 0 0x010CCD010000 0 1 []
/-- The unit with a transmit queue. -/
def sQueue (l : List TxFrame) : State := { sPub { stNum := 4, running := true } with pub := { pubs := [(0, { stNum := 4, running := true })], queue := l } }

theorem test_hyp_publicationsCourse : coreRuns (sPub { stNum := 5 }) = true ∧ storeOn (sPub { stNum := 5 }) = true
    ∧ stnumNext (sPub { stNum := 5 }) = some 0 ∧ stnumNext { sPub {} with pub := { pubs := [(256, { stNum := 1 })] } } = some 256
    ∧ stnumNext (sPub { stNum := 5 }) ≠ some 1
    ∧ faultGet (sPub { stNum := 5 }) (keyU 0x5180) = none ∧ serving (sQueue []) = true ∧ isTwin (sQueue []) = false ∧ (sQueue []).pair.state = .solo
    ∧ (pubGet (sQueue []) 0).running = true ∧ (sQueue []).pub.queue.length < 512 ∧ 512 ≤ (sQueue (List.replicate 512 (aGoose 4))).pub.queue.length
    ∧ (∀ f ∈ (sQueue [aGoose 5]).pub.queue, held (sQueue [aGoose 5]) f = true)
    ∧ (sQueue [aGoose 5, aGoose 4]).pub.queue = [aGoose 5] ++ aGoose 4 :: [] ∧ (∀ g ∈ [aGoose 5], held (sQueue [aGoose 5, aGoose 4]) g = true)
    ∧ held (sQueue [aGoose 5, aGoose 4]) (aGoose 4) = false ∧ (sQueue [aGoose 5, aGoose 4]).pub.waiting = []
    ∧ isPersisted (sQueue [aGoose 4]) 0 4 = true ∧ gAuthGoose (rods (sQueue [aGoose 4])) = none
    ∧ isSingleLan (withStraps (sQueue [aGoose 4]) (soloStraps.set 3 2)) = true ∧ isHsr (withStraps (sQueue [aGoose 4]) (soloStraps.set 3 2)) = false
    ∧ isTwin (withStraps (sQueue [aGoose 4]) (soloStraps.set 3 2)) = false
    ∧ canSend (withStraps (sQueue [aGoose 4]) (soloStraps.set 3 2)) .p0 = true ∧ (sQueue [aGoose 4]).ports.p0.txBad = false := by decide +kernel

theorem test_hyp_statusFrames : statusRuns sPorts = true ∧ canSend sPorts .s0 = true ∧ sPorts.ports.s0.txBad = false := by decide +kernel

theorem test_hyp_statusFrames_change : keyFields (readAckIn sPorts) ≠ sPorts.pub.lastKey := by
  intro h
  simp [keyFields, sPorts, sOn, State.reset] at h

/-- The unit whose last status frame told the key fields that it finds again. -/
theorem test_hyp_statusFrames_same : let s : State := { sPorts with pub := { sPorts.pub with lastKey := keyFields (readAckIn sPorts) } }
    keyFields (readAckIn s) = s.pub.lastKey := rfl

/-! Hypotheses met: the pair -/

/-- Side A of a pair with a small image: a pair identity and a publication base. -/
def sTwo (p : PairState) : State := { sPair p with plug := { present := true, image := some [(15, 1), (259, 1)] } }

theorem test_hyp_carryLanes : carryHeader (.swapDecline { aHdr with valid := false }) = some { aHdr with valid := false }
    ∧ carryOn (sTwo .pairing) = true ∧ (laneGet (sTwo .pairing) 0).up = true ∧ ({ aHdr with valid := false } : CarryHdr).valid = false
    ∧ ({ aHdr with seq := 1 } : CarryHdr).seq ≠ (laneGet (sTwo .pairing) 0).rxSeq
    ∧ (laneGet { sTwo .pairing with pair := { (sTwo .pairing).pair with lane1 := {} } } 1).up = false
    ∧ (laneGet { sTwo .pairing with pair := { (sTwo .pairing).pair with lane1 := {} } } (1 - 1)).up = true
    ∧ (∀ r, faultGet (sTwo .pairing) (keyU 0x2900) = some r → r.level < 4) ∧ (laneGet (sTwo .pairing) 1).up = true
    ∧ (sTwo .pairing).pair.state = .pairing ∧ faultGet (sTwo .pairing) (keyU 0x2900) = none ∧ (sTwo .pairing).pair.carryUp = true
    ∧ carryOn (sTwo .standby) = true ∧ (sTwo .standby).pair.state = .standby ∧ agreementEmpty (sTwo .standby)
    ∧ faultGet (sTwo .standby) (keyU 0x55C0) = none ∧ carryRuns (sTwo .pairing) = true := by
  and_intros <;> decide

/-- A number of 32-bit words. -/
theorem fold_words_lt (l : List Nat) : ∀ a n, a < 2 ^ n → (∀ x ∈ l, x < 2 ^ 32) → l.foldl (fun a x => a * 2 ^ 32 + x) a < 2 ^ (n + 32 * l.length) := by
  induction l with
  | nil => intro a n h _; simpa using h
  | cons x t ih =>
    intro a n h hx
    have h1 : x < 2 ^ 32 := hx x (by simp)
    have h2 : a * 2 ^ 32 + x < 2 ^ (n + 32) := by rw [Nat.pow_add]; omega
    have := ih _ (n + 32) h2 (fun y hy => hx y (by simp [hy]))
    have e : n + 32 * (x :: t).length = n + 32 + 32 * t.length := by simp; omega
    rw [List.foldl_cons, e]
    exact this

/-- Each half of a chaining value is four words of 32 bits at most. -/
def ShaHalves.fits (h : ShaHalves) : Prop :=
  h.a.length ≤ 4 ∧ h.e.length ≤ 4 ∧ (∀ x ∈ h.a, x < 2 ^ 32) ∧ ∀ x ∈ h.e, x < 2 ^ 32

/-- Added words are words. -/
theorem addWords_lt (x y : List Nat) : (addWords x y).length ≤ x.length ∧ ∀ v ∈ addWords x y, v < 2 ^ 32 := by
  unfold addWords
  refine ⟨by rw [List.length_zipWith]; omega, fun v hv => ?_⟩
  obtain ⟨i, hi, rfl⟩ := List.mem_iff_getElem.mp hv
  rw [List.getElem_zipWith]
  exact Nat.mod_lt _ (by decide)

theorem shaBlocks_fits (n : Nat) : ∀ m h, h.fits → (shaBlocks n m h).fits := by
  induction n with
  | zero => intro m h a; exact a
  | succ n ih =>
    intro m h a
    have f := fun (x y : List Nat) => addWords_lt x y
    exact ih _ _ ⟨le_trans (f _ _).1 a.1, le_trans (f _ _).1 a.2.1, (f _ _).2, (f _ _).2⟩

theorem shaStart_fits : shaStart.fits := by
  unfold ShaHalves.fits shaStart
  decide +kernel

/-- SHA-256 has 256 bits. -/
theorem sha256_lt (m : List Byte) : sha256 m < 2 ^ 256 := by
  obtain ⟨la, le, wa, we⟩ := shaBlocks_fits ((m.length + 72) / 64)
    (m ++ 0x80#8 :: zeros (64 * ((m.length + 72) / 64) - m.length - 9) ++ octets 8 (8 * m.length)) shaStart shaStart_fits
  refine Nat.lt_of_lt_of_le (fold_words_lt _ 0 0 (by decide) (fun x hx => (List.mem_append.mp hx).elim (wa x) (we x))) ?_
  refine Nat.pow_le_pow_right (by decide) ?_
  rw [List.length_append]
  omega

/-- The HELLO of the partner of a unit with the same image: as its own, of the other side. -/
def hisHello (s : State) : HelloBody := { helloBody s with sideUid := 128 }

/-- That HELLO meets every condition of Table 16.5. -/
theorem hisHello_accepted (p : PairState) : pairingCode (sTwo p) (hisHello (sTwo p)) = 0 := by
  have fp : (BitVec.ofNat 256 (fullFp (rods (sTwo p)))).toNat = fullFp (rods (sTwo p)) := by
    have h : fullFp (rods (sTwo p)) < 2 ^ 256 := sha256_lt _
    rw [BitVec.toNat_ofNat, Nat.mod_eq_of_lt h]
  have hs : side (sTwo p) = 1 := by cases p <;> decide
  have hst : (List.range 12).all (fun k => k == 0 || k == 7 || k == 8 ||
      (strapNibbles (hisHello (sTwo p)).straps).getD k 15 == (sTwo p).ident.straps.getD k 15) = true := by cases p <;> decide
  have hid : gPairId (rods (sTwo p)) = some 1 := by cases p <;> decide
  have hf : (hisHello (sTwo p)).fingerprint = some (BitVec.ofNat 256 (fullFp (rods (sTwo p)))) := rfl
  have hp : (hisHello (sTwo p)).pairId = gPairId (rods (sTwo p)) := rfl
  have hu : (hisHello (sTwo p)).sideUid.toNat / 64 = 2 := by show (128#8).toNat / 64 = 2; decide
  have hi : (sTwo p).plug.image.isNone = false := rfl
  have hm : ((hisHello (sTwo p)).fingerprint.map (·.toNat) != some (fullFp (rods (sTwo p)))) = false := by
    rw [hf, Option.map_some, fp]
    simp
  have hn : (hisHello (sTwo p)).fingerprint.isNone = false := rfl
  unfold pairingCode
  simp only [hs, hst, hu, hi, hn, hp, hid, hm]
  rfl

theorem test_hyp_pairingExchange : carryOn (sTwo .pairing) = true ∧ (sTwo .pairing).pair.carryUp = true ∧ (sTwo .pairing).plug.image.isSome = true
    ∧ (sTwo .pairing).pair.state = .pairing ∧ (sTwo .shadow).pair.state = .shadow ∧ lane0Ready (sTwo .pairing) = true
    ∧ takes (sTwo .pairing) aHdr = true ∧ (sTwo .pairing).power.engine ≠ .withdrawn
    ∧ pairingCode (sTwo .pairing) { hisHello (sTwo .pairing) with sideUid := 64 } ≠ 0 ∧ (sTwo .pairing).pair.split = false
    ∧ pairingCode (sTwo .pairing) (hisHello (sTwo .pairing)) = 0 ∧ (hisHello (sTwo .pairing)).pair.toNat ≠ 2 := by
  have : pairingCode (sTwo .pairing) { hisHello (sTwo .pairing) with sideUid := 64 } = 1 := rfl
  and_intros <;> first | exact hisHello_accepted _ | (rw [this]; decide) | decide

/-- Side B that waits for its partner in Starting. -/
def sB : State := { withStraps (sTwo .pairing) (soloStraps.set 0 2) with power := { sOn.power with engine := .starting } }
/-- Side A in Starting, its partner's HELLO come. -/
def sHello : State :=
  { sTwo .pairing with
    power := { sOn.power with engine := .starting }
    pair := { (sTwo .pairing).pair with hello := some (hisHello (sTwo .pairing)) } }

theorem test_hyp_pairingExchange_refuse : takes sB aHdr = true ∧ (2 : Fin 6).val ≠ 0 ∧ sB.power.engine = .starting ∧ side sB = 2
    ∧ faultGet sB (keyU 0x5640) = none := by decide

/-- Side A, told by its partner that it is Withheld (R624). -/
def sOther : State := { sHello with pair := { sHello.pair with told := { sHello.pair.told with engine := 2 } } }

theorem test_hyp_pairingExchange_refused : takes sOther aHdr = true ∧ 2 ≤ (5 : Fin 6).val ∧ serving sOther = false ∧ sOther.power.engine ≠ .withdrawn
    ∧ side sOther = 1 ∧ canBeAdmitted sOther = true ∧ sOther.pair.told.engine ≠ 3 := by decide

theorem test_hyp_pairingExchange_accept : takes sHello aHdr = true ∧ sHello.pair.hello = some (hisHello (sTwo .pairing)) ∧ sHello.pair.state = .pairing
    ∧ pairingCode sHello (hisHello (sTwo .pairing)) = 0 ∧ canServe sHello = true ∧ sHello.pair.told.pair ≠ 2 :=
  ⟨by decide, rfl, rfl, hisHello_accepted _, by decide, by decide⟩

/-- A heartbeat of side B. -/
def aBeat : HeartbeatBody := { hformat := 1, sideUid := 128, engine := 3, pair := 1, hflags := 0, timeq := 0, time := 0, hbseq := 0, fp := 0, jseq := 0 }

theorem test_hyp_heartbeats : carryOn (sTwo .pairing) = true ∧ lane0Ready (sTwo .pairing) = true ∧ (sTwo .pairing).pair.oneDownAt = none
    ∧ (({ sTwo .pairing with now := 5 } : State).now < (sTwo .pairing).pair.bothUpAt + 400000000) ∧ isTwin (sTwo .pairing) = true
    ∧ portsDone (sTwo .pairing) = true ∧ (pairMac (sTwo .pairing)).isSome = true ∧ canSend (sTwo .pairing) .p0 = true
    ∧ (portGet (sTwo .pairing) .p0).txBad = false ∧ (sTwo .pairing).plug.image.isSome = true ∧ rxOpen (sTwo .pairing) .p0 = true
    ∧ takes (sTwo .pairing) aHdr = true ∧ hflag aBeat 4 = false ∧ rxOpen (sTwo .pairing) .p1 = true
    ∧ (∃ m, pairMac (sTwo .pairing) = some m ∧ busHeartbeatOk (sTwo .pairing) (BitVec.ofNat 48 (pairGroup m)) aBeat = true) := by
  and_intros <;> decide

/-- An accepted Active whose carry path is silent. -/
def sSilent : State := { sTwo .active with pair := { (sTwo .active).pair with carrySilent := true, heardB := true } }

theorem test_hyp_heartbeats_silent : serving (sTwo .active) = true ∧ (sTwo .active).power.inReset = false ∧ (sTwo .active).pair.absent = false
    ∧ (sTwo .active).pair.accepted = true ∧ (sTwo .active).pair.busSilent = false ∧ faultGet (sTwo .active) (keyU 0x5500) = none
    ∧ sSilent.pair.state = .active ∧ sSilent.pair.carrySilent = true ∧ agreementEmpty sSilent ∧ faultGet sSilent (keyU 0x5580) = none
    ∧ sSilent.pair.heardB = true ∧ faultGet sSilent (keyU 0x5540) = none := by
  and_intros <;> decide

/-- A receipt record of one message. -/
def aReceipt : ReceiptRec := { kind := 0, slot := 0, secLo := 1, bitmap := 1, first := 0, digest := 0 }
/-- A held sample of slot 0, not confirmed. -/
def aHeld : Held := { sample := aSample .received, digest := 0, own := true, held := true, confirmed := false }
/-- A held breaker message, not confirmed. -/
def aHeldBrk : HeldBrk := { slot := 0, msg := aMessage, confirmed := false }

theorem test_hyp_inputAgreement : takes (sTwo .standby) aHdr = true ∧ serving (sTwo .standby) = true ∧ (sTwo .standby).pair.state = .standby
    ∧ (sTwo .standby).pair.held = [] ∧ aReceipt.kind.val < 2 ∧ aReceipt.bitmap = 1 ∧ aReceipt.first < strapRate (sTwo .standby) ∧ aReceipt.secLo < 256
    ∧ (svGet (sTwo .standby) 0).phase ≠ .admitted ∧ (sTwo .standby).pair.heldBrk = [] ∧ (sTwo .standby).pair.brkDue = [] ∧ (brkGet (sTwo .standby) 0).phase = .free
    ∧ (sTwo .standby).streams.intake = []
    ∧ findHeld { sTwo .standby with pair := { (sTwo .standby).pair with held := [aHeld] } } 0 ⟨1, 0⟩ = some aHeld ∧ aHeld.held = true
    ∧ aHeld.confirmed = false ∧ aHeld.sample.kind = .received ∧ lane0Ready (sTwo .standby) = true ∧ formed (sTwo .active) = true
    ∧ serving (sTwo .active) = true ∧ findHeld (sTwo .active) 0 ⟨0, 3⟩ = none
    ∧ brkUnconfirmed { sTwo .active with pair := { (sTwo .active).pair with heldBrk := [aHeldBrk] } } 0 ⟨0, 3⟩ = some aHeldBrk
    ∧ faultGet (sTwo .active) (keyU 0x56C0) = none := by decide

/-- The unit with a swap. -/
def sSwap (p : PairState) (w : Swap) : State := { sTwo p with pair := { (sTwo p).pair with swap := w } }

theorem test_hyp_swapCourse : serving (sTwo .active) = true ∧ (sTwo .active).power.inReset = false ∧ (sTwo .active).pair.swapDue = none
    ∧ (sTwo .active).pair.swap = .none ∧ takes (sTwo .standby) aHdr = true ∧ takes (sSwap .active (.proposed ⟨5, 0⟩)) aHdr = true
    ∧ (sSwap .active (.proposed ⟨5, 0⟩)).pair.swap = .proposed ⟨5, 0⟩ ∧ (sSwap .active .retry).pair.swap = .retry
    ∧ serving (sSwap .active (.agreed ⟨5, 0⟩)) = true ∧ (sSwap .active (.agreed ⟨5, 0⟩)).journal.queue = []
    ∧ (sSwap .standby (.agreed ⟨5, 0⟩)).pair.state = .standby := by decide

/-- A committed entry, its fields as `entryOf` spells no octets. -/
def anEntry : Entry := entryOf { jseq := 0, body := [] }
/-- A page with that entry as number 1. -/
def aPage : Page := { sev := 0, gen := 1, entries := [{ jseq := 1, prevCrc := 0, ecrc := 7, entry := anEntry }], used := 128, marks := 0 }
/-- The unit with a rejoin. -/
def sRejoin (p : PairState) (r : Rejoin) : State := { sTwo p with pair := { (sTwo p).pair with rejoin := r } }
/-- The unit with that page. -/
def withPage (s : State) : State := { s with journal := { s.journal with jseq := 1, pages := [(0, aPage)] } }

theorem test_hyp_pairJournalAndRejoin : takes (sTwo .active) aHdr = true ∧ formed (sTwo .active) = true ∧ ({ jseq := 0, body := [] } : CarriedEntry).jseq = 0
    ∧ takes (sTwo .standby) aHdr = true ∧ ({ jseq := 1, body := [] } : CarriedEntry).jseq = nextNumber (sTwo .standby)
    ∧ (entryOf { jseq := 1, body := [] }).pair = false ∧ coreRuns (sTwo .active) = true
    ∧ ((allCommitted (withPage (sTwo .active))).find? (fun c => c.jseq == 1)).map (·.ecrc) = some 7 ∧ (7 : BitVec 32) ≠ 8
    ∧ faultGet (sTwo .active) (keyU 0x5740) = none ∧ takes (sRejoin .active .journals) aHdr = true
    ∧ (sRejoin .active .journals).pair.rejoin = .journals ∧ takes (sRejoin .rejoining (.agreeing ⟨1, 0⟩)) aHdr = true
    ∧ (sRejoin .rejoining (.agreeing ⟨1, 0⟩)).streams.intake = [] ∧ isTwin (sRejoin .active .journals) = true
    ∧ serving (sRejoin .active .journals) = true ∧ (sRejoin .active .journals).power.inReset = false
    ∧ indexEnded (sRejoin .rejoining (.agreeing ⟨1, 0⟩)) ⟨0, 5⟩ = true
    ∧ indexEnded { sRejoin .rejoining (.agreeing ⟨1, 0⟩) with streams := { sv := [(0, { anAdmitted with due := ⟨0, 5⟩ })] } } ⟨0, 5⟩ = false
    ∧ agreementEmpty (sRejoin .active .journals) ∧ faultGet (sRejoin .active .journals) (keyU 0x5780) = none := by
  and_intros <;> decide

/-! Hypotheses met: the journal and recall -/

/-- The unit with one entry in its commit queue and an open page of severity 0 with `u` octets used. -/
def sJournal (e : Entry) (u : Nat) : State :=
  { sOn with journal := { sOn.journal with queue := [e], jseq := 1, pages := [(0, { aPage with used := u })], opens := [some 0, none, none, none] } }

theorem test_hyp_journalCommits : journalOpen (sJournal anEntry 128) = true ∧ storeOn (sJournal anEntry 128) = true
    ∧ stnumNext (sJournal anEntry 128) = none
    ∧ (sJournal anEntry 128).pair.numbered = [] ∧ ((sJournal anEntry 128).pair.state = .active → (sJournal anEntry 128).pair.pairEntries = [])
    ∧ firstEntry (committable (sJournal anEntry 128)) = some anEntry ∧ (sJournal anEntry 128).journal.opens.getD anEntry.sev none = some 0
    ∧ pageGet (sJournal anEntry 128) 0 = some { aPage with used := 128 } ∧ 128 + 2 * entrySize anEntry ≤ 4096
    ∧ (let p := { aPage with used := 4032 }; pageGet (sJournal anEntry 4032) 0 = some p ∧ p.used + entrySize anEntry ≤ 4096)
    ∧ faultGet (sJournal anEntry 128) (keyU 0x4600) = none := by decide

/-- Every page of the journal holds an S3 entry that no host has marked; an S3 entry waits. -/
def sFull : State :=
  { sOn with journal := { sOn.journal with
    queue := [{ anEntry with sev := 3 }], pages := (List.range 8192).map (fun n => (n, { aPage with sev := 3 })) } }

theorem test_hyp_journalCommits_full : journalOpen sFull = true ∧ storeOn sFull = true ∧ stnumNext sFull = none ∧ sFull.pair.numbered = []
    ∧ (sFull.pair.state = .active → sFull.pair.pairEntries = []) ∧ firstEntry (committable sFull) = some { anEntry with sev := 3 }
    ∧ roomFor sFull 3 (entrySize { anEntry with sev := 3 }) = none ∧ faultGet sFull (keyU 0x4580) = none := by
  have h0 : freePages sFull = 0 := by simp [freePages, sFull]
  have h1 : released sFull 0#8 = false := by decide +kernel
  have h2 : sFull.journal.pages.filter (fun p => reclaimable sFull 3 p.1 p.2) = [] := by
    rw [List.filter_eq_nil_iff]
    intro p hp
    simp only [sFull, List.mem_map] at hp
    obtain ⟨n, -, rfl⟩ := hp
    simp [reclaimable, aPage]
    intro _
    exact h1
  have h3 : findPage sFull 3 = none := by
    unfold findPage
    rw [h0, h2]
    rfl
  have h4 : sFull.journal.opens.getD 3 none = none := rfl
  refine ⟨rfl, rfl, rfl, rfl, (fun h => nomatch h), by decide, ?_, rfl⟩
  unfold roomFor takePage
  rw [h3, h4]
  rfl

/-- The unit with suppressed entries of code 0x0D40, and a mark that waits. -/
def sSuppressed : State :=
  { sOn with
    journal := { sOn.journal with buckets := [(0x0D40 * 65536 + none16, { used := 8, sev := 2, suppressed := 3 })] }
    recallSvc := { waiting := [(0, false, 0, 5)] } }

theorem test_hyp_journalUpkeep : coreRuns sSuppressed = true
    ∧ (0x0D40 * 65536 + none16, { used := 8, sev := 2, suppressed := 3 }) ∈ sSuppressed.journal.buckets ∧ 2 ≤ 8
    ∧ (Tab.get {} sSuppressed.journal.buckets (0x0D40 * 65536 + none16)).suppressed ≠ 0 ∧ sSuppressed.power.engine ≠ .withdrawn
    ∧ numberedByPartner sSuppressed = false ∧ (queueLoad sSuppressed).length < 48 ∧ sSuppressed.recallSvc.waiting ≠ []
    ∧ sSuppressed.journal.latest.sec % (60 * gSnapPeriod (rods sSuppressed)) = 0 ∧ (4, ⟨0, 0⟩) ∉ sSuppressed.journal.snapAt
    ∧ (let s : State := { sOn with journal := { sOn.journal with latest := ⟨59, 0⟩ } }; s.journal.latest.sec % (60 * gSnapPeriod (rods s)) ≠ 0)
    ∧ (let s : State := { sOn with journal := { sOn.journal with snapAt := [(4, ⟨0, 0⟩)] } }; (4, ⟨s.journal.latest.sec, 0⟩) ∈ s.journal.snapAt) := by
  decide

/-- A record of one index, with no stream. -/
def aRecord : DrRecord :=
  { recno := 1, zones := [], fired := 0, first := ⟨5, 0⟩, trigger := ⟨5, 0⟩, last := ⟨5, 0⟩, streams := [], timeq := 0, fp := 0, flags := 0, closed := false,
    sev := 0 }
/-- The unit with that record and so many retired blocks. -/
def sRecord (n : Nat) : State := { sOn with journal := { sOn.journal with records := [aRecord], retired := n } }

theorem test_hyp_disturbanceRecords : coreRuns (sRecord 0) = true
    ∧ (sRecord 0).journal.records.find? (fun x => x.recno == 1 && !x.closed) = some aRecord
    ∧ 3276 + ceilDiv (recordBody (sRecord 0) (closedRecord (sRecord 0) aRecord 0)).length 262144 ≤ freeBlocks (sRecord 0)
    ∧ freeBlocks (sRecord 32768) < ceilDiv (recordBody (sRecord 32768) (closedRecord (sRecord 32768) aRecord 0)).length 262144
    ∧ (sRecord 32768).journal.store.filter (recordReclaimable (sRecord 32768) (recordSev (sRecord 32768) aRecord)) = []
    ∧ faultGet (sRecord 32768) (keyU 0x4900) = none := by decide +kernel

/-- An index entry of record 1, its body of 64 octets. -/
def anIndex : Committed := { jseq := 1, prevCrc := 0, ecrc := 7, entry := { anEntry with code := 0x4400, payload := octets 4 1 ++ zeros 60 } }
/-- The stored body of record 1. -/
def aBody (written : Bool) : Stored := { recno := 1, sev := 2, block := 0, blocks := 1, body := zeros 64, written := written, jseq := 1, marks := 0 }
/-- The unit with the record in its store, its session 0 as given. -/
def sRecall (x : Session) : State :=
  { sZone with
    journal := { sZone.journal with jseq := 1, pages := [(0, { aPage with entries := [anIndex] })], store := [aBody true] }
    recallSvc := { sessions := [(0, x)] } }
/-- A session of the host at 5. -/
def aSession (st : SessionState) : Session := { state := st, sgen := 1, mac := 5, openTag := 0, openAt := 10000000000 }

theorem test_hyp_disturbanceRecords_write : coreRuns (sRecord 0) = true ∧ ((({ sRecord 0 with journal := { (sRecord 0).journal with
    store := [aBody false] } } : State).journal.store.filter (fun r => !r.written)).take 4).any (fun r => r.recno == 1) = true := by decide

theorem test_hyp_recallRequests : recallOf (.opOpen .s0 (aRequest 1)) = some (.s0, aRequest 1) ∧ WellFormed (.opOpen .s0 (aRequest 1)) = true
    ∧ hears (sRecall {}) .s0 (aRequest 1) = true ∧ malformed (aRequest 1) = false ∧ redirects (sRecall {}) = false
    ∧ hostOf (sRecall {}) (aRequest 1).src = some 0 ∧ openedBy (sRecall {}) (aRequest 1) = none
    ∧ (List.range 8).find? (fun n => (sessionGet (sRecall {}) n).state == .free) = some 0
    ∧ openedBy (sRecall (aSession .idle)) (aRequest 1) = some 0 ∧ sessionOf (sRecall (aSession .idle)) (aRequest 2) = some 0
    ∧ hears (sRecall (aSession .idle)) .s0 (aRequest 2) = true ∧ malformed (aRequest 2) = false ∧ malformed (aRequest 0x10) = false
    ∧ WellFormed (.opEntries .s0 (aRequest 0x10)) = true ∧ sessionOf (sRecall {}) (aRequest 0x10) = none
    ∧ WellFormed (.malformedRequest .s0 (aRequest 3)) = true ∧ malformed (aRequest 3) = true
    ∧ sessionOf (sRecall {}) (aRequest 3) = none ∧ (sessionOf (sRecall (aSession .idle)) (aRequest 3)).isSome = true
    ∧ WellFormed (.unlistedRequest .s0 { aRequest 1 with src := 6 }) = true ∧ recallOpen (sRecall {}) .s0 = true
    ∧ hostOf (sRecall {}) { aRequest 1 with src := 6 }.src = none := by decide +kernel

/-- Every session taken, by another host. -/
def sTaken : State := { sZone with recallSvc := { sessions := (List.range 8).map (fun n => (n, { aSession .idle with mac := 6 })) } }

theorem test_hyp_recallRequests_taken : hears sTaken .s0 (aRequest 1) = true ∧ redirects sTaken = false ∧ openedBy sTaken (aRequest 1) = none
    ∧ (∀ n, n < 8 → (sessionGet sTaken n).state ≠ .free) := by decide +kernel

theorem test_hyp_recallRequests_redirect : hears (withImage (sPair .standby)) .s0 (aRequest 1) = true ∧ redirects (withImage (sPair .standby)) = true := by
  decide +kernel

/-- Session 0 with a request queued. -/
def sServe (r : RecallReq) : State := sRecall { aSession .queued with request := some r }
/-- A request with a PARAM. -/
def withParam (op : Byte) (l : List Byte) : RecallReq := { aRequest op with param := l ++ zeros (40 - l.length) }

theorem test_hyp_recallServes : portsDone (sServe (aRequest 0x10)) = true ∧ redirects (sServe (aRequest 0x10)) = false
    ∧ nextSession (sServe (aRequest 0x10)) = some 0 ∧ (sessionGet (sServe (aRequest 0x10)) 0).request = some (aRequest 0x10)
    ∧ readReady (sServe (aRequest 0x10)) (aRequest 0x10) = true
    ∧ readReady { sServe (aRequest 0x10) with plug := { (sServe (aRequest 0x10)).plug with commit := .writing [] } } (aRequest 0x10) = false
    ∧ param (aRequest 0x10) 0 8 = 0
    ∧ (let r := withParam 0x11 (octets 8 1 ++ octets 8 1); nextSession (sServe r) = some 0 ∧ param r 0 8 ≤ param r 8 8
      ∧ param r 8 8 ≤ (sServe r).journal.jseq)
    ∧ (let r := withParam 0x11 (octets 8 1 ++ octets 8 2); (sServe r).journal.jseq < param r 8 8)
    ∧ (let r := withParam 0x20 (octets 4 1); r.op = 0x20 ∧ indexOf (allCommitted (sServe r)) (param r 0 4) = some anIndex
      ∧ (sServe r).journal.store.find? (fun x => x.recno == param r 0 4 && x.jseq != 0) = some (aBody true) ∧ param r 4 4 % 1024 = 0
      ∧ param r 4 4 < (aBody true).body.length)
    ∧ (let r := withParam 0x21 (octets 4 1); indexOf (allCommitted (sServe r)) (param r 0 4) = some anIndex
      ∧ (sServe r).journal.store.any (fun x => x.recno == param r 0 4) = true ∧ param r 4 4 = field anIndex.entry.payload 12 4)
    ∧ (sessionGet (sServe (aRequest 0x10)) 0).state ≠ .free := by decide +kernel

theorem test_hyp_ackAcknowledges : let r := withParam 0x11 (octets 8 1 ++ octets 8 1)
    portsDone (sServe r) = true ∧ redirects (sServe r) = false ∧ nextSession (sServe r) = some 0 ∧ (sessionGet (sServe r) 0).request = some r
      ∧ r.op = 0x11 ∧ param r 0 8 ≤ param r 8 8 ∧ param r 8 8 ≤ (sServe r).journal.jseq := by decide

/-! Hypotheses met: faults -/

/-- A fault of the unit, of class 0x0D40. -/
def sFault (p : FaultPhase) : State := withFault sOn (keyU 0x0D40) (aFault (keyU 0x0D40) 2 p)
/-- A unit whose first channel is the acknowledgement input. -/
def sAckInput : State := { sOn with plug := { present := true, image := some [(384, 1), (923, 1)] } }

theorem test_hyp_faultReactions : coreRuns (sFault .present) = true ∧ (sFault .present).power.engine = .serving
    ∧ (∀ x ∈ (sFault .present).faults.recs, keyNum (recKey x.2) = x.1) ∧ bookkept (keyU 0x0D40) = false
    ∧ (∀ p, faultGet (sFault p) (keyU 0x0D40) = some (aFault (keyU 0x0D40) 2 p)) ∧ (aFault (keyU 0x0D40) 2 .reacting).level < 4
    ∧ reactionWaits (sFault .reacting) (keyU 0x0D40) = false ∧ goneAtOnce 0x0D40 = false ∧ goneAtOnce 0x0E00 = true ∧ bookkept (keyU 0x0E00) = false
    ∧ faultGet (withFault sOn (keyU 0x0D40) { aFault (keyU 0x0D40) 2 .reacting with retest := true }) (keyU 0x0D40)
      = some { aFault (keyU 0x0D40) 2 .reacting with retest := true } := by
  and_intros <;> first | decide | (intro p; cases p <;> decide)

theorem test_hyp_faultReactions_input : (ackInput sAckInput).isSome = true ∧ coreRuns sAckInput = true ∧ sAckInput.power.engine = .serving
    ∧ (∀ x ∈ sAckInput.faults.recs, keyNum (recKey x.2) = x.1) := by decide +kernel

theorem test_hyp_acknowledgementsByState : coreRuns (sAt .withheld .pairing) = true ∧ (sAt .withheld .pairing).power.engine = .withheld
    ∧ (sAt .withdrawn .pairing).power.engine = .withdrawn ∧ (sAt .starting .ports).power.engine = .starting := by decide

theorem test_hyp_acknowledgementsByState_input : (ackInput { sAckInput with power := (sAt .starting .ports).power }).isSome = true := by decide +kernel

/-! Hypotheses met: the field section -/

/-- The unit with channel 0 as given, its group running at 110 V. -/
def sCh (c : Channel) : State := { sOn with field := { a := { running := true, vf := 110000, vfOk := true }, ch := [(0, c)] } }
/-- An upstream frame with its CRC. -/
def upWord (top : Nat) : CouplerWord := BitVec.ofNat 64 (top * 65536 + crc16 (octets 6 top))
/-- A downstream frame of a DIR, and other bits. -/
def downWith (dir : Nat) (bits : List Nat) : Option CouplerWord := some (BitVec.ofNat 64 (dir * 2 ^ 54 + (bits.map (2 ^ ·)).foldl (· + ·) 0))

theorem test_hyp_couplerFrames : coreRuns (sCh {}) = true ∧ (sCh {}).power.pllLocked = true
    ∧ ({ sCh {} with power := { (sCh {}).power with pllLocked := false } } : State).power.pllLocked = false ∧ (groupGet (sCh {}) .a).running = true ∧ (groupGet (sCh {}) .a).stopped = false
    ∧ 0 ∈ groupChannels .a ∧ (chGet (sCh { holdDown := true }) 0).holdDown = true ∧ upValid 0 = false
    ∧ upValid ((chGet (sCh {}) 0).sent ^^^ 0) = false
    ∧ upWord (5 * 2 ^ 44 + 2 ^ 36 + 2 ^ 37 + 2 ^ 40) = (chGet (sCh {}) 0).sent ^^^ upWord (5 * 2 ^ 44 + 2 ^ 36 + 2 ^ 37 + 2 ^ 40)
    ∧ upWord (5 * 2 ^ 44 + 2 ^ 36 + 2 ^ 37 + 2 ^ 40) = (chGet (sCh { sent := upWord (5 * 2 ^ 44 + 2 ^ 36 + 2 ^ 37 + 2 ^ 40) }) 0).sent ^^^ 0
    ∧ upValid (upWord (5 * 2 ^ 44 + 2 ^ 36 + 2 ^ 37 + 2 ^ 40)) = true ∧ 2 ≤ frameField (upWord (5 * 2 ^ 44 + 2 ^ 36 + 2 ^ 37 + 2 ^ 40)) 51 2
    ∧ (upWord (5 * 2 ^ 44 + 2 ^ 36 + 2 ^ 37 + 2 ^ 40)).getLsbD 56 = true ∧ (upWord (5 * 2 ^ 44 + 2 ^ 36 + 2 ^ 37 + 2 ^ 40)).getLsbD 53 = true
    ∧ faultGet (sCh {}) (keyF 0x3900 0) = none ∧ faultGet (sCh {}) (keyF 0x39C0 0) = none ∧ faultGet (sCh {}) (keyF 0x3A40 0) = none
    ∧ faultGet (sCh {}) (keyF 0x3AC0 0) = none := by decide +kernel

theorem test_hyp_fieldInputs : isIn (chGet (sCh { down := downWith 1 [] }) 0) = true
    ∧ (groupGet (sCh { down := downWith 1 [] }) (groupOf 0)).running = true := by decide

theorem test_hyp_outputProtection : (chGet (sCh { on := true }) (sideOwner (sCh { on := true }) 0)).on = true
    ∧ (let s := sCh { down := downWith 2 [58, 59], cmdRun := 2, latch := 1 }
      (chGet s (sideOwner s 0)).latch = 1 ∧ commandStands (chGet s (sideOwner s 0)) = true ∧ groupLive s (sideOwner s 0) = true
        ∧ (chGet s (sideOwner s 0)).cmdRun = 2 ∧ allHot s (sideOwner s 0) = false ∧ (chGet s (sideOwner s 0)).on = false)
    ∧ (let s := sCh { down := downWith 2 [58, 59], cmdRun := 2, hot := true }
      (chGet s 0).hot = true ∧ sideOwner s 0 = 0 ∧ sidePair s 0 ≠ 1 ∧ commandStands (chGet s 0) = true ∧ (chGet s 0).latch = 0) := by decide

theorem test_hyp_outputSupervision : (let s := sCh { down := downWith 2 [56] }; sideOwner s 0 = 0 ∧ supervised s 0 = true ∧ isOut (chGet s 0) = true)
    ∧ (let s := sCh { pulse := true, opens := 2 }
      (chGet s 0).pulse = true ∧ 110000 < 10 * 40000 ∧ 3 * 110000 ≤ 10 * 40000 ∧ (chGet s 0).opens = 2 ∧ (chGet s 0).tcsFailed = false
        ∧ coreRuns s = true ∧ faultGet s (keyF 0x3A80 0) = none)
    ∧ 10 * 11000 ≤ 110000 ∧ (groupGet (sCh { down := downWith 2 [] }) (groupOf 0)).running = true := by decide

/-! Hypotheses met: the seal -/

/-- The unit with its seal as given. -/
def sKey (x : Seal) : State := { sOn with sealSt := x }
/-- The 32 bits of a word, most significant first. -/
def bits32 (w : Nat) : List Bool := ((List.range 32).map (fun i => w.testBit i)).reverse
/-- A transaction: command code, slot, the last word of KEY and the key check value (Table 20.5). -/
def aLoad (code slot key kcv : Nat) : KlTransaction :=
  { bits := ([0x4B4C0000 + (255 - code) * 256 + code, (65535 - slot) * 65536 + slot, 0, 0, 0, 0, 0, 0, 0, key, kcv].map bits32).flatten, timeout := false }

theorem test_hyp_sealErases : d0Powered sOn = true ∧ coreReads sOn = true ∧ faultGet sOn (keyU 0x0A00) = none ∧ coreRuns sOn = true
    ∧ faultGet sOn (keyU 0x09C0) = none ∧ d0Powered (sAt .starting .straps) = true ∧ coreReads (sAt .starting .straps) = false := by decide

/-- A port that can become live, and one that is. -/
def sOpenHatch : State := sKey { hatchOpen := true, erased := true }
def sLive : State := sKey { live := true, hatchOpen := true, erased := true }

theorem test_hyp_keyLoader : d0Powered sOpenHatch = true ∧ sOpenHatch.sealSt.hatchOpen = true ∧ sOpenHatch.sealSt.erased = true
    ∧ sOpenHatch.sealSt.heldOff = false ∧ sOpenHatch.sealSt.live = false ∧ sLive.sealSt.live = true ∧ sLive.sealSt.busy = false
    ∧ klFails (aLoad 2 7 0 0) = none ∧ klCode (aLoad 2 7 0 0) = 2 ∧ klFails (aLoad 3 7 0 0) = none ∧ klCode (aLoad 3 7 0 0) = 3
    ∧ klFails (aLoad 1 0 0 0) = some (0xB, false) ∧ klFails { bits := [], timeout := false } = some (8, true) ∧ sLive.sealSt.ignoring = false
    ∧ coreReads sLive = true ∧ faultGet sLive (keyU 0x0A40) = none := by decide +kernel

theorem test_hyp_sealHolds : (sLive.sealSt.live = true → sLive.sealSt.hatchOpen = true ∧ sLive.sealSt.erased = true ∧ sLive.sealSt.meshOk = true
      ∧ sLive.sealSt.heldOff = false) ∧ (sLive.sealSt.meshOk = false → sLive.sealSt.keys = []) := by decide

theorem test_hyp_sealHolds_step : ∃ t, step { sLive with pending := [.portBusyEnd] } = .next t := ⟨_, rfl⟩

/-- The latch set, and D0 lost: a step clears it. -/
theorem test_hyp_sealHolds_latch : ∃ t, step { sKey { latch := true } with pending := [.vinFailed], power := { sOn.power with vbat := false, inReset := true } }
    = .next t ∧ t.sealSt.latch = false := ⟨_, rfl, rfl⟩

/-- The key 1 has the key check value 7C1E87 (HMAC-SHA256 of 16 zero octets, computed outside the model). -/
theorem test_hyp_keyLoader_load : klFails (aLoad 1 15 1 0x7C1E87) = none ∧ klCode (aLoad 1 15 1 0x7C1E87) = 1 := by decide +kernel

theorem test_hyp_failedErase : d0Powered sOn = true ∧ (sKey { heldOff := true }).sealSt.heldOff = true ∧ (sKey { heldOff := true }).sealSt.live = false := by
  decide

theorem test_hyp_statusPins : coreRuns sOn = true ∧ (∀ x ∈ sOn.power.pinsOff, x.2 ≤ sOn.now) ∧ sOn.ident.decided = true ∧ strap sOn 10 = 7
    ∧ strap (withStraps sOn (soloStraps.set 10 1)) 10 = 1 ∧ (strap (withStraps sOn (soloStraps.set 10 2)) 10 ≠ 7
      ∧ strap (withStraps sOn (soloStraps.set 10 2)) 10 ≠ 1) := by decide

/-! Published numbers -/

/-- CRC-32 and CRC-16 of the nine digits: the check values of the two published algorithms. -/
theorem test_crc_check_values : crc32 ((List.range 9).map (fun i => BitVec.ofNat 8 (0x31 + i))) = 0xCBF43926
    ∧ crc16 ((List.range 9).map (fun i => BitVec.ofNat 8 (0x31 + i))) = 0x29B1 := by decide +kernel

/-- SHA-256 of "abc", the example of FIPS 180. -/
theorem test_sha256_abc : sha256 [0x61, 0x62, 0x63] = 0xBA7816BF8F01CFEA414140DE5DAE2223B00361A396177A9CB410FF61F20015AD := by decide +kernel

/-! Results the spec's numbers give -/

/-- One core tick adds 2.5 ns at the nominal increment (R304). -/
theorem test_tick_is_2_5_ns : (tick sOn).time.ns = 2 ∧ (tick sOn).time.frac = 32768 ∧ (tick sOn).time.residue = 0 := by decide

/-- Table 2.8 with 24.9 kΩ to 1.250 V (R65): half the voltage is 24.9 kΩ, code 3; 7 kΩ lies between two bands: the strap is faulted. -/
theorem test_strap_bands : strapNibble (List.replicate 16 625000) = 3 ∧ strapNibble (List.replicate 16 274295) = 9 := by decide

/-- Tables 4.2 and 4.3 at 1.000 V: 1.00 kΩ (1 mA) is code 1, 1.27 kΩ code 2, above 2 mA a short, 5 MΩ (0.2 µA) open. -/
theorem test_bead_codes : beadDecode 1000000000 1000000 = .code 1 ∧ beadDecode 787401575 1000000 = .code 2 ∧ beadDecode 2000000001 1000000 = .short
    ∧ beadDecode 200000 1000000 = .code 0 := by decide

/-- SGEN skips 0 (Table 18.1). -/
theorem test_next_gen_skips_zero : nextGen 0xFFFF = 1 ∧ nextGen 1 = 2 := by decide

/-- A discarded transaction of another length: result code 8, no slot (Table 20.8). -/
theorem test_result_word : klResult 8 0 0 = 0x80000000 ∧ klResult 1 15 0x7C1E87 = 0x1F7C1E87 := by decide

end Sys2Proof.Machine
end

section
/-! Key loader transactions change no setting (R5): what the port's operations leave. -/
namespace Sys2Proof.Machine

/-- The state without what publishing and entries change, and without the seal: all that R5 keeps from the key loader port. -/
def State.sansSeal (s : State) : State := { s.sansReports with sealSt := {} }

theorem sansSeal_of_reports {s t : State} (h : t.sansReports = s.sansReports) : t.sansSeal = s.sansSeal := by
  rw [State.sansSeal, State.sansSeal, h]

theorem sansSeal_of_records {s t : State} (h : t.sansRecords = s.sansRecords) : t.sansSeal = s.sansSeal :=
  sansSeal_of_reports (sansReports_of _ _ h)

/-! Operations on records and publications -/

@[simp] theorem sealSt_sansSeal (s : State) (x : Seal) : ({ s with sealSt := x } : State).sansSeal = s.sansSeal := rfl
@[simp] theorem emptySlot_sansSeal (s : State) (n : Nat) : (emptySlot s n).sansSeal = s.sansSeal := rfl
@[simp] theorem shiftOut_sansSeal (s : State) (x : KlTransaction) : (shiftOut s x).sansSeal = s.sansSeal := rfl

@[simp] theorem journalEntry_sansSeal (s : State) (e : Entry) : (journalEntry s e).sansSeal = s.sansSeal :=
  sansSeal_of_records (journalEntry_sansRecords s e)

@[simp] theorem causeGoneU_sansSeal (s : State) (code : Nat) : (causeGoneU s code).sansSeal = s.sansSeal :=
  sansSeal_of_records (causeGoneU_sansRecords s code)

@[simp] theorem judgeSummary_sansSeal (s : State) : (judgeSummary s).sansSeal = s.sansSeal :=
  sansSeal_of_reports (judgeSummary_sansReports s)

@[simp] theorem keysChanged_sansSeal (s : State) : (keysChanged s).sansSeal = s.sansSeal := by
  unfold keysChanged
  split
  · exact sansSeal_of_reports (authChanged_sansReports s)
  · rfl

/-- The fault of a discarded transaction lies below Withdraw (Table 20.10), so it withdraws nothing. -/
theorem discardFault_sansSeal (s : State) (detail : Nat) : (ariseU s 0x0A40 detail).sansSeal = s.sansSeal :=
  sansSeal_of_records (arise_sansRecords s (keyU 0x0A40) detail none16 [] (by decide))

/-! Transactions -/

@[simp] theorem discardTransaction_sansSeal (s : State) (r : Option (BitVec 32)) : (discardTransaction s r).sansSeal = s.sansSeal := by
  unfold discardTransaction
  dsimp only
  rw [apply_ite State.sansSeal, discardFault_sansSeal, ite_self, sealSt_sansSeal]

@[simp] theorem applyLoad_sansSeal (s : State) (x : KlTransaction) : (applyLoad s x).sansSeal = s.sansSeal := by
  unfold applyLoad
  dsimp only
  rw [keysChanged_sansSeal]
  split_ifs <;> simp

@[simp] theorem applyErase_sansSeal (s : State) (x : KlTransaction) : (applyErase s x).sansSeal = s.sansSeal := by
  unfold applyErase
  dsimp only
  rw [keysChanged_sansSeal]
  split <;> simp

@[simp] theorem applyCheck_sansSeal (s : State) (x : KlTransaction) : (applyCheck s x).sansSeal = s.sansSeal := rfl

/-- A transaction does nothing, is discarded, or is applied as a LOAD, an ERASE or a CHECK. -/
@[simp] theorem transaction_sansSeal (s : State) (x : KlTransaction) : (transaction s x).sansSeal = s.sansSeal := by
  unfold transaction
  dsimp only
  split
  · rfl
  · split
    · simp
    · split
      · simp
      · split_ifs <;> simp

/-! The commands -/

/-- A command whose effect keeps all but the seal and the reports changes no setting. -/
theorem answers_sansSeal {c : Instr} {s : State} {f : State → State} (he : exec c s = run f s) (hf : ∀ u, (f u).sansSeal = u.sansSeal) :
    Answers c s (fun t => t.sansSeal = s.sansSeal) := by
  refine answers_of_run he ?_
  have h := congrArg (fun u : State => { u with pending := s.pending }) (hf { s with out := [] })
  exact h

/-- R5 for the port's commands: each of them keeps all but the seal and the reports. -/
theorem keyLoader_sansSeal {c : Instr} {x : KlTransaction} (hc : c = .load x ∨ c = .eraseCommand x ∨ c = .check x
    ∨ c = .transactionDiscarded x ∨ c = .transactionTimeout ∨ c = .portBusyEnd) (s : State) :
    Answers c s (fun t => t.sansSeal = s.sansSeal) := by
  have judged : ∀ u, (judgeSummary (transaction u x)).sansSeal = u.sansSeal := fun u => by
    rw [judgeSummary_sansSeal, transaction_sansSeal]
  rcases hc with rfl | rfl | rfl | rfl | rfl | rfl
  · exact answers_sansSeal (execLoad.eq_def x s) judged
  · exact answers_sansSeal (execEraseCommand.eq_def x s) judged
  · exact answers_sansSeal (execCheck.eq_def x s) judged
  · exact answers_sansSeal (execTransactionDiscarded.eq_def x s) (fun u => by split_ifs <;> simp)
  · exact answers_sansSeal (execTransactionTimeout.eq_def s) (fun u => by split_ifs <;> simp)
  · exact answers_sansSeal (execPortBusyEnd.eq_def s) (fun u => sealSt_sansSeal u _)

/-- Settles O56: every operation of the port keeps `sansSeal`, of which plug, identity and MRAM are fields. -/
theorem keyLoaderKeepsSettings : Obligations.KeyLoaderKeepsSettings := by
  intro s c x hc
  obtain ⟨t, hexec, h⟩ := keyLoader_sansSeal hc s
  have hplug := congrArg State.plug h
  have hident := congrArg State.ident h
  have hnvm := congrArg State.nvm h
  have hrest := congrArg (fun u : State => { u with sealSt := s.sealSt }) h
  exact ⟨t, hexec, hplug, hident, hnvm, hrest⟩

end Sys2Proof.Machine
end

section
/-! What a guarded command answers, and what one fault that is Clear or stands makes of the state that the summary has judged. -/
namespace Sys2Proof.Machine

/-- A command whose guard holds completes with the effect behind it. -/
theorem answers_of_guard {c : Instr} {s : State} {b : State → Bool} {f g : State → State} {p : State → Prop}
    (he : exec c s = run (fun u => if b u then f u else g u) s) (hb : b { s with out := [] } = true)
    (h : p { f { s with out := [] } with pending := s.pending }) : Answers c s p :=
  answers_of_run he (by rw [if_pos hb]; exact h)

/-- The level of a raise is the row's, but for the two rows that a rod changes (G.FO_TCS, G.FO_SFP). -/
theorem raiseLevel_row (s : State) (code : Nat) (ht : faultRowCode code ≠ 0x3A80) (hf : faultRowCode code ≠ 0x5900) :
    raiseLevel s code = (faultRow code).1 := by
  simp [raiseLevel, ht, hf]

/-- The row of a key gives its faults the level `l`, whatever the rods say, and bookkeeping leaves them alone. -/
def plainRow (k : FaultKey) (l : Nat) : Bool :=
  !bookkept k && faultRowCode k.code != 0x3A80 && faultRowCode k.code != 0x5900 && (faultRow k.code).1 == l

theorem bookkept_of_plainRow {k : FaultKey} {l : Nat} (hk : plainRow k l = true) : bookkept k = false := by
  simp only [plainRow, Bool.and_eq_true, Bool.not_eq_true'] at hk
  exact hk.1.1.1

/-- A Clear fault of a plain row reacts at the row's level. -/
theorem reacts_arise_row {s : State} {k : FaultKey} {l : Nat} (h : faultGet s k = none) (hk : plainRow k l = true) (det hdl : Nat) (d : List Byte) :
    Reacts (arise s k det hdl d) k l := by
  simp only [plainRow, Bool.and_eq_true, Bool.not_eq_true', bne_iff_ne, beq_iff_eq] at hk
  obtain ⟨⟨⟨hb, ht⟩, hf⟩, hl⟩ := hk
  exact reacts_of_arise h hb det hdl d ((raiseLevel_row s k.code ht hf).trans hl)

/-- Nothing stands under a key that is Clear. -/
theorem faultStands_of_clear {s : State} {k : FaultKey} (h : faultGet s k = none) : faultStands s k = false := by
  simp [faultStands, h]

/-- A condition judged present at a Clear fault raises it. -/
theorem judgeFault_clear {s : State} {k : FaultKey} (h : faultGet s k = none) (det hdl : Nat) :
    judgeFault s k det hdl true = arise s k det hdl [] := by
  simp [judgeFault, faultStands_of_clear h]

/-- Below Withdraw a fault whose cause has gone does not stand. -/
theorem faultStands_causeGone (s : State) (k : FaultKey) (h : ∀ r, faultGet s k = some r → r.level < 4) : faultStands (causeGone s k) k = false := by
  have gone : ∀ (t : State) (r : FaultRec), faultGet t k = some r → causePresent r = false → faultStands t k = false := fun t r ht hr => by
    simp [faultStands, ht, hr]
  unfold causeGone
  split
  next hn => exact faultStands_of_clear hn
  next r hr =>
    rw [if_neg (by have := h r hr; omega)]
    split
    next hp => exact gone _ { r with causeGone := true } (by simp [faultGet_faultPut]) (by simp [causePresent, hp])
    next =>
      split
      · apply faultStands_of_clear
        unfold faultClear
        simp only [faultGet_submitEntry, faultGet_faultSeq]
        unfold faultGet
        dsimp only
        rw [find_erase, if_pos rfl]
      · exact gone _ { r with phase := .gone } (by simp) rfl
    next hp => exact gone s r hr (by simp [causePresent, hp])

/-- Judging the summary leaves what stands of the faults that bookkeeping cannot change. -/
theorem judgeSummary_faultStands (s : State) (k : FaultKey) (hk : bookkept k = false) : faultStands (judgeSummary s) k = faultStands s k := by
  unfold faultStands
  rw [judgeSummary_faultGet s k hk]

/-- Stopping the TWIN slot leaves the unit's supplies and its engine. -/
@[simp] theorem withTwin_power (f : State → State) (s : State) : (withTwin f s).power = (f s).power := by
  have e := congrArg State.power (withTwin_frame f s); exact e

/-- Stopping the TWIN slot touches no reaction of another class. -/
theorem reacts_withTwin {f : State → State} {s : State} {k : FaultKey} {l : Nat} (hk : k.scope * 4096 + k.inst < 65536) (hc : k.code / 64 ≠ 0x45)
    (h : Reacts (f s) k l) : Reacts (withTwin f s) k l := by
  unfold Reacts
  rw [withTwin_faultGet f s k hk hc]
  exact h

end Sys2Proof.Machine
end


section
/-! Supply, clock and pin faults (R40, R88, R91, R116). -/
namespace Sys2Proof.Machine

/-- A fault of unit scope that is Clear arises at its row's level, and the summary is judged. -/
theorem reacts_summary_ariseU (s : State) {code l : Nat} (hclear : faultGet s (keyU code) = none) (hk : plainRow (keyU code) l = true) (det : Nat) :
    Reacts (judgeSummary (ariseU s code det)) (keyU code) l :=
  reacts_judgeSummary (bookkept_of_plainRow hk) (reacts_arise_row hclear hk det none16 [])

/-- The fault leaves the supplies and the clock where its reaction found them, below Withdraw (Table 19.7). -/
theorem summary_ariseU_power (s : State) (code det : Nat) (h : max (faultRow code).2.1 (faultRow code).1 < 4) :
    (judgeSummary (ariseU s code det)).power = s.power :=
  (judgeSummary_power _).trans (arise_power s (keyU code) det none16 [] h)

theorem ariseU_now (s : State) (code det : Nat) : (ariseU s code det).now = s.now := by
  have e := congrArg State.now (ariseU_sansCourse s code det); exact e

/-- The core PLL is out of lock: the lock is lost before the Withdraw-level fault arises (R40). -/
def unlockPll (s : State) : State := ariseU { s with power := { s.power with pllLocked := false } } 0x06C0 0

theorem unlockPll_withdraws (s : State) (hrun : coreRuns s = true) (hclear : faultGet s (keyU 0x06C0) = none) :
    Reacts (judgeSummary (withTwin unlockPll s)) (keyU 0x06C0) 4
      ∧ (judgeSummary (withTwin unlockPll s)).power = { s.power with pllLocked := false, engine := .withdrawn } := by
  let u : State := { s with power := { s.power with pllLocked := false } }
  have hreacts : Reacts (unlockPll s) (keyU 0x06C0) 4 := reacts_arise_row (s := u) hclear (by decide) 0 none16 []
  have hpower : (unlockPll s).power = { s.power with pllLocked := false, engine := .withdrawn } :=
    arise_withdraws u (keyU 0x06C0) 0 none16 [] hclear (raiseLevel_row u 0x06C0 (by decide) (by decide)) hrun
  exact ⟨reacts_judgeSummary (by decide) (reacts_withTwin (by decide) (by decide) hreacts), by rw [judgeSummary_power, withTwin_power, hpower]⟩

/-- A VBAT reading that is absent or below 2.2 V raises the fault (R116). -/
theorem vbatCheck_low (s : State) (mv : Option Nat) (hlow : ∀ v, mv = some v → v < 2200) (hclear : faultGet s (keyU 0x0940) = none) :
    vbatCheck s mv = ariseU { s with power := { s.power with vbatMv := mv, vbat := mv.isSome } } 0x0940 0 := by
  have hjudge := judgeFault_clear (s := { s with power := { s.power with vbatMv := mv, vbat := mv.isSome } }) hclear 0 none16
  unfold vbatCheck
  cases mv with
  | none => exact hjudge
  | some v => exact (if_pos (hlow v rfl)).trans hjudge

/-- A VBAT reading of 2.3 V or more ends the cause of the fault (R116). -/
theorem vbatCheck_good (s : State) {v : Nat} (hv : 2300 ≤ v) :
    vbatCheck s (some v) = causeGoneU { s with power := { s.power with vbatMv := some v, vbat := true } } 0x0940 := by
  unfold vbatCheck
  exact (if_neg (by omega)).trans (if_pos hv)

theorem vbatCheck_low_reacts (s : State) (mv : Option Nat) (hlow : ∀ v, mv = some v → v < 2200) (hclear : faultGet s (keyU 0x0940) = none) :
    Reacts (judgeSummary (vbatCheck s mv)) (keyU 0x0940) 2 ∧ (judgeSummary (vbatCheck s mv)).power.vbatMv = mv := by
  rw [vbatCheck_low s mv hlow hclear]
  exact ⟨reacts_summary_ariseU _ (by exact hclear) (by decide) 0, congrArg Power.vbatMv (summary_ariseU_power _ _ _ (by decide))⟩

theorem vbatCheck_good_ends (s : State) {v : Nat} (hv : 2300 ≤ v) (hlevel : ∀ r, faultGet s (keyU 0x0940) = some r → r.level < 4) :
    faultStands (judgeSummary (vbatCheck s (some v))) (keyU 0x0940) = false
      ∧ (judgeSummary (vbatCheck s (some v))).power.vbatMv = some v := by
  rw [vbatCheck_good s hv]
  refine ⟨?_, ?_⟩
  · rw [judgeSummary_faultStands _ _ (by decide)]
    exact faultStands_causeGone _ _ hlevel
  · rw [judgeSummary_power, causeGoneU, causeGone_power]

/-- A pin switched off in current limit until a later tick does not conduct (R88). -/
theorem pinConducts_off {s : State} {p : StatusPin} {tick : Nat} (hm : (p, tick) ∈ s.power.pinsOff) (hlate : s.now < tick) : pinConducts s p = false := by
  have hoff : s.power.pinsOff.any (fun x => x.1 == p && decide (s.now < x.2)) = true :=
    List.any_eq_true.mpr ⟨(p, tick), hm, by simp [hlate]⟩
  simp [pinConducts, hoff]

/-- The pin is switched off until it is retried 1.0 s later, and the fault arises (R88). -/
def pinOff (s : State) (p : StatusPin) : State :=
  judgeSummary (ariseU { s with power := { s.power with
    pinsOff := (p, s.now + ticksPerSec) :: s.power.pinsOff.filter (fun x => x.1 != p) } } 0x0700 0)

theorem pinOff_reacts (s : State) (p : StatusPin) (hclear : faultGet s (keyU 0x0700) = none) :
    Reacts (pinOff s p) (keyU 0x0700) 1 ∧ (pinOff s p).now = s.now ∧ (p, s.now + 400000000) ∈ (pinOff s p).power.pinsOff := by
  unfold pinOff
  refine ⟨reacts_summary_ariseU _ (by exact hclear) (by decide) 0, ?_, ?_⟩
  · rw [judgeSummary_now, ariseU_now]
  · rw [summary_ariseU_power _ _ _ (by decide)]
    exact List.mem_cons_self

/-- Settles O5: each reading raises its fault once on the state it has already changed, and the summary's judgement keeps what it left. -/
theorem supplyFaultsArise : Obligations.SupplyFaultsArise := by
  unfold Obligations.SupplyFaultsArise
  refine ⟨fun s hrun hvin hclear => ?_, fun s hrun hlock hclear => ?_, fun s mv hrun hlow hclear => ?_, fun s v hrun hv hlevel => ?_,
    fun s p hrun hclear => ?_⟩
  · exact answers_of_guard (execVinLow.eq_def s) (Bool.and_eq_true _ _ ▸ ⟨hrun, hvin⟩)
      ⟨reacts_summary_ariseU { s with out := [] } hclear (by decide) 0, summary_ariseU_power { s with out := [] } 0x0600 0 (by decide)⟩
  · obtain ⟨hreacts, hpower⟩ := unlockPll_withdraws { s with out := [] } hrun hclear
    exact answers_of_guard (execCorePllUnlock.eq_def s) (Bool.and_eq_true _ _ ▸ ⟨hrun, hlock⟩)
      ⟨hreacts, congrArg Power.engine hpower, congrArg Power.pllLocked hpower⟩
  · exact answers_of_guard (execVbatCheck.eq_def mv s) hrun (vbatCheck_low_reacts { s with out := [] } mv hlow hclear)
  · exact answers_of_guard (execVbatCheck.eq_def (some v) s) hrun (vbatCheck_good_ends { s with out := [] } hv hlevel)
  · obtain ⟨hreacts, hnow, hmem⟩ := pinOff_reacts { s with out := [] } p hclear
    have hoff : pinConducts (pinOff { s with out := [] } p) p = false := pinConducts_off hmem (by rw [hnow]; omega)
    exact answers_of_guard (execStatusPinCurrentLimit.eq_def p s) hrun ⟨hreacts, hoff, hmem⟩

end Sys2Proof.Machine
end

section
/-! Lost downstream frames of a couple (R550, R573): the output that opens is kept under the even channel. -/
namespace Sys2Proof.Machine

/-- What a command answers has every property that it is said to answer with. -/
theorem Answers.and {c : Instr} {s : State} {p q : State → Prop} (hp : Answers c s p) (hq : Answers c s q) : Answers c s (fun t => p t ∧ q t) := by
  obtain ⟨t, ht, htp⟩ := hp
  obtain ⟨u, hu, huq⟩ := hq
  obtain rfl : t = u := Host.Outcome.next.inj (ht.symm.trans hu)
  exact ⟨t, ht, htp, huq⟩

/-- Field group A runs at 110 V; channels 0 and 1 are an output in parallel (DIR 2, PAIR 1) that SERVE and CMD of the even channel's last
frame keep on (R550). -/
def parallelCouple : State := sCh { on := true, down := downWith 2 [52, 58, 59] }

/-- The loss of the odd channel's frames opens the couple. -/
theorem parallelCouple_opens : Answers (.downstreamFrameLoss 1) parallelCouple (fun t => (chGet t 0).on = false) := ⟨_, rfl, rfl⟩

/-- Refutes O48: its clause on lost frames keeps every other channel, but the loss of the odd channel of a couple opens the output of the even one
(R573): in `parallelCouple`, channel 0 is on before the command and off after it. -/
theorem not_couplerFrames : ¬ Obligations.CouplerFrames := by
  unfold Obligations.CouplerFrames
  rintro ⟨-, -, hloss, -⟩
  obtain ⟨t, -, ⟨-, -, hkeeps⟩, hopen⟩ := (hloss parallelCouple 1).and parallelCouple_opens
  have hkept : chGet t 0 = chGet parallelCouple 0 := hkeeps 0 (by decide)
  have hon : (chGet parallelCouple 0).on = true := rfl
  rw [hkept, hon] at hopen
  cases hopen

end Sys2Proof.Machine
end

section
/-! What faults, entries and publishing do to the words on the wire: what left the block stays left, a parity error that ends a port's next frame
ends it (R43), receive tallies and the lanes' own counts stand. -/
namespace Sys2Proof.Machine

/-- What a later frame or entry meets on its way out: what has left, the tallies, the ports and the lanes. -/
def State.wire (s : State) : List Output × Tab (BitVec 32) × PortSt × PortSt × PortSt × PortSt × Lane × Lane :=
  (s.out, s.tally, s.ports.p0, s.ports.p1, s.ports.s0, s.ports.s1, s.pair.lane0, s.pair.lane1)

/-- From `s` to `t` faults, entries and frames have at most left the block: nothing that left is taken back, the parity error of a port's next
frame waits or has ended one, of page 0 only the words for frames sent count, and the lanes keep their link and what they discarded. -/
structure Sends (s t : State) : Prop where
  out : ∀ o ∈ s.out, o ∈ t.out
  parity : ∀ p, (portGet s p).txBad = true → (portGet t p).txBad = true ∨ .aborted p ∈ t.out
  tally : ∀ k < 64, k % 16 ≠ 14 → Tab.get 0 t.tally k = Tab.get 0 s.tally k
  up : ∀ n, (laneGet t n).up = (laneGet s n).up
  discarded : ∀ n, (laneGet t n).discarded = (laneGet s n).discarded

namespace Sends

variable {s t u : State}

theorem of_wire (h : t.wire = s.wire) : Sends s t := by
  simp only [State.wire, Prod.mk.injEq] at h
  obtain ⟨hout, htally, hp0, hp1, hs0, hs1, hl0, hl1⟩ := h
  refine ⟨fun o ho => hout ▸ ho, fun p hp => .inl ?_, fun k _ _ => by rw [htally], fun n => ?_, fun n => ?_⟩
  · cases p <;> simp_all [portGet]
  · simp only [laneGet, hl0, hl1]
  · simp only [laneGet, hl0, hl1]

theorem refl (s : State) : Sends s s := of_wire rfl

theorem trans (h : Sends s t) (k : Sends t u) : Sends s u where
  out o ho := k.out o (h.out o ho)
  parity p hp := (h.parity p hp).elim (k.parity p) (fun ha => .inr (k.out _ ha))
  tally i hi hw := (k.tally i hi hw).trans (h.tally i hi hw)
  up n := (k.up n).trans (h.up n)
  discarded n := (k.discarded n).trans (h.discarded n)

/-- What sends after a change that the wire does not show. -/
theorem after (h : Sends t u) (hw : t.wire = s.wire) : Sends s u := (of_wire hw).trans h

/-- A fold of steps that send has sent. -/
theorem foldl {α : Type} {f : State → α → State} (h : ∀ s x, Sends s (f s x)) : ∀ (l : List α) (s : State), Sends s (l.foldl f s)
  | [], s => refl s
  | x :: l, s => (h s x).trans (foldl h l (f s x))

end Sends

open Sends

/-! Entries and faults -/

theorem emit_sends (s : State) (o : Output) : Sends s (emit s o) where
  out _ ho := List.mem_append_left _ ho
  parity _ hp := .inl hp
  tally _ _ _ := rfl
  up _ := rfl
  discarded _ := rfl

/-- A count outside page 0, or of frames sent, leaves the receive tallies. -/
theorem tallyAdd_sends (s : State) (page word n : Nat) (h : 64 ≤ page * 64 + word ∨ (page * 64 + word) % 16 = 14) : Sends s (tallyAdd s page word n) where
  out _ ho := ho
  parity _ hp := .inl hp
  tally k hk hw := by
    unfold tallyAdd
    rw [Tab.get_put, if_neg (by rintro rfl; omega)]
  up _ := rfl
  discarded _ := rfl

/-- A lane that keeps its link and its discards is put back. -/
theorem lanePut_sends (s : State) (n : Fin 2) (x : Lane) (hup : x.up = (laneGet s n).up) (hd : x.discarded = (laneGet s n).discarded) :
    Sends s (lanePut s n x) where
  out _ ho := by rwa [lanePut_out]
  parity p hp := .inl (by unfold portGet; rw [lanePut_ports]; exact hp)
  tally _ _ _ := by rw [lanePut_tally]
  up m := by rw [laneGet_lanePut]; split <;> simp_all
  discarded m := by rw [laneGet_lanePut]; split <;> simp_all

theorem lane0_sends (s : State) (x : Lane) (hup : x.up = s.pair.lane0.up) (hd : x.discarded = s.pair.lane0.discarded) :
    Sends s { s with pair := { s.pair with lane0 := x } } := lanePut_sends s 0 x hup hd

theorem lane1_sends (s : State) (x : Lane) (hup : x.up = s.pair.lane1.up) (hd : x.discarded = s.pair.lane1.discarded) :
    Sends s { s with pair := { s.pair with lane1 := x } } := lanePut_sends s 1 x hup hd

theorem carryPut_sends (s : State) (l : Fin 2) (m : CarryMsg) : Sends s (carryPut s l m) := by
  unfold carryPut
  dsimp only
  generalize (if l = 0 then (s.pair.lane0.up || !s.pair.lane1.up) else (s.pair.lane0.up && !s.pair.lane1.up)) = zero
  cases zero
  · simp only [Bool.false_eq_true, if_false]
    split_ifs
    · exact refl s
    · exact lane1_sends s _ rfl rfl
    · refine .trans ?_ (emit_sends _ _)
      exact lane1_sends s _ rfl rfl
  · simp only [if_true]
    split_ifs
    · exact refl s
    · exact lane0_sends s _ rfl rfl
    · refine .trans ?_ (emit_sends _ _)
      exact lane0_sends s _ rfl rfl

theorem carrySend_sends (s : State) (l : Fin 2) (m : CarryMsg) : Sends s (carrySend s l m) :=
  foldl (fun s x => carryPut_sends s l x) _ s

theorem placeEntry_sends (s : State) (e : Entry) : Sends s (placeEntry s e) := by
  unfold placeEntry
  split
  · exact after (carrySend_sends _ _ _) rfl
  · exact of_wire rfl

theorem queueEntry_sends (s : State) (e : Entry) : Sends s (queueEntry s e) := by
  unfold queueEntry
  dsimp only
  split_ifs
  · exact tallyAdd_sends s 1 32 1 (.inl (by decide))
  · exact placeEntry_sends s e
  · exact tallyAdd_sends s 1 41 1 (.inl (by decide))
  · exact of_wire rfl
  · exact placeEntry_sends s e

theorem limitEntry_sends (s : State) (e : Entry) : Sends s (limitEntry s e) := by
  unfold limitEntry
  dsimp only
  split_ifs
  · exact queueEntry_sends s e
  · exact of_wire rfl
  · exact of_wire rfl
  · exact after (queueEntry_sends _ e) rfl
  · exact after ((queueEntry_sends _ _).trans (queueEntry_sends _ e)) rfl

theorem submitEntry_sends (s : State) (e : Entry) : Sends s (submitEntry s e) := by
  unfold submitEntry
  split_ifs
  · exact refl s
  · exact of_wire rfl
  · exact limitEntry_sends s e

theorem reactPlain_sends (s : State) (k : FaultKey) (r : FaultRec) (n : Nat) (d : List Byte) : Sends s (reactPlain s k r n d) :=
  after (submitEntry_sends _ _) rfl

/-- An arising sends what its reaction, below Withdraw, sends. -/
theorem ariseWith_sends (re : State → FaultKey → FaultRec → Nat → List Byte → State) (h : ∀ s k r n d, r.level ≠ 4 → Sends s (re s k r n d))
    (s : State) (k : FaultKey) (det hdl : Nat) (d : List Byte) (hl : max (faultRow k.code).2.1 (raiseLevel s k.code) < 4) :
    Sends s (ariseWith re s k det hdl d) := by
  unfold ariseWith
  split
  · apply h; dsimp only; omega
  · rename_i r _
    dsimp only
    split_ifs with h1 h2 <;> (try exact of_wire rfl) <;> split <;> (try exact of_wire rfl) <;> (apply h; dsimp only; omega)

theorem arise_sends (s : State) (k : FaultKey) (det hdl : Nat) (d : List Byte) (h : max (faultRow k.code).2.1 (faultRow k.code).1 < 4) :
    Sends s (arise s k det hdl d) :=
  ariseWith_sends react (fun s k r n d hr => by rw [react, if_neg hr]; exact reactPlain_sends s k r n d) s k det hdl d (ceiling_lt s k.code h)

theorem raiseLost_sends (s : State) (e : Entry) : Sends s (raiseLost s e) := by
  unfold raiseLost
  refine ariseWith_sends reactPlain (fun s k r n d _ => reactPlain_sends s k r n d) s _ _ _ _ (ceiling_lt s _ ?_)
  split_ifs <;> (try dsimp only) <;> decide

theorem journalEntry_sends (s : State) (e : Entry) : Sends s (journalEntry s e) := by
  unfold journalEntry
  dsimp only
  split_ifs
  · exact (submitEntry_sends s e).trans (raiseLost_sends _ e)
  · exact submitEntry_sends s e

theorem causeGone_sends (s : State) (k : FaultKey) : Sends s (causeGone s k) := by
  unfold causeGone
  split
  · exact refl s
  · split
    · exact refl s
    · split
      · exact of_wire rfl
      · split_ifs
        · exact after (submitEntry_sends _ _) rfl
        · exact reactPlain_sends s _ _ _ _
      · exact refl s

theorem judgeFault_sends (s : State) (k : FaultKey) (det hdl : Nat) (b : Bool) (h : max (faultRow k.code).2.1 (faultRow k.code).1 < 4) :
    Sends s (judgeFault s k det hdl b) := by
  unfold judgeFault
  split_ifs
  · exact refl s
  · exact arise_sends s k det hdl [] h
  · exact causeGone_sends s k
  · exact refl s

/-! Keys and frames -/

theorem judgeKeys_sends (s : State) : Sends s (judgeKeys s) := by
  have key (s : State) (n : Nat) : Sends s (judgeKey s n) := judgeFault_sends s _ _ _ _ (by dsimp only; decide)
  exact ((foldl key _ s).trans (judgeFault_sends _ (keyU 0x5100) _ _ _ (by decide))).trans (judgeFault_sends _ (keyU 0x5140) _ _ _ (by decide))

theorem gooseKey_sends (s : State) (z : Bool) : Sends s (gooseKey s z).1 := by
  have read (n : Nat) : Sends s (readKey s n).1 := by
    unfold readKey
    split
    · exact refl s
    · split_ifs
      · exact refl s
      · dsimp only
        exact after ((journalEntry_sends _ _).trans (judgeKeys_sends _)) rfl
  unfold gooseKey
  split
  · exact refl s
  · rename_i n _
    dsimp only
    split <;> exact read n

/-- A port is put back with its parity error still waiting, if it was. -/
theorem portPut_sends (s : State) (p : Port) (x : PortSt) (h : (portGet s p).txBad = true → x.txBad = true) : Sends s (portPut s p x) where
  out _ ho := by rwa [portPut_out]
  parity q hq := .inl (by rw [portGet_portPut]; split <;> simp_all)
  tally _ _ _ := by rw [portPut_tally]
  up _ := by simp only [laneGet, portPut_pair]
  discarded _ := by simp only [laneGet, portPut_pair]

theorem portTally_sent_sends (s : State) (p : Port) : Sends s (portTally s p 14) :=
  tallyAdd_sends s 0 (16 * portNum p + 14) 1 (.inr (by omega))

/-- A parity error that waits at a port ends the next frame there (R43). -/
theorem aborted_sends (s : State) (p : Port) (x : PortSt) : Sends s (emit (portPut s p x) (.aborted p)) where
  out o ho := List.mem_append_left _ (by rwa [portPut_out])
  parity q hq := by
    by_cases h : q = p
    · exact .inr (List.mem_append_right _ (by simp [h]))
    · exact .inl (by change (portGet (portPut s p x) q).txBad = true; rw [portGet_portPut, if_neg h]; exact hq)
  tally _ _ _ := by rw [emit_tally, portPut_tally]
  up _ := by simp only [laneGet, emit_pair, portPut_pair]
  discarded _ := by simp only [laneGet, emit_pair, portPut_pair]

theorem sendUnit_sends (s : State) (p : Port) (o : Output) : Sends s (sendUnit s p o) := by
  unfold sendUnit
  dsimp only
  split_ifs with hcan hbad
  · exact refl s
  · exact (aborted_sends s p _).trans (portTally_sent_sends _ p)
  · exact ((portPut_sends s p _ (fun h => absurd h hbad)).trans (emit_sends _ o)).trans (portTally_sent_sends _ p)

theorem releaseSummary_sends (s : State) : Sends s (releaseSummary s) := by
  have station (s : State) (l : List Byte) : Sends s (sendStation s l) :=
    after ((sendUnit_sends _ _ _).trans (sendUnit_sends _ _ _)) rfl
  have summary (s : State) (l : List Byte) : Sends s (sendSummary s l) := by
    unfold sendSummary
    dsimp only
    split_ifs
    · exact (gooseKey_sends s _).trans (station _ _)
    · exact gooseKey_sends s _
  unfold releaseSummary
  dsimp only
  refine after (foldl (fun s f => ?_) _ _) rfl
  split
  · exact summary s _
  · exact refl s

theorem enqueue_sends (s : State) (f : TxFrame) : Sends s (enqueue s f) := by
  have number (f : TxFrame) : Sends s (numbered s f).1 := by
    unfold numbered
    split
    · dsimp only; split <;> exact of_wire rfl
    · exact refl s
  unfold enqueue
  split
  · exact (number f).trans (of_wire rfl)
  · split
    · split
      · exact (number _).trans (of_wire rfl)
      · exact tallyAdd_sends s 1 31 1 (.inl (by decide))
    · exact of_wire rfl

theorem handGoose_sends (s : State) (p st : Nat) (c : Bool) (l : List Byte) : Sends s (handGoose s p st c l) := by
  unfold handGoose
  split_ifs
  · exact enqueue_sends s _
  · exact of_wire rfl
  · exact refl s
  · exact after (releaseSummary_sends _) rfl

theorem pubSet_sends (s : State) (p : Nat) (i : SIndex) (t : Nat × Nat) (q : Nat) (l : List Byte) (r e : Nat) (d : List Byte) (b : Bool) :
    Sends s (pubSet s p i t q l r e d b) := by
  unfold pubSet
  dsimp only
  split_ifs <;> exact of_wire rfl

theorem pub_sends (s : State) (p : Publisher) : Sends s { s with pub := p } := of_wire rfl

theorem summaryChange_sends (s : State) : Sends s (summaryChange s) := by
  unfold summaryChange handChange
  refine .trans ?_ (handGoose_sends _ _ _ _ _)
  exact after (pubSet_sends _ _ _ _ _ _ _ _ _ _) rfl

theorem judgeSummary_sends (s : State) : Sends s (judgeSummary s) := by
  unfold judgeSummary
  split_ifs
  · exact summaryChange_sends s
  · exact refl s

/-! The pair's settling -/

theorem zoneChangeAt_sends (s : State) (z : Nat) (i : SIndex) (t : Nat × Nat) : Sends s (zoneChangeAt s z i t) := by
  unfold zoneChangeAt handChange
  dsimp only
  split
  · exact pubSet_sends s _ _ _ _ _ _ _ _ _
  · refine .trans ?_ (handGoose_sends _ _ _ _ _)
    exact pubSet_sends s _ _ _ _ _ _ _ _ _

theorem zoneChangeNow_sends (s : State) (z : Nat) : Sends s (zoneChangeNow s z) := zoneChangeAt_sends s z _ _

theorem authChanged_sends (s : State) : Sends s (authChanged s) := by
  have judged : ∀ p : Publisher, Sends s { judgeKeys s with pub := p } := fun p => (judgeKeys_sends s).trans (pub_sends _ p)
  unfold authChanged
  dsimp only
  split_ifs
  · exact ((judged _).trans (foldl zoneChangeNow_sends _ _)).trans (summaryChange_sends _)
  · exact (judged _).trans (foldl zoneChangeNow_sends _ _)
  · exact (judged _).trans (summaryChange_sends _)
  · exact judged _
  · exact judged _

theorem closeSessions_sends (s : State) (cause : Nat) (p : Session → Bool) : Sends s (closeSessions s cause p) := by
  refine foldl (fun s i => ?_) _ s
  unfold closeSession
  dsimp only
  split_ifs
  · exact refl s
  · exact after (journalEntry_sends _ _) rfl
  · exact refl s

theorem syncGuarantee_sends (s : State) : Sends s (syncGuarantee s) := by
  have condition (s : State) (c : Nat) : Sends s (syncCondition s c) := by
    unfold syncCondition
    dsimp only
    split_ifs
    · exact refl s
    · exact after (submitEntry_sends _ _) rfl
    · exact after (submitEntry_sends _ _) rfl
    · exact of_wire rfl
  unfold syncGuarantee
  split_ifs
  · exact foldl condition _ s
  · exact refl s

theorem settlePair_sends (s : State) : Sends s (settlePair s) := by
  have auth : Sends s (if coreRuns s && s.plug.image.isSome then authChanged s else s) := by
    split
    · exact authChanged_sends s
    · exact refl s
  have roles (s : State) : Sends s (roleSessions s) := by
    unfold roleSessions
    split
    · exact closeSessions_sends s 2 _
    · exact refl s
  exact ((auth.trans (roles _)).trans (syncGuarantee_sends _)).trans (judgeSummary_sends _)

/-- A stop of the TWIN slot sends its entry. -/
theorem withTwin_sends {f : State → State} {s : State} : Sends (f s) (withTwin f s) := by
  unfold withTwin
  dsimp only
  split
  · exact after (causeGone_sends _ _) rfl
  · exact refl _

end Sys2Proof.Machine
end

section
/-! Parity errors of the crossing queues and of state memories (R43, R743, Tables 7.7, 8.7, 9.5, 11.7, 12.8, 15.10, 18.9). -/
namespace Sys2Proof.Machine

/-- What the pair's settling leaves after a command that can stop the TWIN slot. -/
def settled (f : State → State) (s : State) : State := settlePair (withTwin f s)

/-- The effect of the command, seen without the Reckoner, stands after its settling. -/
theorem settled_frame (f : State → State) (s : State) :
    ({ settled f s with reck := {} } : State).sansSettled = ({ f s with reck := {} } : State).sansSettled := by
  have hsettle := congrArg (fun u : State => { u with reck := {} }) (settlePair_sansSettled (withTwin f s))
  have htwin := sansSettled_records (withTwin_frame f s)
  exact hsettle.trans htwin

theorem settled_power (f : State → State) (s : State) : (settled f s).power = (f s).power := by
  have e := congrArg State.power (settled_frame f s); exact e

theorem settled_field (f : State → State) (s : State) : (settled f s).field = (f s).field := by
  have e := congrArg State.field (settled_frame f s); exact e

theorem settled_ring (f : State → State) (s : State) : (settled f s).journal.ring = (f s).journal.ring := by
  have e := congrArg (fun u => u.journal.ring) (settled_frame f s); exact e

theorem settled_ringErrAt (f : State → State) (s : State) : (settled f s).ringErrAt = (f s).ringErrAt := by
  have e := congrArg State.ringErrAt (settled_frame f s); exact e

theorem settled_carryParityAt (f : State → State) (s : State) : (settled f s).pair.parityAt = (f s).pair.parityAt := by
  have e := congrArg (fun u => u.pair.parityAt) (settled_frame f s); exact e

theorem settled_mutedTo (f : State → State) (s : State) : (settled f s).recallSvc.mutedTo = (f s).recallSvc.mutedTo := by
  have e := congrArg (fun u => u.recallSvc.mutedTo) (settled_frame f s); exact e

theorem settled_portParityAt (f : State → State) (s : State) (p : Port) : (portGet (settled f s) p).parityAt = (portGet (f s) p).parityAt := by
  have e := congrArg (fun u => (portGet u p).parityAt) (settled_frame f s)
  cases p <;> exact e

theorem settled_sends (f : State → State) (s : State) : Sends (f s) (settled f s) := withTwin_sends.trans (settlePair_sends _)

/-- A fault of another class than the TWIN slot's reads the same. -/
theorem settled_faultGet (f : State → State) (s : State) (k : FaultKey) (hb : bookkept k = false) (hk : k.scope * 4096 + k.inst < 65536)
    (hc : k.code / 64 ≠ 0x45) : faultGet (settled f s) k = faultGet (f s) k :=
  (settlePair_faultGet _ k hb).trans (withTwin_faultGet f s k hk hc)

/-- The key of a fault that settling cannot touch, whose row has level `l`. -/
def settledRow (k : FaultKey) (l : Nat) : Bool := plainRow k l && decide (k.scope * 4096 + k.inst < 65536) && k.code / 64 != 0x45

theorem reacts_settled {f : State → State} {s : State} {k : FaultKey} {l : Nat} (hk : settledRow k l = true) (h : Reacts (f s) k l) :
    Reacts (settled f s) k l := by
  simp only [settledRow, Bool.and_eq_true, decide_eq_true_eq, bne_iff_ne] at hk
  obtain ⟨⟨hrow, hrange⟩, hclass⟩ := hk
  unfold Reacts
  rw [settled_faultGet f s k (bookkept_of_plainRow hrow) hrange hclass]
  exact h

/-- A parity error is taken while the core runs. -/
theorem answers_parity {x : Crossing} {s : State} {p : State → Prop} (hrun : coreRuns s = true)
    (h : p { settled (fun u => crossingParity u x) { s with out := [] } with pending := s.pending }) : Answers (.crossingQueueParity x) s p :=
  answers_of_guard (execCrossingQueueParity.eq_def x s) hrun h

/-! Queues of the ports and of the carry link -/

theorem portParity_key (p : Port) : settledRow (portKey 0x1A40 p) 2 = true := by cases p <;> decide

theorem portParity_below (p : Port) : max (faultRow (portKey 0x1A40 p).code).2.1 (faultRow (portKey 0x1A40 p).code).1 < 4 := by
  cases p <;> decide

theorem portParity_clear {s : State} {p : Port} (h : faultGet s (portKey 0x1A40 p) = none) :
    portParity s p = arise (portPut s p { portGet s p with parityAt := some s.now }) (portKey 0x1A40 p) 0 none16 [] :=
  judgeFault_clear ((faultGet_congr (congrArg Faults.recs (portPut_faults _ _ _)) _).trans h) 0 none16

/-- A port's parity error raises its fault and is dated. -/
theorem portParity_reacts {s : State} {p : Port} (h : faultGet s (portKey 0x1A40 p) = none) :
    Reacts (portParity s p) (portKey 0x1A40 p) 2 ∧ (portGet (portParity s p) p).parityAt = some s.now := by
  have hrow := portParity_key p
  simp only [settledRow, Bool.and_eq_true] at hrow
  rw [portParity_clear h]
  refine ⟨reacts_arise_row ((faultGet_congr (congrArg Faults.recs (portPut_faults _ _ _)) _).trans h) hrow.1.1 0 none16 [], ?_⟩
  have hports := keeps_ports (arise_sansRecords (portPut s p { portGet s p with parityAt := some s.now }) (portKey 0x1A40 p) 0 none16 []
    (portParity_below p))
  have hget : ∀ t u : State, t.ports = u.ports → portGet t p = portGet u p := fun t u e => by unfold portGet; rw [e]
  rw [hget _ _ hports, portGet_portPut, if_pos rfl]

theorem portParity_sends (s : State) (p : Port) : Sends s (portParity s p) :=
  (portPut_sends s p { portGet s p with parityAt := some s.now } id).trans (judgeFault_sends _ _ 0 none16 true (portParity_below p))

/-- The parity error of C0 raises its fault and is dated. -/
theorem carryParity_reacts {s : State} (h : faultGet s (keyU 0x29C0) = none) :
    Reacts (carryParity s) (keyU 0x29C0) 2 ∧ (carryParity s).pair.parityAt = some s.now := by
  let u : State := { s with pair := { s.pair with parityAt := some s.now } }
  have harise : carryParity s = arise u (keyU 0x29C0) 0 none16 [] := judgeFault_clear (s := u) h 0 none16
  rw [harise]
  have hkept := congrArg (fun v : State => v.pair.parityAt) (arise_sansRecords u (keyU 0x29C0) 0 none16 [] (by decide))
  exact ⟨reacts_arise_row (s := u) h (by decide) 0 none16 [], hkept⟩

open Sends in
theorem carryParity_sends (s : State) : Sends s (carryParity s) :=
  after (judgeFault_sends _ (keyU 0x29C0) 0 none16 true (by decide)) rfl

/-! The ring and the retention domain -/

/-- The sample on its way to the ring is written as missing, and the fault is raised. -/
theorem ringParity_reacts {s : State} {slot sec cnt : Nat} (h : faultGet s (keyU 0x49C0) = none) :
    Tab.get {} (ringParity s slot sec cnt).journal.ring (slot * 130816 + absIndex (strapRate s) ⟨sec, cnt⟩ % 130816) = { pres := 2, secLo := sec % 256 }
      ∧ (ringParity s slot sec cnt).ringErrAt = some s.now ∧ Reacts (ringParity s slot sec cnt) (keyU 0x49C0) 1 := by
  let u : State := ringPut { s with ringErrAt := some s.now } slot ⟨sec, cnt⟩ { pres := 2, secLo := sec % 256 }
  have hkept : (ringParity s slot sec cnt).sansRecords = u.sansRecords := arise_sansRecords u (keyU 0x49C0) 0 none16 [] (by decide)
  have hring := congrArg (fun v : State => v.journal.ring) hkept
  have hat := congrArg State.ringErrAt hkept
  refine ⟨?_, hat, reacts_arise_row (s := u) h (by decide) 0 none16 []⟩
  calc Tab.get {} (ringParity s slot sec cnt).journal.ring _ = Tab.get {} u.journal.ring _ := congrArg (Tab.get {} · _) hring
    _ = _ := (Tab.get_put _ _ _ _ _).trans (if_pos rfl)

/-- The errors in succession from the retention domain are counted; three of them raise the fault. -/
theorem retentionParity_reacts (s : State) :
    (retentionParity s).power.retentionErrors = (if s.now - s.power.retentionAt ≤ 24415 then s.power.retentionErrors + 1 else 1)
      ∧ (retentionParity s).power.retentionAt = s.now
      ∧ (faultGet s (keyU 0x0900) = none →
        if 3 ≤ (retentionParity s).power.retentionErrors then Reacts (retentionParity s) (keyU 0x0900) 2
        else faultGet (retentionParity s) (keyU 0x0900) = none) := by
  unfold retentionParity
  dsimp only
  generalize (if s.now - s.power.retentionAt ≤ 24415 then s.power.retentionErrors + 1 else 1) = n
  by_cases hn : 3 ≤ n
  · have hpower : (judgeFault { s with power := { s.power with retentionErrors := n, retentionAt := s.now } } (keyU 0x0900) 0 none16 true).power
        = { s.power with retentionErrors := n, retentionAt := s.now } :=
      keeps_power (sansSettled_records (judgeFault_sansRecords _ (keyU 0x0900) 0 none16 true (by decide)))
    rw [if_pos hn, hpower]
    refine ⟨rfl, rfl, fun h => ?_⟩
    rw [if_pos hn, judgeFault_clear (by exact h)]
    exact reacts_arise_row (by exact h) (by decide) 0 none16 []
  · rw [if_neg hn]
    exact ⟨rfl, rfl, fun h => by rw [if_neg hn]; exact h⟩

/-! Recall sessions -/

/-- A closed session is free, and a free one stays so. -/
theorem closeSession_frees (s : State) (i cause n : Nat) (h : n = i ∨ (sessionGet s n).state = .free) :
    (sessionGet (closeSession s i cause) n).state = .free := by
  unfold closeSession
  dsimp only
  split
  next hfree =>
    rcases h with rfl | h
    · exact beq_iff_eq.mp hfree
    · exact h
  next =>
    have hsvc (u : State) (e : Entry) : sessionGet (journalEntry u e) n = sessionGet u n := by
      unfold sessionGet
      rw [keeps_recallSvc (sansReports_of _ _ (journalEntry_sansRecords u e))]
    rw [hsvc, sessionGet_sessionPut]
    split
    · rfl
    next hne => exact h.resolve_left hne

/-- Closing every session frees those of the list, and free ones stay so. -/
theorem closeAll_frees (cause n : Nat) : ∀ (l : List Nat) (s : State), n ∈ l ∨ (sessionGet s n).state = .free →
    (sessionGet (l.foldl (fun s i => closeSession s i cause) s) n).state = .free
  | [], s, h => h.resolve_left (by simp)
  | i :: l, s, h => by
    rw [List.foldl_cons]
    refine closeAll_frees cause n l _ ?_
    rcases h with h | h
    · rcases List.mem_cons.mp h with rfl | h
      · exact .inr (closeSession_frees s n cause n (.inl rfl))
      · exact .inl h
    · exact .inr (closeSession_frees s i cause n (.inr h))

theorem closeSessions_frees (s : State) (cause n : Nat) (h : n < 8 ∨ (sessionGet s n).state = .free) :
    (sessionGet (closeSessions s cause (fun _ => true)) n).state = .free :=
  closeAll_frees cause n _ s (h.imp_left List.mem_range.mpr)

/-- Sessions are read from the recall service alone. -/
theorem sessionGet_congr {t u : State} (h : t.recallSvc = u.recallSvc) (n : Nat) : sessionGet t n = sessionGet u n := by
  unfold sessionGet; rw [h]

theorem roleSessions_frees (s : State) (n : Nat) (h : (sessionGet s n).state = .free) : (sessionGet (roleSessions s) n).state = .free := by
  unfold roleSessions
  split
  · exact closeSessions_frees s 2 n (.inr h)
  · exact h

theorem keysChanged_sansReports (s : State) : (keysChanged s).sansReports = s.sansReports := by
  unfold keysChanged
  split
  · exact authChanged_sansReports s
  · rfl

theorem settlePair_eq (s : State) : settlePair s = judgeSummary (syncGuarantee (roleSessions (keysChanged s))) := rfl

/-- Settling leaves a free session free. -/
theorem settled_free (f : State → State) (s : State) (n : Nat) (h : (sessionGet (f s) n).state = .free) :
    (sessionGet (settled f s) n).state = .free := by
  have htwin : (withTwin f s).recallSvc = (f s).recallSvc := by have e := congrArg State.recallSvc (withTwin_frame f s); exact e
  rw [settled, settlePair_eq, sessionGet_congr (keeps_recallSvc (judgeSummary_sansReports _)),
    sessionGet_congr (keeps_recallSvc (sansReports_of _ _ (syncGuarantee_sansRecords _)))]
  refine roleSessions_frees _ n ?_
  rw [sessionGet_congr (keeps_recallSvc (keysChanged_sansReports _)), sessionGet_congr htwin]
  exact h

/-- The fault of the session memory arises with the service muted for 1.0 s. -/
theorem muted_reacts {c : State} (h : faultGet c (keyU 0x4D40) = none) :
    let m := judgeFault { c with recallSvc := { c.recallSvc with mutedTo := c.now + ticksPerSec } } (keyU 0x4D40) 0 none16 true
    m.recallSvc = { c.recallSvc with mutedTo := c.now + ticksPerSec } ∧ Reacts m (keyU 0x4D40) 2 := by
  intro m
  have harise : m = arise { c with recallSvc := { c.recallSvc with mutedTo := c.now + ticksPerSec } } (keyU 0x4D40) 0 none16 [] :=
    judgeFault_clear (by exact h) 0 none16
  rw [harise]
  exact ⟨keeps_recallSvc (sansReports_of _ _ (arise_sansRecords _ (keyU 0x4D40) 0 none16 [] (by decide))),
    reacts_arise_row (by exact h) (by decide) 0 none16 []⟩

/-- A session state that fails its parity frees every session and mutes the service for 1.0 s (Table 18.9). -/
theorem sessionParity_reacts {s : State} (h : faultGet s (keyU 0x4D40) = none) :
    (∀ n < 8, (sessionGet (sessionParity s) n).state = .free) ∧ (sessionParity s).recallSvc.mutedTo = s.now + 400000000
      ∧ Reacts (sessionParity s) (keyU 0x4D40) 2 := by
  have hfree (n : Nat) (hn : n < 8) : (sessionGet (closeSessions s 4 (fun _ => true)) n).state = .free := closeSessions_frees s 4 n (.inl hn)
  have hsteady : steady (closeSessions s 4 (fun _ => true)) = steady s := foldl_keeps steady _ (fun s i => by split <;> simp) _ s
  have hnow : (closeSessions s 4 (fun _ => true)).now = s.now := foldl_keeps State.now _ (fun s i => by
    split
    · exact keeps_now (closeSession_sansSettled s i 4)
    · rfl) _ s
  unfold sessionParity
  generalize closeSessions s 4 (fun _ => true) = c at *
  obtain ⟨hsvc, hreacts⟩ := muted_reacts ((faultGet_of_steady hsteady (keyU 0x4D40) (by decide)).trans h)
  refine ⟨fun n hn => ?_, ?_, hreacts⟩
  · unfold sessionGet
    rw [hsvc]
    exact hfree n hn
  · rw [hsvc, hnow]
    rfl

/-! Reckoner slots -/

/-- Whether the TWIN slot runs does not depend on records, entries or the Reckoner. -/
theorem twinRuns_congr {s t : State} (hframe : ({ t with reck := {} } : State).sansRecords = ({ s with reck := {} } : State).sansRecords)
    (hsends : Sends s t) : twinRuns t = twinRuns s := by
  have hformed : formed t = formed s := by have e := congrArg formed hframe; exact e
  have hleads : timeLeads t = timeLeads s := by have e := congrArg timeLeads hframe; exact e
  have helig (b : Bool) : eligible t b = eligible s b := by have e := congrArg (eligible · b) hframe; exact e
  have hbase : t.time = s.time := by have e := congrArg State.time hframe; exact e
  have hlost : t.pair.carryLost = s.pair.carryLost := by have e := congrArg (fun u => u.pair.carryLost) hframe; exact e
  have hup0 : t.pair.lane0.up = s.pair.lane0.up := hsends.up 0
  have hup1 : t.pair.lane1.up = s.pair.lane1.up := hsends.up 1
  have hcarry : carryRuns t = carryRuns s := by simp only [carryRuns, hlost, hup0, hup1]
  simp only [twinRuns, hformed, hcarry, hleads, helig, hbase]

/-- An effect that leaves the TWIN slot's conditions stops nothing. -/
theorem withTwin_of_runs {f : State → State} {s : State} (h : twinRuns (f s) = twinRuns s) : withTwin f s = f s := by
  unfold withTwin
  dsimp only
  rw [h, Bool.and_not_self, if_neg Bool.false_ne_true]

/-- A stop of the TWIN slot leaves the other slots, but for the handover to CLK (R350). -/
theorem withTwin_reck (f : State → State) (s : State) :
    (withTwin f s).reck.oven = (f s).reck.oven ∧ (withTwin f s).reck.coil = (f s).reck.coil
      ∧ ((f s).reck.twin.i = 0 → (withTwin f s).reck.twin.i = 0) := by
  have hgone (u : State) (k : FaultKey) : (causeGone u k).reck = u.reck := by have e := congrArg State.reck (causeGone_sansRecords u k); exact e
  unfold withTwin
  dsimp only
  split
  · unfold twinStopped
    dsimp only
    rw [hgone]
    exact ⟨rfl, rfl, fun _ => rfl⟩
  · exact ⟨rfl, rfl, id⟩

theorem settled_reck (f : State → State) (s : State) : (settled f s).reck = (withTwin f s).reck :=
  keeps_reck (settlePair_sansSettled _)

theorem settled_coilGet (f : State → State) (s : State) (cc : Nat) : coilGet (settled f s) cc = coilGet (f s) cc := by
  unfold coilGet
  rw [settled_reck, (withTwin_reck f s).2.1]

/-- What a parity error of a COIL slot's words leaves in it: its integrator at 0, and a pick anew for an approach or a hold. -/
def coilReset (s : State) (cc : Nat) : State :=
  if (coilGet s cc).phase = .approach || (coilGet s cc).phase = .hold then coilPick s cc
  else coilPut s cc { coilGet s cc with loop := { (coilGet s cc).loop with i := 0 } }

theorem slotParity_coil (s : State) (n : Nat) (h : 4 ≤ n) :
    slotParity s n = arise (coilReset s (n - 4)) { code := 0x1180, scope := 10, inst := n } 1 none16 [] := by
  unfold slotParity
  rw [if_neg (by omega), if_neg (by omega), if_neg (by omega), if_neg (by omega)]
  rfl

theorem coilReset_coilGet (s : State) (cc : Nat) :
    (coilGet (coilReset s cc) cc).loop.i = 0 ∧ (coilGet (coilReset s cc) cc).phase ≠ .approach ∧ (coilGet (coilReset s cc) cc).phase ≠ .hold := by
  unfold coilReset
  split
  next => simp [coilPick]
  next h => simpa using h

@[simp] theorem coilReset_faults (s : State) (cc : Nat) : (coilReset s cc).faults = s.faults := by
  unfold coilReset coilPick
  split <;> rfl

/-- A parity error of a COIL slot's words raises its following-error fault (Table 9.5). -/
theorem slotParity_coil_reacts {s : State} (n : Fin 36) (h : 4 ≤ n.val) (hclear : faultGet s { code := 0x1180, scope := 10, inst := n.val } = none) :
    (coilGet (slotParity s n.val) (n.val - 4)).loop.i = 0 ∧ (coilGet (slotParity s n.val) (n.val - 4)).phase ≠ .approach
      ∧ (coilGet (slotParity s n.val) (n.val - 4)).phase ≠ .hold
      ∧ Reacts (slotParity s n.val) { code := 0x1180, scope := 10, inst := n.val } 2 := by
  have hrow : ∀ n : Fin 36, plainRow { code := 0x1180, scope := 10, inst := n.val } 2 = true := by decide
  have hcoil : coilGet (slotParity s n.val) (n.val - 4) = coilGet (coilReset s (n.val - 4)) (n.val - 4) := by
    rw [slotParity_coil s n.val h]
    unfold coilGet
    rw [keeps_reck (sansSettled_records (arise_sansRecords _ _ 1 none16 [] (by dsimp only; decide)))]
  obtain ⟨hi, ha, hh⟩ := coilReset_coilGet s (n.val - 4)
  rw [hcoil]
  refine ⟨hi, ha, hh, ?_⟩
  rw [slotParity_coil s n.val h]
  exact reacts_arise_row ((faultGet_congr (congrArg Faults.recs (coilReset_faults _ _)) _).trans hclear) (hrow n) 1 none16 []

/-- CLK starts anew at 0, its TWIN slot running on as before. -/
theorem settled_clk (s : State) : (settled (fun u => slotParity u 0) s).reck.clk.i = 0 := by
  let u : State := { s with reck := { s.reck with clk := { s.reck.clk with i := 0 } } }
  have hkept : (slotParity s 0).sansRecords = u.sansRecords :=
    arise_sansRecords u { code := 0x1100, scope := 10, inst := 0 } 1 none16 [] (by decide)
  have hsends : Sends s (slotParity s 0) :=
    Sends.after (arise_sends u { code := 0x1100, scope := 10, inst := 0 } 1 none16 [] (by decide)) rfl
  have hruns : twinRuns (slotParity s 0) = twinRuns s := twinRuns_congr (congrArg (fun v : State => { v with reck := {} }) hkept) hsends
  have hreck : (slotParity s 0).reck = u.reck := by have e := congrArg State.reck hkept; exact e
  rw [settled_reck, withTwin_of_runs hruns, hreck]

theorem settled_oven (s : State) : (settled (fun u => slotParity u 1) s).reck.oven.i = 0 := by
  have hreck : (slotParity s 1).reck.oven = { s.reck.oven with i := 0 } := by
    have e := congrArg (fun u => u.reck.oven) (arise_sansRecords { s with reck := { s.reck with oven := { s.reck.oven with i := 0 } } } (keyU 0x0EC0) 2 none16 [] (by decide))
    exact e
  rw [settled_reck, (withTwin_reck _ s).1, hreck]

theorem settled_twin (s : State) : (settled (fun u => slotParity u 2) s).reck.twin.i = 0 := by
  have hreck : (slotParity s 2).reck.twin = { s.reck.twin with i := 0 } := by
    have e := congrArg (fun u => u.reck.twin) (arise_sansRecords { s with reck := { s.reck with twin := { s.reck.twin with i := 0 } } }
      { code := 0x1140, scope := 10, inst := 2 } 1 none16 [] (by decide))
    exact e
  rw [settled_reck]
  exact (withTwin_reck _ s).2.2 (by rw [hreck])

/-! The command -/

/-- The Withdraw-level fault of a state memory, and its detail. -/
def memoryFault : StateMemory → Option (Nat × Nat)
  | .faultState => some (0x0740, 0)
  | .timeCounter => some (0x0F40, 0)
  | .handleTable => some (0x2E40, 0)
  | .overcurrent => some (0x3740, 0)
  | .feeder => some (0x3740, 1)
  | .publisher => some (0x51C0, 0)
  | .schedule => some (0x11C0, 0)
  | .session | .slot _ => none

theorem memoryParity_raises {m : StateMemory} {code det : Nat} (h : memoryFault m = some (code, det)) (s : State) :
    memoryParity s m = ariseU s code det := by
  cases m <;> cases h <;> rfl

theorem memoryFault_key {m : StateMemory} {code det : Nat} (h : memoryFault m = some (code, det)) : settledRow (keyU code) 4 = true := by
  cases m <;> cases h <;> decide

/-- A state memory that fails its parity or differs from its copy withdraws the unit. -/
theorem memoryParity_withdraws {m : StateMemory} {code det : Nat} (hm : memoryFault m = some (code, det)) {s : State} (hrun : coreRuns s = true)
    (hclear : faultGet s (keyU code) = none) :
    (settled (fun u => memoryParity u m) s).power.engine = .withdrawn ∧ Reacts (settled (fun u => memoryParity u m) s) (keyU code) 4 := by
  have hkey := memoryFault_key hm
  have hrow := hkey
  simp only [settledRow, Bool.and_eq_true] at hrow
  have hplain := hrow.1.1
  simp only [plainRow, Bool.and_eq_true, bne_iff_ne, beq_iff_eq] at hplain
  obtain ⟨⟨⟨-, ht⟩, hf⟩, hl⟩ := hplain
  have hpower := arise_withdraws s (keyU code) det none16 [] hclear ((raiseLevel_row s code ht hf).trans hl) hrun
  refine ⟨?_, reacts_settled hkey ?_⟩
  · rw [settled_power, memoryParity_raises hm]
    exact congrArg Power.engine hpower
  · rw [memoryParity_raises hm]
    exact reacts_arise_row hclear hrow.1.1 det none16 []

/-- A receive queue's error counts in word 3 of its port (Table 6.4). -/
theorem portRx_counted (s : State) (p : Port) :
    tallyGet (settled (fun u => crossingParity u (.portRx p)) s) 0 (16 * portNum p + 3) = (tallyGet s 0 (16 * portNum p + 3) + 1) % 2 ^ 32 := by
  have hsends := (portParity_sends (portTally s p 3) p).trans (settled_sends (fun u => crossingParity u (.portRx p)) s)
  have hword : 0 * 64 + (16 * portNum p + 3) < 64 ∧ (0 * 64 + (16 * portNum p + 3)) % 16 ≠ 14 := by cases p <;> decide
  calc tallyGet (settled (fun u => crossingParity u (.portRx p)) s) 0 (16 * portNum p + 3)
      = tallyGet (portTally s p 3) 0 (16 * portNum p + 3) := congrArg BitVec.toNat (hsends.tally _ hword.1 hword.2)
    _ = _ := (tallyGet_tallyAdd s 0 (16 * portNum p + 3) 1 0 (16 * portNum p + 3)).trans (if_pos rfl)

/-- A transmit queue's error waits for the port's next frame, or has ended one. -/
theorem portTx_ends (s : State) (p : Port) :
    (portGet (settled (fun u => crossingParity u (.portTx p)) s) p).txBad = true
      ∨ .aborted p ∈ (settled (fun u => crossingParity u (.portTx p)) s).out :=
  ((portParity_sends _ p).trans (settled_sends (fun u => crossingParity u (.portTx p)) s)).parity p (by rw [portGet_portPut, if_pos rfl])

/-- A carry lane's receive error discards one frame. -/
theorem carryRx_discards (s : State) (n : Fin 2) :
    (laneGet (settled (fun u => crossingParity u (.carryRx n)) s) n).discarded = (laneGet s n).discarded + 1 :=
  (((carryParity_sends _).trans (settled_sends (fun u => crossingParity u (.carryRx n)) s)).discarded n).trans
    (by rw [laneGet_lanePut, if_pos rfl])

/-- A carry lane's transmit error ends its frame. -/
theorem carryTx_aborts (s : State) (n : Fin 2) : .carryAborted n ∈ (settled (fun u => crossingParity u (.carryTx n)) s).out :=
  ((carryParity_sends _).trans (settled_sends (fun u => crossingParity u (.carryTx n)) s)).out _ (List.mem_append_right _ List.mem_cons_self)

theorem settled_chGet (f : State → State) (s : State) (cc : Nat) : chGet (settled f s) cc = chGet (f s) cc := by
  unfold chGet
  rw [settled_field]

/-- What a crossing's parity error leaves, once the command has settled. -/
def crossed (s : State) (x : Crossing) : State := settled (fun u => crossingParity u x) s

theorem reacts_crossed {s : State} {x : Crossing} {k : FaultKey} {l : Nat} (hk : settledRow k l = true) (h : Reacts (crossingParity s x) k l) :
    Reacts (crossed s x) k l := reacts_settled (f := fun u => crossingParity u x) hk h

theorem portRx_reacts {s : State} {p : Port} (hclear : faultGet s (portKey 0x1A40 p) = none) :
    Reacts (crossed s (.portRx p)) (portKey 0x1A40 p) 2 ∧ (portGet (crossed s (.portRx p)) p).parityAt = some s.now
      ∧ tallyGet (crossed s (.portRx p)) 0 (16 * portNum p + 3) = (tallyGet s 0 (16 * portNum p + 3) + 1) % 2 ^ 32 := by
  obtain ⟨hreacts, hat⟩ := portParity_reacts (s := portTally s p 3) (p := p) hclear
  exact ⟨reacts_crossed (portParity_key p) hreacts, (settled_portParityAt _ _ p).trans hat, portRx_counted s p⟩

theorem portTx_reacts {s : State} {p : Port} (hclear : faultGet s (portKey 0x1A40 p) = none) :
    Reacts (crossed s (.portTx p)) (portKey 0x1A40 p) 2 ∧ (portGet (crossed s (.portTx p)) p).parityAt = some s.now
      ∧ ((portGet (crossed s (.portTx p)) p).txBad = true ∨ .aborted p ∈ (crossed s (.portTx p)).out) := by
  have hput := faultGet_congr (congrArg Faults.recs (portPut_faults s p { portGet s p with txBad := true })) (portKey 0x1A40 p)
  obtain ⟨hreacts, hat⟩ := portParity_reacts (hput.trans hclear)
  rw [portPut_now] at hat
  exact ⟨reacts_crossed (portParity_key p) hreacts, (settled_portParityAt _ _ p).trans hat, portTx_ends s p⟩

theorem carryRx_reacts {s : State} {n : Fin 2} (hclear : faultGet s (keyU 0x29C0) = none) :
    Reacts (crossed s (.carryRx n)) (keyU 0x29C0) 2 ∧ (crossed s (.carryRx n)).pair.parityAt = some s.now
      ∧ (laneGet (crossed s (.carryRx n)) n).discarded = (laneGet s n).discarded + 1 := by
  have hput := faultGet_congr (congrArg Faults.recs (lanePut_faults s n { laneGet s n with discarded := (laneGet s n).discarded + 1 })) (keyU 0x29C0)
  obtain ⟨hreacts, hat⟩ := carryParity_reacts (hput.trans hclear)
  rw [lanePut_now] at hat
  exact ⟨reacts_crossed (by decide) hreacts, (settled_carryParityAt _ _).trans hat, carryRx_discards s n⟩

theorem carryTx_reacts {s : State} {n : Fin 2} (hclear : faultGet s (keyU 0x29C0) = none) :
    Reacts (crossed s (.carryTx n)) (keyU 0x29C0) 2 ∧ (crossed s (.carryTx n)).pair.parityAt = some s.now
      ∧ .carryAborted n ∈ (crossed s (.carryTx n)).out := by
  obtain ⟨hreacts, hat⟩ := carryParity_reacts (s := emit s (.carryAborted n)) hclear
  exact ⟨reacts_crossed (by decide) hreacts, (settled_carryParityAt _ _).trans hat, carryTx_aborts s n⟩

theorem toField_withholds (s : State) (g : Group) (ch : Fin 32) :
    chGet (crossed s (.toField g ch)) ch.val = { chGet s ch.val with holdDown := true } :=
  (settled_chGet _ _ _).trans ((chGet_chPut _ _ _ _).trans (if_pos rfl))

theorem fromField_breaks (s : State) (ch : Fin 32) : chGet (crossed s (.fromField ch)) ch.val = { chGet s ch.val with upRun := 0 } :=
  (settled_chGet _ _ _).trans ((chGet_chPut _ _ _ _).trans (if_pos rfl))

theorem toRing_reacts {s : State} {slot sec cnt : Nat} (hclear : faultGet s (keyU 0x49C0) = none) :
    Tab.get {} (crossed s (.toRing slot sec cnt)).journal.ring (slot * 130816 + absIndex (strapRate s) ⟨sec, cnt⟩ % 130816)
        = { pres := 2, secLo := sec % 256 }
      ∧ (crossed s (.toRing slot sec cnt)).ringErrAt = some s.now ∧ Reacts (crossed s (.toRing slot sec cnt)) (keyU 0x49C0) 1 := by
  obtain ⟨hring, hat, hreacts⟩ := ringParity_reacts (slot := slot) (sec := sec) (cnt := cnt) hclear
  exact ⟨(congrArg (Tab.get {} · _) (settled_ring _ _)).trans hring, (settled_ringErrAt _ _).trans hat, reacts_crossed (by decide) hreacts⟩

theorem fromRetention_reacts (s : State) :
    (crossed s .fromRetention).power.retentionErrors = (if s.now - s.power.retentionAt ≤ 24415 then s.power.retentionErrors + 1 else 1)
      ∧ (crossed s .fromRetention).power.retentionAt = s.now
      ∧ (faultGet s (keyU 0x0900) = none →
        if 3 ≤ (crossed s .fromRetention).power.retentionErrors then Reacts (crossed s .fromRetention) (keyU 0x0900) 2
        else faultGet (crossed s .fromRetention) (keyU 0x0900) = none) := by
  obtain ⟨herrors, hat, hfault⟩ := retentionParity_reacts s
  have hpower : (crossed s .fromRetention).power = (retentionParity s).power := settled_power _ s
  rw [hpower]
  refine ⟨herrors, hat, fun hclear => ?_⟩
  have hreacts := hfault hclear
  split
  next h => exact reacts_crossed (by decide) (by rwa [if_pos h] at hreacts)
  next h => exact (settled_faultGet _ s (keyU 0x0900) (by decide) (by decide) (by decide)).trans (by rwa [if_neg h] at hreacts)

theorem memory_withdraws {s : State} {m : StateMemory} {code : Nat} (hrun : coreRuns s = true)
    (hm : (m, code) ∈ [(StateMemory.faultState, 0x0740), (.timeCounter, 0x0F40), (.handleTable, 0x2E40), (.overcurrent, 0x3740), (.feeder, 0x3740),
      (.publisher, 0x51C0), (.schedule, 0x11C0)]) (hclear : faultGet s (keyU code) = none) :
    (crossed s (.memory m)).power.engine = .withdrawn ∧ Reacts (crossed s (.memory m)) (keyU code) 4 := by
  have hfault : ∃ det, memoryFault m = some (code, det) := by
    simp only [List.mem_cons, Prod.mk.injEq, List.not_mem_nil, or_false] at hm
    rcases hm with ⟨rfl, rfl⟩ | ⟨rfl, rfl⟩ | ⟨rfl, rfl⟩ | ⟨rfl, rfl⟩ | ⟨rfl, rfl⟩ | ⟨rfl, rfl⟩ | ⟨rfl, rfl⟩ <;> exact ⟨_, rfl⟩
  obtain ⟨det, hdet⟩ := hfault
  exact memoryParity_withdraws hdet hrun hclear

theorem crossingParity_session (s : State) : crossingParity s (.memory .session) = sessionParity s := by
  rw [crossingParity, memoryParity]

theorem session_reacts {s : State} (hclear : faultGet s (keyU 0x4D40) = none) :
    (∀ n < 8, (sessionGet (crossed s (.memory .session)) n).state = .free)
      ∧ (crossed s (.memory .session)).recallSvc.mutedTo = s.now + 400000000 ∧ Reacts (crossed s (.memory .session)) (keyU 0x4D40) 2 := by
  have h := sessionParity_reacts hclear
  rw [← crossingParity_session] at h
  obtain ⟨hfree, hmuted, hreacts⟩ := h
  exact ⟨fun n hn => settled_free _ s n (hfree n hn), (settled_mutedTo _ s).trans hmuted, reacts_crossed (by decide) hreacts⟩

theorem slot_reacts {s : State} {n : Fin 36} (hclear : faultGet s { code := 0x1180, scope := 10, inst := n.val } = none) :
    let t := crossed s (.memory (.slot n))
    (n.val = 0 → t.reck.clk.i = 0) ∧ (n.val = 1 → t.reck.oven.i = 0) ∧ (n.val = 2 → t.reck.twin.i = 0)
      ∧ (4 ≤ n.val → (coilGet t (n.val - 4)).loop.i = 0 ∧ (coilGet t (n.val - 4)).phase ≠ .approach ∧ (coilGet t (n.val - 4)).phase ≠ .hold
        ∧ Reacts t { code := 0x1180, scope := 10, inst := n.val } 2) := by
  have hslot : crossed s (.memory (.slot n)) = settled (fun u => slotParity u n.val) s := rfl
  have hrow : ∀ n : Fin 36, settledRow { code := 0x1180, scope := 10, inst := n.val } 2 = true := by decide
  refine ⟨fun h => ?_, fun h => ?_, fun h => ?_, fun h => ?_⟩
  · rw [hslot, h, settled_clk]
  · rw [hslot, h, settled_oven]
  · rw [hslot, h, settled_twin]
  · obtain ⟨hi, happroach, hhold, hreacts⟩ := slotParity_coil_reacts n h hclear
    rw [hslot, settled_coilGet]
    exact ⟨hi, happroach, hhold, reacts_crossed (x := .memory (.slot n)) (hrow n) hreacts⟩

/-- Settles O11: each queue or memory does its row's reaction, and what settles after the command leaves it. -/
theorem crossingParityReacts : Obligations.CrossingParity := by
  unfold Obligations.CrossingParity
  refine ⟨?_, ?_, ?_, ?_, ?_, ?_, ?_, ?_, ?_, ?_, ?_⟩
  · exact fun s p hrun hclear => answers_parity hrun (portRx_reacts (s := { s with out := [] }) hclear)
  · exact fun s p hrun hclear => answers_parity hrun (portTx_reacts (s := { s with out := [] }) hclear)
  · exact fun s n hrun hclear => answers_parity hrun (carryRx_reacts (s := { s with out := [] }) hclear)
  · exact fun s n hrun hclear => answers_parity hrun (carryTx_reacts (s := { s with out := [] }) hclear)
  · exact fun s g ch hrun => answers_parity hrun (toField_withholds { s with out := [] } g ch)
  · exact fun s ch hrun => answers_parity hrun (fromField_breaks { s with out := [] } ch)
  · exact fun s slot sec cnt hrun hclear => answers_parity hrun (toRing_reacts (s := { s with out := [] }) hclear)
  · exact fun s hrun => answers_parity hrun (fromRetention_reacts { s with out := [] })
  · exact fun s m code hrun hm hclear => answers_parity hrun (memory_withdraws (s := { s with out := [] }) hrun hm hclear)
  · exact fun s hrun hclear => answers_parity hrun (session_reacts (s := { s with out := [] }) hclear)
  · exact fun s n hrun hclear => answers_parity hrun (slot_reacts (s := { s with out := [] }) hclear)

end Sys2Proof.Machine
end

section
/-! What the selection of a master and the conditions of the time block leave (Tables 8.4 and 8.7). -/
namespace Sys2Proof.Machine

/-- The fault classes of the time block (Table 8.7): 0x0D00 to 0x0EC0. -/
def timeClass (k : FaultKey) : Bool := decide (0x34 ≤ k.code / 64 ∧ k.code / 64 ≤ 0x3B)

/-- What lies beyond the time block: the state without its clocks, its persisted offset and what entries change, and the fault records of other
classes. -/
def State.beyondTime (s : State) : State × (FaultKey → Option FaultRec) :=
  ({ s.sansRecords with time := {}, reck := {}, nvm := {} },
    fun j => if timeClass j || decide (65536 ≤ j.scope * 4096 + j.inst) then none else faultGet s j)

/-- An operation on one fault of the time block. -/
theorem beyondTime_of {s t : State} (k : FaultKey) (hk : timeClass k = true) (hr : k.scope * 4096 + k.inst < 65536)
    (hframe : t.sansRecords = s.sansRecords) (hother : ∀ j, keyNum j ≠ keyNum k → faultGet t j = faultGet s j) : t.beyondTime = s.beyondTime := by
  unfold State.beyondTime
  rw [hframe]
  congr 1
  funext j
  split
  · rfl
  next h =>
    simp only [Bool.or_eq_true, decide_eq_true_eq, not_or, Nat.not_le] at h
    exact hother j (keyNum_ne j k h.2 hr (fun hj => h.1 (by unfold timeClass at hk ⊢; rw [hj]; exact hk)))

theorem arise_beyondTime (s : State) (k : FaultKey) (hk : timeClass k = true) (hr : k.scope * 4096 + k.inst < 65536)
    (hl : max (faultRow k.code).2.1 (faultRow k.code).1 < 4) (det hdl : Nat) (d : List Byte) : (arise s k det hdl d).beyondTime = s.beyondTime :=
  beyondTime_of k hk hr (arise_sansRecords s k det hdl d hl) (fun j hj => arise_other s k j hj hl det hdl d)

theorem causeGone_beyondTime (s : State) (k : FaultKey) (hk : timeClass k = true) (hr : k.scope * 4096 + k.inst < 65536) :
    (causeGone s k).beyondTime = s.beyondTime :=
  beyondTime_of k hk hr (causeGone_sansRecords s k) (fun j hj => causeGone_other s k j hj)

theorem enterTime_beyondTime (s : State) (t : TimeState) : (enterTime s t).beyondTime = s.beyondTime := by
  have gone (u : State) (code : Nat) (h : timeClass (keyU code) = true) : (causeGoneU u code).beyondTime = u.beyondTime :=
    causeGone_beyondTime u (keyU code) h (by dsimp only [keyU]; decide)
  unfold enterTime
  split
  · rfl
  · cases t with
    | locked =>
      simp only [List.foldl_cons, List.foldl_nil]
      rw [gone _ _ (by decide), gone _ _ (by decide), gone _ _ (by decide), gone _ _ (by decide)]
      rfl
    | tracking =>
      simp only [List.foldl_cons, List.foldl_nil]
      rw [gone _ _ (by decide), gone _ _ (by decide)]
      rfl
    | holdover => exact arise_beyondTime _ (keyU 0x0D40) (by decide) (by decide) (by decide) 0 none16 []
    | freeRunning => exact arise_beyondTime _ (keyU 0x0D80) (by decide) (by decide) (by decide) 0 none16 []
    | unsynchronised => rfl
    | acquiring => rfl

theorem loseMaster_beyondTime (s : State) : (loseMaster s).beyondTime = s.beyondTime := by
  unfold loseMaster
  split
  · split <;> exact enterTime_beyondTime s _
  · exact enterTime_beyondTime s _
  · exact enterTime_beyondTime s _
  · rfl

/-- A valid UTC offset of an Announce comes into use and is persisted (R325). -/
def takeOffset (s : State) (m : PtpAnnounce) : State :=
  if m.utcOffsetValid then
    { s with time := { s.time with utcOffset := m.utcOffset, leapKnown := true }, nvm := { s.nvm with utcOffset := some m.utcOffset } }
  else s

/-- The clockClass of an Announce moves Locked to Tracking, and Tracking to Locked (Table 8.3). -/
def takeClass (s : State) (m : PtpAnnounce) : State :=
  match s.time.state with
  | .locked => if lockedBy m.clockClass = .tracking then enterTime s .tracking else s
  | .tracking => if lockedBy m.clockClass = .locked then enterTime s .locked else s
  | _ => s

theorem applyAnnounce_eq (s : State) (m : PtpAnnounce) :
    applyAnnounce s m = takeClass (takeOffset { s with time := { s.time with leap := leapAfter s m } } m) m := rfl

theorem takeOffset_beyondTime (s : State) (m : PtpAnnounce) : (takeOffset s m).beyondTime = s.beyondTime := by
  unfold takeOffset
  split <;> rfl

theorem takeClass_beyondTime (s : State) (m : PtpAnnounce) : (takeClass s m).beyondTime = s.beyondTime := by
  unfold takeClass
  split
  · split
    · exact enterTime_beyondTime s _
    · rfl
  · split
    · exact enterTime_beyondTime s _
    · rfl
  · rfl

theorem applyAnnounce_beyondTime (s : State) (m : PtpAnnounce) : (applyAnnounce s m).beyondTime = s.beyondTime := by
  rw [applyAnnounce_eq, takeClass_beyondTime, takeOffset_beyondTime]
  rfl

theorem reselect_beyondTime (s : State) : (reselect s).beyondTime = s.beyondTime := by
  have split_ : (lanSplit s).beyondTime = s.beyondTime := by
    unfold lanSplit
    split <;> rfl
  unfold reselect
  dsimp only
  split
  · exact split_
  · split
    · rw [loseMaster_beyondTime]; exact split_
    · rw [applyAnnounce_beyondTime]; exact split_
    · exact split_

/-- The path delay of a port is judged (Table 8.7). -/
theorem ptpPut_beyondTime (s : State) (p1 : Bool) (t : PtpPort) : (ptpPut s p1 t).beyondTime = s.beyondTime := by
  unfold ptpPut
  split <;> rfl

/-- The path delay of one process port is judged. -/
def judgeDelay (s : State) (p1 : Bool) (p : Port) : State :=
  let t := ptpGet s p1
  let k : FaultKey := { code := 0x0E40, scope := 6, inst := portNum p }
  if (portGet s p).up && portInUse s p && !delayValid t then
    match t.noDelaySince with
    | none => ptpPut s p1 { t with noDelaySince := some s.now }
    | some n => if 10 * ticksPerSec ≤ s.now - n && !faultStands s k then arise s k 0 none16 [] else s
  else
    let s := ptpPut s p1 { t with noDelaySince := none }
    if delayValid t then causeGone s k else s

theorem judgeDelay_beyondTime (s : State) (p1 : Bool) (p : Port) : (judgeDelay s p1 p).beyondTime = s.beyondTime := by
  have hkey : timeClass { code := 0x0E40, scope := 6, inst := portNum p } = true := by cases p <;> decide
  have hrange : 6 * 4096 + portNum p < 65536 := by cases p <;> decide
  unfold judgeDelay
  dsimp only
  split
  · split
    · exact ptpPut_beyondTime s p1 _
    · split
      · exact arise_beyondTime s _ hkey hrange (by dsimp only; decide) 0 none16 []
      · rfl
  · split
    · rw [causeGone_beyondTime _ _ hkey hrange, ptpPut_beyondTime]
    · exact ptpPut_beyondTime s p1 _

theorem timeFaults_beyondTime (s : State) : (timeFaults s).beyondTime = s.beyondTime := by
  have elapsed (u : State) (b : Bool) (code : Nat) (hc : timeClass (keyU code) = true) (hl : max (faultRow code).2.1 (faultRow code).1 < 4) :
      (if b then ariseU u code 0 else u).beyondTime = u.beyondTime := by
    split
    · exact arise_beyondTime u (keyU code) hc (by dsimp only [keyU]; decide) hl 0 none16 []
    · rfl
  have delays := foldl_keeps State.beyondTime (fun s p1 => judgeDelay s p1 (if p1 then .p1 else .p0))
    (fun u p1 => judgeDelay_beyondTime u p1 _) [false, true]
  exact (delays _).trans ((elapsed _ _ 0x0EC0 (by decide) (by decide)).trans
    ((elapsed _ _ 0x0DC0 (by decide) (by decide)).trans (elapsed s _ 0x0D00 (by decide) (by decide))))

/-- The selection of a master and the time block's conditions are judged. -/
def timeJudged (s : State) : State := timeFaults (reselect s)

theorem timeJudged_beyondTime (s : State) : (timeJudged s).beyondTime = s.beyondTime :=
  (timeFaults_beyondTime _).trans (reselect_beyondTime s)

theorem timeJudged_ports (s : State) : (timeJudged s).ports = s.ports := by
  have e := congrArg (fun v => v.1.ports) (timeJudged_beyondTime s); exact e

theorem timeJudged_ident (s : State) : (timeJudged s).ident = s.ident := by
  have e := congrArg (fun v => v.1.ident) (timeJudged_beyondTime s); exact e

/-- A record of another class reads the same. -/
theorem timeJudged_faultGet (s : State) (k : FaultKey) (hc : timeClass k = false) (hr : k.scope * 4096 + k.inst < 65536) :
    faultGet (timeJudged s) k = faultGet s k := by
  have e := congrFun (congrArg Prod.snd (timeJudged_beyondTime s)) k
  have hr' : ¬ 65536 ≤ k.scope * 4096 + k.inst := by omega
  simpa [State.beyondTime, hc, hr'] using e

end Sys2Proof.Machine
end

section
/-! Links and cages of the four ports (R212, R213, R219 to R221, R237, R239, R240). -/
namespace Sys2Proof.Machine

/-! Ports through faults, the TWIN slot and the summary -/

theorem portGet_congr {s t : State} (h : t.ports = s.ports) (p : Port) : portGet t p = portGet s p := by
  unfold portGet; rw [h]

theorem portInUse_congr {s t : State} (h : t.ident = s.ident) (p : Port) : portInUse t p = portInUse s p := by
  unfold portInUse isSingleLan strap; rw [h]

theorem withTwin_ports (f : State → State) (s : State) : (withTwin f s).ports = (f s).ports := by
  have e := congrArg State.ports (withTwin_frame f s); exact e

/-- Judging the summary leaves a port but for what a frame that leaves changes (R43, R222). -/
theorem summary_portGet (f : State → State) (s : State) (p : Port) :
    { portGet (judgeSummary (withTwin f s)) p with txBad := false, lastTx := none } = { portGet (f s) p with txBad := false, lastTx := none } :=
  (judgeSummary_portGet _ p).trans (by rw [portGet_congr (withTwin_ports f s)])

/-- A key of a port's block: a plain row at Alarm that neither the time block nor the TWIN slot touches. -/
def portRow (k : FaultKey) : Bool := plainRow k 2 && !timeClass k && decide (k.scope * 4096 + k.inst < 65536) && k.code / 64 != 0x45

theorem portRow_iff {k : FaultKey} : portRow k = true ↔
    plainRow k 2 = true ∧ timeClass k = false ∧ k.scope * 4096 + k.inst < 65536 ∧ k.code / 64 ≠ 0x45 := by
  simp only [portRow, Bool.and_eq_true, Bool.not_eq_true', decide_eq_true_eq, bne_iff_ne, and_assoc]

theorem summary_reacts {f : State → State} {s : State} {k : FaultKey} (hk : portRow k = true) (h : Reacts (f s) k 2) :
    Reacts (judgeSummary (withTwin f s)) k 2 := by
  obtain ⟨hrow, -, hr, hc⟩ := portRow_iff.mp hk
  exact reacts_judgeSummary (bookkept_of_plainRow hrow) (reacts_withTwin hr hc h)

theorem linkDown_row (p : Port) : portRow (portKey 0x1900 p) = true := by cases p <;> decide
theorem moduleAbsent_row (p : Port) : portRow (portKey 0x1980 p) = true := by cases p <;> decide
theorem linkDown_below (p : Port) : max (faultRow (portKey 0x1900 p).code).2.1 (faultRow (portKey 0x1900 p).code).1 < 4 := by cases p <;> decide
theorem moduleAbsent_below (p : Port) : max (faultRow (portKey 0x1980 p).code).2.1 (faultRow (portKey 0x1980 p).code).1 < 4 := by cases p <;> decide
theorem moduleAbsent_linkDown (p : Port) : keyNum (portKey 0x1980 p) ≠ keyNum (portKey 0x1900 p) := by cases p <;> decide

/-! A link goes down -/

/-- The port down, counted, with its fault where it is in use (R219, R221). -/
def linkFault (s : State) (p : Port) : State :=
  let s := portTally (portPut s p { portGet s p with up := false }) p 15
  if portInUse s p then arise s (portKey 0x1900 p) 0 none16 (lastRxData (portGet s p)) else s

theorem linkLost_eq (s : State) (p : Port) : linkLost s p = if isProcess p then timeJudged (linkFault s p) else linkFault s p := rfl

theorem linkFault_sansRecords (s : State) (p : Port) :
    (linkFault s p).sansRecords = (portPut s p { portGet s p with up := false }).sansRecords := by
  unfold linkFault
  dsimp only
  split
  · rw [arise_sansRecords _ _ _ _ _ (linkDown_below p)]
    rfl
  · rfl

theorem linkLost_ports (s : State) (p : Port) : (linkLost s p).ports = (portPut s p { portGet s p with up := false }).ports := by
  have hfault := keeps_ports (linkFault_sansRecords s p)
  rw [linkLost_eq]
  split
  · rw [timeJudged_ports, hfault]
  · exact hfault

theorem linkLost_ident (s : State) (p : Port) : (linkLost s p).ident = s.ident := by
  have hfault : (linkFault s p).ident = s.ident := by
    have e := keeps_ident (sansSettled_records (linkFault_sansRecords s p))
    rw [e, portPut_ident]
  rw [linkLost_eq]
  split
  · rw [timeJudged_ident, hfault]
  · exact hfault

/-- Beside the time block's classes, only the port's link fault can have changed. -/
theorem linkLost_faultGet (s : State) (p : Port) (k : FaultKey) (hc : timeClass k = false) (hr : k.scope * 4096 + k.inst < 65536) :
    faultGet (linkLost s p) k = faultGet (linkFault s p) k := by
  rw [linkLost_eq]
  split
  · exact timeJudged_faultGet _ k hc hr
  · rfl

theorem linkFault_other (s : State) (p : Port) (k : FaultKey) (hk : keyNum k ≠ keyNum (portKey 0x1900 p)) :
    faultGet (linkFault s p) k = faultGet s k := by
  have hput : faultGet (portTally (portPut s p { portGet s p with up := false }) p 15) k = faultGet s k :=
    faultGet_congr (congrArg Faults.recs (portPut_faults _ _ _)) k
  unfold linkFault
  dsimp only
  split
  · rw [arise_other _ _ _ hk (linkDown_below p), hput]
  · exact hput

/-- A link lost on a port in use raises its fault (R221). -/
theorem linkLost_reacts {s : State} {p : Port} (huse : portInUse s p = true) (hclear : faultGet s (portKey 0x1900 p) = none) :
    Reacts (linkLost s p) (portKey 0x1900 p) 2 := by
  obtain ⟨hrow, hc, hr, -⟩ := portRow_iff.mp (linkDown_row p)
  unfold Reacts
  rw [linkLost_faultGet s p _ hc hr]
  have huse' : portInUse (portTally (portPut s p { portGet s p with up := false }) p 15) p = true :=
    (portInUse_congr (portPut_ident _ _ _) p).trans huse
  have hclear' : faultGet (portTally (portPut s p { portGet s p with up := false }) p 15) (portKey 0x1900 p) = none :=
    (faultGet_congr (congrArg Faults.recs (portPut_faults _ _ _)) _).trans hclear
  unfold linkFault
  dsimp only
  rw [if_pos huse']
  exact reacts_arise_row hclear' hrow _ _ _

/-- Port `p` is put back as `x`; the summary's judgement leaves it, and every other port. -/
def PortsLeft (s t : State) (p : Port) (x : PortSt) : Prop :=
  { portGet t p with txBad := false, lastTx := none } = { x with txBad := false, lastTx := none }
    ∧ ∀ q, q ≠ p → { portGet t q with txBad := false, lastTx := none } = { portGet s q with txBad := false, lastTx := none }

theorem portsLeft_of_ports {f : State → State} {s u : State} {p : Port} {x : PortSt} (h : (f s).ports = (portPut u p x).ports) :
    PortsLeft u (judgeSummary (withTwin f s)) p x := by
  refine ⟨(summary_portGet f s p).trans ?_, fun q hq => (summary_portGet f s q).trans ?_⟩
  · rw [portGet_congr h, portGet_portPut, if_pos rfl]
  · rw [portGet_congr h, portGet_portPut, if_neg hq]

/-- A port put twice is as put last. -/
theorem portPut_portPut (s : State) (p : Port) (x y : PortSt) : portPut (portPut s p x) p y = portPut s p y := by cases p <;> rfl

theorem linkDown_leaves (s : State) (p : Port) (b : Bool) :
    let t := judgeSummary (withTwin (fun u => linkLost u p) (portPut s p { portGet s p with rxLos := b }))
    PortsLeft s t p { portGet s p with up := false, rxLos := b }
      ∧ (portInUse s p = true → faultGet s (portKey 0x1900 p) = none → Reacts t (portKey 0x1900 p) 2) := by
  refine ⟨portsLeft_of_ports ?_, fun huse hclear => summary_reacts (linkDown_row p) (linkLost_reacts ?_ ?_)⟩
  · rw [linkLost_ports, portPut_portPut, portGet_portPut, if_pos rfl]
  · exact (portInUse_congr (portPut_ident _ _ _) p).trans huse
  · exact (faultGet_congr (congrArg Faults.recs (portPut_faults _ _ _)) _).trans hclear

/-! A link comes up -/

theorem linkGained_eq (s : State) (p : Port) : linkGained s p =
    if isProcess p then timeJudged (causeGone (portPut s p { portGet s p with up := true, rxLos := false }) (portKey 0x1900 p))
    else causeGone (portPut s p { portGet s p with up := true, rxLos := false }) (portKey 0x1900 p) := rfl

theorem linkGained_ports (s : State) (p : Port) : (linkGained s p).ports = (portPut s p { portGet s p with up := true, rxLos := false }).ports := by
  have hgone := keeps_ports (causeGone_sansRecords (portPut s p { portGet s p with up := true, rxLos := false }) (portKey 0x1900 p))
  rw [linkGained_eq]
  split
  · rw [timeJudged_ports, hgone]
  · exact hgone

/-- A link regained ends the cause of its fault (R221). -/
theorem linkGained_ends (s : State) (p : Port) (hlevel : ∀ r, faultGet s (portKey 0x1900 p) = some r → r.level < 4) :
    faultStands (linkGained s p) (portKey 0x1900 p) = false := by
  obtain ⟨-, hc, hr, -⟩ := portRow_iff.mp (linkDown_row p)
  have hput := faultGet_congr (congrArg Faults.recs (portPut_faults s p { portGet s p with up := true, rxLos := false })) (portKey 0x1900 p)
  have hgone := faultStands_causeGone (portPut s p { portGet s p with up := true, rxLos := false }) (portKey 0x1900 p)
    (fun r h => hlevel r (hput.symm.trans h))
  rw [linkGained_eq]
  split
  · unfold faultStands
    rw [timeJudged_faultGet _ _ hc hr]
    exact hgone
  · exact hgone

theorem linkUp_leaves (s : State) (p : Port) (hlevel : ∀ r, faultGet s (portKey 0x1900 p) = some r → r.level < 4) :
    let t := judgeSummary (withTwin (fun u => linkGained u p) s)
    PortsLeft s t p { portGet s p with up := true, rxLos := false } ∧ faultStands t (portKey 0x1900 p) = false := by
  obtain ⟨hrow, -, hr, hc⟩ := portRow_iff.mp (linkDown_row p)
  refine ⟨portsLeft_of_ports (linkGained_ports s p), ?_⟩
  rw [judgeSummary_faultStands _ _ (bookkept_of_plainRow hrow)]
  unfold faultStands
  rw [withTwin_faultGet _ s _ hr hc]
  exact linkGained_ends s p hlevel

/-! Modules -/

/-- A port without a module (R212, R239). -/
def emptied (x : PortSt) : PortSt :=
  { x with modAbs := true, txEnabled := false, a0hRead := false, extCal := false, sgmii := false, values := none, warn := [], alarm := [] }

/-- What the removal of a module does to the link (R219). -/
def linkEnds (s : State) (p : Port) : State := if (portGet s p).up then linkLost s p else s

theorem moduleRemoved_eq (s : State) (p : Port) : moduleRemoved s p =
    let u := portPut (linkEnds s p) p (emptied (portGet (linkEnds s p) p))
    if portInUse u p && !(portGet (linkEnds s p) p).modAbs then arise u (portKey 0x1980 p) 0 none16 [] else u := rfl

/-- A link that ends leaves its port down, and the ports else as they were. -/
theorem linkEnds_ports (s : State) (p : Port) : (linkEnds s p).ports = (portPut s p { portGet s p with up := false }).ports := by
  unfold linkEnds
  split
  · exact linkLost_ports s p
  next h =>
    rw [Bool.not_eq_true] at h
    rw [← h]
    cases p <;> rfl

theorem linkEnds_portGet (s : State) (p : Port) : portGet (linkEnds s p) p = { portGet s p with up := false } := by
  rw [portGet_congr (linkEnds_ports s p), portGet_portPut, if_pos rfl]

theorem linkEnds_ident (s : State) (p : Port) : (linkEnds s p).ident = s.ident := by
  unfold linkEnds
  split
  · exact linkLost_ident s p
  · rfl

theorem linkEnds_moduleAbsent (s : State) (p : Port) : faultGet (linkEnds s p) (portKey 0x1980 p) = faultGet s (portKey 0x1980 p) := by
  obtain ⟨-, hc, hr, -⟩ := portRow_iff.mp (moduleAbsent_row p)
  unfold linkEnds
  split
  · rw [linkLost_faultGet s p _ hc hr, linkFault_other s p _ (moduleAbsent_linkDown p)]
  · rfl

theorem moduleRemoved_ports (s : State) (p : Port) :
    (moduleRemoved s p).ports = (portPut s p (emptied { portGet s p with up := false })).ports := by
  have hput : (portPut (linkEnds s p) p (emptied (portGet (linkEnds s p) p))).ports = (portPut s p (emptied { portGet s p with up := false })).ports := by
    have hcongr : ∀ (t u : State) (x : PortSt), t.ports = u.ports → (portPut t p x).ports = (portPut u p x).ports := fun t u x h => by
      cases p <;> simp only [portPut, h]
    rw [linkEnds_portGet, hcongr _ _ _ (linkEnds_ports s p), portPut_portPut]
  rw [moduleRemoved_eq]
  dsimp only
  split
  · rw [keeps_ports (arise_sansRecords _ _ _ _ _ (moduleAbsent_below p)), hput]
  · exact hput

/-- A fitted module removed from a port in use raises its fault (R239). -/
theorem moduleRemoved_reacts {s : State} {p : Port} (huse : portInUse s p = true) (hfitted : (portGet s p).modAbs = false)
    (hclear : faultGet s (portKey 0x1980 p) = none) : Reacts (moduleRemoved s p) (portKey 0x1980 p) 2 := by
  let u := portPut (linkEnds s p) p (emptied (portGet (linkEnds s p) p))
  have huse' : portInUse u p = true := (portInUse_congr ((portPut_ident _ _ _).trans (linkEnds_ident s p)) p).trans huse
  have hfitted' : (portGet (linkEnds s p) p).modAbs = false := by rw [linkEnds_portGet]; exact hfitted
  have hclear' : faultGet u (portKey 0x1980 p) = none :=
    (faultGet_congr (congrArg Faults.recs (portPut_faults _ _ _)) _).trans ((linkEnds_moduleAbsent s p).trans hclear)
  have heq : moduleRemoved s p = arise u (portKey 0x1980 p) 0 none16 [] := by
    rw [moduleRemoved_eq]
    exact if_pos (by rw [hfitted', Bool.and_eq_true]; exact ⟨huse', rfl⟩)
  rw [heq]
  exact reacts_arise_row hclear' (portRow_iff.mp (moduleAbsent_row p)).1 0 none16 []

theorem moduleRemoved_leaves (s : State) (p : Port) (hfitted : (portGet s p).modAbs = false) :
    let t := judgeSummary (withTwin (fun u => moduleRemoved u p) s)
    PortsLeft s t p (emptied { portGet s p with up := false })
      ∧ (portInUse s p = true → faultGet s (portKey 0x1980 p) = none → Reacts t (portKey 0x1980 p) 2) :=
  ⟨portsLeft_of_ports (moduleRemoved_ports s p),
    fun huse hclear => summary_reacts (moduleAbsent_row p) (moduleRemoved_reacts huse hfitted hclear)⟩

/-- What an insertion leaves of the unit: everything but its ports, entries, faults and what has left. -/
def State.sansPorts (s : State) : State := { s.sansRecords with ports := {} }

theorem sansPorts_of {s t : State} (h : t.sansRecords = s.sansRecords) : t.sansPorts = s.sansPorts := by
  rw [State.sansPorts, State.sansPorts, h]

@[simp] theorem portPut_sansPorts (s : State) (p : Port) (x : PortSt) : (portPut s p x).sansPorts = s.sansPorts := by cases p <;> rfl

/-- The bus is judged: at most the values of the port's module become unknown (R245). -/
theorem judgeBus_leaves (s : State) (p : Port) :
    (judgeBus s p).sansPorts = s.sansPorts ∧ ∃ v, (judgeBus s p).ports = (portPut s p { portGet s p with values := v }).ports := by
  have hraise : (arise (portPut s p { portGet s p with values := none }) (sfpKey 0x5980 p) 0 none16 []).sansRecords
      = (portPut s p { portGet s p with values := none }).sansRecords := arise_sansRecords _ _ 0 none16 [] (by cases p <;> decide)
  have hself : (portPut s p { portGet s p with values := (portGet s p).values }).ports = s.ports := by cases p <;> rfl
  unfold judgeBus
  dsimp only
  split
  · split
    · exact ⟨portPut_sansPorts s p _, none, rfl⟩
    · exact ⟨(sansPorts_of hraise).trans (portPut_sansPorts s p _), none, keeps_ports hraise⟩
  · exact ⟨rfl, (portGet s p).values, hself.symm⟩

@[simp] theorem busRecovery_sansRecords (s : State) (p : Port) (t : I2c) : (busRecovery s p t).sansRecords = s.sansRecords := by
  unfold busRecovery
  split
  · rfl
  · split
    · split <;> rfl
    · rfl

/-- What an A0h read finds of a module (R212, R240, R241). -/
def identified (p : Port) (x : PortSt) (t : I2c) : PortSt :=
  match busPage t with
  | some a => { countBus x t with a0hRead := true, extCal := (a.getD 92 0).getLsbD 4, sgmii := !isProcess p && (a.getD 6 0).getLsbD 3 }
  | none => { countBus x t with a0hRead := false, sgmii := false }

theorem readA0h_eq (s : State) (p : Port) (t : I2c) : readA0h s p t = judgeBus (portPut (busRecovery s p t) p (identified p (portGet s p) t)) p := rfl

theorem readA0h_leaves (s : State) (p : Port) (t : I2c) :
    (readA0h s p t).sansPorts = s.sansPorts ∧ ∃ v, (readA0h s p t).ports = (portPut s p { identified p (portGet s p) t with values := v }).ports := by
  obtain ⟨hunit, v, hports⟩ := judgeBus_leaves (portPut (busRecovery s p t) p (identified p (portGet s p) t)) p
  have hrecovery := busRecovery_sansRecords s p t
  have hcongr : ∀ x, (portPut (busRecovery s p t) p x).ports = (portPut s p x).ports := fun x => by
    cases p <;> simp only [portPut, keeps_ports hrecovery]
  rw [readA0h_eq]
  refine ⟨hunit.trans ((portPut_sansPorts _ _ _).trans (sansPorts_of hrecovery)), v, ?_⟩
  rw [hports, portPut_portPut, portGet_portPut, if_pos rfl, hcongr]

/-- An inserted module: its port, and everything else as it was. -/
theorem moduleInserted_leaves (s : State) (p : Port) (t : I2c) : (moduleInserted s p t).sansPorts = s.sansPorts
    ∧ ∃ v, (moduleInserted s p t).ports
      = (portPut s p { identified p { portGet s p with modAbs := false, txEnabled := portInUse s p } t with values := v }).ports := by
  let w : State := portPut s p { portGet s p with modAbs := false, txEnabled := portInUse s p }
  let u : State := if portInUse s p then causeGone w (portKey 0x1980 p) else w
  have hu : u.sansRecords = w.sansRecords := by
    change (if portInUse s p then causeGone w (portKey 0x1980 p) else w).sansRecords = _
    split
    · exact causeGone_sansRecords w _
    · rfl
  obtain ⟨hunit, v, hports⟩ := readA0h_leaves u p t
  have hget : portGet u p = { portGet s p with modAbs := false, txEnabled := portInUse s p } := by
    rw [portGet_congr (keeps_ports hu), portGet_portPut, if_pos rfl]
  have hcongr : ∀ x, (portPut u p x).ports = (portPut w p x).ports := fun x => by
    cases p <;> simp only [portPut, keeps_ports hu]
  refine ⟨hunit.trans ((sansPorts_of hu).trans (portPut_sansPorts s p _)), v, ?_⟩
  rw [← hget, ← portPut_portPut s p { portGet s p with modAbs := false, txEnabled := portInUse s p }, ← hcongr]
  exact hports

theorem moduleInserted_port (s : State) (p : Port) (t : I2c) :
    let x := portGet (moduleInserted s p t) p
    x.modAbs = false ∧ x.txEnabled = portInUse s p ∧ x.a0hRead = (busPage t).isSome
      ∧ (∀ a, busPage t = some a → x.extCal = (a.getD 92 0).getLsbD 4 ∧ x.sgmii = (!isProcess p && (a.getD 6 0).getLsbD 3))
      ∧ (busPage t = none → x.sgmii = false) ∧ ∀ q, q ≠ p → portGet (moduleInserted s p t) q = portGet s q := by
  obtain ⟨-, v, hports⟩ := moduleInserted_leaves s p t
  have hget (q : Port) := (portGet_congr hports q).trans (portGet_portPut s p q _)
  rw [hget p, if_pos rfl]
  have hother (q : Port) (hq : q ≠ p) : portGet (moduleInserted s p t) q = portGet s q := by rw [hget q, if_neg hq]
  unfold identified
  cases hpage : busPage t with
  | none => exact ⟨rfl, rfl, rfl, fun _ h => absurd h (by simp), fun _ => rfl, hother⟩
  | some a =>
    refine ⟨rfl, rfl, rfl, fun b hb => ?_, fun h => absurd h (by simp), hother⟩
    obtain rfl : a = b := Option.some.inj hb
    exact ⟨rfl, rfl⟩

/-- Settles O16: each command puts its port back once, and faults, the time block and the summary leave the ports. -/
theorem linksAndCages : Obligations.LinksAndCages := by
  unfold Obligations.LinksAndCages
  intro keeps is
  refine ⟨fun s p why hrun hup hfits => ?_, fun s p x hrun hgood hdown hpartner hlevel => ?_, fun s p x hprocess hx => ?_,
    fun s p hrun hfitted => ?_, fun s p read hpage hdone habsent => ?_⟩
  · obtain ⟨⟨hport, hothers⟩, hreacts⟩ := linkDown_leaves { s with out := [] } p ((portGet s p).rxLos || why == .rxLos)
    refine answers_of_guard (execLinkDown.eq_def ⟨p, why⟩ s) ?_ ⟨hport, hothers, hreacts⟩
    exact Bool.and_eq_true _ _ ▸ ⟨Bool.and_eq_true _ _ ▸ ⟨hrun, hup⟩, hfits⟩
  · obtain ⟨⟨hport, hothers⟩, hends⟩ := linkUp_leaves { s with out := [] } p hlevel
    have hok : partnerOk p x = true := by
      cases hp : isProcess p
      · simp [partnerOk, hp, hpartner hp]
      · simp [partnerOk, hp]
    refine answers_of_guard (execLinkUp.eq_def ⟨p, x⟩ s) ?_ ⟨hport, hothers, hends⟩
    change (coreRuns s && domainGood s 2 && !(portGet s p).up && partnerOk p x) = true
    simp [hrun, hgood, hdown, hok]
  · have hnot : partnerOk p x = false := by simpa [partnerOk, hprocess] using hx
    refine answers_of_run (execLinkUp.eq_def ⟨p, x⟩ s) ?_
    dsimp only
    rw [hnot, Bool.and_false, if_neg Bool.false_ne_true]
  · obtain ⟨⟨hport, hothers⟩, hreacts⟩ := moduleRemoved_leaves { s with out := [] } p hfitted
    refine answers_of_guard (execModuleRemoved.eq_def p s) ?_ ⟨hport, hothers, hreacts⟩
    change (coreRuns s && (!(portGet s p).modAbs || (portGet s p).up)) = true
    simp [hrun, hfitted]
  · obtain ⟨hmod, htx, hread, hid, hnone, hothers⟩ := moduleInserted_port { s with out := [] } p read
    obtain ⟨hunit, -⟩ := moduleInserted_leaves { s with out := [] } p read
    have hzones : (moduleInserted { s with out := [] } p read).zones = s.zones := by have e := congrArg State.zones hunit; exact e
    have hpower : (moduleInserted { s with out := [] } p read).power = s.power := by have e := congrArg State.power hunit; exact e
    refine answers_of_runIf (execModuleInserted.eq_def p read s) hpage ?_
    rw [if_pos (Bool.and_eq_true _ _ ▸ ⟨hdone, habsent⟩)]
    exact ⟨hmod, htx, hread, hid, hnone, hothers, hzones, hpower⟩

end Sys2Proof.Machine
end

section
/-! A released sample of one slot that carries out the agreed destruction of another slot (R630). -/
namespace Sys2Proof.Machine

/-- A received sample of slot 7, which no zone of the image binds. -/
def unboundSample : Sample := { slot := 7, idx := ⟨1, 0⟩, kind := .received, chans := [], blocked := false, jumped := false }

/-- An Active whose partner has its index; the image holds the SV window and zone 0, which measures slot 0. Slot 0 is admitted and has
reached the index of a destruction that was agreed while this unit was Standby; an element of zone 0 has started. `unboundSample` is the head of
the intake. -/
def dueDestruction : State := { sPair .active with
  plug := { present := true, image := some [(133, 8), (1025, 1)] }
  streams := { sv := [(0, { anAdmitted with due := ⟨2, 0⟩ })], intake := [unboundSample] }
  zones := [(0, { el := [(0, { started := true })] })]
  pair := { (sPair .active).pair with svDue := [(0, ⟨2, 0⟩)], agreed := (⟨1, 0⟩, (sPair .active).pair.agreed.2) } }

/-- What `unboundSample` finds at its release. -/
def dueDestructionBefore : State :=
  beforeSample { dueDestruction with out := [], streams := { dueDestruction.streams with intake := [] } } unboundSample

theorem dueDestruction_runs : serving dueDestruction = true ∧ coreRuns dueDestruction = true := by decide

theorem dueDestruction_releasable : releasable dueDestruction unboundSample = true := by decide +kernel

/-- The sample finds its slot unbound and with new pipelines, and the started element of zone 0. -/
theorem dueDestructionBefore_finds : bound dueDestructionBefore 7 = false ∧ pipeGet dueDestructionBefore 7 = {}
    ∧ Tab.get {} dueDestructionBefore.pipesY 7 = {} ∧ (zoneGet dueDestructionBefore 0).el.length = 1 := by decide +kernel

/-- The release destroys the stream of slot 0, and that resets the elements of zone 0 (Table 11.5). -/
theorem dueDestruction_resets : Answers (.sampleRelease ⟨none, none⟩) dueDestruction (fun t => (zoneGet t 0).el.length = 0) :=
  ⟨_, rfl, by decide +kernel⟩

/-- What the obligation says of an unbound slot's sample that nothing upsets and that finds new pipelines: the zones stay as they are. -/
theorem zones_of_sampleReleased (h : Obligations.SampleReleased) {s b : State} {x : Sample} {rest : List Sample} (hserving : serving s = true)
    (hruns : coreRuns s = true) (hintake : s.streams.intake = x :: rest) (hreleasable : releasable s x = true)
    (hb : beforeSample { s with out := [], streams := { s.streams with intake := rest } } x = b)
    (hslot : x.slot < 1024) (hbound : bound b x.slot = false)
    (hx : pipeGet b x.slot = {}) (hy : Tab.get {} b.pipesY x.slot = {}) :
    Answers (.sampleRelease ⟨none, none⟩) s (fun t => t.zones = b.zones) := by
  unfold Obligations.SampleReleased at h
  obtain ⟨-, -, hrelease⟩ := h
  obtain ⟨t, ht, -, -, -, -, -, hagreed⟩ := hrelease s ⟨none, none⟩ x rest hserving hruns hintake hreleasable
  have hformed : (decide (1024 ≤ x.slot) || bound b x.slot) = false := by simp [hslot, hbound]
  simp only [hb, hx, hy, hformed, laneDiffer_self, laneTake_parityOk] at hagreed
  obtain ⟨-, hunbound, -⟩ := hagreed rfl rfl
  exact ⟨t, ht, hunbound trivial⟩

/-- Refutes O29: a sample of a slot that no zone binds is said to leave the zones as they are, but where slot 0 has reached the index of its agreed
destruction, the release destroys it (R292, R630) and resets its zone: in `dueDestruction`, zone 0 has an element before the command and none
after. -/
theorem not_sampleReleased : ¬ Obligations.SampleReleased := by
  intro h
  obtain ⟨hserving, hruns⟩ := dueDestruction_runs
  obtain ⟨hbound, hx, hy, hel⟩ := dueDestructionBefore_finds
  have hkeeps : Answers (.sampleRelease ⟨none, none⟩) dueDestruction (fun t => t.zones = dueDestructionBefore.zones) :=
    zones_of_sampleReleased h hserving hruns rfl dueDestruction_releasable rfl (by decide) hbound hx hy
  obtain ⟨t, -, hzones, hreset⟩ := hkeeps.and dueDestruction_resets
  rw [zoneGet, hzones] at hreset
  exact absurd (hel.symm.trans hreset) (by decide)

end Sys2Proof.Machine
end

section
/-! The conducting state of the status pins (R53, R54, R55). -/
namespace Sys2Proof.Machine

/-- No pin is held off once the time of every switch-off has passed (R88). -/
theorem pinsOff_expired {s : State} (h : ∀ x ∈ s.power.pinsOff, x.2 ≤ s.now) (p : StatusPin) :
    s.power.pinsOff.any (fun x => x.1 == p && decide (s.now < x.2)) = false := by
  rw [List.any_eq_false]
  intro x hx
  simp [Nat.not_lt.mpr (h x hx)]

/-- The core runs in neither Off nor Retention (Table 1.6). -/
theorem engine_of_coreRuns {s : State} (h : coreRuns s = true) : (s.power.engine != .off && s.power.engine != .retention) = true := by
  unfold coreRuns at h
  cases he : s.power.engine <;> simp [he] at h ⊢

theorem almConducts_undecided {s : State} (h : s.ident.decided = false) (n : Nat) : almConducts s n = false := by
  simp [almConducts, h]

/-- Under code 7 an alarm pin of a running core conducts while its alarm is not active (R53). -/
theorem almConducts_seven {s : State} (hrun : coreRuns s = true) (hd : s.ident.decided = true) (hcode : strap s 10 = 7) (n : Nat) :
    almConducts s n = !almActive s n := by
  simp [almConducts, hd, hcode, engine_of_coreRuns hrun]

/-- Under code 1 an alarm pin conducts while its alarm is active (R53). -/
theorem almConducts_one {s : State} (hd : s.ident.decided = true) (hcode : strap s 10 = 1) (n : Nat) : almConducts s n = almActive s n := by
  simp [almConducts, hd, hcode]

theorem almConducts_other {s : State} (h7 : strap s 10 ≠ 7) (h1 : strap s 10 ≠ 1) (n : Nat) : almConducts s n = false := by
  simp [almConducts, h7, h1]

/-- Settles O60: no pin is held off, so each conducts as its own function says, the alarm pins by the four cases of ST_ALMPOL. -/
theorem statusPins : Obligations.StatusPins := by
  unfold Obligations.StatusPins
  intro s hrun hoff n
  simp only [pinConducts, pinsOff_expired hoff, Bool.not_false, Bool.true_and]
  refine ⟨fun hd h7 => ?_, fun hd h1 => ?_, ?_, trivial, trivial⟩
  · rw [almConducts_seven hrun hd h7, Bool.not_eq_true']
  · rw [almConducts_one hd h1]
  · rintro (hd | ⟨h7, h1⟩)
    · exact almConducts_undecided hd n
    · exact almConducts_other h7 h1 n

end Sys2Proof.Machine
end

section
/-! The decision on the straps: what it leaves, and the withholding of a combination that is not valid (R68 to R73). -/
namespace Sys2Proof.Machine

/-- The straps are taken, with the pair state and the domains that follow from them (R72, R100, Table 3.3). -/
def strapped (s : State) (ns : List Nat) : State :=
  let s := { s with ident := { s.ident with straps := ns, decided := true } }
  { s with
    pair := { s.pair with state := if isTwin s then .pairing else .solo }
    power := { s.power with domOn := s.power.domOn.filter (fun d => (d != 3 || isTwin s) && (d != 7 || adcInputs s != 0)) } }

/-- The strap fault and the withholding that a kind of R72 brings. -/
def strapFaults (s : State) (ns : List Nat) : State :=
  match strapsKinds ns with
  | [] => s
  | d :: t => withhold (arise s (keyU 0x0500) d none16 (strapsData ns (d :: t))) .straps

theorem strapsDecided_eq (s : State) (l : List (List Nat)) :
    strapsDecided s l = toStep (adcStartFaults (strapFaults (strapped s (l.map strapNibble)) (l.map strapNibble))) .laneTest := rfl

/-- The cause of Withheld once straps of these codes are decided. -/
def withheldByStraps (c : Option WithheldCause) (ns : List Nat) : Option WithheldCause :=
  if strapsKinds ns = [] then c else some (c.getD .straps)

theorem strapFaults_sansRecords (s : State) (ns : List Nat) : (strapFaults s ns).sansRecords
    = ({ s with power := { s.power with withheldBy := withheldByStraps s.power.withheldBy ns } } : State).sansRecords := by
  unfold strapFaults withheldByStraps
  split
  next h => rw [if_pos h]
  next d t h =>
    rw [if_neg (by rw [h]; simp)]
    have e := congrArg (fun u : State => withhold u .straps) (arise_sansRecords s (keyU 0x0500) d none16 (strapsData ns (d :: t)) (by decide))
    exact e

/-- A kind of strap fault reacts where the fault is Clear (R72). -/
theorem strapFaults_reacts {s : State} {ns : List Nat} (h : strapsKinds ns ≠ []) (hclear : faultGet s (keyU 0x0500) = none) :
    Reacts (strapFaults s ns) (keyU 0x0500) 2 := by
  unfold strapFaults
  split
  next h' => exact absurd h' h
  next => exact reacts_arise_row hclear (by decide) _ _ _

theorem adcStartFaults_sansRecords (s : State) : (adcStartFaults s).sansRecords = s.sansRecords := by
  unfold adcStartFaults
  split
  · rfl
  · dsimp only
    rw [judgeFault_sansRecords _ _ _ _ _ (by decide), judgeFault_sansRecords _ _ _ _ _ (by decide)]

theorem adcStartFaults_straps (s : State) : faultGet (adcStartFaults s) (keyU 0x0500) = faultGet s (keyU 0x0500) := by
  unfold adcStartFaults
  split
  · rfl
  · dsimp only
    rw [judgeFault_other _ _ _ (by decide) (by decide), judgeFault_other _ _ _ (by decide) (by decide)]

/-- What the decision on the straps leaves of the unit, beside its records. -/
def strapsTaken (s : State) (ns : List Nat) : State :=
  { strapped s ns with power := { (strapped s ns).power with withheldBy := withheldByStraps s.power.withheldBy ns, step := .laneTest } }

theorem strapsDecided_sansRecords (s : State) (l : List (List Nat)) :
    (strapsDecided s l).sansRecords = (strapsTaken s (l.map strapNibble)).sansRecords := by
  have e := congrArg (toStep · .laneTest)
    ((adcStartFaults_sansRecords _).trans (strapFaults_sansRecords (strapped s (l.map strapNibble)) (l.map strapNibble)))
  exact e

theorem strapsDecided_sansReports (s : State) (l : List (List Nat)) :
    (judgeSummary (strapsDecided s l)).sansReports = (strapsTaken s (l.map strapNibble)).sansReports :=
  (judgeSummary_sansReports _).trans (sansReports_of _ _ (strapsDecided_sansRecords s l))

theorem strapsDecided_ident (s : State) (l : List (List Nat)) :
    (judgeSummary (strapsDecided s l)).ident = { s.ident with straps := l.map strapNibble, decided := true } := by
  have e := congrArg State.ident (strapsDecided_sansReports s l); exact e

theorem strapsDecided_power (s : State) (l : List (List Nat)) :
    (judgeSummary (strapsDecided s l)).power = (strapsTaken s (l.map strapNibble)).power := by
  have e := congrArg State.power (strapsDecided_sansReports s l); exact e

theorem strapsDecided_pairState (s : State) (l : List (List Nat)) :
    (judgeSummary (strapsDecided s l)).pair.state = if isTwin (judgeSummary (strapsDecided s l)) then .pairing else .solo := by
  have htwin : isTwin (judgeSummary (strapsDecided s l)) = isTwin (strapped s (l.map strapNibble)) := by
    simp only [isTwin, strap, strapsDecided_ident]; rfl
  have e := congrArg (fun u => u.pair.state) (strapsDecided_sansReports s l)
  rw [htwin]
  exact e

/-- D3 goes off in a unit that is no twin, and D7 in one without local inputs (Table 3.3). -/
theorem strapsDecided_domains (s : State) (l : List (List Nat)) :
    let t := judgeSummary (strapsDecided s l)
    (isTwin t = false → 3 ∉ t.power.domOn) ∧ (adcInputs t = 0 → 7 ∉ t.power.domOn) := by
  intro t
  have htwin : isTwin t = isTwin (strapped s (l.map strapNibble)) := by
    simp only [t, isTwin, strap, strapsDecided_ident]; rfl
  have hadc : adcInputs t = adcInputs (strapped s (l.map strapNibble)) := by
    simp only [t, adcInputs, strap, strapsDecided_ident]; rfl
  have hon : t.power.domOn = s.power.domOn.filter (fun d => (d != 3 || isTwin t) && (d != 7 || adcInputs t != 0)) := by
    rw [htwin, hadc, strapsDecided_power]; rfl
  rw [hon]
  exact ⟨fun h => by simp [h], fun h => by simp [h]⟩

theorem strapsDecided_reacts {s : State} {l : List (List Nat)} (h : strapsKinds (l.map strapNibble) ≠ [])
    (hclear : faultGet s (keyU 0x0500) = none) : Reacts (judgeSummary (strapsDecided s l)) (keyU 0x0500) 2 := by
  obtain ⟨r, hr, hrest⟩ := strapFaults_reacts (s := strapped s (l.map strapNibble)) h hclear
  exact reacts_judgeSummary (by decide) ⟨r, (adcStartFaults_straps _).trans hr, hrest⟩

/-- STRAPS_DECIDED acts at its step on readings of the hardware. -/
theorem answers_strapsDecided {s : State} {l : List (List Nat)} {p : State → Prop} (hat : atStep s .straps = true)
    (hwf : WellFormed.straps l = true) (h : p { judgeSummary (strapsDecided { s with out := [] } l) with pending := s.pending }) :
    Answers (.strapsDecided l) s p :=
  answers_of_runIf (execStrapsDecided.eq_def l s) hwf (by
    have hat' : atStep { s with out := [] } .straps = true := hat
    rw [if_pos hat']; exact h)

/-- A twin side with ST_LAN or ST_ADC other than 7 is an invalid combination (R69, R70). -/
theorem strapsKinds_combination {ns : List Nat} (htwin : ns.getD 0 15 = 1 ∨ ns.getD 0 15 = 2) (hother : ns.getD 3 15 ≠ 7 ∨ ns.getD 5 15 ≠ 7) :
    2 ∈ strapsKinds ns := by
  unfold strapsKinds
  rw [List.mem_filter]
  refine ⟨by decide, ?_⟩
  have ht : (ns.getD 0 15 == 1 || ns.getD 0 15 == 2) = true := by simpa using htwin
  have ho : (ns.getD 3 15 != 7 || ns.getD 5 15 != 7) = true := by simpa using hother
  simp only [strapsKind, ht, Bool.true_and, ho]
  simp

/-- Settles O58: the combination is a kind of R72, and any kind raises the strap fault and withholds the unit. -/
theorem invalidCombinations : Obligations.InvalidCombinations := by
  unfold Obligations.InvalidCombinations
  intro s l hat hwf htwin hother
  have hmem := strapsKinds_combination htwin hother
  have hkinds : strapsKinds (l.map strapNibble) ≠ [] := List.ne_nil_of_mem hmem
  refine ⟨hmem, answers_strapsDecided hat hwf ⟨?_, ?_, fun hclear => ?_⟩⟩
  · change (judgeSummary (strapsDecided { s with out := [] } l)).power.withheldBy.isSome = true
    rw [strapsDecided_power]
    simp [strapsTaken, withheldByStraps, hkinds]
  · exact congrArg Ident.straps (strapsDecided_ident { s with out := [] } l)
  · exact strapsDecided_reacts (s := { s with out := [] }) hkinds hclear

end Sys2Proof.Machine
end

section
/-! The journal check of start-up: what it leaves of the supplies, of the straps' record and of the time (R85, R325, R692, Table 3.3). -/
namespace Sys2Proof.Machine

/-- What start-up hands on from one step to the next: supplies and engine, identity, the records in MRAM and the time. -/
def State.started (s : State) : Power × Ident × Nvm × Time := (s.power, s.ident, s.nvm, s.time)

theorem started_of_unit {s t : State} (h : t.unitOnly = s.unitOnly) : t.started = s.started := by
  simp only [State.started, unit_power h, unit_ident h, unit_nvm h, unit_time h]

theorem started_of_records {s t : State} (h : t.sansRecords = s.sansRecords) : t.started = s.started :=
  started_of_unit (unitOnly_records h)

@[simp] theorem journalEntry_started (s : State) (e : Entry) : (journalEntry s e).started = s.started :=
  started_of_records (journalEntry_sansRecords s e)

@[simp] theorem submitEntry_started (s : State) (e : Entry) : (submitEntry s e).started = s.started :=
  started_of_records (submitEntry_sansRecords s e)

theorem arise_started (s : State) (k : FaultKey) (det hdl : Nat) (d : List Byte) (h : max (faultRow k.code).2.1 (faultRow k.code).1 < 4) :
    (arise s k det hdl d).started = s.started := started_of_records (arise_sansRecords s k det hdl d h)

theorem ariseU_started (s : State) (code det : Nat) (h : max (faultRow code).2.1 (faultRow code).1 < 4) : (ariseU s code det).started = s.started :=
  arise_started s (keyU code) det none16 [] h

theorem judgeFault_started (s : State) (k : FaultKey) (det hdl : Nat) (b : Bool) (h : max (faultRow k.code).2.1 (faultRow k.code).1 < 4) :
    (judgeFault s k det hdl b).started = s.started := started_of_records (judgeFault_sansRecords s k det hdl b h)

/-! The journal's end (R692, R693) -/

@[simp] theorem indexAgain_started (s : State) (l : List Committed) : (indexAgain s l).started = s.started :=
  foldl_keeps State.started _ (fun s c => by
    split
    · rw [journalEntry_started]; rfl
    · rfl) l s

@[simp] theorem keepEntries_started (s : State) (keep : Nat → Bool) : (keepEntries s keep).started = s.started := rfl

@[simp] theorem scanJournal_started (s : State) (was found : List Committed) : (scanJournal s was found).started = s.started := by
  unfold scanJournal
  split
  · rfl
  · dsimp only
    rw [indexAgain_started, submitEntry_started, arise_started _ _ _ _ _ (by decide), keepEntries_started]

@[simp] theorem checkTail_started (s : State) (f : JournalFind) : (checkTail s f).started = s.started := by
  unfold checkTail
  dsimp only
  split
  · rw [scanJournal_started]; rfl
  · split
    · rw [indexAgain_started, keepEntries_started]; rfl
    · rw [scanJournal_started]; rfl

/-! An entry's place (Table 17.5) -/

theorem applyMarks_started : ∀ (n : Nat) (s : State) (l : List Byte), (applyMarks s n l).started = s.started
  | 0, _, _ => rfl
  | n + 1, s, l => by
    unfold applyMarks
    split
    · rfl
    · dsimp only
      rw [applyMarks_started n]
      split <;> rfl

@[simp] theorem noteRaise_started (s : State) (e : Entry) (j : Nat) : (noteRaise s e j).started = s.started := by
  unfold noteRaise
  split
  · rfl
  · split
    · rfl
    · dsimp only
      split
      · split <;> rfl
      · rfl

@[simp] theorem writeControl_started (s : State) (page offset jseq : Nat) (crc : BitVec 32) :
    (writeControl s page offset jseq crc).started = s.started := by
  unfold writeControl
  dsimp only
  split <;> rfl

@[simp] theorem writeEntry_started (s : State) (n : Nat) (e : Entry) : (writeEntry s n e).started = s.started := by
  unfold writeEntry
  dsimp only
  split
  · rw [applyMarks_started, noteRaise_started, writeControl_started]; rfl
  · split
    · refine Eq.trans (b := (noteRaise _ e _).started) rfl ?_
      rw [noteRaise_started, writeControl_started]; rfl
    · rw [noteRaise_started, writeControl_started]; rfl

theorem takePage_started {s t : State} {sev : Nat} (h : takePage s sev = some t) : t.started = s.started := by
  unfold takePage at h
  split at h
  · cases h
  · cases h
    dsimp only [State.started]
    split <;> rfl

theorem roomFor_started {s t : State} {sev size n : Nat} (h : roomFor s sev size = some (t, n)) : t.started = s.started := by
  unfold roomFor at h
  dsimp only at h
  split_ifs at h
  · obtain ⟨rfl, -⟩ := Prod.mk.inj (Option.some.inj h)
    rfl
  · split at h
    next u hu =>
      obtain ⟨rfl, -⟩ := Prod.mk.inj (Option.some.inj h)
      exact takePage_started hu
    next => cases h

theorem placeCommit_started {s t : State} {e : Entry} {reads : CommitReads} (h : placeCommit s e reads = .done t) : t.started = s.started := by
  unfold placeCommit at h
  split at h
  · cases h
  next u n hu =>
    split at h
    · cases h
      rw [writeEntry_started, roomFor_started hu]
    · split at h
      · cases h
      next v m hv =>
        split at h
        · cases h
          rw [writeEntry_started, roomFor_started hv, skipOffset, pageUpd, ← roomFor_started hu]
          rfl
        · cases h

@[simp] theorem startEntry_started (s : State) : (startEntry s).started = s.started := by
  have sessions (u : State) (x : Tab Session) : ({ u with recallSvc := { u.recallSvc with sessions := x } } : State).started = u.started := rfl
  unfold startEntry
  dsimp only
  rw [sessions]
  split
  next t h => exact placeCommit_started h
  next => rfl

/-! What MRAM and D0 hold -/

theorem ariseAndGone_started (s : State) (k : FaultKey) (h : max (faultRow k.code).2.1 (faultRow k.code).1 < 4) (det : Nat) (d : List Byte) :
    (ariseAndGone s k det d).started = s.started := by
  unfold ariseAndGone
  dsimp only
  split
  · exact arise_started s k det none16 d h
  · exact arise_started s k det none16 d h

/-- The entries that the event register makes (R787). -/
def eventEntries (s : State) : State :=
  let x := s.sealSt
  let entry := fun (u : State) (code slot kcv discards rest : Nat) => journalEntry u (sealEntry u code slot kcv 1 discards rest)
  let u := entry s 0x08C0 0xFF 0 (rawEvents s / 65536) (rawEvents s % 65536)
  let u := [(x.evHatch, 0), (x.evMesh, 1), (x.evVbatLow, 2), (x.evRestart, 3)].foldl
    (fun u p => if p.1 then entry u (0x0880 + p.2) 0xFF 0 0 0 else u) u
  (List.range 16).foldl (fun u n => if x.loadMap.getLsbD n then
    entry u (0x0800 + n) n (((keySlot u n).map (fun k => k.kcv.toNat)).getD 0) 0 0 else u) u

/-- The faults that an event register raises as it is read (R787). -/
def eventFaults (x : Seal) (s : State) : State :=
  let s := if x.evRestart then ariseU s 0x0900 0 else s
  let s := if x.hatchReported then ariseU s 0x09C0 0 else if x.evHatch then ariseAndGone s (keyU 0x09C0) 0 [] else s
  let s := if x.latch then ariseU s 0x0A00 0 else s
  if x.discards = 0 then s else if x.live then ariseU s 0x0A40 0 else ariseAndGone s (keyU 0x0A40) 0 []

theorem readEvents_eq (s : State) : readEvents s = eventFaults s.sealSt { eventEntries s with sealSt := { (eventEntries s).sealSt with
    evHatch := false, evMesh := false, evVbatLow := false, evRestart := false, discards := 0, loadMap := 0 } } := rfl

@[simp] theorem eventEntries_started (s : State) : (eventEntries s).started = s.started := by
  have each {α : Type} (b : α → Bool) (f : State → α → State) (h : ∀ u a, (f u a).started = u.started) (l : List α) (u : State) :
      (l.foldl (fun u a => if b a then f u a else u) u).started = u.started :=
    foldl_keeps State.started _ (fun u a => by split; exacts [h u a, rfl]) l u
  unfold eventEntries
  dsimp only
  rw [each _ _ (fun u a => journalEntry_started _ _), each _ _ (fun u a => journalEntry_started _ _), journalEntry_started]

@[simp] theorem eventFaults_started (x : Seal) (s : State) : (eventFaults x s).started = s.started := by
  have raised (b : Bool) (code : Nat) (h : max (faultRow code).2.1 (faultRow code).1 < 4) (u v : State) (hv : v.started = u.started) :
      (if b then ariseU u code 0 else v).started = u.started := by
    split
    · exact ariseU_started u code 0 h
    · exact hv
  have hatch (u : State) : (if x.evHatch then ariseAndGone u (keyU 0x09C0) 0 [] else u).started = u.started := by
    split
    · exact ariseAndGone_started u (keyU 0x09C0) (by decide) 0 []
    · rfl
  have discards (u : State) : (if x.discards = 0 then u else if x.live then ariseU u 0x0A40 0 else ariseAndGone u (keyU 0x0A40) 0 []).started
      = u.started := by
    split
    · rfl
    · exact raised x.live 0x0A40 (by decide) u _ (ariseAndGone_started u (keyU 0x0A40) (by decide) 0 [])
  unfold eventFaults
  dsimp only
  rw [discards, raised x.latch 0x0A00 (by decide) _ _ rfl, raised x.hatchReported 0x09C0 (by decide) _ _ (hatch _),
    raised x.evRestart 0x0900 (by decide) s s rfl]

@[simp] theorem readEvents_started (s : State) : (readEvents s).started = s.started := by
  rw [readEvents_eq, eventFaults_started]
  exact eventEntries_started s

/-- The strap nibbles are recorded, whatever they were before (R85). -/
theorem compareStraps_started (s : State) :
    (compareStraps s).started = ({ s with nvm := { s.nvm with straps := some s.ident.straps } } : State).started := by
  unfold compareStraps
  dsimp only
  split
  · rfl
  · split
    · rfl
    · rw [ariseU_started _ _ _ (by decide), journalEntry_started]

/-- Of MRAM's records, the straps and the offset alone, which the rest of the check keeps. -/
def State.adopted (s : State) : Power × Ident × Option (List Nat) × Option Int × Time := (s.power, s.ident, s.nvm.straps, s.nvm.utcOffset, s.time)

theorem adopted_of_started {s t : State} (h : t.started = s.started) : t.adopted = s.adopted := by
  simp only [State.started, Prod.mk.injEq] at h
  obtain ⟨hpower, hident, hnvm, htime⟩ := h
  simp only [State.adopted, hpower, hident, hnvm, htime]

/-- The persisted offset comes into use (R325). -/
theorem readNvm_adopted (s : State) (f : JournalFind) :
    (readNvm s f).adopted = (s.power, s.ident, s.nvm.straps, s.nvm.utcOffset, { s.time with utcOffset := s.nvm.utcOffset.getD 37 }) := by
  have hput : (s.nvm.stNum.foldl (fun s p => pubPut s p.1 { pubGet s p.1 with stNum := p.2 }) s).started = s.started := by
    refine foldl_keeps State.started _ (fun _ _ => ?_) _ s
    rfl
  have hadopt (u : State) (h : u.started = s.started) (lack : Option (List Nat)) :
      ({ u with time := { u.time with utcOffset := u.nvm.utcOffset.getD 37 }, nvm := { u.nvm with thetaLack := lack } } : State).adopted
        = (s.power, s.ident, s.nvm.straps, s.nvm.utcOffset, { s.time with utcOffset := s.nvm.utcOffset.getD 37 }) := by
    simp only [State.started, Prod.mk.injEq] at h
    obtain ⟨hpower, hident, hnvm, htime⟩ := h
    simp only [State.adopted, hpower, hident, hnvm, htime]
  exact hadopt _ hput _

@[simp] theorem bankPut_adopted (s : State) (r : Option Rods) : (bankPut s r).adopted = s.adopted := by
  unfold bankPut
  split <;> rfl

@[simp] theorem checkBank_adopted (s : State) (f : JournalFind) : (checkBank s f).adopted = s.adopted := by
  unfold checkBank
  split
  · rfl
  · dsimp only
    rw [apply_ite State.adopted, adopted_of_started (ariseU_started _ 0x1700 0 (by decide)), bankPut_adopted, bankPut_adopted, ite_self]

@[simp] theorem indexPending_started (s : State) : (indexPending s).started = s.started := by
  have body (u : State) (x : Stored) : (indexBody u x).started = u.started := by
    unfold indexBody
    split
    · rw [journalEntry_started]
    · split
      · dsimp only
        rw [journalEntry_started]; rfl
      · rw [journalEntry_started]; rfl
  unfold indexPending
  dsimp only
  rw [foldl_keeps State.started indexBody body]
  rfl

@[simp] theorem journalFaults_started (s : State) : (journalFaults s).started = s.started := by
  unfold journalFaults
  dsimp only
  rw [started_of_records (syncGuarantee_sansRecords _), judgeFault_started _ _ _ _ _ (by decide), judgeFault_started _ _ _ _ _ (by decide)]

/-- What the check makes of the unit while D5 holds MRAM. -/
def mramChecked (s : State) (f : JournalFind) : State :=
  journalFaults (indexPending (checkBank (readNvm (readEvents (compareStraps (startEntry (checkTail s f)))) f) f))

theorem mramChecked_adopted (s : State) (f : JournalFind) : (mramChecked s f).adopted
    = (s.power, s.ident, some s.ident.straps, s.nvm.utcOffset, { s.time with utcOffset := s.nvm.utcOffset.getD 37 }) := by
  have hstraps : (readEvents (compareStraps (startEntry (checkTail s f)))).started
      = ({ s with nvm := { s.nvm with straps := some s.ident.straps } } : State).started := by
    have htail : (startEntry (checkTail s f)).started = s.started := by rw [startEntry_started, checkTail_started]
    rw [readEvents_started, compareStraps_started]
    simp only [State.started, Prod.mk.injEq] at htail ⊢
    obtain ⟨hpower, hident, hnvm, htime⟩ := htail
    exact ⟨hpower, hident, by rw [hnvm, hident], htime⟩
  simp only [State.started, Prod.mk.injEq] at hstraps
  obtain ⟨hpower, hident, hnvm, htime⟩ := hstraps
  unfold mramChecked
  rw [adopted_of_started (journalFaults_started _), adopted_of_started (indexPending_started _), checkBank_adopted, readNvm_adopted,
    hpower, hident, hnvm, htime]

/-- What the check reads of the unit, with D5 or without it (log 141). -/
def journalRead (s : State) (f : JournalFind) : State := if storeOn s then mramChecked s f else readEvents s

theorem journalCheck_eq (s : State) (f : JournalFind) : journalCheck s f =
    if (journalRead (toStep s .plug) f).power.engine == .withdrawn then toStep (journalRead (toStep s .plug) f) .ports
    else journalRead (toStep s .plug) f := rfl

theorem power_of_started {s t : State} (h : t.started = s.started) : t.power = s.power := by
  simp only [State.started, Prod.mk.injEq] at h
  exact h.1

theorem mramChecked_power (s : State) (f : JournalFind) : (mramChecked s f).power = s.power := by
  have h := mramChecked_adopted s f
  simp only [State.adopted, Prod.mk.injEq] at h
  exact h.1

theorem journalRead_power (s : State) (f : JournalFind) : (journalRead s f).power = s.power := by
  unfold journalRead
  split
  · exact mramChecked_power s f
  · exact power_of_started (readEvents_started s)

/-- The engine stays, and the next step is the plug's, or the ports' in a withdrawn unit (Table 3.3). -/
theorem journalCheck_power (s : State) (f : JournalFind) :
    (journalCheck s f).power = { s.power with step := if s.power.engine = .withdrawn then .ports else .plug } := by
  have hread : (journalRead (toStep s .plug) f).power = { s.power with step := .plug } := journalRead_power _ f
  rw [journalCheck_eq]
  generalize journalRead (toStep s .plug) f = u at hread ⊢
  by_cases he : s.power.engine = .withdrawn <;> simp [hread, he, toStep]

/-- While D5 is good the straps are recorded and the persisted offset is in use (R85, R325). -/
theorem journalCheck_adopts {s : State} (h5 : domainGood s 5 = true) (f : JournalFind) :
    (journalCheck s f).nvm.straps = some s.ident.straps ∧ (journalCheck s f).time.utcOffset = s.nvm.utcOffset.getD 37 := by
  have hon : storeOn (toStep s .plug) = true := h5
  have hread := mramChecked_adopted (toStep s .plug) f
  simp only [State.adopted, Prod.mk.injEq] at hread
  obtain ⟨-, -, hstraps, -, htime⟩ := hread
  have hstep (u : State) : (if u.power.engine == .withdrawn then toStep u .ports else u).nvm = u.nvm
      ∧ (if u.power.engine == .withdrawn then toStep u .ports else u).time = u.time := by split <;> exact ⟨rfl, rfl⟩
  rw [journalCheck_eq, (hstep _).1, (hstep _).2, journalRead, if_pos hon, hstraps, htime]
  exact ⟨rfl, rfl⟩

/-! The steps -/

/-- The lane self-test fails: its fault withdraws the unit, which goes on to the journal check (R127, R412). -/
theorem laneTest_fails {s : State} (hrun : coreRuns s = true) (hclear : faultGet s (keyU 0x3100) = none) :
    let t := judgeSummary (ariseU (toStep s .journal) 0x3100 1)
    t.power.step = .journal ∧ t.power.engine = .withdrawn ∧ Reacts t (keyU 0x3100) 4 := by
  have hpower : (ariseU (toStep s .journal) 0x3100 1).power = { s.power with step := .journal, engine := .withdrawn } :=
    arise_withdraws (toStep s .journal) (keyU 0x3100) 1 none16 [] hclear (raiseLevel_row _ _ (by decide) (by decide)) hrun
  intro t
  have ht : t.power = { s.power with step := .journal, engine := .withdrawn } := (judgeSummary_power _).trans hpower
  rw [ht]
  exact ⟨rfl, rfl, reacts_summary_ariseU (toStep s .journal) hclear (by decide) 1⟩

theorem coreRuns_of_atStep {s : State} {t : StartStep} (h : atStep s t = true) : coreRuns s = true := by
  simp only [atStep, Bool.and_eq_true] at h
  exact h.1.1

theorem journalCheck_leaves (s : State) (f : JournalFind) :
    let t := judgeSummary (journalCheck s f)
    t.power.engine = s.power.engine ∧ t.power.step = (if s.power.engine = .withdrawn then .ports else .plug)
      ∧ (domainGood s 5 = true → t.nvm.straps = some s.ident.straps ∧ t.time.utcOffset = s.nvm.utcOffset.getD 37) := by
  intro t
  have hpower : t.power = _ := (judgeSummary_power _).trans (journalCheck_power s f)
  rw [hpower]
  refine ⟨rfl, rfl, fun h5 => ?_⟩
  rw [judgeSummary_nvm, judgeSummary_time]
  exact journalCheck_adopts h5 f

/-- Settles O6: each step acts where it stands, and what it hands on passes its faults, its entries and the summary's judgement. -/
theorem startUpSteps : Obligations.StartUpSteps := by
  unfold Obligations.StartUpSteps
  refine ⟨fun s l hat hwf => ?_, fun s p hat hpass => ?_, fun s p hat hpass hclear => ?_, fun s f hat => ?_⟩
  · refine answers_strapsDecided hat hwf ⟨strapsDecided_ident { s with out := [] } l, ?_, ?_, strapsDecided_pairState { s with out := [] } l,
      strapsDecided_domains { s with out := [] } l⟩
    · exact congrArg Power.step (strapsDecided_power { s with out := [] } l)
    · exact congrArg Power.withheldBy (strapsDecided_power { s with out := [] } l)
  · refine answers_of_guard (execLaneSelfTestDone.eq_def p s) hat ?_
    have hpass' : selfTestPasses { s with out := [] } p = true := hpass
    simp only [hpass', if_true]
    exact judgeSummary_power _
  · refine answers_of_guard (execLaneSelfTestDone.eq_def p s) hat ?_
    have hpass' : selfTestPasses { s with out := [] } p = false := hpass
    simp only [hpass', Bool.false_eq_true, if_false]
    exact laneTest_fails (s := { s with out := [] }) (coreRuns_of_atStep hat) hclear
  · exact answers_of_guard (execJournalCheck.eq_def f s) hat (journalCheck_leaves { s with out := [] } f)

end Sys2Proof.Machine
end

section
/-! Presence of the plug, and what a scan leaves (R61, R62, R142 to R145). -/
namespace Sys2Proof.Machine

/-! Presence -/

/-- D8 is on once it is switched on, and the other domains are as they were. -/
theorem mem_addDomain (l : List Nat) (d x : Nat) : x ∈ addDomain l d ↔ x = d ∨ x ∈ l := by
  unfold addDomain
  simp only [List.mem_append, List.mem_cons, List.mem_filter, decide_eq_true_eq]
  rcases Nat.lt_trichotomy x d with h | h | h
  · simp [h, Nat.ne_of_lt h, Nat.lt_asymm h]
  · simp [h]
  · simp [h, Nat.ne_of_gt h, Nat.lt_asymm h]

theorem frameOn_power (s : State) : 8 ∈ (frameOn s).power.domOn ∧ 8 ∉ (frameOn s).power.domLost
    ∧ ∀ d, d ≠ 8 → (d ∈ (frameOn s).power.domOn ↔ d ∈ s.power.domOn) := by
  refine ⟨(mem_addDomain _ _ _).mpr (.inl rfl), by simp [frameOn], fun d hd => ?_⟩
  exact (mem_addDomain _ _ _).trans (or_iff_right hd)

theorem frameOff_power (s : State) : 8 ∉ (frameOff s).power.domOn := by simp [frameOff]

theorem presenceGained_leaves (s : State) :
    (presenceGained s).plug = { s.plug with present := true, absentMs := 0 }
      ∧ (plugServes s = true → s.plug.present = false → s.plug.scanning = false →
        8 ∈ (presenceGained s).power.domOn ∧ 8 ∉ (presenceGained s).power.domLost) := by
  unfold presenceGained
  dsimp only
  refine ⟨by split <;> rfl, fun hserves habsent hidle => ?_⟩
  rw [if_pos (by simp [hserves, habsent, hidle])]
  exact ⟨(frameOn_power _).1, (frameOn_power _).2.1⟩

/-- A hold that has stopped being valid (R150). -/
def invalidHold (h : Hold) : Hold :=
  match h with
  | .timing _ n => .timing false n
  | h => h

theorem holdInvalid_eq (s : State) : holdInvalid s = { s with plug := { s.plug with hold := invalidHold s.plug.hold } } := by
  unfold holdInvalid
  split
  next n h => rw [h]; rfl
  next hnot =>
    have hsame : invalidHold s.plug.hold = s.plug.hold := by
      unfold invalidHold
      split
      next v n h => exact absurd h (hnot v n)
      next => rfl
    rw [hsame]

/-- The plug found absent, before what ten milliseconds of it bring (R62, R142, R150). -/
def absentSeen (s : State) (broken : Bool) : State :=
  holdInvalid { (if plugServes s && !s.plug.scanning then frameOff s else s) with plug := { s.plug with
    present := false, absentMs := if s.plug.present then 0 else min (s.plug.absentMs + 1) 10
    scanBroken := s.plug.scanBroken || (s.plug.scanning && broken) } }

theorem presenceLost_eq (s : State) (broken : Bool) : presenceLost s broken =
    if (if s.plug.present then 0 else min (s.plug.absentMs + 1) 10) = 10 && plugServes (absentSeen s broken)
      && !faultStands (absentSeen s broken) (keyU 0x1500) then ariseU (absentSeen s broken) 0x1500 0 else absentSeen s broken := by
  have e : (if plugServes s && !s.plug.scanning then frameOff s else s).plug = s.plug := by split <;> rfl
  unfold presenceLost absentSeen
  dsimp only
  rw [e]

theorem absentSeen_plug (s : State) (broken : Bool) : (absentSeen s broken).plug = { s.plug with
    present := false, absentMs := if s.plug.present then 0 else min (s.plug.absentMs + 1) 10, hold := invalidHold s.plug.hold
    scanBroken := s.plug.scanBroken || (s.plug.scanning && broken) } := by
  rw [absentSeen, holdInvalid_eq]

theorem absentSeen_power (s : State) (broken : Bool) :
    (absentSeen s broken).power = (if plugServes s && !s.plug.scanning then frameOff s else s).power := by
  rw [absentSeen, holdInvalid_eq]

theorem absentSeen_faults (s : State) (broken : Bool) : (absentSeen s broken).faults = s.faults := by
  rw [absentSeen, holdInvalid_eq]
  dsimp only
  split <;> rfl

/-- A plug that was present becomes absent: D8 goes off between scans, and an open loop breaks the scan (R142, R143). -/
theorem presenceLost_first {s : State} (h : s.plug.present = true) (broken : Bool) :
    (presenceLost s broken).plug = { s.plug with
        present := false, absentMs := 0, hold := invalidHold s.plug.hold, scanBroken := s.plug.scanBroken || (s.plug.scanning && broken) }
      ∧ (plugServes s = true → s.plug.scanning = false → 8 ∉ (presenceLost s broken).power.domOn) := by
  have he : presenceLost s broken = absentSeen s broken := by
    rw [presenceLost_eq, h]
    rfl
  rw [he, absentSeen_plug, absentSeen_power, h]
  refine ⟨rfl, fun hserves hidle => ?_⟩
  rw [if_pos (by simp [hserves, hidle])]
  exact frameOff_power s

theorem plugServes_absentSeen (s : State) (broken : Bool) : plugServes (absentSeen s broken) = plugServes s := by
  have hpower := absentSeen_power s broken
  unfold plugServes coreRuns
  rw [hpower]
  split <;> rfl

/-- After ten milliseconds of absence the plug is removed (Table 4.6). -/
theorem presenceLost_removed {s : State} (hserves : plugServes s = true) (habsent : s.plug.present = false) (hms : 9 ≤ s.plug.absentMs)
    (hclear : faultGet s (keyU 0x1500) = none) (broken : Bool) :
    (presenceLost s broken).plug.absentMs = 10 ∧ Reacts (presenceLost s broken) (keyU 0x1500) 2 := by
  have hten : min (s.plug.absentMs + 1) 10 = 10 := by omega
  have hclear' : faultGet (absentSeen s broken) (keyU 0x1500) = none :=
    (faultGet_congr (congrArg Faults.recs (absentSeen_faults s broken)) _).trans hclear
  have he : presenceLost s broken = ariseU (absentSeen s broken) 0x1500 0 := by
    rw [presenceLost_eq, plugServes_absentSeen, faultStands_of_clear hclear', habsent]
    exact if_pos (by simp [hserves, hten])
  rw [he]
  refine ⟨?_, reacts_arise_row hclear' (by decide) 0 none16 []⟩
  rw [ariseU, arise_plug _ (keyU 0x1500) 0 none16 [] (by decide), absentSeen_plug, habsent]
  exact hten

theorem presenceCheck_present {s : State} {a b : Option Nat} {l : List Nat} (h : presentNow s a b l = true) :
    presenceCheck s a b l = presenceGained s := if_pos h

theorem presenceCheck_absent {s : State} {a b : Option Nat} {l : List Nat} (h : presentNow s a b l = false) :
    presenceCheck s a b l = presenceLost s (loopOpen a || loopOpen b) := if_neg (by rw [h]; exact Bool.false_ne_true)

/-- PRESENCE_CHECK acts while the core runs, on readings of the hardware. -/
theorem answers_presenceCheck {s : State} {a b : Option Nat} {l : List Nat} {p : State → Prop} (hrun : coreRuns s = true)
    (hwf : WellFormed.presence l = true) (h : p { judgeSummary (presenceCheck { s with out := [] } a b l) with pending := s.pending }) :
    Answers (.presenceCheck a b l) s p :=
  answers_of_runIf (execPresenceCheck.eq_def a b l s) hwf (by
    have hrun' : coreRuns { s with out := [] } = true := hrun
    rw [if_pos hrun']; exact h)

theorem coreRuns_of_plugServes {s : State} (h : plugServes s = true) : coreRuns s = true := by
  simp only [plugServes, Bool.and_eq_true] at h
  exact h.1

/-! Scans -/

/-- What the end of a scan leaves of the reader: records change none of it. -/
def State.readings (s : State) : Power × Bool × Option Rods × Option Image × Option Image :=
  (s.power, s.plug.scanning, s.plug.image, s.plug.last, s.plug.stable)

theorem readings_of_records {s t : State} (h : t.sansRecords = s.sansRecords) : t.readings = s.readings := by
  have e := congrArg State.readings h; exact e

theorem causeGoneU_readings (s : State) (code : Nat) : (causeGoneU s code).readings = s.readings :=
  readings_of_records (causeGoneU_sansRecords s code)

theorem judgeFault_readings (s : State) (k : FaultKey) (det hdl : Nat) (b : Bool) (h : max (faultRow k.code).2.1 (faultRow k.code).1 < 4) :
    (judgeFault s k det hdl b).readings = s.readings := readings_of_records (judgeFault_sansRecords s k det hdl b h)

theorem holdRescan_readings (s : State) (img : Image) : (holdRescan s img).readings = s.readings := by
  unfold holdRescan
  split <;> rfl

theorem comparePlug_readings (s : State) : (comparePlug s).readings = s.readings := by
  unfold comparePlug
  split
  · rfl
  · exact judgeFault_readings s _ _ _ _ (by decide)

theorem stableRead_readings (s : State) (img : Image) :
    (stableRead s img).readings = (s.power, s.plug.scanning, s.plug.image, s.plug.last, some img) := by
  unfold stableRead
  dsimp only
  rw [apply_ite State.readings, causeGoneU_readings, ite_self, comparePlug_readings]
  rfl

/-- A second identical read image is the stable image (R145). -/
theorem rescanned_readings (s : State) (img : Image) : (rescanned s img).readings
    = (s.power, s.plug.scanning, s.plug.image, some img, if s.plug.last = some img then some img else s.plug.stable) := by
  have hold : (holdRescan (causeGoneU { s with plug := { s.plug with mrefRun := 0 } } 0x15C0) img).readings = s.readings :=
    (holdRescan_readings _ _).trans (causeGoneU_readings _ _)
  unfold rescanned
  dsimp only
  generalize holdRescan (causeGoneU { s with plug := { s.plug with mrefRun := 0 } } 0x15C0) img = u at hold ⊢
  have hread : ∀ v : State, v.readings = ({ u with plug := { u.plug with last := some img } } : State).readings →
      (v.power, v.plug.scanning, v.plug.image, v.plug.last, v.plug.stable) = (s.power, s.plug.scanning, s.plug.image, some img, s.plug.stable) := by
    intro v hv
    simp only [State.readings, Prod.mk.injEq] at hv hold ⊢
    obtain ⟨hp, hs, hi, hl, ht⟩ := hv
    obtain ⟨kp, ks, ki, -, kt⟩ := hold
    exact ⟨hp.trans kp, hs.trans ks, hi.trans ki, hl, ht.trans kt⟩
  have hlast : u.plug.last = s.plug.last := congrArg (fun x => x.2.2.2.1) hold
  rw [hlast]
  by_cases hsame : s.plug.last = some img
  · rw [if_pos (by rw [hsame]; exact beq_self_eq_true _), if_pos hsame, stableRead_readings]
    have h := hread _ (causeGoneU_readings _ 0x1580)
    simp only [Prod.mk.injEq] at h ⊢
    obtain ⟨hp, hs, hi, hl, -⟩ := h
    exact ⟨hp, hs, hi, hl, trivial⟩
  · rw [if_neg (by simpa using hsame), if_neg hsame]
    split
    · exact hread _ (judgeFault_readings _ (keyU 0x1580) 0 none16 true (by decide))
    · exact hread _ rfl

/-- The scan is over: D8 goes off, and the reader is idle (R102). -/
def scanOver (s : State) : State := { frameOff s with plug := { s.plug with scanning := false, scanBroken := false } }

theorem scanEnd_eq {s : State} (hserves : plugServes s = true) (r : ScanReadings) : scanEnd s r =
    if s.plug.scanBroken || !s.plug.present then { scanOver s with plug := { (scanOver s).plug with last := none } }
    else if scanMrefBad r then referenceFailed (scanOver s) else rescanned (scanOver s) (imageOf r) := by
  have h : plugServes (scanOver s) = true := hserves
  exact if_neg (show ¬ (!plugServes (scanOver s)) = true by simp [h])

theorem scanOver_plug {s : State} (h : s.plug.scanBroken = false) : (scanOver s).plug = { s.plug with scanning := false } := by
  simp only [scanOver, h]

theorem scanOver_power (s : State) : 8 ∉ (scanOver s).power.domOn := frameOff_power s

/-- A scan that nothing discards leaves its read image (R144, R145). -/
theorem scanEnd_read {s : State} {r : ScanReadings} (hserves : plugServes s = true) (hpresent : s.plug.present = true)
    (hwhole : s.plug.scanBroken = false) (href : scanMrefBad r = false) :
    let t := scanEnd s r
    t.plug.scanning = false ∧ t.plug.last = some (imageOf r) ∧ 8 ∉ t.power.domOn
      ∧ t.plug.stable = (if s.plug.last = some (imageOf r) then some (imageOf r) else s.plug.stable) ∧ t.plug.image = s.plug.image := by
  have he : scanEnd s r = rescanned (scanOver s) (imageOf r) := by
    rw [scanEnd_eq hserves, hpresent, hwhole, href]
    rfl
  have h := rescanned_readings (scanOver s) (imageOf r)
  simp only [State.readings, Prod.mk.injEq] at h
  obtain ⟨hpower, hscanning, himage, hlast, hstable⟩ := h
  rw [he]
  exact ⟨hscanning, hlast, by rw [hpower]; exact scanOver_power s, hstable, himage⟩

/-- A scan that was broken, or whose plug is absent, leaves no read image (R142). -/
theorem scanEnd_broken {s : State} (hserves : plugServes s = true) (h : s.plug.scanBroken = true ∨ s.plug.present = false) (r : ScanReadings) :
    (scanEnd s r).plug = { s.plug with scanning := false, scanBroken := false, last := none } ∧ 8 ∉ (scanEnd s r).power.domOn := by
  rw [scanEnd_eq hserves, if_pos (by simpa using h)]
  exact ⟨rfl, scanOver_power s⟩

/-- A scan whose reference leaves its band is discarded and counted; the third in succession raises the fault (R142, Table 4.6). -/
theorem referenceFailed_leaves (s : State) :
    (referenceFailed s).plug = { s.plug with last := none, mrefRun := s.plug.mrefRun + 1 }
      ∧ (2 ≤ s.plug.mrefRun → faultGet s (keyU 0x15C0) = none → Reacts (referenceFailed s) (keyU 0x15C0) 2) := by
  have kept := congrArg State.plug (judgeFault_sansRecords { s with plug := { s.plug with last := none, mrefRun := s.plug.mrefRun + 1 } }
    (keyU 0x15C0) 0 none16 true (by decide))
  unfold referenceFailed
  dsimp only
  refine ⟨?_, fun hrun hclear => ?_⟩
  · split
    · exact kept
    · rfl
  · rw [if_pos (by omega), judgeFault_clear (by exact hclear)]
    exact reacts_arise_row (by exact hclear) (by decide) 0 none16 []

theorem scanEnd_reference {s : State} {r : ScanReadings} (hserves : plugServes s = true) (hpresent : s.plug.present = true)
    (hwhole : s.plug.scanBroken = false) (href : scanMrefBad r = true) : scanEnd s r = referenceFailed (scanOver s) := by
  rw [scanEnd_eq hserves, hpresent, hwhole, href]
  rfl

/-- Settles O12: a reading gains or loses the plug, a scan begins with D8, and its end takes one of three ways; faults leave what it read. -/
theorem plugReading : Obligations.PlugReading := by
  unfold Obligations.PlugReading
  refine ⟨fun s a b l hrun hwf hnow => ?_, fun s a b l hrun hwf hnow hpresent => ?_, fun s a b l hserves hwf hnow habsent hms hclear => ?_,
    fun s hserves hpresent hidle => ?_, fun s r hserves hpresent hscan hwhole href => ?_, fun s r hserves hscan hbroken => ?_,
    fun s r hserves hpresent hscan hwhole href => ?_⟩
  · refine answers_presenceCheck hrun hwf ?_
    rw [presenceCheck_present (s := { s with out := [] }) hnow]
    obtain ⟨hplug, hon⟩ := presenceGained_leaves { s with out := [] }
    exact ⟨(judgeSummary_plug _).trans hplug, by dsimp only; rw [judgeSummary_power]; exact hon⟩
  · refine answers_presenceCheck hrun hwf ?_
    rw [presenceCheck_absent (s := { s with out := [] }) hnow]
    obtain ⟨hplug, hoff⟩ := presenceLost_first (s := { s with out := [] }) hpresent (loopOpen a || loopOpen b)
    dsimp only
    rw [judgeSummary_plug, judgeSummary_power, holdInvalid_eq s]
    exact ⟨hplug, hoff⟩
  · refine answers_presenceCheck (coreRuns_of_plugServes hserves) hwf ?_
    rw [presenceCheck_absent (s := { s with out := [] }) hnow]
    obtain ⟨hten, hreacts⟩ := presenceLost_removed (s := { s with out := [] }) hserves habsent hms hclear (loopOpen a || loopOpen b)
    exact ⟨(congrArg Plug.absentMs (judgeSummary_plug _)).trans hten, reacts_judgeSummary (by decide) hreacts⟩
  · refine answers_of_guard (b := fun u => plugServes u && u.plug.present && !u.plug.scanning) (execPlugScanStart.eq_def s) ?_ ?_
    · have hserves' : plugServes { s with out := [] } = true := hserves
      simp [hserves', hpresent, hidle]
    · obtain ⟨hon, -, hothers⟩ := frameOn_power { s with out := [] }
      exact ⟨rfl, hon, hothers⟩
  · obtain ⟨hidle, hlast, hoff, hstable, himage⟩ := scanEnd_read (s := { s with out := [] }) hserves hpresent hwhole href
    refine answers_of_guard (b := fun u => u.plug.scanning) (execScanEnd.eq_def r s) hscan ?_
    dsimp only
    rw [judgeSummary_plug, judgeSummary_power]
    exact ⟨hidle, hlast, hoff, hstable, himage⟩
  · obtain ⟨hplug, hoff⟩ := scanEnd_broken (s := { s with out := [] }) hserves hbroken r
    refine answers_of_guard (b := fun u => u.plug.scanning) (execScanEnd.eq_def r s) hscan ?_
    dsimp only
    rw [judgeSummary_plug, judgeSummary_power]
    exact ⟨hplug, hoff⟩
  · obtain ⟨hplug, hreacts⟩ := referenceFailed_leaves (scanOver { s with out := [] })
    refine answers_of_guard (b := fun u => u.plug.scanning) (execScanEnd.eq_def r s) hscan ?_
    rw [scanEnd_reference (s := { s with out := [] }) hserves hpresent hwhole href]
    refine ⟨(judgeSummary_plug _).trans (hplug.trans ?_), fun hrun hclear => reacts_judgeSummary (by decide) (hreacts hrun hclear)⟩
    rw [scanOver_plug (s := { s with out := [] }) hwhole]

end Sys2Proof.Machine
end

section
/-! Retransmissions of a formed pair, which wait for the end of their index (R636, R793). -/
namespace Sys2Proof.Machine

/-- The Active of a formed pair serves, its links down and its process transmit queue full. The first retransmission of zone 0 is due; the
admitted slot 0 has not released the index at whose end it enters the queue. -/
def fullPairQueue : State := { sPair .active with
  ports := {}
  streams := { sv := [(0, anAdmitted)] }
  pub := { pubs := [(0, { stNum := 4, running := true, nth := 1 })], queue := List.replicate 512 (.supervision true 0) } }

theorem fullPairQueue_meets : serving fullPairQueue = true ∧ (pubGet fullPairQueue 0).running = true
    ∧ 512 ≤ fullPairQueue.pub.queue.length := by
  refine ⟨by decide, by decide, ?_⟩
  change 512 ≤ (List.replicate 512 (TxFrame.supervision true 0)).length
  rw [List.length_replicate]

/-- The retransmission waits for the end of its index, and the schedule of its publication stands (R793). -/
theorem fullPairQueue_waits : Answers (.retransmissionDue 0) fullPairQueue (fun t => (pubGet t 0).nth = 1) := ⟨_, rfl, by decide +kernel⟩

/-- Refutes O34: its clause on a full queue moves the schedule of the publication on in every unit that serves, but in a formed pair the
retransmission first waits for the end of its index (R793), with the schedule as it was: in `fullPairQueue`, `nth` is 1 before the command and
after it. -/
theorem not_publicationsCourse : ¬ Obligations.PublicationsCourse := by
  unfold Obligations.PublicationsCourse
  rintro ⟨-, -, -, hfull, -⟩
  obtain ⟨hserving, hrunning, hlength⟩ := fullPairQueue_meets
  obtain ⟨t, -, ⟨hmoved, -⟩, hwaits⟩ := (hfull fullPairQueue 0 hserving (by decide) hrunning hlength).and fullPairQueue_waits
  have hnth : (pubGet t 0).nth = 2 := congrArg Publication.nth hmoved
  exact absurd (hnth.symm.trans hwaits) (by decide)

end Sys2Proof.Machine
end

section
/-! What the frames of the process transmit queue leave of the unit and of its links, as they leave (R43, R220, R252, R793). -/
namespace Sys2Proof.Machine

/-- The unit beyond its ports and beyond what entries and publishing change. -/
def State.sansLinks (s : State) : State := { s.sansReports with ports := {} }

/-- From `s` to `t` frames have at most left: the unit is as it was, every port has its link and its transmitter, and no parity error waits that
did not wait before. -/
structure Transmits (s t : State) : Prop where
  unit : t.sansLinks = s.sansLinks
  link : ∀ p, (portGet t p).up = (portGet s p).up ∧ (portGet t p).txEnabled = (portGet s p).txEnabled
  parity : ∀ p, (portGet s p).txBad = false → (portGet t p).txBad = false

namespace Transmits

variable {s t u : State}

theorem of_get (hunit : t.sansLinks = s.sansLinks) (hget : ∀ p, portGet t p = portGet s p) : Transmits s t :=
  ⟨hunit, fun p => by rw [hget p]; exact ⟨rfl, rfl⟩, fun p h => by rw [hget p]; exact h⟩

/-- What keeps the ports and the frame of reports transmits nothing that a link shows. -/
theorem of_reports (hreports : t.sansReports = s.sansReports) (hports : t.ports = s.ports) : Transmits s t :=
  of_get (congrArg (fun v : State => { v with ports := {} }) hreports) (portGet_congr hports)

theorem refl (s : State) : Transmits s s := of_get rfl (fun _ => rfl)

theorem trans (h : Transmits s t) (k : Transmits t u) : Transmits s u where
  unit := k.unit.trans h.unit
  link p := ⟨(k.link p).1.trans (h.link p).1, (k.link p).2.trans (h.link p).2⟩
  parity p hp := k.parity p (h.parity p hp)

theorem foldl {α : Type} {f : State → α → State} (h : ∀ s x, Transmits s (f s x)) : ∀ (l : List α) (s : State), Transmits s (l.foldl f s)
  | [], s => refl s
  | x :: l, s => (h s x).trans (foldl h l (f s x))

/-- A port is put back with its link, no parity error new. -/
theorem port (s : State) (p : Port) (x : PortSt) (hup : x.up = (portGet s p).up) (htx : x.txEnabled = (portGet s p).txEnabled)
    (hbad : (portGet s p).txBad = false → x.txBad = false) : Transmits s (portPut s p x) where
  unit := by cases p <;> rfl
  link q := by
    rw [portGet_portPut]
    split
    next h => rw [h]; exact ⟨hup, htx⟩
    next => exact ⟨rfl, rfl⟩
  parity q hq := by
    rw [portGet_portPut]
    split
    next h => exact hbad (h ▸ hq)
    next => exact hq

theorem time_eq (h : Transmits s t) : t.time = s.time := by have e := congrArg State.time h.unit; exact e
theorem ident_eq (h : Transmits s t) : t.ident = s.ident := by have e := congrArg State.ident h.unit; exact e
theorem power_eq (h : Transmits s t) : t.power = s.power := by have e := congrArg State.power h.unit; exact e
theorem zones_eq (h : Transmits s t) : t.zones = s.zones := by have e := congrArg State.zones h.unit; exact e
theorem streams_eq (h : Transmits s t) : t.streams = s.streams := by have e := congrArg State.streams h.unit; exact e

end Transmits

open Transmits

theorem tallied_transmits (s : State) (p : Port) (w : Nat) : Transmits s (portTally s p w) := of_get rfl (fun _ => rfl)
theorem emit_transmits (s : State) (o : Output) : Transmits s (emit s o) := of_get rfl (fun _ => rfl)

/-- Something leaves on a port and is counted. -/
theorem left_transmits (s : State) (p : Port) (x : PortSt) (o : Output) (w : Nat) (hup : x.up = (portGet s p).up)
    (htx : x.txEnabled = (portGet s p).txEnabled) (hbad : (portGet s p).txBad = false → x.txBad = false) :
    Transmits s (portTally (emit (portPut s p x) o) p w) :=
  ((port s p x hup htx hbad).trans (emit_transmits _ o)).trans (tallied_transmits _ p w)

theorem sendUnit_transmits (s : State) (p : Port) (o : Output) : Transmits s (sendUnit s p o) := by
  unfold sendUnit
  dsimp only
  split_ifs
  · exact refl s
  · exact left_transmits s p _ _ 14 rfl rfl (fun _ => rfl)
  · exact left_transmits s p _ _ 14 rfl rfl id

theorem sendProcess_transmits (s : State) (frame : List Byte) : Transmits s (sendProcess s frame) := by
  have both (u : State) (f g : List Byte) : Transmits u (sendCopy (sendCopy u .p0 f) .p1 g) :=
    (sendUnit_transmits u _ _).trans (sendUnit_transmits _ _ _)
  have hsr (n : BitVec 16) : Transmits s { s with ports := { s.ports with seqHsr := n } } := of_get rfl (fun p => by cases p <;> rfl)
  have prp (n : BitVec 16) : Transmits s { s with ports := { s.ports with seqProcess := n } } := of_get rfl (fun p => by cases p <;> rfl)
  unfold sendProcess
  dsimp only
  split_ifs
  · exact (hsr _).trans (both _ _ _)
  · exact sendUnit_transmits _ _ _
  · exact (prp _).trans (both _ _ _)

theorem sendPairNode_transmits (s : State) (seq : BitVec 16) (frame : List Byte) : Transmits s (sendPairNode s seq frame) :=
  foldl (fun s _ => sendUnit_transmits s _ _) _ s

theorem readKey_transmits (s : State) (n : Nat) : Transmits s (readKey s n).1 := by
  refine of_reports (readKey_sansReports s n) ?_
  unfold readKey
  split
  · rfl
  · split
    · rfl
    · dsimp only
      rw [keeps_ports (judgeKeys_sansRecords _), keeps_ports (journalEntry_sansRecords _ _)]
      rfl

theorem gooseKey_transmits (s : State) (z : Bool) : Transmits s (gooseKey s z).1 := by
  unfold gooseKey
  split
  · exact refl s
  next n _ =>
    dsimp only
    split <;> exact readKey_transmits s n

theorem hsrAbort_transmits (s : State) (p : Port) : Transmits s (hsrAbort s p) := by
  unfold hsrAbort
  dsimp only
  split
  · exact left_transmits s p _ _ 12 rfl rfl id
  · exact refl s

theorem transmit_transmits (s : State) (f : TxFrame) : Transmits s (transmit s f) := by
  have aborted (u : State) : Transmits u (if isHsr u then hsrAbort (hsrAbort u .p0) .p1 else u) := by
    split
    · exact (hsrAbort_transmits _ _).trans (hsrAbort_transmits _ _)
    · exact refl u
  have process (u : State) (seq : BitVec 16) (frame : List Byte) :
      Transmits u (if isTwin u then sendPairNode u seq frame else sendProcess u frame) := by
    split
    · exact sendPairNode_transmits u seq frame
    · exact sendProcess_transmits u frame
  unfold transmit
  split
  · dsimp only
    split
    · exact (gooseKey_transmits s true).trans (of_reports rfl rfl)
    · exact ((gooseKey_transmits s true).trans (aborted _)).trans (process _ _ _)
  · exact sendPairNode_transmits _ _ _
  · exact sendProcess_transmits _ _

theorem refill_transmits (s : State) : Transmits s (refill s) := by
  have number (u : State) (f : TxFrame) : Transmits u (numbered u f).1 := by
    refine of_get (congrArg (fun v : State => { v with ports := {} }) (numbered_sansReports u f)) (fun p => ?_)
    unfold numbered
    split
    · dsimp only
      split <;> cases p <;> rfl
    · rfl
  unfold refill
  split
  · exact refl s
  next f rest _ =>
    have taken : Transmits s { s with pub := { s.pub with waiting := rest } } := of_reports rfl rfl
    split
    · exact (taken.trans (number _ f)).trans (of_reports rfl rfl)
    · exact refl s

theorem transmitNext_transmits (s : State) : Transmits s (transmitNext s) := by
  unfold transmitNext
  split
  · exact refl s
  next f rest _ =>
    have taken : Transmits s { s with pub := { s.pub with queue := rest } } := of_reports rfl rfl
    exact (taken.trans (refill_transmits _)).trans (transmit_transmits _ f)

/-- Every frame that may leave has left (R252). -/
theorem transmitReady_transmits (s : State) : Transmits s (transmitReady s) := by
  have all : ∀ (n : Nat) (s : State), Transmits s (transmitAll n s) := by
    intro n
    induction n with
    | zero => exact refl
    | succ n ih =>
      intro s
      unfold transmitAll
      split
      · exact refl s
      · exact (transmitNext_transmits s).trans (ih _)
  exact all _ s

end Sys2Proof.Machine
end

section
/-! The peer-delay exchange of a port (R309, R310, R314). -/
namespace Sys2Proof.Machine

/-! The exchange through the time block's judgements -/

theorem ptpGet_congr {s t : State} (h : t.time = s.time) (b : Bool) : ptpGet t b = ptpGet s b := by
  unfold ptpGet; rw [h]

theorem ptpGet_of_records {s t : State} (h : t.sansRecords = s.sansRecords) (b : Bool) : ptpGet t b = ptpGet s b :=
  ptpGet_congr (keeps_time (sansSettled_records h)) b

theorem enterTime_ptpGet (s : State) (x : TimeState) (b : Bool) : ptpGet (enterTime s x) b = ptpGet s b := by
  have gone (l : List Nat) (u : State) : ptpGet (l.foldl causeGoneU u) b = ptpGet u b :=
    foldl_keeps (ptpGet · b) causeGoneU (fun u c => ptpGet_of_records (causeGoneU_sansRecords u c) b) l u
  have raised (u : State) (code : Nat) (h : max (faultRow code).2.1 (faultRow code).1 < 4) : ptpGet (ariseU u code 0) b = ptpGet u b :=
    ptpGet_of_records (arise_sansRecords u (keyU code) 0 none16 [] h) b
  unfold enterTime
  split
  · rfl
  · cases x with
    | locked => exact gone _ _
    | tracking => exact gone _ _
    | holdover => exact raised _ _ (by decide)
    | freeRunning => exact raised _ _ (by decide)
    | unsynchronised => rfl
    | acquiring => rfl

/-- A selection leaves what the ports have of their exchanges. -/
theorem reselect_ptpGet (s : State) (b : Bool) : ptpGet (reselect s) b = ptpGet s b := by
  have lost (u : State) : ptpGet (loseMaster u) b = ptpGet u b := by
    unfold loseMaster
    split
    · split <;> exact enterTime_ptpGet u _ b
    · exact enterTime_ptpGet u _ b
    · exact enterTime_ptpGet u _ b
    · rfl
  have offset (u : State) (m : PtpAnnounce) : ptpGet (takeOffset u m) b = ptpGet u b := by
    unfold takeOffset
    split <;> rfl
  have class_ (u : State) (m : PtpAnnounce) : ptpGet (takeClass u m) b = ptpGet u b := by
    unfold takeClass
    split
    · split
      · exact enterTime_ptpGet u _ b
      · rfl
    · split
      · exact enterTime_ptpGet u _ b
      · rfl
    · rfl
  have lans : ptpGet (lanSplit s) b = ptpGet s b := by
    unfold lanSplit
    split <;> rfl
  unfold reselect
  dsimp only
  split
  · exact lans
  · split
    · exact (lost _).trans lans
    · exact ((class_ _ _).trans (offset _ _)).trans lans
    · exact lans

theorem withTwin_ptpGet (f : State → State) (s : State) (b : Bool) : ptpGet (withTwin f s) b = ptpGet (f s) b := by
  have e := congrArg State.time (withTwin_frame f s)
  exact ptpGet_congr e b

/-- A port's exchange, without the time since which it has no valid delay (Table 8.7). -/
def PtpPort.exchange (t : PtpPort) : PtpPort := { t with noDelaySince := none }

theorem fields_of_exchange {x y : PtpPort} (h : x.exchange = y.exchange) :
    x.reqSeq = y.reqSeq ∧ x.t1 = y.t1 ∧ x.responders = y.responders ∧ x.resp = y.resp ∧ x.outstanding = y.outstanding
      ∧ x.delays = y.delays ∧ x.completed = y.completed ∧ x.soleNeeded = y.soleNeeded := by
  simp only [PtpPort.exchange, PtpPort.mk.injEq] at h
  simp only [h, and_self]

theorem judgeDelay_exchange (s : State) (p1 : Bool) (p : Port) (b : Bool) :
    (ptpGet (judgeDelay s p1 p) b).exchange = (ptpGet s b).exchange := by
  have put (n : Option Nat) : (ptpGet (ptpPut s p1 { ptpGet s p1 with noDelaySince := n }) b).exchange = (ptpGet s b).exchange := by
    rw [ptpGet_ptpPut]
    split
    next h => rw [h]; rfl
    next => rfl
  unfold judgeDelay
  dsimp only
  split
  · split
    · exact put _
    · split
      · rw [ptpGet_of_records (arise_sansRecords _ _ _ _ _ (by dsimp only; decide))]
      · rfl
  · split
    · rw [ptpGet_of_records (causeGone_sansRecords _ _)]
      exact put _
    · exact put _

/-- The conditions of Table 8.7 that rest on elapsed time, in their order. -/
def elapsedFaults (s : State) (unsynchronised tracking oven : State → Bool) : State :=
  let raise := fun (s : State) (b : State → Bool) (code : Nat) => if b s then ariseU s code 0 else s
  raise (raise (raise s unsynchronised 0x0D00) tracking 0x0DC0) oven 0x0EC0

theorem timeFaults_eq (s : State) : ∃ a b c, timeFaults s =
    [false, true].foldl (fun u p1 => judgeDelay u p1 (if p1 then .p1 else .p0)) (elapsedFaults s a b c) :=
  ⟨fun s => (s.time.state = .unsynchronised || s.time.state = .acquiring) && serving s
      && 60 * ticksPerSec ≤ s.now - s.time.servingAt && !s.time.settled && !faultStands s (keyU 0x0D00),
    fun s => s.time.state = .tracking && 60 * ticksPerSec ≤ s.now - s.time.trackingAt && !faultStands s (keyU 0x0DC0),
    fun s => !s.time.ovenWas && 600 * ticksPerSec ≤ s.now - s.power.vinGoodAt && !faultStands s (keyU 0x0EC0), rfl⟩

theorem elapsedFaults_keeps (s : State) (a b c : State → Bool) :
    (elapsedFaults s a b c).sansRecords = s.sansRecords ∧ Sends s (elapsedFaults s a b c) := by
  have raise (u : State) (x : State → Bool) (code : Nat) (h : max (faultRow code).2.1 (faultRow code).1 < 4) :
      (if x u then ariseU u code 0 else u).sansRecords = u.sansRecords ∧ Sends u (if x u then ariseU u code 0 else u) := by
    split
    · exact ⟨arise_sansRecords u (keyU code) 0 none16 [] h, arise_sends u (keyU code) 0 none16 [] h⟩
    · exact ⟨rfl, Sends.refl u⟩
  obtain ⟨hk1, hs1⟩ := raise s a 0x0D00 (by decide)
  obtain ⟨hk2, hs2⟩ := raise _ b 0x0DC0 (by decide)
  obtain ⟨hk3, hs3⟩ := raise _ c 0x0EC0 (by decide)
  exact ⟨hk3.trans (hk2.trans hk1), (hs1.trans hs2).trans hs3⟩

theorem judgeDelay_sends (s : State) (p1 : Bool) (p : Port) : Sends s (judgeDelay s p1 p) := by
  have put (n : Option Nat) : Sends s (ptpPut s p1 { ptpGet s p1 with noDelaySince := n }) := Sends.of_wire (by cases p1 <;> rfl)
  unfold judgeDelay
  dsimp only
  split
  · split
    · exact put _
    · split
      · exact arise_sends s _ _ _ _ (by dsimp only; decide)
      · exact Sends.refl s
  · split
    · exact (put none).trans (causeGone_sends _ _)
    · exact put none

/-- What the time block's judgements leave of the exchanges, and of what has left the block. -/
theorem timeFaults_keeps (s : State) : (∀ b, (ptpGet (timeFaults s) b).exchange = (ptpGet s b).exchange) ∧ Sends s (timeFaults s) := by
  obtain ⟨x, y, z, he⟩ := timeFaults_eq s
  obtain ⟨hkeeps, hsends⟩ := elapsedFaults_keeps s x y z
  rw [he]
  refine ⟨fun b => ?_, hsends.trans (Sends.foldl (fun u p1 => judgeDelay_sends u p1 _) _ _)⟩
  rw [foldl_keeps (fun u => (ptpGet u b).exchange) _ (fun u p1 => judgeDelay_exchange u p1 _ b), ptpGet_of_records hkeeps]

/-- A command of the time block that can stop the TWIN slot, with the judgements that follow it. -/
def timeSettled (f : State → State) (s : State) : State := timeFaults (withTwin f s)

theorem timeSettled_exchange (f : State → State) (s : State) (b : Bool) : (ptpGet (timeSettled f s) b).exchange = (ptpGet (f s) b).exchange :=
  ((timeFaults_keeps _).1 b).trans (congrArg PtpPort.exchange (withTwin_ptpGet f s b))

theorem timeSettled_out (f : State → State) (s : State) {o : Output} (h : o ∈ (f s).out) : o ∈ (timeSettled f s).out :=
  (timeFaults_keeps _).2.out o (withTwin_sends.out o h)

/-! Messages that leave -/

/-- A message of the exchange as the unit sends it (R222, R309, R310). -/
def pdelayMessage (s : State) (p1 : Bool) (kind : Nat) (seq : BitVec 16) (stamp : Int) (req : Option PortId) : PtpOut :=
  { messageType := kind, dst := 0x0180C200000E, src := BitVec.ofNat 48 (processMac s), stamp := stamp, requesting := req
    hdr := { version := 2, domain := ptpDomain s, src := ownPortId s p1, seq := seq } }

theorem sendPtp_eq (s : State) (p : Port) (p1 : Bool) (kind : Nat) (seq : BitVec 16) (stamp : Int) (req : Option PortId) :
    sendPtp s p p1 kind seq stamp req = sendUnit s p (.ptp p (pdelayMessage s p1 kind seq stamp req)) := rfl

/-- Addresses, domain and port identity follow from the identity of the unit alone (R73, R75, R309). -/
theorem pdelayMessage_congr {s t : State} (h : t.ident = s.ident) (p1 : Bool) (kind : Nat) (seq : BitVec 16) (stamp : Int) (req : Option PortId) :
    pdelayMessage t p1 kind seq stamp req = pdelayMessage s p1 kind seq stamp req := by
  have hreads : pdelayMessage t p1 kind seq stamp req = pdelayMessage { s with ident := t.ident } p1 kind seq stamp req := rfl
  rw [hreads, h]

theorem txStamp_congr {s t : State} (h : t.time = s.time) (p : Port) : txStamp t p = txStamp s p := by
  simp only [txStamp, stampValue, h]

theorem canSend_congr {s t : State} {p : Port} (hident : t.ident = s.ident) (hpower : t.power = s.power)
    (hlink : (portGet t p).up = (portGet s p).up ∧ (portGet t p).txEnabled = (portGet s p).txEnabled) : canSend t p = canSend s p := by
  simp only [canSend, hlink.1, hlink.2, portInUse_congr hident p, domainGood, hpower]

theorem canSend_transmits {s t : State} (h : Transmits s t) (p : Port) : canSend t p = canSend s p :=
  canSend_congr h.ident_eq h.power_eq (h.link p)

/-- What is sent on a port that can send, no parity error waiting there, has left (R43, R220). -/
theorem sendUnit_out {s : State} {p : Port} (hcan : canSend s p = true) (hgood : (portGet s p).txBad = false) (o : Output) :
    o ∈ (sendUnit s p o).out := by
  unfold sendUnit
  simp only [hcan, hgood, Bool.not_true, Bool.false_eq_true, if_false]
  exact List.mem_append_right _ List.mem_cons_self

/-! A request (R310, R314) -/

/-- A port once a request of its own has left at a time. -/
def requested (t : PtpPort) (stamp : Int) : PtpPort :=
  { closeRequest t with reqSeq := t.reqSeq + 1, t1 := stamp, responders := [], resp := none, outstanding := true }

theorem sendPdelayReq_eq (s : State) (p : Port) (p1 : Bool) : sendPdelayReq s p p1 =
    sendUnit (reselect (ptpPut (transmitReady s) p1 (requested (ptpGet (transmitReady s) p1) (txStamp (transmitReady s) p)))) p
      (.ptp p (pdelayMessage (reselect (ptpPut (transmitReady s) p1 (requested (ptpGet (transmitReady s) p1) (txStamp (transmitReady s) p)))) p1 2
        ((ptpGet (transmitReady s) p1).reqSeq + 1) 0 none)) := rfl

/-- A selection leaves identity, supplies and ports. -/
theorem reselect_unit (s : State) : (reselect s).ident = s.ident ∧ (reselect s).power = s.power ∧ (reselect s).ports = s.ports := by
  have e := reselect_beyondTime s
  have hident := congrArg (fun v => v.1.ident) e
  have hpower := congrArg (fun v => v.1.power) e
  have hports := congrArg (fun v => v.1.ports) e
  exact ⟨hident, hpower, hports⟩

theorem sendPdelayReq_port (s : State) (p : Port) (p1 : Bool) : ptpGet (sendPdelayReq s p p1) p1 = requested (ptpGet s p1) (txStamp s p) := by
  have hready := transmitReady_transmits s
  rw [sendPdelayReq_eq, ptpGet_congr (sendUnit_transmits _ _ _).time_eq, reselect_ptpGet, ptpGet_ptpPut, if_pos rfl, ptpGet_congr hready.time_eq,
    txStamp_congr hready.time_eq]

theorem sendPdelayReq_out {s : State} {p : Port} (p1 : Bool) (hcan : canSend s p = true) (hgood : (portGet s p).txBad = false) :
    .ptp p (pdelayMessage s p1 2 ((ptpGet s p1).reqSeq + 1) 0 none) ∈ (sendPdelayReq s p p1).out := by
  have hready := transmitReady_transmits s
  rw [sendPdelayReq_eq]
  generalize hu : ptpPut (transmitReady s) p1 _ = u
  obtain ⟨hident, hpower, hports⟩ := reselect_unit u
  have hput : u.ident = (transmitReady s).ident ∧ u.power = (transmitReady s).power ∧ u.ports = (transmitReady s).ports := by
    rw [← hu]
    exact ⟨ptpPut_ident _ _ _, ptpPut_power _ _ _, ptpPut_ports _ _ _⟩
  have hget : portGet (reselect u) p = portGet (transmitReady s) p := portGet_congr (hports.trans hput.2.2) p
  rw [pdelayMessage_congr ((hident.trans hput.1).trans hready.ident_eq), ptpGet_congr hready.time_eq]
  refine sendUnit_out ?_ ?_ _
  · rw [canSend_congr (hident.trans hput.1) (hpower.trans hput.2.1) (by rw [hget]; exact ⟨rfl, rfl⟩), canSend_transmits hready]
    exact hcan
  · rw [hget]
    exact hready.parity p hgood

/-! An answer (R310) -/

theorem answerPdelayReq_eq (s : State) (p : Port) (p1 : Bool) (h : PtpHdr) (rx : Nat) : answerPdelayReq s p p1 h rx =
    sendPtp (sendPtp (transmitReady s) p p1 3 h.seq (rxStamp p rx) (some h.src)) p p1 10 h.seq (txStamp (transmitReady s) p) (some h.src) := rfl

theorem answerPdelayReq_transmits (s : State) (p : Port) (p1 : Bool) (h : PtpHdr) (rx : Nat) : Transmits s (answerPdelayReq s p p1 h rx) :=
  ((transmitReady_transmits s).trans (sendUnit_transmits _ _ _)).trans (sendUnit_transmits _ _ _)

/-- Response and follow-up leave with the receive and the send time. -/
theorem answerPdelayReq_out {s : State} {p : Port} (p1 : Bool) (h : PtpHdr) (rx : Nat) (hcan : canSend s p = true)
    (hgood : (portGet s p).txBad = false) :
    .ptp p (pdelayMessage s p1 3 h.seq (rxStamp p rx) (some h.src)) ∈ (answerPdelayReq s p p1 h rx).out
      ∧ .ptp p (pdelayMessage s p1 10 h.seq (txStamp s p) (some h.src)) ∈ (answerPdelayReq s p p1 h rx).out := by
  have hready := transmitReady_transmits s
  have hfirst : .ptp p (pdelayMessage s p1 3 h.seq (rxStamp p rx) (some h.src))
      ∈ (sendPtp (transmitReady s) p p1 3 h.seq (rxStamp p rx) (some h.src)).out := by
    rw [sendPtp_eq, pdelayMessage_congr hready.ident_eq]
    exact sendUnit_out ((canSend_transmits hready p).trans hcan) (hready.parity p hgood) _
  have hboth : Transmits s (sendPtp (transmitReady s) p p1 3 h.seq (rxStamp p rx) (some h.src)) := hready.trans (sendUnit_transmits _ _ _)
  rw [answerPdelayReq_eq, txStamp_congr hready.time_eq]
  generalize sendPtp (transmitReady s) p p1 3 h.seq (rxStamp p rx) (some h.src) = u at hfirst hboth ⊢
  rw [sendPtp_eq, pdelayMessage_congr hboth.ident_eq]
  exact ⟨(sendUnit_sends _ _ _).out _ hfirst, sendUnit_out ((canSend_transmits hboth p).trans hcan) (hboth.parity p hgood) _⟩

/-! Responses (R314) -/

/-- A port to whose request a first responder has answered. -/
theorem pdelayResponse_first {s : State} {p1 : Bool} {m : PtpPdelay} (hseq : (ptpGet s p1).reqSeq = m.hdr.seq) (hresp : (ptpGet s p1).resp = none)
    (hnone : (ptpGet s p1).responders = []) :
    ptpGet (pdelayResponse s p1 m) p1 = { ptpGet s p1 with responders := [m.hdr.src], resp := some m } := by
  unfold pdelayResponse
  dsimp only
  rw [if_neg (by simp [hseq]), reselect_ptpGet, ptpGet_ptpPut, if_pos rfl]
  simp [hnone, hresp]

/-- A second responder needs three sole ones after it before the delay is valid again. -/
theorem pdelayResponse_second {s : State} {p1 : Bool} {m : PtpPdelay} {q : PortId} (hseq : (ptpGet s p1).reqSeq = m.hdr.seq)
    (hone : (ptpGet s p1).responders = [q]) (hother : q ≠ m.hdr.src) :
    (ptpGet (pdelayResponse s p1 m) p1).responders = [q, m.hdr.src] ∧ (ptpGet (pdelayResponse s p1 m) p1).soleNeeded = 3 := by
  unfold pdelayResponse
  dsimp only
  rw [if_neg (by simp [hseq]), reselect_ptpGet, ptpGet_ptpPut, if_pos rfl]
  simp [hone, Ne.symm hother]

/-- A response and its follow-up give the link delay of their port (R314). -/
theorem pdelayDone_ports {s : State} {p1 : Bool} {r m : PtpPdelay} (p : Port) (hresp : (ptpGet s p1).resp = some r)
    (hout : (ptpGet s p1).outstanding = true) (hseq : r.hdr.seq = m.hdr.seq) (hsrc : r.hdr.src = m.hdr.src) (b : Bool) :
    ptpGet (pdelayDone s p p1 m) b = if b = p1 then { ptpGet s p1 with
      delays := (halve ((rxStamp p r.rx - (ptpGet s p1).t1) - (m.stamp - r.stamp) - r.correction - m.correction) :: (ptpGet s p1).delays).take 5
      completed := (true :: (ptpGet s p1).completed).take 3, outstanding := false }
    else ptpGet s b := by
  unfold pdelayDone
  simp only [hresp, hout, hseq, hsrc, decide_true, Bool.and_true, if_true]
  rw [reselect_ptpGet, ptpGet_ptpPut]

/-! The commands -/

theorem Answers.imp {c : Instr} {s : State} {p q : State → Prop} (h : Answers c s p) (hpq : ∀ t, p t → q t) : Answers c s q := by
  obtain ⟨t, ht, hp⟩ := h
  exact ⟨t, ht, hpq t hp⟩

/-- A request leaves a port that can send, and the port waits for its responders. -/
theorem answers_pdelayReqSend {s : State} {p : Port} {p1 : Bool} (hport : ptpPort? p = some p1) (hrun : clockRuns s = true)
    (hcan : canSend s p = true) : Answers (.pdelayReqSend p) s (fun t =>
      (ptpGet t p1).exchange = (requested (ptpGet s p1) (txStamp s p)).exchange
        ∧ ((portGet s p).txBad = false → .ptp p (pdelayMessage s p1 2 ((ptpGet s p1).reqSeq + 1) 0 none) ∈ t.out)) := by
  have hguard : (clockRuns { s with out := [] } && canSend { s with out := [] } p) = true := Bool.and_eq_true _ _ ▸ ⟨hrun, hcan⟩
  have hkept := timeSettled_exchange (fun u => sendPdelayReq u p p1) { s with out := [] } p1
  rw [sendPdelayReq_port] at hkept
  refine answers_of_run (execPdelayReqSend.eq_def p s) ?_
  simp only [hport, hguard, if_true]
  exact ⟨hkept, fun hgood => timeSettled_out _ _ (sendPdelayReq_out (s := { s with out := [] }) p1 hcan hgood)⟩

/-- A message that R310 accepts, on a port that delivers, is used. -/
theorem ptpReceive_accepted {f : Bool → State → State} {q : Port} {p1 : Bool} {h : PtpHdr} {s : State} (hport : ptpPort? q = some p1)
    (hrun : clockRuns s = true) (hopen : rxOpen s q = true) (hacc : ptpAccepted s h = true) : ptpReceive f q h s = f p1 s := by
  simp [ptpReceive, hport, hrun, hopen, hacc]

/-- A message that R310 refuses is tallied alone. -/
theorem ptpReceive_refused {f : Bool → State → State} {q : Port} {p1 : Bool} {h : PtpHdr} {s : State} (hport : ptpPort? q = some p1)
    (hrun : clockRuns s = true) (hopen : rxOpen s q = true) (hacc : ptpAccepted s h = false) : ptpReceive f q h s = ptpDiscard s p1 := by
  simp [ptpReceive, hport, hrun, hopen, hacc]

/-- A command that receives an accepted message completes with its use. -/
theorem answers_ptpReceive {c : Instr} {s : State} {f : Bool → State → State} {q : Port} {p1 : Bool} {h : PtpHdr} {p : State → Prop}
    (he : exec c s = run (ptpReceive f q h) s) (hport : ptpPort? q = some p1) (hrun : clockRuns s = true) (hopen : rxOpen s q = true)
    (hacc : ptpAccepted s h = true) (hp : p { f p1 { s with out := [] } with pending := s.pending }) : Answers c s p :=
  answers_of_run he (by rw [ptpReceive_accepted (s := { s with out := [] }) hport hrun hopen hacc]; exact hp)

/-- A received message leaves the ports' exchanges as its use makes them, whatever the time block judges after it. -/
theorem answers_exchange {c : Instr} {s : State} {g : Bool → State → State} {q : Port} {p1 : Bool} {h : PtpHdr}
    (he : exec c s = run (ptpReceive (fun p1 u => timeSettled (g p1) u) q h) s) (hport : ptpPort? q = some p1) (hrun : clockRuns s = true)
    (hopen : rxOpen s q = true) (hacc : ptpAccepted s h = true) :
    Answers c s (fun t => ∀ b, (ptpGet t b).exchange = (ptpGet (g p1 { s with out := [] }) b).exchange) :=
  answers_ptpReceive he hport hrun hopen hacc (timeSettled_exchange (g p1) { s with out := [] })

theorem answers_pdelayResp {s : State} {p : Port} {p1 : Bool} {m : PtpPdelay} (hport : ptpPort? p = some p1) (hrun : clockRuns s = true)
    (hopen : rxOpen s p = true) (hacc : ptpAccepted s m.hdr = true) :
    Answers (.pdelayResp p m) s (fun t => ∀ b, (ptpGet t b).exchange = (ptpGet (pdelayResponse { s with out := [] } p1 m) b).exchange) :=
  answers_exchange (g := fun p1 u => pdelayResponse u p1 m) (execPdelayResp.eq_def p m s) hport hrun hopen hacc

theorem answers_pdelayRespFollowUp {s : State} {p : Port} {p1 : Bool} {m : PtpPdelay} (hport : ptpPort? p = some p1) (hrun : clockRuns s = true)
    (hopen : rxOpen s p = true) (hacc : ptpAccepted s m.hdr = true) :
    Answers (.pdelayRespFollowUp p m) s (fun t => ∀ b, (ptpGet t b).exchange = (ptpGet (pdelayDone { s with out := [] } p p1 m) b).exchange) :=
  answers_exchange (g := fun p1 u => pdelayDone u p p1 m) (execPdelayRespFollowUp.eq_def p m s) hport hrun hopen hacc

/-- Settles O22: each message changes its port's exchange once, and what the time block judges after it leaves the exchange and what has left. -/
theorem peerDelay : Obligations.PeerDelay := by
  unfold Obligations.PeerDelay
  intro msg
  have hmsg : msg = pdelayMessage := rfl
  rw [hmsg]
  refine ⟨fun s p p1 hport hrun hcan => ?_, fun s p p1 h rx half hport hrun hopen => ⟨fun hacc hcan hgood => ?_, fun hacc => ?_⟩,
    fun s p p1 m hport hrun hopen hacc hseq => ⟨fun hresp hnone => ?_, fun q hone hother => ?_⟩,
    fun s p p1 m r hport hrun hopen hacc hresp hout hseq hsrc => ?_, fun s p p1 hport hopen => ?_⟩
  · refine (answers_pdelayReqSend hport hrun hcan).imp (fun t ht => ?_)
    obtain ⟨hkept, hleft⟩ := ht
    obtain ⟨hseq, ht1, hresponders, hresp, hout, -⟩ := fields_of_exchange hkept
    exact ⟨hseq, ht1, hresponders, hresp, hout, hleft⟩
  · have hleft := answerPdelayReq_transmits { s with out := [] } p p1 h (2 * rx + (if half then 1 else 0))
    obtain ⟨hresponse, hfollow⟩ := answerPdelayReq_out (s := { s with out := [] }) p1 h (2 * rx + (if half then 1 else 0)) hcan hgood
    exact answers_ptpReceive (execPdelayReq.eq_def p h rx half s) hport hrun hopen hacc
      ⟨hresponse, hfollow, hleft.time_eq, hleft.zones_eq, hleft.streams_eq⟩
  · refine answers_of_run (execPdelayReq.eq_def p h rx half s) ?_
    rw [ptpReceive_refused (s := { s with out := [] }) hport hrun hopen hacc]
    rfl
  · refine (answers_pdelayResp hport hrun hopen hacc).imp (fun t ht => ?_)
    have hkept := (ht p1).trans (congrArg PtpPort.exchange (pdelayResponse_first (s := { s with out := [] }) hseq hresp hnone))
    obtain ⟨-, -, hresponders, hresponse, -, hdelays, -⟩ := fields_of_exchange hkept
    exact ⟨hresponders, hresponse, hdelays⟩
  · refine (answers_pdelayResp hport hrun hopen hacc).imp (fun t ht => ?_)
    obtain ⟨htwo, hsole⟩ := pdelayResponse_second (s := { s with out := [] }) hseq hone hother
    obtain ⟨-, -, hresponders, -, -, -, -, hneeded⟩ := fields_of_exchange (ht p1)
    refine ⟨hresponders.trans htwo, ?_⟩
    simp [delayValid, hneeded.trans hsole]
  · refine (answers_pdelayRespFollowUp hport hrun hopen hacc).imp (fun t ht => ?_)
    have hports (b : Bool) := (ht b).trans
      (congrArg PtpPort.exchange (pdelayDone_ports (s := { s with out := [] }) p hresp hout hseq hsrc b))
    have hkept := hports p1
    have hothers := hports (!p1)
    rw [if_pos rfl] at hkept
    rw [if_neg (by cases p1 <;> decide)] at hothers
    obtain ⟨-, -, -, -, hdone, hdelays, hcompleted, -⟩ := fields_of_exchange hkept
    obtain ⟨-, -, -, -, -, hsame, -⟩ := fields_of_exchange hothers
    exact ⟨hdelays, hcompleted, hdone, hsame⟩
  · refine answers_of_run (execPtpDiscarded.eq_def p s) ?_
    have hopen' : rxOpen { s with out := [] } p = true := hopen
    simp only [hport, hopen', if_true]
    rfl

end Sys2Proof.Machine
end

section
/-! Channels of a field group: all of them changed at once, opened, and what of the unit stays (R97, R100, R122, R575, R577). -/
namespace Sys2Proof.Machine

/-! The channels -/

/-- Channels written one after the other: each is its own, once. -/
theorem chGet_foldl_chPut (f : Nat → Channel → Channel) (cc : Nat) : ∀ (l : List Nat) (s : State), l.Nodup →
    chGet (l.foldl (fun s x => chPut s x (f x (chGet s x))) s) cc = if cc ∈ l then f cc (chGet s cc) else chGet s cc
  | [], s, _ => by simp
  | x :: l, s, h => by
    obtain ⟨hx, hl⟩ := List.nodup_cons.mp h
    rw [List.foldl_cons, chGet_foldl_chPut f cc l _ hl, chGet_chPut]
    by_cases hc : cc = x
    · simp [hc, hx]
    · simp [hc]

theorem groupChannels_nodup (g : Group) : (groupChannels g).Nodup := by cases g <;> decide

theorem chGet_mapGroup {g : Group} {cc : Nat} (h : cc ∈ groupChannels g) (s : State) (f : Nat → Channel → Channel) :
    chGet (mapGroup s g f) cc = f cc (chGet s cc) := by
  rw [mapGroup, chGet_foldl_chPut f cc _ s (groupChannels_nodup g), if_pos h]

@[simp] theorem chGet_groupPut (s : State) (g : Group) (x : GroupSt) (cc : Nat) : chGet (groupPut s g x) cc = chGet s cc := by cases g <;> rfl

theorem chGet_congr {s t : State} (h : t.field = s.field) (cc : Nat) : chGet t cc = chGet s cc := by unfold chGet; rw [h]

theorem groupGet_congr {s t : State} (h : t.field = s.field) (g : Group) : groupGet t g = groupGet s g := by cases g <;> simp [groupGet, h]

theorem mapGroup_power (s : State) (g : Group) (f : Nat → Channel → Channel) : (mapGroup s g f).power = s.power := by
  rw [mapGroup, foldl_keeps State.power _ (fun _ _ => by rw [chPut])]

theorem mapGroup_faults (s : State) (g : Group) (f : Nat → Channel → Channel) : (mapGroup s g f).faults = s.faults := by
  rw [mapGroup, foldl_keeps State.faults _ (fun _ _ => by rw [chPut])]

/-! Outputs that open -/

theorem chGet_openOutput (s : State) (o : Nat) (slow : Bool) (cc : Nat) : chGet (openOutput s o slow) cc =
    if cc = o ∧ (chGet s o).on = true then { chGet s o with on := false, demag := some slow, pwm := 0 } else chGet s cc := by
  unfold openOutput
  dsimp only
  by_cases hon : (chGet s o).on = true <;> simp [hon]

/-- An output is open once it has been opened, and stays open while others open. -/
theorem openOutput_on {s : State} {o cc : Nat} (slow : Bool) (h : cc = o ∨ (chGet s cc).on = false) : (chGet (openOutput s o slow) cc).on = false := by
  rw [chGet_openOutput]
  split
  · rfl
  next hnot =>
    rcases h with rfl | h
    · simpa using hnot
    · exact h

@[simp] theorem openOutput_power (s : State) (o : Nat) (slow : Bool) : (openOutput s o slow).power = s.power := by
  unfold openOutput; dsimp only; split <;> rfl

@[simp] theorem openOutput_faults (s : State) (o : Nat) (slow : Bool) : (openOutput s o slow).faults = s.faults := by
  unfold openOutput; dsimp only; split <;> rfl

/-- The outputs of a list open one after the other, each as its own couple demagnetises (R553). -/
def openOutputs (l : List Nat) (s : State) : State := l.foldl (fun s cc => openOutput s cc (slowNow s cc)) s

theorem openOutputs_on (cc : Nat) : ∀ (l : List Nat) (s : State), cc ∈ l ∨ (chGet s cc).on = false → (chGet (openOutputs l s) cc).on = false
  | [], s, h => h.resolve_left List.not_mem_nil
  | x :: l, s, h => by
    refine openOutputs_on cc l (openOutput s x (slowNow s x)) ?_
    rcases h with h | h
    · rcases List.mem_cons.mp h with rfl | h
      · exact .inr (openOutput_on _ (.inl rfl))
      · exact .inl h
    · exact .inr (openOutput_on _ (.inr h))

theorem openOutputs_power (l : List Nat) (s : State) : (openOutputs l s).power = s.power :=
  foldl_keeps State.power _ (fun s cc => openOutput_power s cc _) l s

theorem openOutputs_faults (l : List Nat) (s : State) : (openOutputs l s).faults = s.faults :=
  foldl_keeps State.faults _ (fun s cc => openOutput_faults s cc _) l s

/-! The fault of a group's domain -/

theorem groupFault_row (g : Group) : settledRow (keyG 0x3B00 g) 2 = true := by cases g <;> decide
theorem groupFault_below (g : Group) : max (faultRow (keyG 0x3B00 g).code).2.1 (faultRow (keyG 0x3B00 g).code).1 < 4 := by cases g <;> decide

theorem plainRow_of_settledRow {k : FaultKey} {l : Nat} (h : settledRow k l = true) : plainRow k l = true := by
  simp only [settledRow, Bool.and_eq_true] at h
  exact h.1.1

theorem groupFault_plain (g : Group) : plainRow (keyG 0x3B00 g) 2 = true := plainRow_of_settledRow (groupFault_row g)

/-- The fault of the domain arises where it does not stand. -/
def groupFault (s : State) (g : Group) (det : Nat) : State := if faultStands s (keyG 0x3B00 g) then s else arise s (keyG 0x3B00 g) det none16 []

theorem groupFault_sansRecords (s : State) (g : Group) (det : Nat) : (groupFault s g det).sansRecords = s.sansRecords := by
  unfold groupFault
  split
  · rfl
  · exact arise_sansRecords s _ det none16 [] (groupFault_below g)

theorem groupFault_reacts {s : State} {g : Group} (h : faultGet s (keyG 0x3B00 g) = none) (det : Nat) :
    Reacts (groupFault s g det) (keyG 0x3B00 g) 2 := by
  rw [groupFault, faultStands_of_clear h]
  exact reacts_arise_row h (groupFault_plain g) det none16 []

theorem groupFault_field (s : State) (g : Group) (det : Nat) : (groupFault s g det).field = s.field := by
  have e := congrArg State.field (groupFault_sansRecords s g det); exact e

theorem groupFault_power (s : State) (g : Group) (det : Nat) : (groupFault s g det).power = s.power := by
  have e := congrArg State.power (groupFault_sansRecords s g det); exact e

/-! A group loses its supply (R97) -/

/-- The group as its supply goes: no channel drives, no frame is known, and its domain is off. -/
def unsupplied (s : State) (g : Group) : State :=
  let s := mapGroup s g (fun _ c => freshSide false c)
  let s := groupPut s g { groupGet s g with running := false, vfOk := false, vf := 0, overAt := none, underAt := none }
  { s with power := { s.power with domOn := s.power.domOn.filter (· != 9 + groupNum g) } }

theorem unsupplied_power (s : State) (g : Group) : (unsupplied s g).power = { s.power with domOn := s.power.domOn.filter (· != 9 + groupNum g) } := by
  unfold unsupplied
  dsimp only
  rw [groupPut_power, mapGroup_power]

theorem unsupplied_faults (s : State) (g : Group) : (unsupplied s g).faults = s.faults := by
  unfold unsupplied
  dsimp only
  rw [groupPut_faults, mapGroup_faults]

theorem groupGet_power (s : State) (x : Power) (g : Group) : groupGet { s with power := x } g = groupGet s g := by cases g <;> rfl
theorem chGet_power (s : State) (x : Power) (cc : Nat) : chGet { s with power := x } cc = chGet s cc := rfl

theorem unsupplied_group (s : State) (g : Group) : (groupGet (unsupplied s g) g).running = false := by
  rw [unsupplied, groupGet_power, groupGet_groupPut, if_pos rfl]

theorem unsupplied_on {s : State} {g : Group} {cc : Nat} (h : cc ∈ groupChannels g) : (chGet (unsupplied s g) cc).on = false := by
  rw [unsupplied, chGet_power, chGet_groupPut, chGet_mapGroup h, freshSide]

theorem fieldLost_eq {s : State} (hrun : coreRuns s = true) (g : Group) : fieldLost s g = groupFault (unsupplied s g) g 0 := by
  have hrun' : coreRuns (unsupplied s g) = true := by
    unfold coreRuns
    rw [unsupplied_power]
    exact hrun
  have he : fieldLost s g = if (!coreRuns (unsupplied s g) || faultStands (unsupplied s g) (keyG 0x3B00 g)) = true then unsupplied s g
      else arise (unsupplied s g) (keyG 0x3B00 g) 0 none16 [] := rfl
  rw [he, hrun', groupFault]
  rfl

/-- A group whose supply goes while the core runs: stopped, every output open, its domain off and the fault of the domain raised. -/
theorem fieldLost_leaves {s : State} {g : Group} (hrun : coreRuns s = true) (hclear : faultGet s (keyG 0x3B00 g) = none) :
    (fieldLost s g).field = (unsupplied s g).field ∧ (fieldLost s g).power = (unsupplied s g).power ∧ Reacts (fieldLost s g) (keyG 0x3B00 g) 2 := by
  have hclear' : faultGet (unsupplied s g) (keyG 0x3B00 g) = none :=
    (faultGet_congr (congrArg Faults.recs (unsupplied_faults s g)) _).trans hclear
  rw [fieldLost_eq hrun g]
  exact ⟨groupFault_field _ g 0, groupFault_power _ g 0, groupFault_reacts hclear' 0⟩

/-! The commands -/

/-- The group as its field side starts (R122, R577). -/
def sideStarted (s : State) (g : Group) : State :=
  let cmd := commanded s
  let s := { s with power := { s.power with domOn := addDomain s.power.domOn (9 + groupNum g) } }
  let s := mapGroup s g (fun cc c => freshSide (cmd.contains cc) c)
  groupPut s g { groupGet s g with running := true, stopped := false, vf := max 16000 (groupGet s g).vf, vfOk := true }

theorem sideStarted_group (s : State) (g : Group) :
    (groupGet (sideStarted s g) g).running = true ∧ (groupGet (sideStarted s g) g).stopped = false ∧ 16000 ≤ (groupGet (sideStarted s g) g).vf := by
  rw [sideStarted, groupGet_groupPut, if_pos rfl]
  exact ⟨rfl, rfl, le_max_left _ _⟩

theorem sideStarted_domain (s : State) (g : Group) : (9 + groupNum g) ∈ (sideStarted s g).power.domOn := by
  rw [sideStarted, groupPut_power, mapGroup_power]
  exact (mem_addDomain _ _ _).mpr (.inl rfl)

theorem sideStarted_channel {s : State} {g : Group} {cc : Nat} (h : cc ∈ groupChannels g) :
    chGet (sideStarted s g) cc = freshSide ((commanded s).contains cc) (chGet s cc) := by
  rw [sideStarted, chGet_groupPut, chGet_mapGroup h, chGet_power]

/-- The group as its clock coupler stops (R575). -/
def couplerStopped (s : State) (g : Group) : State :=
  groupPut (openOutputs (groupChannels g) s) g
    { groupGet (openOutputs (groupChannels g) s) g with stopped := true, halted := coreRuns (openOutputs (groupChannels g) s) }

theorem couplerStopped_power (s : State) (g : Group) : (couplerStopped s g).power = s.power := by
  rw [couplerStopped, groupPut_power, openOutputs_power]

theorem couplerStopped_group (s : State) (g : Group) :
    (groupGet (couplerStopped s g) g).stopped = true ∧ (groupGet (couplerStopped s g) g).halted = coreRuns s := by
  have hopen : coreRuns (openOutputs (groupChannels g) s) = coreRuns s := coreRuns_congr (openOutputs_power (groupChannels g) s)
  rw [couplerStopped]
  generalize openOutputs (groupChannels g) s = t at *
  rw [groupGet_groupPut, if_pos rfl, hopen]
  exact ⟨rfl, rfl⟩

theorem couplerStopped_on {s : State} {g : Group} {cc : Nat} (h : cc ∈ groupChannels g) : (chGet (couplerStopped s g) cc).on = false := by
  rw [couplerStopped, chGet_groupPut]
  exact openOutputs_on cc _ s (.inl h)

theorem couplerStopped_faultGet (s : State) (g : Group) (k : FaultKey) : faultGet (couplerStopped s g) k = faultGet s k := by
  refine faultGet_congr ?_ k
  rw [couplerStopped, groupPut_faults, openOutputs_faults]

theorem clockCouplerStop_eq {s : State} (hrun : coreRuns s = true) (g : Group) :
    execClockCouplerStop g s = run (fun u => judgeSummary (groupFault (couplerStopped u g) g 1)) s := by
  have hrun' : coreRuns (couplerStopped { s with out := [] } g) = true := (coreRuns_congr (couplerStopped_power _ g)).trans hrun
  have he : execClockCouplerStop g s = run (fun u => if (!coreRuns (couplerStopped u g)) = true then couplerStopped u g
      else judgeSummary (groupFault (couplerStopped u g) g 1)) s := rfl
  rw [he, run_next, run_next, hrun']
  rfl

/-- The domain of a group is on and good again (R100). -/
def resupplied (s : State) (g : Group) : State := { s with power := { s.power with
  domOn := addDomain s.power.domOn (9 + groupNum g), domLost := s.power.domLost.filter (· != 9 + groupNum g) } }

theorem fieldSupplyRestored_eq {s : State} {g : Group} (hrun : coreRuns s = true) (hhalt : (groupGet s g).halted = false) :
    execFieldSupplyRestored g s = run (fun u => judgeSummary (causeGone (resupplied u g) (keyG 0x3B00 g))) s := by
  have hact : (!coreRuns (resupplied { s with out := [] } g) || (groupGet (resupplied { s with out := [] } g) g).halted) = false := by
    have hrun' : coreRuns (resupplied { s with out := [] } g) = true := hrun
    have hhalt' : (groupGet (resupplied { s with out := [] } g) g).halted = false := by cases g <;> exact hhalt
    rw [hrun', hhalt']
    rfl
  have he : execFieldSupplyRestored g s = run (fun u => if (!coreRuns (resupplied u g) || (groupGet (resupplied u g) g).halted) = true
      then resupplied u g else judgeSummary (causeGone (resupplied u g) (keyG 0x3B00 g))) s := rfl
  rw [he, run_next, run_next, hact]
  rfl

theorem resupplied_ends {s : State} {g : Group} (hlevel : ∀ r, faultGet s (keyG 0x3B00 g) = some r → r.level < 4) :
    (judgeSummary (causeGone (resupplied s g) (keyG 0x3B00 g))).power = (resupplied s g).power
      ∧ faultStands (judgeSummary (causeGone (resupplied s g) (keyG 0x3B00 g))) (keyG 0x3B00 g) = false := by
  refine ⟨(judgeSummary_power _).trans (causeGone_power _ _), ?_⟩
  rw [judgeSummary_faultStands _ _ (bookkept_of_plainRow (groupFault_plain g))]
  exact faultStands_causeGone _ _ hlevel

/-- Settles O10: a command changes its group's channels once, and the fault of its domain and the summary's judgement leave the field side. -/
theorem fieldGroups : Obligations.FieldGroups := by
  unfold Obligations.FieldGroups
  have hbook (g : Group) : bookkept (keyG 0x3B00 g) = false := bookkept_of_plainRow (groupFault_plain g)
  refine ⟨fun s g => ?_, fun s g hrun hclear => ?_, fun s g hrun hclear => ?_, fun s g hrun hhalt hlevel => ?_⟩
  · refine answers_of_run (f := fun u => sideStarted u g) (execFieldSideStart.eq_def g s) ?_
    obtain ⟨hruns, hstopped, hvf⟩ := sideStarted_group { s with out := [] } g
    have hdomain := sideStarted_domain { s with out := [] } g
    have hch (cc : Nat) (hcc : cc ∈ groupChannels g) := sideStarted_channel (s := { s with out := [] }) hcc
    generalize sideStarted { s with out := [] } g = t at *
    refine ⟨hruns, hstopped, hvf, hdomain, fun cc hcc => ?_⟩
    have hfresh : chGet { t with pending := s.pending } cc = freshSide ((commanded s).contains cc) (chGet s cc) := hch cc hcc
    rw [hfresh]
    exact ⟨rfl, rfl, rfl⟩
  · refine answers_of_run (clockCouplerStop_eq hrun g) ?_
    have hfield : (judgeSummary (groupFault (couplerStopped { s with out := [] } g) g 1)).field = (couplerStopped { s with out := [] } g).field :=
      (judgeSummary_field _).trans (groupFault_field _ g 1)
    have hreacts := reacts_judgeSummary (hbook g)
      (groupFault_reacts ((couplerStopped_faultGet { s with out := [] } g _).trans hclear) 1)
    obtain ⟨hstopped, hhalted⟩ := couplerStopped_group { s with out := [] } g
    have hopen (cc : Nat) (hcc : cc ∈ groupChannels g) := couplerStopped_on (s := { s with out := [] }) hcc
    generalize judgeSummary (groupFault (couplerStopped { s with out := [] } g) g 1) = t at *
    generalize couplerStopped { s with out := [] } g = u at *
    exact ⟨(congrArg GroupSt.stopped (groupGet_congr hfield g)).trans hstopped,
      (congrArg GroupSt.halted (groupGet_congr hfield g)).trans (hhalted.trans hrun),
      fun cc hcc => (congrArg Channel.on (chGet_congr hfield cc)).trans (hopen cc hcc), hreacts⟩
  · refine answers_of_run (execFieldSupplyLost.eq_def g s) ?_
    obtain ⟨hfield, hpower, hreacts⟩ := fieldLost_leaves (s := { s with out := [] }) hrun hclear
    have hstop := unsupplied_group { s with out := [] } g
    have hoff := congrArg Power.domOn (unsupplied_power { s with out := [] } g)
    have hopen (cc : Nat) (hcc : cc ∈ groupChannels g) := unsupplied_on (s := { s with out := [] }) hcc
    have hfield' := (judgeSummary_field _).trans hfield
    have hpower' := congrArg Power.domOn ((judgeSummary_power _).trans hpower)
    have hreacts' := reacts_judgeSummary (hbook g) hreacts
    generalize judgeSummary (fieldLost { s with out := [] } g) = t at *
    generalize unsupplied { s with out := [] } g = u at *
    refine ⟨(congrArg GroupSt.running (groupGet_congr hfield' g)).trans hstop, ?_,
      fun cc hcc => (congrArg Channel.on (chGet_congr hfield' cc)).trans (hopen cc hcc), hreacts'⟩
    have hdomain : t.power.domOn = s.power.domOn.filter (· != 9 + groupNum g) := hpower'.trans hoff
    change _ ∉ t.power.domOn
    rw [hdomain]
    simp
  · refine answers_of_run (fieldSupplyRestored_eq hrun hhalt) ?_
    obtain ⟨hpower, hends⟩ := resupplied_ends (s := { s with out := [] }) hlevel
    generalize judgeSummary (causeGone (resupplied { s with out := [] } g) (keyG 0x3B00 g)) = t at *
    refine ⟨?_, ?_, hends⟩
    · change _ ∈ t.power.domOn
      rw [hpower]
      exact (mem_addDomain _ _ _).mpr (.inl rfl)
    · change _ ∉ t.power.domLost
      rw [hpower]
      simp [resupplied]

end Sys2Proof.Machine
end

section
/-! The end of Starting: the ports step, and a twin unit without a partner (Table 1.7, R105, R106). -/
namespace Sys2Proof.Machine

/-! The cages at the ports step -/

theorem identified_modAbs (p : Port) (x : PortSt) (t : I2c) : (identified p x t).modAbs = x.modAbs := by
  unfold identified
  split <;> rfl

theorem readA0h_modAbs (s : State) (p : Port) (t : I2c) (q : Port) : (portGet (readA0h s p t) q).modAbs = (portGet s q).modAbs := by
  obtain ⟨-, v, hports⟩ := readA0h_leaves s p t
  rw [portGet_congr hports q, portGet_portPut]
  split
  next h => rw [h]; exact identified_modAbs p _ t
  next => rfl

/-- A cage is taken at the ports step: its `MODABS` is known, and the unit beyond its ports is as it was (R105). -/
theorem cageStart_leaves (s : State) (p : Port) (c : CageRead) : (cageStart s p c).sansPorts = s.sansPorts
    ∧ ∀ q, (portGet (cageStart s p c) q).modAbs = if q = p then c.modAbs else (portGet s q).modAbs := by
  let u := portPut s p { portGet s p with modAbs := c.modAbs, txEnabled := portInUse s p && !c.modAbs }
  have hput : u.sansPorts = s.sansPorts := portPut_sansPorts s p _
  have hmod (q : Port) : (portGet u q).modAbs = if q = p then c.modAbs else (portGet s q).modAbs := by
    rw [show portGet u q = _ from portGet_portPut s p q _, apply_ite PortSt.modAbs]
  have he : cageStart s p c = if !c.modAbs then readA0h u p c.read else if portInUse u p then arise u (portKey 0x1980 p) 0 none16 [] else u := rfl
  rw [he]
  split
  · exact ⟨(readA0h_leaves u p c.read).1.trans hput, fun q => (readA0h_modAbs u p c.read q).trans (hmod q)⟩
  · split
    · have habsent := arise_sansRecords u (portKey 0x1980 p) 0 none16 [] (moduleAbsent_below p)
      exact ⟨(sansPorts_of habsent).trans hput, fun q => (congrArg PortSt.modAbs (portGet_congr (keeps_ports habsent) q)).trans (hmod q)⟩
    · exact ⟨hput, hmod⟩

/-- The four cages taken, with the step that follows (Table 3.3, step 9). -/
def cagesTaken (s : State) (l : List CageRead) : State := ([Port.p0, .p1, .s0, .s1].zip l).foldl (fun s x => cageStart s x.1 x.2) (toStep s .pairing)

theorem portsStep_eq (s : State) (l : List CageRead) : portsStep s l =
    if (cagesTaken s l).power.engine == .starting && ((cagesTaken s l).pair.state == .solo || (cagesTaken s l).power.withheldBy.isSome)
    then finishStarting (cagesTaken s l) else cagesTaken s l := rfl

theorem cagesTaken_sansPorts (s : State) (l : List CageRead) : (cagesTaken s l).sansPorts = (toStep s .pairing).sansPorts := by
  rw [cagesTaken, foldl_keeps State.sansPorts (fun s (x : Port × CageRead) => cageStart s x.1 x.2) (fun s x => (cageStart_leaves s x.1 x.2).1)]

theorem cagesTaken_power (s : State) (l : List CageRead) : (cagesTaken s l).power = { s.power with step := .pairing } := by
  have e := congrArg State.power (cagesTaken_sansPorts s l); exact e

theorem cagesTaken_pairState (s : State) (l : List CageRead) : (cagesTaken s l).pair.state = s.pair.state := by
  have e := congrArg (fun u => u.pair.state) (cagesTaken_sansPorts s l); exact e

theorem cagesTaken_now (s : State) (l : List CageRead) : (cagesTaken s l).now = s.now := by
  have e := congrArg State.now (cagesTaken_sansPorts s l); exact e

/-- Each cage has the `MODABS` that was read of it. -/
theorem cagesTaken_modAbs (s : State) (a b c d : CageRead) (p : Port) : (portGet (cagesTaken s [a, b, c, d]) p).modAbs =
    match p with
    | .p0 => a.modAbs
    | .p1 => b.modAbs
    | .s0 => c.modAbs
    | .s1 => d.modAbs := by
  have h (s : State) (p q : Port) (c : CageRead) := (cageStart_leaves s p c).2 q
  cases p <;> simp [cagesTaken, h]

/-- The ports step ends Starting where the unit is alone or has a cause found. -/
theorem portsStep_finishes {s : State} {l : List CageRead} (hengine : s.power.engine = .starting)
    (hends : s.pair.state = .solo ∨ s.power.withheldBy.isSome = true) : portsStep s l = finishStarting (cagesTaken s l) := by
  rw [portsStep_eq, cagesTaken_power, cagesTaken_pairState, hengine]
  rcases hends with h | h <;> simp [h]

/-- PORTS_STEP acts at its step, on cages as the hardware reads them. -/
theorem answers_portsStep {s : State} {l : List CageRead} {p : State → Prop} (hat : atStep s .ports = true) (hwf : WellFormed.cages l = true)
    (h : p { judgeSummary (portsStep { s with out := [] } l) with pending := s.pending }) : Answers (.portsStep l) s p :=
  answers_of_runIf (execPortsStep.eq_def l s) hwf (by
    have hat' : atStep { s with out := [] } .ports = true := hat
    rw [if_pos (by rw [hat']; rfl)]; exact h)

/-! The two ends -/

/-- The end in Serving (Table 1.7). -/
theorem portsStep_serves {s : State} {l : List CageRead} (hengine : s.power.engine = .starting) (hsolo : s.pair.state = .solo)
    (hfree : s.power.withheldBy = none) :
    (portsStep s l).power = { s.power with step := .pairing, engine := .serving } ∧ (portsStep s l).time.servingAt = s.now := by
  have hserve : portsStep s l = enterServing (cagesTaken s l) := by
    rw [portsStep_finishes hengine (.inl hsolo), finishStarting, cagesTaken_power, hfree]
  rw [hserve, enterServing_power, enterServing_time, cagesTaken_power, cagesTaken_now, ← hfree]
  exact ⟨rfl, rfl⟩

/-- The end in Withheld, for the cause found (Table 1.7). -/
theorem portsStep_withholds {s : State} {l : List CageRead} {c : WithheldCause} (hengine : s.power.engine = .starting)
    (hcause : s.power.withheldBy = some c) :
    (portsStep s l).power = { s.power with step := .pairing, engine := .withheld, recommitted := false }
      ∧ (portsStep s l).ports = (cagesTaken s l).ports := by
  have hhold : portsStep s l = enterWithheld (cagesTaken s l) c := by
    rw [portsStep_finishes hengine (.inr (by rw [hcause]; rfl)), finishStarting, cagesTaken_power, hcause]
  have hleft (u : State) : (enterWithheld u c).power = { u.power with engine := .withheld, withheldBy := some c, recommitted := false }
      ∧ (enterWithheld u c).ports = u.ports := by
    obtain ⟨h, he⟩ := holdAfterStarting_eq { u with power := { u.power with engine := .withheld, withheldBy := some c, recommitted := false } }
    rw [enterWithheld, he]
    exact ⟨rfl, rfl⟩
  obtain ⟨hpower, hports⟩ := hleft (cagesTaken s l)
  rw [hhold]
  refine ⟨?_, hports⟩
  rw [hpower, cagesTaken_power, ← hcause]

/-- A twin unit that hears nothing of its partner serves alone (R106). -/
theorem partnerAbsent_serves {s : State} (hengine : s.power.engine = .starting) (hcan : canServe s = true) (hpairing : s.pair.state = .pairing)
    (hunheard : s.pair.heard = false) : partnerAbsent s = enterServing { s with pair := { s.pair with absent := true, state := .active } } := by
  have hcan' : canServe { s with pair := { s.pair with absent := true } } = true := hcan
  unfold partnerAbsent
  dsimp only
  rw [if_neg (by simp [hpairing, hunheard]), if_neg (by simp [hengine]), if_pos hcan']

theorem judgeSummary_modAbs (s : State) (p : Port) : (portGet (judgeSummary s) p).modAbs = (portGet s p).modAbs := by
  have e := congrArg PortSt.modAbs (judgeSummary_portGet s p); exact e

/-- Settles O8: what the cages leave decides the end, and the entries into Serving and into Withheld keep the rest of the unit. -/
theorem startingEnds : Obligations.StartingEnds := by
  unfold Obligations.StartingEnds
  refine ⟨fun s l hat hengine hsolo hfree hwf => ?_, fun s l c hat hengine hcause hwf => ?_,
    fun s htwin hdone hengine hcan hpairing hunheard => ?_⟩
  · refine answers_portsStep hat hwf ?_
    obtain ⟨hpower, hserving⟩ := portsStep_serves (s := { s with out := [] }) (l := l) hengine hsolo hfree
    dsimp only
    rw [judgeSummary_power, judgeSummary_time, hpower]
    exact ⟨rfl, rfl, hserving⟩
  · refine answers_portsStep hat hwf ?_
    obtain ⟨hpower, hports⟩ := portsStep_withholds (s := { s with out := [] }) (l := l) hengine hcause
    have hmod (p : Port) : (portGet (judgeSummary (portsStep { s with out := [] } l)) p).modAbs = (portGet (cagesTaken { s with out := [] } l) p).modAbs :=
      (judgeSummary_modAbs _ p).trans (congrArg PortSt.modAbs (portGet_congr hports p))
    have hfinal := (judgeSummary_power _).trans hpower
    have hfour : l.length = 4 := by simpa using (Bool.and_eq_true _ _ ▸ hwf : (l.length == 4) = true ∧ _).1
    obtain ⟨a, b, c', d, rfl⟩ : ∃ a b c d, l = [a, b, c, d] := by
      match l, hfour with
      | [a, b, c, d], _ => exact ⟨a, b, c, d, rfl⟩
    generalize judgeSummary (portsStep { s with out := [] } [a, b, c', d]) = t at hmod hfinal ⊢
    have hports4 (p : Port) := (hmod p).trans (cagesTaken_modAbs { s with out := [] } a b c' d p)
    refine ⟨congrArg Power.engine hfinal, congrArg Power.step hfinal, (congrArg Power.withheldBy hfinal).trans hcause, ?_⟩
    exact Prod.ext (hports4 .p0) (Prod.ext (hports4 .p1) (Prod.ext (hports4 .s0) (hports4 .s1)))
  · refine answers_of_guard (b := fun u => isTwin u && portsDone u && !serving u) (execPartnerAbsent.eq_def s) ?_ ?_
    · have hnot : serving s = false := by simp [serving, hengine]
      change (isTwin s && portsDone s && !serving s) = true
      simp [htwin, hdone, hnot]
    · rw [partnerAbsent_serves (s := { s with out := [] }) hengine hcan hpairing hunheard]
      obtain ⟨hstate, habsent⟩ := enterServing_pair { s with out := [], pair := { s.pair with absent := true, state := .active } }
      have hpower := enterServing_power { s with out := [], pair := { s.pair with absent := true, state := .active } }
      dsimp only
      rw [settlePair_power, settlePair_pair_state, settlePair_pair_absent, hpower, hstate, habsent]
      exact ⟨rfl, rfl, rfl⟩

end Sys2Proof.Machine
end

section
/-! Start-up reading of the plug: the stable image taken, or the unit withheld (R104, R145, R168 to R170). -/
namespace Sys2Proof.Machine

/-! What an adopted image leaves (R168, R169) -/

/-- The image that adoption forms of a stable image, against the earlier one of the bank in use (R168). -/
def adoptedRods (s : State) (img : Image) : Rods := buildImage img (bankImage s)

/-- The bank has no image of this full fingerprint (R169). -/
def bankDiffers (s : State) (img : Image) : Bool := (bankImage s).map fullFp != some (fullFp (adoptedRods s img))

/-- The image in force, and the bank that holds it, before entries, faults and zones follow. -/
def imageTaken (s : State) (img : Image) : State :=
  let t := { s with plug := { s.plug with image := some (adoptedRods s img), stable := some img } }
  if bankDiffers s img then switchBank (fillBank t (adoptedRods s img)) else t

theorem ariseAndGone_unitOnly (s : State) (k : FaultKey) (h : max (faultRow k.code).2.1 (faultRow k.code).1 < 4) (det : Nat) (d : List Byte) :
    (ariseAndGone s k det d).unitOnly = s.unitOnly := by
  unfold ariseAndGone
  dsimp only
  split <;> exact arise_unitOnly s k det none16 d h

theorem adoptImage_unitOnly (s : State) (img : Image) : (adoptImage s img).unitOnly = (imageTaken s img).unitOnly := by
  have entered (u : State) (e : Entry) : (ariseAndGone (journalEntry u e) (keyU 0x1740) 0 []).unitOnly = u.unitOnly := by
    rw [ariseAndGone_unitOnly _ _ (by decide), journalEntry_unitOnly]
  have he : adoptImage s img = adoptTheta (judgeImage (if bankDiffers s img then ariseAndGone (journalEntry (imageTaken s img)
      (unitEntry (imageTaken s img) (ownCode 5 20) 2 0 none16 none16 (ownPayload 20 (printsPayload (bankImage s) (adoptedRods s img)))))
      (keyU 0x1740) 0 [] else imageTaken s img)) := rfl
  rw [he, adoptTheta_unitOnly, judgeImage_unitOnly]
  split
  · exact entered _ _
  · rfl

theorem imageTaken_power (s : State) (img : Image) : (imageTaken s img).power = s.power := by
  unfold imageTaken switchBank fillBank
  dsimp only
  split_ifs <;> rfl

theorem imageTaken_plug (s : State) (img : Image) :
    (imageTaken s img).plug = { s.plug with image := some (adoptedRods s img), stable := some img } := by
  unfold imageTaken switchBank fillBank
  dsimp only
  split_ifs <;> rfl

/-- An image that the bank did not have is in the bank now in use (R147, R169). -/
theorem imageTaken_bank {s : State} {img : Image} (h : bankDiffers s img = true) : bankImage (imageTaken s img) = some (adoptedRods s img) := by
  unfold imageTaken
  simp only [h, if_true]
  unfold fillBank switchBank bankImage
  cases hp : s.nvm.pointer <;> simp [hp]

theorem bankImage_congr {s t : State} (h : t.nvm = s.nvm) : bankImage t = bankImage s := by unfold bankImage; rw [h]

/-! The comparison with the committed image (Table 4.6) -/

theorem comparePlug_sansRecords (s : State) : (comparePlug s).sansRecords = s.sansRecords := by
  unfold comparePlug
  split
  · rfl
  · exact judgeFault_sansRecords s _ _ _ _ (by decide)

theorem comparePlug_faultGet (s : State) (k : FaultKey) (hk : keyNum k ≠ keyNum (keyU 0x1540)) : faultGet (comparePlug s) k = faultGet s k := by
  unfold comparePlug
  split
  · rfl
  · exact judgeFault_other s (keyU 0x1540) k hk (by decide) 0 none16 _

/-! The end of the reading -/

/-- Start-up reading is over: the last read image is kept, D8 is off, and the ports step follows (Table 3.3). -/
def plugReadOver (s : State) (last : Option Image) : State := toStep (frameOff { s with plug := { s.plug with last := last } }) .ports

/-- The unit is withheld for the plug, with the fault that says why. -/
def plugWithheld (s : State) (code : Nat) : State := withhold (ariseU s code 1) .plug

theorem plugRead_eq (s : State) (l : List (Option ScanReadings)) : plugRead s l =
    match (startStable none (l.map startImage)).1 with
    | none => plugWithheld (plugReadOver s (startStable none (l.map startImage)).2) 0x1580
    | some img =>
      let u : State := { plugReadOver s (startStable none (l.map startImage)).2 with
        plug := { (plugReadOver s (startStable none (l.map startImage)).2).plug with stable := some img } }
      comparePlug (if globalFails img then plugWithheld u 0x1680 else adoptImage u img) := rfl

theorem plugReadOver_domains (s : State) (last : Option Image) : 8 ∉ (plugReadOver s last).power.domOn := frameOff_power _

theorem plugWithheld_leaves {s : State} {code : Nat} (hrow : max (faultRow code).2.1 (faultRow code).1 < 4) (hkey : plainRow (keyU code) 2 = true) :
    let t := plugWithheld s code
    t.power = { s.power with withheldBy := some (s.power.withheldBy.getD .plug) } ∧ t.plug = s.plug ∧ t.nvm = s.nvm
      ∧ (faultGet s (keyU code) = none → Reacts t (keyU code) 2) := by
  have hframe := arise_sansRecords s (keyU code) 1 none16 [] hrow
  have hpower : (ariseU s code 1).power = s.power := by have e := congrArg State.power hframe; exact e
  have hplug : (ariseU s code 1).plug = s.plug := by have e := congrArg State.plug hframe; exact e
  have hnvm : (ariseU s code 1).nvm = s.nvm := by have e := congrArg State.nvm hframe; exact e
  intro t
  refine ⟨?_, hplug, hnvm, fun hclear => reacts_arise_row hclear hkey 1 none16 []⟩
  change { (ariseU s code 1).power with withheldBy := some ((ariseU s code 1).power.withheldBy.getD .plug) } = _
  rw [hpower]

/-- START_UP_PLUG_READ acts at its step, on scans of the hardware. -/
theorem answers_startUpPlugRead {s : State} {l : List (Option ScanReadings)} {p : State → Prop} (hat : atStep s .plug = true)
    (hwf : WellFormed.scans l = true) (h : p { judgeSummary (plugRead { s with out := [] } l) with pending := s.pending }) :
    Answers (.startUpPlugRead l) s p :=
  answers_of_runIf (execStartUpPlugRead.eq_def l s) hwf (by
    have hat' : atStep { s with out := [] } .plug = true := hat
    rw [if_pos hat']; exact h)

/-- The stable image is found: the reader has it, and D8 is off. -/
def stableFound (s : State) (img : Image) (last : Option Image) : State :=
  { plugReadOver s last with plug := { (plugReadOver s last).plug with stable := some img } }

theorem plugRead_found {s : State} {l : List (Option ScanReadings)} {img : Image} {last : Option Image}
    (hfound : startStable none (l.map startImage) = (some img, last)) : plugRead s l =
      comparePlug (if globalFails img then plugWithheld (stableFound s img last) 0x1680 else adoptImage (stableFound s img last) img) := by
  rw [plugRead_eq, hfound, stableFound]

/-- A stable image that keeps the global rules is adopted (R168, R169). -/
theorem plugRead_adopts {s : State} {l : List (Option ScanReadings)} {img : Image} {last : Option Image}
    (hfound : startStable none (l.map startImage) = (some img, last)) (hgood : globalFails img = false) :
    (plugRead s l).unitOnly = (imageTaken (stableFound s img last) img).unitOnly := by
  rw [plugRead_found hfound, hgood, if_neg Bool.false_ne_true, unitOnly_records (comparePlug_sansRecords _), adoptImage_unitOnly]

/-- A stable image that breaks a global rule withholds the unit (R170). -/
theorem plugRead_refuses {s : State} {l : List (Option ScanReadings)} {img : Image} {last : Option Image}
    (hfound : startStable none (l.map startImage) = (some img, last)) (hbad : globalFails img = true) :
    let t := judgeSummary (plugRead s l)
    t.power = (plugWithheld (stableFound s img last) 0x1680).power ∧ t.plug = (plugWithheld (stableFound s img last) 0x1680).plug
      ∧ t.nvm = (plugWithheld (stableFound s img last) 0x1680).nvm
      ∧ (Reacts (plugWithheld (stableFound s img last) 0x1680) (keyU 0x1680) 2 → Reacts t (keyU 0x1680) 2) := by
  rw [plugRead_found hfound, hbad, if_pos rfl]
  generalize plugWithheld (stableFound s img last) 0x1680 = u
  have hframe := unitOnly_records (comparePlug_sansRecords u)
  refine ⟨(judgeSummary_power _).trans (unit_power hframe), (judgeSummary_plug _).trans (unit_plug hframe),
    (judgeSummary_nvm _).trans (unit_nvm hframe), fun h => reacts_judgeSummary (by decide) ?_⟩
  unfold Reacts
  rw [comparePlug_faultGet u _ (by decide)]
  exact h

/-- Settles O7: the image found decides between adoption and the two faults, and the comparison, zones and the summary leave what it decided. -/
theorem startUpPlugDecides : Obligations.StartUpPlugDecides := by
  unfold Obligations.StartUpPlugDecides
  refine ⟨fun s l img last hat hwf hfound => ?_, fun s l last hat hwf hfound => ?_⟩
  · refine answers_startUpPlugRead hat hwf ?_
    let u : State := stableFound { s with out := [] } img last
    have hoff : 8 ∉ u.power.domOn := plugReadOver_domains { s with out := [] } last
    cases hfails : globalFails img with
    | false =>
      have hunit := (judgeSummary_unitOnly _).trans (plugRead_adopts (s := { s with out := [] }) hfound hfails)
      generalize judgeSummary (plugRead { s with out := [] } l) = t at hunit ⊢
      have hpower : t.power = u.power := (unit_power hunit).trans (imageTaken_power u img)
      have hplug : t.plug = { u.plug with image := some (adoptedRods u img), stable := some img } := (unit_plug hunit).trans (imageTaken_plug u img)
      have hwithheld : t.power.withheldBy = u.power.withheldBy := congrArg Power.withheldBy hpower
      refine ⟨congrArg Power.step hpower, congrArg Plug.stable hplug, congrArg Plug.last hplug, hpower ▸ hoff,
        fun _ => ⟨hwithheld, congrArg Plug.image hplug, fun hdiffers => ?_⟩, fun h => absurd h (by simp)⟩
      have hbank : bankImage t = some (adoptedRods u img) :=
        (bankImage_congr (unit_nvm hunit)).trans (imageTaken_bank (bne_iff_ne.mpr hdiffers))
      exact hbank.trans (congrArg Plug.image hplug).symm
    | true =>
      obtain ⟨hpower', hplug', hnvm', hreacts'⟩ := plugRead_refuses (s := { s with out := [] }) hfound hfails
      obtain ⟨hpower, hplug, hnvm, hreacts⟩ := plugWithheld_leaves (s := u) (code := 0x1680) (by decide) (by decide)
      generalize judgeSummary (plugRead { s with out := [] } l) = t at *
      have hp : t.power = { u.power with withheldBy := some (s.power.withheldBy.getD .plug) } := hpower'.trans hpower
      have hq : t.plug = u.plug := hplug'.trans hplug
      have himage : t.plug.image = u.plug.image := congrArg Plug.image hq
      exact ⟨congrArg Power.step hp, congrArg Plug.stable hq, congrArg Plug.last hq, hp ▸ hoff, fun h => absurd h (by simp),
        fun _ => ⟨congrArg Power.withheldBy hp, himage, hnvm'.trans hnvm, fun hclear => hreacts' (hreacts hclear)⟩⟩
  · refine answers_startUpPlugRead hat hwf ?_
    have he : plugRead { s with out := [] } l = plugWithheld (plugReadOver { s with out := [] } last) 0x1580 := by rw [plugRead_eq, hfound]
    obtain ⟨hpower, hplug, -, hreacts⟩ := plugWithheld_leaves (s := plugReadOver { s with out := [] } last) (code := 0x1580) (by decide) (by decide)
    have hp := (judgeSummary_power _).trans hpower
    have hq := (judgeSummary_plug _).trans hplug
    rw [he]
    have hreacts' (hclear : faultGet s (keyU 0x1580) = none) := reacts_judgeSummary (by decide) (hreacts hclear)
    generalize judgeSummary (plugWithheld (plugReadOver { s with out := [] } last) 0x1580) = t at *
    exact ⟨congrArg Power.step hp, congrArg Power.withheldBy hp, hq, hp ▸ plugReadOver_domains { s with out := [] } last, hreacts'⟩

end Sys2Proof.Machine
end

section
/-! The entry to Starting: what it leaves of the unit, and the faults that it raises (R64, R87, R103, R112, R126). -/
namespace Sys2Proof.Machine

/-- The core at an entry to Starting, before the hold-up store and the fuse copies are judged. -/
def startingCore (s : State) (cause : StartCause) (domains : List Nat) : State :=
  let duty := if (cause == .nreset || cause == .internalRestart) && domainGood s 6 then s.reck.oven.u else 0
  let s := startCore s
  { s with
    reck := { s.reck with oven := { i := duty * 2 ^ 15, u := duty, fe := 0 } }
    adc := { s.adc with d7At := s.now, refAt := s.now }
    power := { s.power with
      engine := .starting, startCause := cause, step := .straps, withheldBy := none, recommitted := false, laneTestPassed := false, inReset := false,
      domOn := domains, domLost := [], pllLocked := true, retentionErrors := 0, retentionAt := 0, pinsOff := [] } }

/-- The hold-up store judged (R126). -/
def storeJudged (s : State) : State := if s.power.holdUpOk then s else ariseU s 0x4A00 0

theorem enterStarting_eq (s : State) (cause : StartCause) (domains : List Nat) :
    enterStarting s cause domains = judgeFuses (storeJudged (startingCore s cause domains)) := rfl

theorem storeJudged_sansRecords (s : State) : (storeJudged s).sansRecords = s.sansRecords := by
  unfold storeJudged
  split
  · rfl
  · exact arise_sansRecords s (keyU 0x4A00) 0 none16 [] (by decide)

/-- With a copy that reads, the fuses raise at most the Note of two copies that differ (R83). -/
theorem judgeFuses_readable {s : State} (h : s.ident.fuse1.ok = true ∨ s.ident.fuse2.ok = true) :
    judgeFuses s = s ∨ judgeFuses s = ariseU s 0x0580 0 := by
  unfold judgeFuses
  split
  next h1 h2 => simp [h1, h2] at h
  next =>
    split
    · exact .inl rfl
    · exact .inr rfl
  next => exact .inl rfl

/-- An entry to Starting with a fuse copy that reads: the core as it starts, the store's fault where it was not charged in time, and no other
fault but the Note on the fuses. -/
theorem enterStarting_leaves {s : State} (cause : StartCause) (domains : List Nat) (h : s.ident.fuse1.ok = true ∨ s.ident.fuse2.ok = true) :
    (enterStarting s cause domains).sansRecords = (startingCore s cause domains).sansRecords
      ∧ (s.power.holdUpOk = false → Reacts (enterStarting s cause domains) (keyU 0x4A00) 2)
      ∧ ∀ k, keyNum k ≠ keyNum (keyU 0x4A00) → keyNum k ≠ keyNum (keyU 0x0580) → faultGet (enterStarting s cause domains) k = none := by
  let u := storeJudged (startingCore s cause domains)
  have hframe : u.sansRecords = (startingCore s cause domains).sansRecords := storeJudged_sansRecords _
  have hident : u.ident = { s.ident with decided := false } := by have e := congrArg State.ident hframe; exact e
  have hstore (hdown : s.power.holdUpOk = false) : u = ariseU (startingCore s cause domains) 0x4A00 0 := if_neg (by rw [startingCore]; simp [startCore, hdown])
  have hreacts (hdown : s.power.holdUpOk = false) : Reacts u (keyU 0x4A00) 2 := by
    rw [hstore hdown]
    exact reacts_arise_row rfl (by decide) 0 none16 []
  have hclear (k : FaultKey) (hk : keyNum k ≠ keyNum (keyU 0x4A00)) : faultGet u k = none := by
    change faultGet (storeJudged (startingCore s cause domains)) k = none
    unfold storeJudged
    split
    · rfl
    · rw [ariseU, arise_other _ (keyU 0x4A00) k hk (by decide)]
      rfl
  rw [enterStarting_eq]
  rcases judgeFuses_readable (s := u) (by rw [hident]; exact h) with he | he
  · rw [show judgeFuses (storeJudged (startingCore s cause domains)) = u from he]
    exact ⟨hframe, hreacts, fun k hk _ => hclear k hk⟩
  · rw [show judgeFuses (storeJudged (startingCore s cause domains)) = ariseU u 0x0580 0 from he]
    refine ⟨(arise_sansRecords u (keyU 0x0580) 0 none16 [] (by decide)).trans hframe, fun hdown => ?_, fun k hk hk' => ?_⟩
    · unfold Reacts
      rw [ariseU, arise_other u (keyU 0x0580) (keyU 0x4A00) (by decide) (by decide)]
      exact hreacts hdown
    · rw [ariseU, arise_other u (keyU 0x0580) k hk' (by decide), hclear k hk]

theorem enterStarting_power {s : State} (cause : StartCause) (domains : List Nat) (h : s.ident.fuse1.ok = true ∨ s.ident.fuse2.ok = true) :
    (enterStarting s cause domains).power = { s.power with
      engine := .starting, startCause := cause, step := .straps, withheldBy := none, recommitted := false, laneTestPassed := false, inReset := false,
      domOn := domains, domLost := [], pllLocked := true, retentionErrors := 0, retentionAt := 0, pinsOff := [] } := by
  have e := congrArg State.power (enterStarting_leaves cause domains h).1; exact e

theorem enterStarting_ident {s : State} (cause : StartCause) (domains : List Nat) (h : s.ident.fuse1.ok = true ∨ s.ident.fuse2.ok = true) :
    (enterStarting s cause domains).ident = { s.ident with decided := false } := by
  have e := congrArg State.ident (enterStarting_leaves cause domains h).1; exact e

theorem enterStarting_sealSt {s : State} (cause : StartCause) (domains : List Nat) (h : s.ident.fuse1.ok = true ∨ s.ident.fuse2.ok = true) :
    (enterStarting s cause domains).sealSt = s.sealSt := by
  have e := congrArg State.sealSt (enterStarting_leaves cause domains h).1; exact e

theorem enterStarting_nvm {s : State} (cause : StartCause) (domains : List Nat) (h : s.ident.fuse1.ok = true ∨ s.ident.fuse2.ok = true) :
    (enterStarting s cause domains).nvm = s.nvm := by
  have e := congrArg State.nvm (enterStarting_leaves cause domains h).1; exact e

theorem enterStarting_store {s : State} (cause : StartCause) (domains : List Nat) (h : s.ident.fuse1.ok = true ∨ s.ident.fuse2.ok = true)
    (hdown : s.power.holdUpOk = false) : Reacts (enterStarting s cause domains) (keyU 0x4A00) 2 := by
  obtain ⟨-, hstore, -⟩ := enterStarting_leaves cause domains h
  exact hstore hdown

theorem enterStarting_clear {s : State} (cause : StartCause) (domains : List Nat) (h : s.ident.fuse1.ok = true ∨ s.ident.fuse2.ok = true)
    {k : FaultKey} (hstore : keyNum k ≠ keyNum (keyU 0x4A00)) (hfuse : keyNum k ≠ keyNum (keyU 0x0580)) :
    faultGet (enterStarting s cause domains) k = none := by
  obtain ⟨-, -, hclear⟩ := enterStarting_leaves cause domains h
  exact hclear k hstore hfuse

end Sys2Proof.Machine
end

section
/-! What commits and records change beside the journal: nothing of the unit (Table 17.5, R664, R680, Table 3.5). -/
namespace Sys2Proof.Machine

/-- The state without the journal, the entries on their way to it, and the free values that its store takes. -/
def State.sansJournal (s : State) : State :=
  { s.sansRecords with journal := {}, free := 0, pair := { s.sansRecords.pair with numbered := [] } }

theorem sansJournal_of {s t : State} (h : t.sansRecords = s.sansRecords) : t.sansJournal = s.sansJournal := by
  have e : ∀ u : State, u.sansJournal = { u.sansRecords with journal := {}, free := 0, pair := { u.sansRecords.pair with numbered := [] } } := fun _ => rfl
  rw [e, e, h]

theorem sansJournal_journal (s : State) (j : Journal) : ({ s with journal := j } : State).sansJournal = s.sansJournal := rfl

theorem power_of_journal {s t : State} (h : t.sansJournal = s.sansJournal) : t.power = s.power := by have e := congrArg State.power h; exact e
theorem nvm_of_journal {s t : State} (h : t.sansJournal = s.sansJournal) : t.nvm = s.nvm := by have e := congrArg State.nvm h; exact e
theorem ident_of_journal {s t : State} (h : t.sansJournal = s.sansJournal) : t.ident = s.ident := by have e := congrArg State.ident h; exact e
theorem sealSt_of_journal {s t : State} (h : t.sansJournal = s.sansJournal) : t.sealSt = s.sealSt := by have e := congrArg State.sealSt h; exact e

/-! An entry's place -/

theorem applyMarks_sansJournal : ∀ (n : Nat) (s : State) (l : List Byte), (applyMarks s n l).sansJournal = s.sansJournal
  | 0, _, _ => rfl
  | n + 1, s, l => by
    unfold applyMarks
    split
    · rfl
    · dsimp only
      rw [applyMarks_sansJournal n]
      split <;> rfl

@[simp] theorem noteRaise_sansJournal (s : State) (e : Entry) (j : Nat) : (noteRaise s e j).sansJournal = s.sansJournal := by
  unfold noteRaise
  split
  · rfl
  · split
    · rfl
    · dsimp only
      split
      · split <;> rfl
      · rfl

@[simp] theorem writeControl_sansJournal (s : State) (page offset jseq : Nat) (crc : BitVec 32) :
    (writeControl s page offset jseq crc).sansJournal = s.sansJournal := by
  unfold writeControl
  dsimp only
  split <;> rfl

@[simp] theorem writeEntry_sansJournal (s : State) (n : Nat) (e : Entry) : (writeEntry s n e).sansJournal = s.sansJournal := by
  have index (u : State) (j : Nat) : (noteIndex u e j).sansJournal = u.sansJournal := rfl
  unfold writeEntry
  dsimp only
  rw [apply_ite State.sansJournal, apply_ite State.sansJournal, applyMarks_sansJournal, index, ite_self, ite_self, noteRaise_sansJournal,
    writeControl_sansJournal]
  exact (sansJournal_journal _ _).trans (sansJournal_journal s _)

theorem takePage_sansJournal {s t : State} {sev : Nat} (h : takePage s sev = some t) : t.sansJournal = s.sansJournal := by
  unfold takePage at h
  split at h
  · cases h
  · cases h
    dsimp only
    split <;> rfl

theorem roomFor_sansJournal {s t : State} {sev size n : Nat} (h : roomFor s sev size = some (t, n)) : t.sansJournal = s.sansJournal := by
  unfold roomFor at h
  dsimp only at h
  split_ifs at h
  · obtain ⟨rfl, -⟩ := Prod.mk.inj (Option.some.inj h)
    rfl
  · split at h
    next u hu =>
      obtain ⟨rfl, -⟩ := Prod.mk.inj (Option.some.inj h)
      exact takePage_sansJournal hu
    next => cases h

/-- An entry that reads back well is placed, or finds no page. -/
theorem placeCommit_good (s : State) (e : Entry) : placeCommit s e { first := true, second := true } = .noPage
    ∨ ∃ t, placeCommit s e { first := true, second := true } = .done t ∧ t.sansJournal = s.sansJournal := by
  unfold placeCommit
  split
  · exact .inl rfl
  next t n ht => exact .inr ⟨_, rfl, (writeEntry_sansJournal t n e).trans (roomFor_sansJournal ht)⟩

/-! The queue -/

@[simp] theorem drainHolds_sansJournal : ∀ (n : Nat) (s : State), (drainHolds n s).sansJournal = s.sansJournal
  | 0, _ => rfl
  | n + 1, s => by
    unfold drainHolds
    split
    · rfl
    · split
      · rfl
      · split
        · rfl
        · rw [drainHolds_sansJournal n, sansJournal_of (placeEntry_sansRecords _ _)]
          rfl

@[simp] theorem journalFaults_sansJournal (s : State) : (journalFaults s).sansJournal = s.sansJournal := by
  refine sansJournal_of ?_
  unfold journalFaults
  rw [syncGuarantee_sansRecords, judgeFault_sansRecords _ _ _ _ _ (by decide), judgeFault_sansRecords _ _ _ _ _ (by decide)]

theorem comparePair_sansJournal {s t : State} {e : Entry} (h : comparePair s e = some t) : t.sansJournal = s.sansJournal := by
  unfold comparePair at h
  dsimp only at h
  split at h
  · cases h; rfl
  · cases h

theorem commitNumbered_sansJournal {s t : State} (h : commitNumbered s { first := true, second := true } = some t) :
    t.sansJournal = s.sansJournal := by
  unfold commitNumbered at h
  split at h
  · cases h; rfl
  next j e ok rest _ =>
    split at h
    · cases h; rfl
    · split at h
      · cases h
      next u hu =>
        have hchecked : u.sansJournal = s.sansJournal := by
          split at hu
          · cases hu; rfl
          · obtain ⟨v, hv, rfl⟩ := Option.map_eq_some_iff.mp hu
            exact (sansJournal_of (carrySend_sansRecords v 1 _)).trans (comparePair_sansJournal hv)
        split at h
        · cases h
        · have htaken : ({ u with pair := { u.pair with numbered := rest } } : State).sansJournal = u.sansJournal := rfl
          rcases placeCommit_good { u with pair := { u.pair with numbered := rest } } e with hp | ⟨v, hp, hv⟩
          · rw [hp] at h
            cases h
            rw [journalFaults_sansJournal]
            exact hchecked
          · rw [hp] at h
            cases h
            rw [journalFaults_sansJournal, drainHolds_sansJournal, hv, htaken, hchecked]

theorem commitNumberedAll_sansJournal : ∀ (n : Nat) (s : State), (commitNumberedAll n s).sansJournal = s.sansJournal
  | 0, _ => rfl
  | n + 1, s => by
    unfold commitNumberedAll
    split
    · rfl
    · split
      next t ht => rw [commitNumberedAll_sansJournal n t, commitNumbered_sansJournal ht]
      next => rfl

theorem commitAll_sansJournal : ∀ (n : Nat) (s : State), (commitAll n s).sansJournal = s.sansJournal
  | 0, _ => rfl
  | n + 1, s => by
    unfold commitAll
    split
    · rfl
    · split
      · rfl
      next e _ =>
        dsimp only
        have taken : ({ s with journal := { s.journal with queue := removeEntry s.journal.queue e } } : State).sansJournal = s.sansJournal := rfl
        have refused (u : State) (w : Nat) : (tallyAdd u 1 w 1).sansJournal = u.sansJournal := rfl
        rcases placeCommit_good { s with journal := { s.journal with queue := removeEntry s.journal.queue e } } e with hp | ⟨t, hp, ht⟩
        · rw [hp]
          dsimp only
          rw [commitAll_sansJournal n, drainHolds_sansJournal, apply_ite State.sansJournal, refused, refused, ite_self, taken]
        · rw [hp]
          dsimp only
          rw [commitAll_sansJournal n, drainHolds_sansJournal, ht, taken]

theorem commitEverything_sansJournal (s : State) : (commitEverything s).sansJournal = s.sansJournal := by
  unfold commitEverything
  split
  · rfl
  · dsimp only
    rw [commitAll_sansJournal]
    exact (sansJournal_of (reclaimEntries_sansRecords _)).trans (commitNumberedAll_sansJournal _ s)

/-! Records -/

theorem takeBlocks_sansJournal : ∀ (fuel : Nat) {s t : State} {sev n : Nat}, takeBlocks fuel s sev n = some t → t.sansJournal = s.sansJournal
  | 0, _, _, _, _, h => by cases h
  | fuel + 1, s, t, sev, n, h => by
    unfold takeBlocks at h
    dsimp only at h
    split at h
    · cases h; rfl
    · split at h
      · cases h
      · exact (takeBlocks_sansJournal fuel h).trans rfl

/-! The kernel must not evaluate a search for blocks, whose fuel and size are numbers of the model: the three proofs below open the definition as
a function (`delta`) and put a variable in the search's place, kept apart from the rest of the proof by `id`. -/

/-- The store with a body of n blocks written after blocks were found, and the first block. -/
def writtenBody (jseq recno sev n : Nat) (body : List Byte) (t : State) : State × Nat :=
  ({ tookFresh t with journal := { t.journal with
    store := t.journal.store ++ [{ recno := recno, sev := sev, block := freshValue t % 32768, blocks := n, body := body, written := false,
                                   jseq := 0, marks := 0, atJseq := jseq }] } }, freshValue t % 32768)

theorem writeBody_eq (s : State) (recno sev : Nat) (body : List Byte) :
    writeBody s recno sev body = (takeBlocks (s.journal.store.length + 1) s sev (ceilDiv body.length 262144)).map
      (writtenBody s.journal.jseq recno sev (ceilDiv body.length 262144) body) := by
  have e : @writeBody = @writeBody := rfl
  conv at e => rhs; delta writeBody
  rw [e]
  beta_reduce
  generalize takeBlocks = take
  revert take
  refine id fun take => ?_
  dsimp only
  generalize take _ s sev _ = found
  cases found <;> rfl

theorem writtenBody_sansJournal (jseq recno sev n : Nat) (body : List Byte) (t : State) :
    (writtenBody jseq recno sev n body t).1.sansJournal = t.sansJournal := rfl

theorem writeBody_sansJournal {s : State} {p : State × Nat} {recno sev : Nat} {body : List Byte} (h : writeBody s recno sev body = some p) :
    p.1.sansJournal = s.sansJournal := by
  rw [writeBody_eq] at h
  obtain ⟨t, ht, rfl⟩ := Option.map_eq_some_iff.mp h
  exact (writtenBody_sansJournal _ _ _ _ _ t).trans (takeBlocks_sansJournal _ ht)

theorem storeBody_sansJournal (s : State) (recno sev : Nat) (body : List Byte) (index : Nat → Entry) :
    (storeBody s recno sev body index).sansJournal = s.sansJournal := by
  have hwritten {p : State × Nat} (h : writeBody s recno sev body = some p) : p.1.sansJournal = s.sansJournal := writeBody_sansJournal h
  have e : @storeBody = @storeBody := rfl
  conv at e => rhs; delta storeBody
  rw [e]
  beta_reduce
  generalize writeBody s recno sev body = stored at hwritten ⊢
  cases stored with
  | none =>
    dsimp only
    unfold bodyLost
    dsimp only
    rw [sansJournal_of (arise_sansRecords _ (keyU 0x4900) 0 none16 [] (by decide))]
    exact (sansJournal_journal _ _).trans (sansJournal_of (judgeFault_sansRecords s (keyU 0x4940) 0 none16 true (by decide)))
  | some p =>
    obtain ⟨t, block⟩ := p
    dsimp only
    rw [sansJournal_of (journalEntry_sansRecords _ _), sansJournal_of (judgeFault_sansRecords t (keyU 0x4940) 0 none16 false (by decide))]
    exact hwritten rfl

theorem closeRecord_sansJournal (s : State) (recno extra : Nat) : (closeRecord s recno extra).sansJournal = s.sansJournal := by
  unfold closeRecord
  split
  · rfl
  · dsimp only
    rw [storeBody_sansJournal]
    rfl

theorem closeAll_sansJournal (s : State) (extra : Nat) : (closeAll s extra).sansJournal = s.sansJournal :=
  foldl_keeps State.sansJournal _ (fun s n => closeRecord_sansJournal s n extra) _ s

theorem flushRecords_sansJournal (s : State) : (flushRecords s).sansJournal = s.sansJournal := by
  unfold flushRecords
  split
  · rfl
  · exact closeAll_sansJournal s 2

theorem cutRecord_sansJournal (s : State) (r : DrRecord) : (cutRecord s r).sansJournal = s.sansJournal := by
  have written (u : State) (j : Journal) : ({ tookFresh u with journal := j } : State).sansJournal = u.sansJournal := rfl
  have hput (x : DrRecord) : (putRecord s x).sansJournal = s.sansJournal := sansJournal_journal s _
  have hwrites {u : State} {p : State × Nat} {recno sev : Nat} {body : List Byte} (h : writeBody u recno sev body = some p) :
      p.1.sansJournal = u.sansJournal := writeBody_sansJournal h
  have e : @cutRecord = @cutRecord := rfl
  conv at e => rhs; delta cutRecord
  rw [e]
  generalize writeBody = write at hwrites ⊢
  revert write
  refine id fun write hwrites => ?_
  dsimp only
  split
  · exact (written _ _).trans (sansJournal_journal s _)
  · split
    · exact (sansJournal_journal _ _).trans (hput _)
    next t h => exact (written _ _).trans ((hwrites h).trans (hput _))

theorem cutRecords_sansJournal (s : State) : (cutRecords s).sansJournal = s.sansJournal :=
  foldl_keeps State.sansJournal cutRecord cutRecord_sansJournal _ s

theorem commitEntryKept_sansJournal (s : State) : (commitEntryKept s).sansJournal = s.sansJournal := by
  unfold commitEntryKept
  split
  · rfl
  · refine foldl_keeps State.sansJournal _ (fun u e => ?_) _ s
    rcases placeCommit_good u e with hp | ⟨t, hp, ht⟩
    · rw [hp]
    · rw [hp]; exact ht

end Sys2Proof.Machine
end

section
/-! What the flush leaves of the supplies, and the moves of the engine state (Tables 1.7 and 3.5, R103 to R126). -/
namespace Sys2Proof.Machine

/-! Commands to the field outputs change no supply -/

theorem conductNow_power (s : State) (o : Nat) : (conductNow s o).power = s.power := by
  unfold conductNow
  dsimp only
  split <;> rfl

theorem turnOn_power (s : State) (o : Nat) : (turnOn s o).power = s.power := by
  unfold turnOn
  rw [conductNow_power, chPut_power]

theorem followCommand_power (s : State) (o : Nat) : (followCommand s o).power = s.power := by
  unfold followCommand
  dsimp only
  rw [apply_ite State.power, apply_ite State.power, turnOn_power, openOutput_power, ite_self, ite_self]

theorem openOther_power (s : State) (cc was : Nat) (wasOn slow : Bool) : (openOther s cc was wasOn slow).power = s.power := by
  unfold openOther
  rw [apply_ite State.power, apply_ite State.power, apply_ite State.power, openOutput_power, chPut_power, ite_self, ite_self, ite_self]

theorem applyDown_power (s : State) (cc : Nat) (w : CouplerWord) : (applyDown s cc w).power = s.power := by
  have opened (b : Bool) (slow : Bool) : (if b then openOutput s cc slow else s).power = s.power := by
    split
    · exact openOutput_power s cc slow
    · rfl
  have followed (u : State) : (if sideOwner u cc = cc then followCommand u cc else u).power = u.power := by
    split
    · exact followCommand_power u cc
    · rfl
  exact (followed _).trans ((openOther_power _ _ _ _ _).trans (opened _ _))

theorem missDown_power (s : State) (cc : Nat) : (missDown s cc).power = s.power := by
  unfold missDown
  dsimp only
  rw [apply_ite State.power, chPut_power, ite_self]

theorem sendDown_power (s : State) (corrupted : List (Fin 32)) (cc : Nat) (cmd : Bool) : (sendDown s corrupted cc cmd).power = s.power := by
  unfold sendDown
  dsimp only
  rw [apply_ite State.power, missDown_power, applyDown_power, chPut_power, ite_self]

theorem commandOff_power (s : State) (cc : Nat) : (commandOff s cc).power = s.power := by
  unfold commandOff
  dsimp only
  rw [openOutput_power, apply_ite State.power, sendDown_power, ite_self]

theorem outputsOff_power (s : State) : (outputsOff s).power = s.power := foldl_keeps State.power commandOff commandOff_power _ s

/-! The flush keeps VBAT as it is known -/

theorem commitEverything_power (s : State) : (commitEverything s).power = s.power := power_of_journal (commitEverything_sansJournal s)
theorem flushRecords_power (s : State) : (flushRecords s).power = s.power := power_of_journal (flushRecords_sansJournal s)

theorem persistAll_power (s : State) : (persistAll s).power = s.power := by
  unfold persistAll
  split <;> rfl

theorem releaseSummary_power (s : State) : (releaseSummary s).power = s.power := by
  have e := congrArg State.power (releaseSummary_sansReports s); exact e

theorem limitEntry_power (s : State) (e : Entry) : (limitEntry s e).power = s.power := by
  have h := congrArg State.power (limitEntry_sansRecords s e); exact h

theorem flushDone_power (s : State) : (flushDone s).power = s.power := by
  have htheta (u : State) : (if u.plug.image.isSome then persistTheta u else u).power = u.power := by split <;> rfl
  unfold flushDone
  split
  · rfl
  · dsimp only
    rw [commitEverything_power, limitEntry_power, htheta]

theorem flush_vbat (s : State) : (flush s).power.vbat = s.power.vbat := by
  unfold flush
  dsimp only
  rw [outputsOff_power, flushDone_power, commitEverything_power, flushRecords_power, commitEverything_power]
  change (transmitReady _).power.vbat = s.power.vbat
  rw [(transmitReady_transmits _).power_eq, releaseSummary_power, persistAll_power]

/-- A reset that is accepted holds the unit in Starting, with the domains off that its flush has switched off (R111). -/
theorem resetAccepted_leaves (s : State) : (resetAccepted s).power.engine = .starting ∧ (resetAccepted s).power.inReset = true
    ∧ (resetAccepted s).power.domOn = (flush s).power.domOn.filter (fun d => !([2, 3, 4, 7, 8].contains d)) := by
  unfold resetAccepted
  generalize flush s = u
  exact ⟨rfl, rfl, rfl⟩

/-! The supply goes -/

theorem powerDown_leaves (s : State) : (powerDown s).power.vinGood = false ∧ (powerDown s).power.vbat = s.power.vbat
    ∧ (powerDown s).power.engine = (if s.power.vbat then .retention else .off)
    ∧ (s.power.vbat = false → (powerDown s).sealSt.keys = []) ∧ (powerDown s).faults = {} ∧ (powerDown s).zones = [] ∧ (powerDown s).pub = {} := by
  have hcore : (startCore s).power = s.power := rfl
  unfold powerDown
  dsimp only
  rw [hcore]
  cases hvbat : s.power.vbat with
  | true =>
    rw [if_pos rfl, hcore, hvbat]
    exact ⟨rfl, rfl, rfl, nofun, rfl, rfl, rfl⟩
  | false =>
    rw [if_neg (by simp), show (freshD0 (startCore s)).power.vbat = false from hvbat]
    exact ⟨rfl, rfl, rfl, fun _ => rfl, rfl, rfl, rfl⟩

/-- Where VIN fails, the core is without power, after the flush where it ran. -/
theorem vinFailed_leaves (s : State) : ∃ u : State, u.power.vbat = s.power.vbat ∧ powerDown (if coreRuns s then flush s else s) = powerDown u := by
  refine ⟨_, ?_, rfl⟩
  split
  · exact flush_vbat s
  · rfl

/-! The entries to Starting -/

/-- D0 powered from none where the unit comes from Off (R752). -/
def poweredD0 (s : State) : State := if s.power.engine == .off then freshD0 s else s

theorem poweredD0_leaves (s : State) : (poweredD0 s).power = s.power ∧ (poweredD0 s).ident = s.ident := by
  unfold poweredD0
  split <;> exact ⟨rfl, rfl⟩

theorem vinGood_eq (s : State) (h : Bool) : vinGood s h =
    enterStarting { poweredD0 s with power := { (poweredD0 s).power with vinGood := true, vinGoodAt := (poweredD0 s).now, holdUpOk := h } }
      (if s.power.engine == .off then .fromOff else .fromRetention) (startDomains (poweredD0 s)) := rfl

/-- Settles O4: each supply moves the engine state as the definitions of its command have it, the entries to Starting by what they leave of the
unit, and the end of the supply by what the flush keeps of VBAT. -/
theorem suppliesMoveEngine : Obligations.SuppliesMoveEngine := by
  unfold Obligations.SuppliesMoveEngine
  refine ⟨fun s hoff => ?_, fun s h hfrom hfuse => ?_, fun s hrun => ?_, fun s hreset hfuse => ?_, fun s hret => ?_, fun s hret => ?_, fun s hvin => ?_⟩
  · refine answers_of_run (execVbatApplied.eq_def s) ?_
    have he : vbatApplied { s with out := [] } =
        { freshD0 { s with out := [], power := { s.power with vbat := true } } with
          power := { s.power with vbat := true, engine := .retention, domOn := 0 :: s.power.domOn } } :=
      if_pos (by simp [hoff])
    rw [he]
    exact ⟨rfl, rfl, rfl, rfl, rfl⟩
  · have hfrom' : (s.power.engine == .off || s.power.engine == .retention) = true := by rcases hfrom with he | he <;> rw [he] <;> decide
    refine answers_of_guard (b := fun u => u.power.engine == .off || u.power.engine == .retention) (execVinGood.eq_def h s) hfrom' ?_
    rw [vinGood_eq]
    obtain ⟨hpower, hident⟩ := poweredD0_leaves { s with out := [] }
    generalize poweredD0 { s with out := [] } = u at hpower hident ⊢
    have hfuse' : u.ident.fuse1.ok = true ∨ u.ident.fuse2.ok = true := by rw [hident]; exact hfuse
    generalize hcause : (if ({ s with out := [] } : State).power.engine == .off then StartCause.fromOff else .fromRetention) = cause
    let v : State := { u with power := { u.power with vinGood := true, vinGoodAt := u.now, holdUpOk := h } }
    have hp := enterStarting_power (s := v) cause (startDomains u) hfuse'
    have hi := (enterStarting_ident (s := v) cause (startDomains u) hfuse').trans (show { u.ident with decided := false } = _ by rw [hident])
    have hreacts := enterStarting_store (s := v) cause (startDomains u) hfuse'
    have hdomains : startDomains u = List.range 9 ++ s.power.domOn.filter (9 ≤ ·) := by rw [startDomains, hpower]
    generalize enterStarting v cause (startDomains u) = t at hp hi hreacts ⊢
    refine ⟨congrArg Power.engine hp, congrArg Power.step hp, congrArg Power.vinGood hp, (congrArg Power.startCause hp).trans ?_,
      (congrArg Power.domOn hp).trans hdomains, hi, congrArg Power.holdUpOk hp, fun hdown => hreacts hdown⟩
    rw [← hcause]
    simp
  · refine answers_of_guard (execNresetInAccepted.eq_def s) hrun ?_
    obtain ⟨hengine, hreset, hdom⟩ := resetAccepted_leaves { s with out := [] }
    generalize resetAccepted { s with out := [] } = t at hengine hreset hdom ⊢
    refine ⟨hengine, hreset, fun d hd hmem => ?_⟩
    rw [show ({ t with pending := s.pending } : State).power.domOn = _ from hdom, List.mem_filter] at hmem
    simp [List.contains_eq_mem, hd] at hmem
  · refine answers_of_guard (b := fun u => u.power.inReset) (execNresetInReleased.eq_def s) hreset ?_
    let v := measureStore { s with out := [] }
    have hp := enterStarting_power (s := v) .nreset (startDomains { s with out := [] }) hfuse
    have hseal := enterStarting_sealSt (s := v) .nreset (startDomains { s with out := [] }) hfuse
    have hnvm := enterStarting_nvm (s := v) .nreset (startDomains { s with out := [] }) hfuse
    have hreacts := enterStarting_store (s := v) .nreset (startDomains { s with out := [] }) hfuse
    generalize enterStarting v .nreset (startDomains { s with out := [] }) = t at hp hseal hnvm hreacts ⊢
    exact ⟨congrArg Power.engine hp, congrArg Power.inReset hp, congrArg Power.startCause hp, congrArg Power.step hp, hseal, hnvm,
      fun hdown => hreacts ((congrArg Power.holdUpOk hp).symm.trans hdown)⟩
  · refine answers_of_guard (b := fun u => u.power.engine == .retention) (execVbatBelowRetentionMin.eq_def s) ?_ ?_
    · exact beq_of_eq hret
    · exact ⟨rfl, rfl, rfl, rfl⟩
  · refine answers_of_run (execVbatLowErase.eq_def s) ?_
    rw [if_neg (by simp [hret])]
    rfl
  · refine answers_of_guard (b := fun u => u.power.vinGood) (execVinFailed.eq_def s) hvin ?_
    obtain ⟨u, hvbat, hdown⟩ := vinFailed_leaves { s with out := [] }
    have hleft := powerDown_leaves u
    rw [hdown]
    generalize powerDown u = t at hleft ⊢
    rw [hvbat] at hleft
    exact hleft

end Sys2Proof.Machine
end

section
/-! The end of input agreement when the carry link is lost: it leaves the supplies, the link and the fault of its domain (Tables 16.9, 16.11). -/
namespace Sys2Proof.Machine

/-- The supplies, the state of the carry link and the record of the fault of its domain D3. -/
def State.linked (s : State) : Power × Bool × (Bool × Bool) × Option FaultRec :=
  (s.power, s.pair.carryUp, (s.pair.lane0.up, s.pair.lane1.up), faultGet s (keyD 0x0680 3))

/-- What only enters entries and frames, beside other faults, leaves them. -/
theorem linked_of_frame {s t : State} (h : t.sansRecords = s.sansRecords) (hsends : Sends s t)
    (hfault : faultGet t (keyD 0x0680 3) = faultGet s (keyD 0x0680 3)) : t.linked = s.linked := by
  have hpower : t.power = s.power := by have e := congrArg State.power h; exact e
  have hcarry : t.pair.carryUp = s.pair.carryUp := by have e := congrArg (fun u => u.pair.carryUp) h; exact e
  have hup : (t.pair.lane0.up, t.pair.lane1.up) = (s.pair.lane0.up, s.pair.lane1.up) := Prod.ext (hsends.up 0) (hsends.up 1)
  unfold State.linked
  rw [hpower, hcarry, hup, hfault]

theorem journalEntry_linked (s : State) (e : Entry) : (journalEntry s e).linked = s.linked :=
  linked_of_frame (journalEntry_sansRecords s e) (journalEntry_sends s e) (faultGet_of_steady (journalEntry_steady s e) _ (by decide))

theorem causeGone_linked (s : State) (k : FaultKey) (hk : keyNum (keyD 0x0680 3) ≠ keyNum k) : (causeGone s k).linked = s.linked :=
  linked_of_frame (causeGone_sansRecords s k) (causeGone_sends s k) (causeGone_other s k _ hk)

theorem judgeFault_linked (s : State) (k : FaultKey) (det hdl : Nat) (b : Bool) (hk : keyNum (keyD 0x0680 3) ≠ keyNum k)
    (hl : max (faultRow k.code).2.1 (faultRow k.code).1 < 4) : (judgeFault s k det hdl b).linked = s.linked :=
  linked_of_frame (judgeFault_sansRecords s k det hdl b hl) (judgeFault_sends s k det hdl b hl) (judgeFault_other s k _ hk hl det hdl b)

theorem carrySend_linked (s : State) (l : Fin 2) (m : CarryMsg) : (carrySend s l m).linked = s.linked :=
  linked_of_frame (carrySend_sansRecords s l m) (carrySend_sends s l m) (faultGet_congr (congrArg Faults.recs (carrySend_faults s l m)) _)

/-! Breaker messages that are confirmed are decided -/

/-- The cause of a breaker slot's fault goes, where it stands. -/
theorem brkHeard_linked (s : State) (n : Nat) : (if faultStands s (keyB 0x2D40 n) then causeGone s (keyB 0x2D40 n) else s).linked = s.linked := by
  have hk : keyNum (keyD 0x0680 3) ≠ keyNum (keyB 0x2D40 n) := by
    simp only [keyNum, keyD, keyB]
    omega
  split
  · exact causeGone_linked s _ hk
  · rfl

theorem brkAdmit_linked (s : State) (n : Nat) (m : BrkMsg) (i : SIndex) : (brkAdmit s n m i).linked = s.linked := by
  unfold brkAdmit
  dsimp only
  rw [brkHeard_linked, brkEntry, journalEntry_linked]
  rfl

theorem brkUse_linked (s : State) (n : Nat) (m : BrkMsg) : (brkUse s n m).linked = s.linked := by
  unfold brkUse
  dsimp only
  split
  · rfl
  · rw [brkHeard_linked]
    rfl

theorem brkApply_linked (s : State) (n : Nat) (m : BrkMsg) (tick : Nat) (i : SIndex) : (brkApply s n m tick i).linked = s.linked := by
  unfold brkApply
  dsimp only
  split
  · rfl
  · split
    · split <;> rfl
    · split
      · split
        · rfl
        · exact brkAdmit_linked s n m i
      · rfl
  · split
    · rfl
    · split
      · rfl
      · exact brkUse_linked s n m

theorem orderLane_linked (s : State) (n : Fin 2) : (orderLane s n).linked = s.linked := by
  unfold orderLane lanePut laneGet
  dsimp only
  split <;> rfl

theorem decide_linked (s : State) (ds : List DecisionRec) : (decide_ s ds).linked = s.linked := by
  unfold decide_ sendOrdered
  split
  · rw [orderLane_linked, carrySend_linked]
  · rfl

theorem brkDecide_linked (s : State) (n : Nat) (m : BrkMsg) (tick : Nat) : (brkDecide s n (.message m tick)).linked = s.linked := by
  unfold brkDecide
  dsimp only
  split
  · rfl
  · split
    · rw [decide_linked]
      rfl
    · exact brkApply_linked s n m tick _

theorem brkAdvance_linked (s : State) : (brkAdvance s).linked = s.linked := by
  unfold brkAdvance
  split
  · rfl
  · dsimp only
    rw [foldl_keeps State.linked (fun u (h : HeldBrk) => brkDecide u h.slot (.message h.msg h.tick))
      (fun u h => brkDecide_linked u h.slot h.msg h.tick)]
    rfl

/-! Samples that are held pass -/

theorem passMissing_linked (s : State) (n : Nat) (i : SIndex) : (passMissing s n i).linked = s.linked := by
  unfold passMissing
  dsimp only
  split
  · rfl
  · split
    · rw [journalEntry_linked]
      rfl
    · rfl

theorem passReceived_linked (s : State) (x : Sample) : (passReceived s x).linked = s.linked := by
  have jumped (y : SvSlot) : (if x.jumped then svPut s x.slot y else s).linked = s.linked := by split <;> rfl
  unfold passReceived
  dsimp only
  generalize hu : (if x.jumped = true then _ else s) = u
  have hkept : u.linked = s.linked := hu ▸ jumped _
  split
  · rw [passMissing_linked]
    exact hkept
  · exact hkept

theorem followNext_linked (s : State) (n : Nat) (i : SIndex) : (followNext s n i).linked = s.linked := by
  unfold followNext
  dsimp only
  split
  · split <;> rfl
  · rfl

theorem advance_linked : ∀ (fuel : Nat) (s : State) (n : Nat), (advance fuel s n).linked = s.linked
  | 0, _, _ => rfl
  | fuel + 1, s, n => by
    have followed (b : Bool) (u : State) (i : SIndex) : (if b then u else followNext u n i).linked = u.linked := by
      split
      · rfl
      · exact followNext_linked u n i
    unfold advance
    split
    · rfl
    · split
      · rfl
      · dsimp only
        rw [advance_linked fuel]
        split
        · rw [passMissing_linked, followed]
          rfl
        · rw [passReceived_linked, followed]
          rfl

theorem advanceSlot_linked (s : State) (n : Nat) : (advanceSlot s n).linked = s.linked :=
  (show (updateDue _ n).linked = _ from rfl).trans (advance_linked _ s n)

theorem dropAwaited_linked (s : State) : (dropAwaited s).linked = s.linked := by
  unfold dropAwaited
  dsimp only
  rw [foldl_keeps State.linked advanceSlot advanceSlot_linked]
  rfl

/-! The pair state follows -/

theorem startDeciding_linked (s : State) : (startDeciding s).linked = s.linked := by
  unfold startDeciding
  dsimp only
  rw [foldl_keeps State.linked _ (fun s p => by split <;> rfl)]
  rfl

theorem endAgreement_linked (s : State) : (endAgreement s).linked = s.linked := by
  unfold endAgreement
  dsimp only
  rw [dropAwaited_linked, brkAdvance_linked]
  rfl

theorem standAlone_linked (s : State) (st : PairState) : (standAlone s st).linked = s.linked := by
  have decided : (if decides s then s else startDeciding s).linked = s.linked := by
    split
    · rfl
    · exact startDeciding_linked s
  unfold standAlone
  dsimp only
  rw [endAgreement_linked]
  exact decided

theorem abandonSwap_linked (s : State) : (abandonSwap s).linked = s.linked := by
  unfold abandonSwap
  split <;> rfl

theorem toShadow_linked (s : State) : (toShadow s).linked = s.linked := by
  rw [toShadow, judgeFault_linked _ _ _ _ _ (by decide) (by decide), standAlone_linked]

theorem loseStandby_linked (s : State) (p : Nat) : (loseStandby s p).linked = s.linked := by
  rw [loseStandby, endAgreement_linked, abandonSwap_linked]
  rfl

/-- The carry link is lost: both lanes are down with it, and the supplies and the fault of D3 stay (R617). -/
theorem carryLost_linked (s : State) : (carryLost s).linked = (s.power, false, (false, false), faultGet s (keyD 0x0680 3)) := by
  have judged (b : Bool) (u : State) : (if b then judgeFault u (keyU 0x2900) 0 none16 true else u).linked = u.linked := by
    split
    · exact judgeFault_linked u _ _ _ _ (by decide) (by decide)
    · rfl
  unfold carryLost
  dsimp only
  generalize hu : (if carryRuns s = true then _ else _) = u
  have hleft : u.linked = (s.power, false, (false, false), faultGet s (keyD 0x0680 3)) := by
    rw [← hu, judged, abandonSwap_linked]
    rfl
  split
  · exact (toShadow_linked u).trans hleft
  · exact (toShadow_linked u).trans hleft
  · split
    · exact (loseStandby_linked u 4).trans hleft
    · exact hleft
  · exact hleft

end Sys2Proof.Machine
end

section
/-! Publishing and settling read keys: they can empty slots, and fill none (R750, R783). -/
namespace Sys2Proof.Machine

/-- No key slot is filled from `s` to `t`. -/
def OnlyEmpties (s t : State) : Prop := t.sealSt.keys.Sublist s.sealSt.keys

namespace OnlyEmpties

variable {s t u : State}

theorem refl (s : State) : OnlyEmpties s s := List.Sublist.refl _

theorem of_seal (h : t.sealSt = s.sealSt) : OnlyEmpties s t := by
  unfold OnlyEmpties
  rw [h]

theorem of_records (h : t.sansRecords = s.sansRecords) : OnlyEmpties s t := of_seal (keeps_sealSt h)

theorem pub (s : State) (p : Publisher) : OnlyEmpties s { s with pub := p } := refl s

theorem trans (h : OnlyEmpties s t) (k : OnlyEmpties t u) : OnlyEmpties s u := List.Sublist.trans k h

theorem foldl {α : Type} {f : State → α → State} (h : ∀ s x, OnlyEmpties s (f s x)) : ∀ (l : List α) (s : State), OnlyEmpties s (l.foldl f s)
  | [], s => refl s
  | x :: l, s => (h s x).trans (foldl h l (f s x))

theorem empty (h : OnlyEmpties s t) (hs : s.sealSt.keys = []) : t.sealSt.keys = [] := by
  unfold OnlyEmpties at h
  rw [hs] at h
  exact List.sublist_nil.mp h

end OnlyEmpties

open OnlyEmpties

theorem erase_sublist {α : Type} (k : Nat) : ∀ t : Tab α, (Tab.erase t k).Sublist t
  | [] => List.Sublist.refl _
  | (j, v) :: t => by
    unfold Tab.erase
    split
    · exact (erase_sublist k t).cons _
    · exact (erase_sublist k t).cons_cons _

theorem emptySlot_empties (s : State) (n : Nat) : OnlyEmpties s (emptySlot s n) := erase_sublist n s.sealSt.keys

/-! A summary frame -/

theorem readKey_empties (s : State) (n : Nat) : OnlyEmpties s (readKey s n).1 := by
  unfold readKey
  split
  · exact refl s
  · split
    · exact refl s
    · dsimp only
      exact ((emptySlot_empties s n).trans (of_records (journalEntry_sansRecords _ _))).trans (of_records (judgeKeys_sansRecords _))

theorem gooseKey_empties (s : State) (z : Bool) : OnlyEmpties s (gooseKey s z).1 := by
  unfold gooseKey
  split
  · exact refl s
  next n _ =>
    dsimp only
    split <;> exact readKey_empties s n

theorem sendCopy_sealSt (s : State) (p : Port) (l : List Byte) : (sendCopy s p l).sealSt = s.sealSt := by
  unfold sendCopy sendUnit
  dsimp only
  split
  · rfl
  · split <;> cases p <;> rfl

theorem sendStation_sealSt (s : State) (l : List Byte) : (sendStation s l).sealSt = s.sealSt := by
  unfold sendStation
  dsimp only
  rw [sendCopy_sealSt, sendCopy_sealSt]

theorem sendSummary_empties (s : State) (l : List Byte) : OnlyEmpties s (sendSummary s l) := by
  unfold sendSummary
  dsimp only
  split
  · exact (gooseKey_empties s false).trans (of_seal (sendStation_sealSt _ _))
  · exact gooseKey_empties s false

theorem releaseSummary_empties (s : State) : OnlyEmpties s (releaseSummary s) := by
  unfold releaseSummary
  dsimp only
  refine (pub s _).trans (foldl (fun u f => ?_) _ _)
  split
  · exact sendSummary_empties u _
  · exact refl u

/-! State changes of publications -/

theorem numbered_sealSt (s : State) (f : TxFrame) : (numbered s f).1.sealSt = s.sealSt := by
  unfold numbered
  split
  · dsimp only
    split <;> rfl
  · rfl

theorem enqueue_sealSt (s : State) (f : TxFrame) : (enqueue s f).sealSt = s.sealSt := by
  have taken : (numbered s f).1.sealSt = s.sealSt := numbered_sealSt s f
  unfold enqueue
  split
  · exact taken
  · split
    · split
      · exact taken
      · rfl
    · rfl

theorem handGoose_empties (s : State) (p st : Nat) (c : Bool) (l : List Byte) : OnlyEmpties s (handGoose s p st c l) := by
  unfold handGoose
  split
  · split
    · exact of_seal (enqueue_sealSt s _)
    · split
      · exact of_seal rfl
      · exact refl s
  · exact (pub s _).trans (releaseSummary_empties _)

theorem pubSet_sealSt (s : State) (p : Nat) (i : SIndex) (t : Nat × Nat) (q : Nat) (l : List Byte) (r e : Nat) (d : List Byte) (b : Bool) :
    (pubSet s p i t q l r e d b).sealSt = s.sealSt := by
  unfold pubSet
  dsimp only
  split <;> rfl

theorem handChange_empties (s : State) (p : Nat) : OnlyEmpties s (handChange s p) := handGoose_empties s _ _ _ _

theorem zoneChangeNow_empties (s : State) (z : Nat) : OnlyEmpties s (zoneChangeNow s z) := by
  unfold zoneChangeNow zoneChangeAt
  dsimp only
  split
  · exact of_seal (pubSet_sealSt s _ _ _ _ _ _ _ _ _)
  · exact (of_seal (pubSet_sealSt s _ _ _ _ _ _ _ _ _)).trans (handChange_empties _ z)

theorem summaryChange_empties (s : State) : OnlyEmpties s (summaryChange s) := by
  unfold summaryChange
  dsimp only
  exact ((pub s _).trans (of_seal (pubSet_sealSt _ _ _ _ _ _ _ _ _ _))).trans (handChange_empties _ 256)

theorem judgeSummary_empties (s : State) : OnlyEmpties s (judgeSummary s) := by
  unfold judgeSummary
  split
  · exact summaryChange_empties s
  · exact refl s

/-! Publishing judged, and what settles -/

theorem authChanged_empties (s : State) : OnlyEmpties s (authChanged s) := by
  have summed (u : State) : OnlyEmpties u (if summaryRuns u then summaryChange u else u) := by
    split
    · exact summaryChange_empties u
    · exact refl u
  have zoned (u : State) (b : Bool) (l : List Nat) : OnlyEmpties u (if b then l.foldl zoneChangeNow u else u) := by
    split
    · exact foldl zoneChangeNow_empties l u
    · exact refl u
  have stopped (b : Bool) : OnlyEmpties s { judgeKeys s with pub := { (judgeKeys s).pub with stopped := b } } :=
    (of_records (judgeKeys_sansRecords s)).trans (pub _ _)
  unfold authChanged
  dsimp only
  split
  · exact ((stopped _).trans (zoned _ _ _)).trans (summed _)
  · exact stopped _

theorem keysChanged_empties (s : State) : OnlyEmpties s (keysChanged s) := by
  unfold keysChanged
  split
  · exact authChanged_empties s
  · exact refl s

theorem closeSession_sealSt (s : State) (i cause : Nat) : (closeSession s i cause).sealSt = s.sealSt := by
  unfold closeSession
  dsimp only
  split
  · rfl
  · rw [keeps_sealSt (journalEntry_sansRecords _ _)]
    rfl

theorem roleSessions_sealSt (s : State) : (roleSessions s).sealSt = s.sealSt := by
  have closed (u : State) (i : Nat) : (if (fun _ => true) (sessionGet u i) then closeSession u i 2 else u).sealSt = u.sealSt :=
    closeSession_sealSt u i 2
  unfold roleSessions closeSessions
  split
  · exact foldl_keeps State.sealSt (fun u i => if (fun _ => true) (sessionGet u i) then closeSession u i 2 else u) closed _ s
  · rfl

theorem settlePair_empties (s : State) : OnlyEmpties s (settlePair s) := by
  rw [settlePair_eq]
  exact (((keysChanged_empties s).trans (of_seal (roleSessions_sealSt _))).trans (of_records (syncGuarantee_sansRecords _))).trans
    (judgeSummary_empties _)

end Sys2Proof.Machine
end

section
/-! What a withdrawal leaves: the seal and the faults of other keys (Table 1.7, R721). -/
namespace Sys2Proof.Machine

theorem withdraw_sealSt (s : State) : (withdraw s).sealSt = s.sealSt := by
  have coil (u : State) (cc : Nat) : (coilIdle u cc).sealSt = u.sealSt := by
    unfold coilIdle
    rw [keeps_sealSt (causeGone_sansRecords _ _)]
    rfl
  have idle (u : State) : (coilsIdle u).sealSt = u.sealSt := foldl_keeps State.sealSt coilIdle coil _ u
  have twin (u : State) : (twinStopped u false).sealSt = u.sealSt := by
    unfold twinStopped
    rw [keeps_sealSt (causeGone_sansRecords _ _)]
  have start : (enterWithdrawn s).sealSt = s.sealSt := rfl
  unfold withdraw
  dsimp only
  split
  · rw [twin, idle, start]
  · rw [idle, start]

/-- A Withdraw-level fault that is Clear arises: the seal stays, and every fault of another key that a withdrawal does not end (Table 9.5). -/
theorem arise_withdraw_keeps {s : State} {k : FaultKey} (h : faultGet s k = none) (hl : raiseLevel s k.code = 4) (det hdl : Nat) (d : List Byte) :
    (arise s k det hdl d).sealSt = s.sealSt
      ∧ ∀ j, keyNum j ≠ keyNum k → bookkept j = false → j.code / 64 ≠ 0x45 → j.code / 64 ≠ 0x46 → faultGet (arise s k det hdl d) j = faultGet s j := by
  unfold arise
  rw [ariseWith_clear react s k h]
  generalize hr : FaultRec.mk _ _ _ _ _ _ _ _ _ _ _ = r
  have hlevel : r.level = 4 := by rw [← hr]; exact hl
  let u := journalEntry (faultSeq (faultPut s k r) k) (faultEntry s k r 1 d)
  have hseal : u.sealSt = s.sealSt := by
    rw [show u.sealSt = _ from keeps_sealSt (journalEntry_sansRecords _ _)]
    rfl
  have hget (j : FaultKey) (hj : keyNum j ≠ keyNum k) (hb : bookkept j = false) : faultGet u j = faultGet s j := by
    rw [show faultGet u j = _ from faultGet_of_steady (journalEntry_steady _ _) j hb, faultGet_faultSeq, faultGet_faultPut, if_neg hj]
  have he : react s k r 1 d = if coreRuns u then withdraw (unitSnapshots u 0 u.journal.latest) else u := by
    unfold react
    rw [if_pos hlevel]
  rw [he]
  split
  · refine ⟨?_, fun j hj hb h5 h6 => ?_⟩
    · rw [withdraw_sealSt, keeps_sealSt (unitSnapshots_sansRecords _ _ _), hseal]
    · have hrange : j.scope * 4096 + j.inst < 65536 := by
        simp only [bookkept, Bool.or_eq_false_iff, decide_eq_false_iff_not, not_le] at hb
        exact hb.2
      rw [withdraw_other _ j hrange h5 h6, faultGet_congr (congrArg Faults.recs (unitSnapshots_faults _ _ _)), hget j hj hb]
  · exact ⟨hseal, fun j hj hb _ _ => hget j hj hb⟩

end Sys2Proof.Machine
end

section
/-! The loss of a supervised domain (Table 3.2, R98 to R101, R128). -/
namespace Sys2Proof.Machine

/-! What every command of a loss leaves, D1's apart -/

/-- The domain is marked as lost. -/
def markedLost (s : State) (d : Nat) : State := { s with power := { s.power with domLost := addDomain s.power.domLost d } }

/-- The unit after the loss of a domain. -/
def afterLoss (s : State) (d : Nat) : State := withTwin (fun u => domainLost u d) s

theorem domainLost_settles {d : Nat} (h : d ≠ 1) (s : State) : domainLost s d = settlePair (domainReaction (markedLost s d) d) := if_neg h

/-- The reaction, seen without the Reckoner, stands after the pair and the TWIN slot have settled. -/
theorem afterLoss_frame {d : Nat} (h : d ≠ 1) (s : State) : ({ afterLoss s d with reck := {} } : State).sansSettled
    = ({ domainReaction (markedLost s d) d with reck := {} } : State).sansSettled := by
  have htwin := sansSettled_records (withTwin_frame (fun u => domainLost u d) s)
  have hsettle := congrArg (fun u : State => { u with reck := {} }) (settlePair_sansSettled (domainReaction (markedLost s d) d))
  rw [← domainLost_settles h] at hsettle
  exact htwin.trans hsettle

theorem afterLoss_power {d : Nat} (h : d ≠ 1) (s : State) : (afterLoss s d).power = (domainReaction (markedLost s d) d).power := by
  have e := congrArg State.power (afterLoss_frame h s); exact e

theorem afterLoss_plug {d : Nat} (h : d ≠ 1) (s : State) : (afterLoss s d).plug = (domainReaction (markedLost s d) d).plug := by
  have e := congrArg State.plug (afterLoss_frame h s); exact e

theorem afterLoss_field {d : Nat} (h : d ≠ 1) (s : State) : (afterLoss s d).field = (domainReaction (markedLost s d) d).field := by
  have e := congrArg State.field (afterLoss_frame h s); exact e

theorem afterLoss_ring {d : Nat} (h : d ≠ 1) (s : State) : (afterLoss s d).journal.ring = (domainReaction (markedLost s d) d).journal.ring := by
  have e := congrArg (fun u => u.journal.ring) (afterLoss_frame h s); exact e

theorem afterLoss_carryUp {d : Nat} (h : d ≠ 1) (s : State) : (afterLoss s d).pair.carryUp = (domainReaction (markedLost s d) d).pair.carryUp := by
  have e := congrArg (fun u => u.pair.carryUp) (afterLoss_frame h s); exact e

theorem afterLoss_lane {d : Nat} (h : d ≠ 1) (s : State) (n : Fin 2) :
    (laneGet (afterLoss s d) n).up = (laneGet (domainReaction (markedLost s d) d) n).up := by
  have hsends : Sends (domainReaction (markedLost s d) d) (domainLost s d) := by
    rw [domainLost_settles h]
    exact settlePair_sends _
  exact (hsends.trans (withTwin_sends (f := fun u => domainLost u d) (s := s))).up n

/-- The seal, but for slots, is as the reaction leaves it, and no slot is filled. -/
theorem afterLoss_sealSt {d : Nat} (h : d ≠ 1) (s : State) :
    { (afterLoss s d).sealSt with keys := [] } = { (domainReaction (markedLost s d) d).sealSt with keys := [] }
      ∧ OnlyEmpties (domainReaction (markedLost s d) d) (afterLoss s d) := by
  have e := congrArg State.sealSt (afterLoss_frame h s)
  have htwin : (afterLoss s d).sealSt = (domainLost s d).sealSt := by
    have e := congrArg State.sealSt (withTwin_frame (fun u => domainLost u d) s); exact e
  refine ⟨e, OnlyEmpties.trans ?_ (OnlyEmpties.of_seal htwin)⟩
  rw [domainLost_settles h]
  exact settlePair_empties _

theorem afterLoss_reacts {d : Nat} (h : d ≠ 1) {s : State} {k : FaultKey} {l : Nat} (hk : settledRow k l = true)
    (hr : Reacts (domainReaction (markedLost s d) d) k l) : Reacts (afterLoss s d) k l := by
  simp only [settledRow, Bool.and_eq_true, decide_eq_true_eq, bne_iff_ne] at hk
  obtain ⟨⟨hrow, hrange⟩, hclass⟩ := hk
  refine reacts_withTwin hrange hclass ?_
  rw [domainLost_settles h]
  exact reacts_settlePair (bookkept_of_plainRow hrow) hr

theorem mem_markedLost (s : State) (d : Nat) : d ∈ (markedLost s d).power.domLost := (mem_addDomain _ _ _).mpr (.inl rfl)

/-- A loss is taken while the core runs and VIN is good, of a domain that is on and good. -/
theorem answers_domainLost {s : State} {d : Fin 11} {p : State → Prop} (hrun : coreRuns s = true) (hvin : s.power.vinGood = true)
    (hgood : domainGood s d.val = true) (h : p { afterLoss { s with out := [] } d.val with pending := s.pending }) :
    Answers (.domainLost d) s p := by
  refine answers_of_guard (b := fun u => coreRuns u && u.power.vinGood && domainGood u d.val) (execDomainLost.eq_def d s) ?_ h
  change (coreRuns s && s.power.vinGood && domainGood s d.val) = true
  rw [hrun, hvin, hgood]
  rfl

/-! D2, D5 and D6: the unit withdraws (R99) -/

theorem withdrawnDomain_row {d : Nat} (h : d ∈ [2, 5, 6]) : settledRow (keyD 0x0640 d) 4 = true := by
  simp only [List.mem_cons, List.not_mem_nil, or_false] at h
  rcases h with rfl | rfl | rfl <;> decide

theorem domainReaction_withdrawn {d : Nat} (h : d ∈ [2, 5, 6]) (s : State) : domainReaction s d =
    arise { s with power := { s.power with pllLocked := s.power.pllLocked && d != 6 } } (keyD 0x0640 d) d none16 [] := by
  simp only [List.mem_cons, List.not_mem_nil, or_false] at h
  rcases h with rfl | rfl | rfl <;> simp [domainReaction]

theorem domainReaction_withdraws {s : State} {d : Nat} (h : d ∈ [2, 5, 6]) (hrun : coreRuns s = true) (hclear : faultGet s (keyD 0x0640 d) = none) :
    (domainReaction s d).power = { s.power with pllLocked := s.power.pllLocked && d != 6, engine := .withdrawn }
      ∧ Reacts (domainReaction s d) (keyD 0x0640 d) 4 := by
  have hrow := withdrawnDomain_row h
  have hplain := plainRow_of_settledRow hrow
  have hlevel (u : State) : raiseLevel u 0x0640 = 4 := raiseLevel_row u 0x0640 (by decide) (by decide)
  rw [domainReaction_withdrawn h]
  let u : State := { s with power := { s.power with pllLocked := s.power.pllLocked && d != 6 } }
  exact ⟨arise_withdraws u (keyD 0x0640 d) d none16 [] hclear (hlevel u) hrun, reacts_arise_row (s := u) hclear hplain d none16 []⟩

/-! D3, D4 and D8: the unit goes on without them (R98) -/

theorem disabledDomain_row {d : Nat} (h : d ∈ [3, 4, 8]) : settledRow (keyD 0x0680 d) 2 = true := by
  simp only [List.mem_cons, List.not_mem_nil, or_false] at h
  rcases h with rfl | rfl | rfl <;> decide

theorem disabledDomain_below (d : Nat) : max (faultRow (keyD 0x0680 d).code).2.1 (faultRow (keyD 0x0680 d).code).1 < 4 := by
  unfold keyD
  dsimp only
  decide

/-- The fault of a domain without which the unit goes on, raised where it was Clear. -/
theorem disabledDomain_raised {s : State} {d : Nat} (h : d ∈ [3, 4, 8]) (hclear : faultGet s (keyD 0x0680 d) = none) :
    (arise s (keyD 0x0680 d) d none16 []).sansRecords = s.sansRecords ∧ Reacts (arise s (keyD 0x0680 d) d none16 []) (keyD 0x0680 d) 2 :=
  ⟨arise_sansRecords s _ d none16 [] (disabledDomain_below d), reacts_arise_row hclear (plainRow_of_settledRow (disabledDomain_row h)) d none16 []⟩

/-- Of D3 a twin loses the carry link with it. -/
theorem domainReaction_carry {s : State} (hclear : faultGet s (keyD 0x0680 3) = none) :
    (domainReaction s 3).power = s.power ∧ Reacts (domainReaction s 3) (keyD 0x0680 3) 2
      ∧ (isTwin s = true → (domainReaction s 3).pair.carryUp = false ∧ ∀ n, (laneGet (domainReaction s 3) n).up = false) := by
  obtain ⟨hframe, hreacts⟩ := disabledDomain_raised (d := 3) (by decide) hclear
  have he : domainReaction s 3 = if isTwin (arise s (keyD 0x0680 3) 3 none16 []) then carryLost (arise s (keyD 0x0680 3) 3 none16 [])
      else arise s (keyD 0x0680 3) 3 none16 [] := rfl
  rw [he]
  generalize arise s (keyD 0x0680 3) 3 none16 [] = u at hframe hreacts ⊢
  have hpower : u.power = s.power := by have e := congrArg State.power hframe; exact e
  have htwin : isTwin u = isTwin s := by have e := congrArg isTwin hframe; exact e
  rw [htwin]
  cases ht : isTwin s with
  | false => exact ⟨hpower, hreacts, nofun⟩
  | true =>
    have hlinked := carryLost_linked u
    unfold State.linked at hlinked
    simp only [Prod.mk.injEq] at hlinked
    obtain ⟨hlost, hcarry, ⟨hup0, hup1⟩, hfault⟩ := hlinked
    refine ⟨hlost.trans hpower, ?_, fun _ => ⟨hcarry, fun n => ?_⟩⟩
    · rw [if_pos rfl]
      unfold Reacts
      rw [hfault]
      exact hreacts
    · rw [if_pos rfl]
      unfold laneGet
      split
      · exact hup0
      · exact hup1

theorem domainReaction_ring {s : State} (hclear : faultGet s (keyD 0x0680 4) = none) :
    (domainReaction s 4).power = s.power ∧ Reacts (domainReaction s 4) (keyD 0x0680 4) 2 ∧ (domainReaction s 4).journal.ring = [] := by
  obtain ⟨hframe, hreacts⟩ := disabledDomain_raised (s := { s with journal := { s.journal with ring := [] } }) (d := 4) (by decide) hclear
  refine ⟨?_, hreacts, ?_⟩
  · have e := congrArg State.power hframe; exact e
  · have e := congrArg (fun u => u.journal.ring) hframe; exact e

theorem domainReaction_plug {s : State} (hclear : faultGet s (keyD 0x0680 8) = none) :
    (domainReaction s 8).power = s.power ∧ Reacts (domainReaction s 8) (keyD 0x0680 8) 2
      ∧ (domainReaction s 8).plug.scanBroken = (s.plug.scanBroken || s.plug.scanning) := by
  obtain ⟨hframe, hreacts⟩ := disabledDomain_raised
    (s := { s with plug := { s.plug with scanBroken := s.plug.scanBroken || s.plug.scanning } }) (d := 8) (by decide) hclear
  refine ⟨?_, hreacts, ?_⟩
  · have e := congrArg State.power hframe; exact e
  · have e := congrArg (fun u => u.plug.scanBroken) hframe; exact e

/-- Each of them raises its fault and leaves the supplies. -/
theorem domainReaction_disables {s : State} {d : Nat} (h : d ∈ [3, 4, 8]) (hclear : faultGet s (keyD 0x0680 d) = none) :
    (domainReaction s d).power = s.power ∧ Reacts (domainReaction s d) (keyD 0x0680 d) 2 := by
  simp only [List.mem_cons, List.not_mem_nil, or_false] at h
  rcases h with rfl | rfl | rfl
  · obtain ⟨hpower, hreacts, -⟩ := domainReaction_carry hclear
    exact ⟨hpower, hreacts⟩
  · obtain ⟨hpower, hreacts, -⟩ := domainReaction_ring hclear
    exact ⟨hpower, hreacts⟩
  · obtain ⟨hpower, hreacts, -⟩ := domainReaction_plug hclear
    exact ⟨hpower, hreacts⟩

/-! D7: the inputs of the ADC (R98) -/

theorem domainReaction_adc {s : State} (hclear : faultGet s (keyU 0x42C0) = none) :
    (domainReaction s 7).power = s.power ∧ Reacts (domainReaction s 7) (keyU 0x42C0) 3 := by
  have he : domainReaction s 7 = arise s (keyU 0x42C0) 0 none16 [] := judgeFault_clear hclear 0 none16
  rw [he]
  exact ⟨arise_power s _ 0 none16 [] (by decide), reacts_arise_row hclear (by decide) 0 none16 []⟩

/-! D9 and D10: the field groups (R97, R100) -/

theorem domainReaction_group (s : State) (g : Group) : domainReaction s (9 + groupNum g) = fieldLost s g := by cases g <;> rfl

end Sys2Proof.Machine
end

section
/-! The losses of D0 and of D1, and all of them (Table 3.2, R101, R128, R752, R753). -/
namespace Sys2Proof.Machine

/-! D0: its slots are empty -/

/-- D0 as it is when it is powered again, its port not live. -/
def resetD0 (s : State) : State := freshD0 { s with sealSt := { s.sealSt with live := false } }

/-- What the core, where it reads the events, makes of D0's reset (R753). -/
def readD0 (s : State) : State :=
  if coreReads s then causeGoneU (portStops (eraseEntry { s with sealSt := { s.sealSt with evRestart := false } } 3)) 0x0A00 else s

theorem retentionLost_eq (s : State) : retentionLost s = keysChanged (judgeFault (readD0 (resetD0 s)) (keyU 0x0900) 0 none16 true) := rfl

theorem portStops_sansRecords (s : State) : (portStops s).sansRecords = s.sansRecords := by
  unfold portStops
  split
  · exact causeGoneU_sansRecords s 0x0A40
  · rfl

theorem portStops_other (s : State) {k : FaultKey} (hk : keyNum k ≠ keyNum (keyU 0x0A40)) : faultGet (portStops s) k = faultGet s k := by
  unfold portStops
  split
  · exact causeGone_other s (keyU 0x0A40) k hk
  · rfl

/-- The reading takes the event and enters the erase; of the faults it ends those of the port and of the mesh at most. -/
theorem readD0_leaves (s : State) : (readD0 s).sansRecords
      = ({ s with sealSt := { s.sealSt with evRestart := s.sealSt.evRestart && !coreReads s } } : State).sansRecords
    ∧ faultGet (readD0 s) (keyU 0x0900) = faultGet s (keyU 0x0900) := by
  unfold readD0
  cases coreReads s with
  | false => simp
  | true =>
    rw [if_pos rfl]
    refine ⟨?_, ?_⟩
    · rw [causeGoneU_sansRecords, portStops_sansRecords, eraseEntry, journalEntry_sansRecords]
      simp
    · rw [causeGoneU, causeGone_other _ (keyU 0x0A00) _ (by decide), portStops_other _ (by decide), eraseEntry,
        faultGet_of_steady (journalEntry_steady _ _) _ (by decide)]
      rfl

/-- D0's loss: the fault, and the seal as D0 has it when it is powered again. -/
theorem retentionLost_leaves {s : State} (hclear : faultGet s (keyU 0x0900) = none) :
    (retentionLost s).power = s.power ∧ Reacts (retentionLost s) (keyU 0x0900) 2 ∧ (retentionLost s).sealSt.keys = []
      ∧ (retentionLost s).sealSt.latch = false ∧ (retentionLost s).sealSt.live = false
      ∧ (coreReads s = false → (retentionLost s).sealSt.evRestart = true) := by
  obtain ⟨hread, hfault⟩ := readD0_leaves (resetD0 s)
  have hclear' : faultGet (readD0 (resetD0 s)) (keyU 0x0900) = none := hfault.trans hclear
  have hframe := (arise_sansRecords (readD0 (resetD0 s)) (keyU 0x0900) 0 none16 [] (by decide)).trans hread
  have hreacts : Reacts (arise (readD0 (resetD0 s)) (keyU 0x0900) 0 none16 []) (keyU 0x0900) 2 := reacts_arise_row hclear' (by decide) 0 none16 []
  rw [retentionLost_eq, judgeFault_clear hclear']
  generalize arise (readD0 (resetD0 s)) (keyU 0x0900) 0 none16 [] = u at hframe hreacts ⊢
  have hpower : u.power = s.power := by have e := congrArg State.power hframe; exact e
  have hseal : u.sealSt = { (resetD0 s).sealSt with evRestart := (resetD0 s).sealSt.evRestart && !coreReads (resetD0 s) } := keeps_sealSt hframe
  have hrest := keysChanged_sansReports u
  have hsteady : steady (keysChanged u) = steady u := by
    unfold keysChanged
    split
    · exact authChanged_steady u
    · rfl
  have hkeys : (keysChanged u).sealSt.keys = [] := (keysChanged_empties u).empty (by rw [hseal]; rfl)
  have hsame : { (keysChanged u).sealSt with keys := [] } = { u.sealSt with keys := [] } := by have e := congrArg State.sealSt hrest; exact e
  rw [hseal] at hsame
  refine ⟨?_, ?_, hkeys, congrArg Seal.latch hsame, congrArg Seal.live hsame, fun hunread => (congrArg Seal.evRestart hsame).trans ?_⟩
  · have e := congrArg State.power hrest
    exact e.trans hpower
  · unfold Reacts
    rw [faultGet_of_steady hsteady _ (by decide)]
    exact hreacts
  · dsimp only
    rw [show coreReads (resetD0 s) = false from hunread]
    rfl

/-! D1: an internal restart -/

theorem finishWrite_keeps (s : State) : (finishWrite s).sealSt = s.sealSt ∧ (finishWrite s).ident = s.ident := by
  unfold finishWrite
  split
  · split <;> exact ⟨rfl, rfl⟩
  · exact ⟨rfl, rfl⟩

theorem finishWrite_idle {s : State} (h : stnumNext s = none) : (finishWrite s).nvm = s.nvm := by
  unfold finishWrite
  rw [h]

theorem finishWrite_writes {s : State} {p : Nat} (h : stnumNext s = some p) (hon : storeOn s = true) :
    (finishWrite s).nvm = { s.nvm with stNum := Tab.put 0 s.nvm.stNum p (nextNum (persisted s p)) } := by
  unfold finishWrite
  rw [h]
  dsimp only
  rw [if_pos hon]

/-- The unit as its core restarts: a write that was begun is made, a commit has its entry, and records keep what is in the store. -/
def restartBase (s : State) : State := measureStore (cutRecords (commitEntryKept (finishWrite s)))

theorem restartBase_keeps (s : State) : (restartBase s).sealSt = s.sealSt ∧ (restartBase s).ident = s.ident
    ∧ (restartBase s).nvm = (finishWrite s).nvm := by
  have h : (cutRecords (commitEntryKept (finishWrite s))).sansJournal = (finishWrite s).sansJournal :=
    (cutRecords_sansJournal _).trans (commitEntryKept_sansJournal _)
  have hnvm := nvm_of_journal h
  obtain ⟨hseal, hident⟩ := finishWrite_keeps s
  exact ⟨(sealSt_of_journal h).trans hseal, (ident_of_journal h).trans hident, hnvm⟩

theorem internalRestart_eq (s : State) : internalRestart s = enterStarting (restartBase s) .internalRestart (startDomains s) := rfl

theorem internalRestart_leaves {s : State} (hfuse : s.ident.fuse1.ok = true ∨ s.ident.fuse2.ok = true) :
    coreRuns (internalRestart s) = true ∧ (internalRestart s).power.engine = .starting
      ∧ (internalRestart s).power.startCause = .internalRestart ∧ (internalRestart s).power.step = .straps
      ∧ (internalRestart s).sealSt = s.sealSt ∧ (internalRestart s).nvm = (finishWrite s).nvm
      ∧ ((internalRestart s).power.holdUpOk = false → Reacts (internalRestart s) (keyU 0x4A00) 2)
      ∧ faultGet (internalRestart s) (keyD 0x0640 1) = none := by
  obtain ⟨hseal, hident, hnvm⟩ := restartBase_keeps s
  have hfuse' : (restartBase s).ident.fuse1.ok = true ∨ (restartBase s).ident.fuse2.ok = true := by rw [hident]; exact hfuse
  have hp := enterStarting_power .internalRestart (startDomains s) hfuse'
  have hstore := enterStarting_store .internalRestart (startDomains s) hfuse'
  have hother := enterStarting_clear .internalRestart (startDomains s) hfuse' (k := keyD 0x0640 1) (by decide) (by decide)
  have hseal' := (enterStarting_sealSt .internalRestart (startDomains s) hfuse').trans hseal
  have hnvm' := (enterStarting_nvm .internalRestart (startDomains s) hfuse').trans hnvm
  rw [internalRestart_eq]
  generalize enterStarting (restartBase s) .internalRestart (startDomains s) = t at *
  refine ⟨?_, congrArg Power.engine hp, congrArg Power.startCause hp, congrArg Power.step hp, hseal', hnvm',
    fun hdown => hstore ((congrArg Power.holdUpOk hp).symm.trans hdown), hother⟩
  unfold coreRuns
  rw [hp]
  rfl

/-- D1's loss, with the withdrawal where it comes in step 4 (R128). -/
theorem coreLost_leaves {s : State} (hfuse : s.ident.fuse1.ok = true ∨ s.ident.fuse2.ok = true) :
    (coreLost s).power.startCause = .internalRestart ∧ (coreLost s).power.step = .straps
      ∧ (coreLost s).sealSt = s.sealSt ∧ (coreLost s).nvm = (finishWrite s).nvm
      ∧ ((coreLost s).power.holdUpOk = false → Reacts (coreLost s) (keyU 0x4A00) 2)
      ∧ (if atStep s .straps = true then (coreLost s).power.engine = .withdrawn ∧ Reacts (coreLost s) (keyD 0x0640 1) 4
         else (coreLost s).power.engine = .starting ∧ faultGet (coreLost s) (keyD 0x0640 1) = none) := by
  obtain ⟨hrun, hengine, hcause, hstep, hseal, hnvm, hstore, hclear⟩ := internalRestart_leaves hfuse
  have he : coreLost s = if atStep s .straps then arise (internalRestart s) (keyD 0x0640 1) 1 none16 [] else internalRestart s := rfl
  rw [he]
  generalize internalRestart s = t at *
  split
  next =>
    have hlevel : raiseLevel t (keyD 0x0640 1).code = 4 := raiseLevel_row t 0x0640 (by decide) (by decide)
    have hp := arise_withdraws t (keyD 0x0640 1) 1 none16 [] hclear hlevel hrun
    obtain ⟨hkept, hothers⟩ := arise_withdraw_keeps hclear hlevel 1 none16 []
    have hraised : Reacts (arise t (keyD 0x0640 1) 1 none16 []) (keyD 0x0640 1) 4 := reacts_arise_row hclear (by decide) 1 none16 []
    have hn : (arise t (keyD 0x0640 1) 1 none16 []).nvm = t.nvm := by
      have e := congrArg State.nvm (arise_sansCourse t (keyD 0x0640 1) 1 none16 []); exact e
    have hother := hothers (keyU 0x4A00) (by decide) (by decide) (by decide) (by decide)
    generalize arise t (keyD 0x0640 1) 1 none16 [] = u at *
    refine ⟨(congrArg Power.startCause hp).trans hcause, (congrArg Power.step hp).trans hstep, hkept.trans hseal, hn.trans hnvm,
      fun hdown => ?_, congrArg Power.engine hp, hraised⟩
    unfold Reacts
    rw [hother]
    exact hstore ((congrArg Power.holdUpOk hp).symm.trans hdown)
  next => exact ⟨hcause, hstep, hseal, hnvm, hstore, hengine, hclear⟩

/-! What each loss leaves of the unit -/

theorem afterLoss_withdraws {s : State} {d : Nat} (hd : d ∈ [2, 5, 6]) (hrun : coreRuns s = true) (hclear : faultGet s (keyD 0x0640 d) = none) :
    (afterLoss s d).power.engine = .withdrawn ∧ d ∈ (afterLoss s d).power.domLost ∧ Reacts (afterLoss s d) (keyD 0x0640 d) 4
      ∧ (d = 6 → (afterLoss s d).power.pllLocked = false) := by
  have hne : d ≠ 1 := by rintro rfl; simp at hd
  obtain ⟨hpower, hreacts⟩ := domainReaction_withdraws (s := markedLost s d) hd hrun hclear
  rw [afterLoss_power hne, hpower]
  exact ⟨rfl, mem_markedLost s d, afterLoss_reacts hne (withdrawnDomain_row hd) hreacts, fun h6 => by simp [h6]⟩

theorem afterLoss_disables {s : State} {d : Nat} (hd : d ∈ [3, 4, 8]) (hclear : faultGet s (keyD 0x0680 d) = none) :
    (afterLoss s d).power.engine = s.power.engine ∧ d ∈ (afterLoss s d).power.domLost ∧ Reacts (afterLoss s d) (keyD 0x0680 d) 2 := by
  have hne : d ≠ 1 := by rintro rfl; simp at hd
  obtain ⟨hpower, hreacts⟩ := domainReaction_disables (s := markedLost s d) hd hclear
  rw [afterLoss_power hne, hpower]
  exact ⟨rfl, mem_markedLost s d, afterLoss_reacts hne (disabledDomain_row hd) hreacts⟩

theorem afterLoss_carry {s : State} (hclear : faultGet s (keyD 0x0680 3) = none) (htwin : isTwin s = true) :
    (afterLoss s 3).pair.carryUp = false ∧ (afterLoss s 3).pair.lane0.up = false ∧ (afterLoss s 3).pair.lane1.up = false := by
  obtain ⟨-, -, hcarry⟩ := domainReaction_carry (s := markedLost s 3) hclear
  obtain ⟨hup, hlanes⟩ := hcarry htwin
  have hlane (n : Fin 2) := (afterLoss_lane (d := 3) (by decide) s n).trans (hlanes n)
  exact ⟨(afterLoss_carryUp (by decide) s).trans hup, hlane 0, hlane 1⟩

theorem afterLoss_scan {s : State} (hclear : faultGet s (keyD 0x0680 8) = none) (hscans : s.plug.scanning = true) :
    (afterLoss s 8).plug.scanBroken = true := by
  obtain ⟨-, -, hbroken⟩ := domainReaction_plug (s := markedLost s 8) hclear
  rw [afterLoss_plug (by decide), hbroken]
  simp [markedLost, hscans]

theorem afterLoss_emptiesRing {s : State} (hclear : faultGet s (keyD 0x0680 4) = none) : (afterLoss s 4).journal.ring = [] := by
  obtain ⟨-, -, hring⟩ := domainReaction_ring (s := markedLost s 4) hclear
  rw [afterLoss_ring (by decide), hring]

theorem afterLoss_adc {s : State} (hclear : faultGet s (keyU 0x42C0) = none) :
    7 ∈ (afterLoss s 7).power.domLost ∧ Reacts (afterLoss s 7) (keyU 0x42C0) 3 := by
  obtain ⟨hpower, hreacts⟩ := domainReaction_adc (s := markedLost s 7) hclear
  rw [afterLoss_power (by decide), hpower]
  exact ⟨mem_markedLost s 7, afterLoss_reacts (by decide) (by decide) hreacts⟩

theorem afterLoss_retention {s : State} (hclear : faultGet s (keyU 0x0900) = none) :
    (afterLoss s 0).sealSt.keys = [] ∧ (afterLoss s 0).sealSt.latch = false ∧ (afterLoss s 0).sealSt.live = false
      ∧ (coreReads s = false → (afterLoss s 0).sealSt.evRestart = true)
      ∧ 0 ∈ (afterLoss s 0).power.domLost ∧ Reacts (afterLoss s 0) (keyU 0x0900) 2 := by
  obtain ⟨hpower, hreacts, hkeys, hlatch, hlive, hrestart⟩ := retentionLost_leaves (s := markedLost s 0) hclear
  obtain ⟨hseal, hempties⟩ := afterLoss_sealSt (d := 0) (by decide) s
  rw [afterLoss_power (by decide), show (domainReaction (markedLost s 0) 0).power = _ from hpower]
  exact ⟨hempties.empty hkeys, (congrArg Seal.latch hseal).trans hlatch, (congrArg Seal.live hseal).trans hlive,
    fun hunread => (congrArg Seal.evRestart hseal).trans (hrestart hunread), mem_markedLost s 0, afterLoss_reacts (by decide) (by decide) hreacts⟩

theorem afterLoss_group {s : State} {g : Group} (hrun : coreRuns s = true) (hclear : faultGet s (keyG 0x3B00 g) = none) :
    (9 + groupNum g) ∈ (afterLoss s (9 + groupNum g)).power.domLost ∧ (groupGet (afterLoss s (9 + groupNum g)) g).running = false
      ∧ (∀ cc ∈ groupChannels g, (chGet (afterLoss s (9 + groupNum g)) cc).on = false)
      ∧ Reacts (afterLoss s (9 + groupNum g)) (keyG 0x3B00 g) 2 := by
  have hne : 9 + groupNum g ≠ 1 := by omega
  obtain ⟨hfield, hpower, hreacts⟩ := fieldLost_leaves (s := markedLost s (9 + groupNum g)) hrun hclear
  rw [← domainReaction_group] at hfield hpower hreacts
  have hfield' := (afterLoss_field hne s).trans hfield
  refine ⟨?_, ?_, fun cc hcc => ?_, afterLoss_reacts hne (groupFault_row g) hreacts⟩
  · rw [afterLoss_power hne, hpower, unsupplied_power]
    exact mem_markedLost s (9 + groupNum g)
  · rw [groupGet_congr hfield', unsupplied_group]
  · rw [chGet_congr hfield', unsupplied_on hcc]

theorem afterLoss_core {s : State} (hfuse : s.ident.fuse1.ok = true ∨ s.ident.fuse2.ok = true) :
    (afterLoss s 1).power.startCause = .internalRestart ∧ (afterLoss s 1).power.step = .straps
      ∧ (afterLoss s 1).sealSt = s.sealSt ∧ ((afterLoss s 1).power.holdUpOk = false → Reacts (afterLoss s 1) (keyU 0x4A00) 2)
      ∧ (stnumNext s = none → (afterLoss s 1).nvm = s.nvm)
      ∧ (∀ p, stnumNext s = some p → storeOn s = true →
        (afterLoss s 1).nvm = { s.nvm with stNum := Tab.put 0 s.nvm.stNum p (nextNum (persisted s p)) })
      ∧ (if atStep s .straps = true then (afterLoss s 1).power.engine = .withdrawn ∧ Reacts (afterLoss s 1) (keyD 0x0640 1) 4
         else (afterLoss s 1).power.engine = .starting ∧ faultGet (afterLoss s 1) (keyD 0x0640 1) = none) := by
  obtain ⟨hcause, hstep, hseal, hnvm, hstore, hend⟩ := coreLost_leaves hfuse
  have he : afterLoss s 1 = withTwin coreLost s := rfl
  have hpower : (afterLoss s 1).power = (coreLost s).power := withTwin_power coreLost s
  have hseal' : (afterLoss s 1).sealSt = (coreLost s).sealSt := by have e := congrArg State.sealSt (withTwin_frame coreLost s); exact e
  have hnvm' : (afterLoss s 1).nvm = (coreLost s).nvm := by have e := congrArg State.nvm (withTwin_frame coreLost s); exact e
  have hreacts {k : FaultKey} {l : Nat} (hk : k.scope * 4096 + k.inst < 65536) (hc : k.code / 64 ≠ 0x45) (h : Reacts (coreLost s) k l) :
      Reacts (afterLoss s 1) k l := reacts_withTwin (f := coreLost) hk hc h
  have hget : faultGet (afterLoss s 1) (keyD 0x0640 1) = faultGet (coreLost s) (keyD 0x0640 1) :=
    withTwin_faultGet coreLost s _ (by decide) (by decide)
  rw [hpower, hseal', hnvm', hnvm, hget]
  refine ⟨hcause, hstep, hseal, fun hdown => hreacts (by decide) (by decide) (hstore hdown), finishWrite_idle, fun p hp hon => finishWrite_writes hp hon, ?_⟩
  split at hend
  next h => rw [if_pos h]; exact ⟨hend.1, hreacts (by decide) (by decide) hend.2⟩
  next h => rw [if_neg h]; exact hend

/-- Settles O9: each reaction leaves what its domain calls for, and the settling of the pair and of the TWIN slot keeps it. -/
theorem domainLosses : Obligations.DomainLosses := by
  unfold Obligations.DomainLosses
  refine ⟨fun s d hrun hvin hgood hd hclear => answers_domainLost hrun hvin hgood ?_, fun s d hrun hvin hgood hd hclear => answers_domainLost hrun hvin hgood ?_,
    fun s hrun hvin hgood hfuse => answers_domainLost hrun hvin hgood ?_, fun s hrun hvin hgood hclear => answers_domainLost hrun hvin hgood ?_,
    fun s hrun hvin hgood hclear => answers_domainLost hrun hvin hgood ?_, fun s d g hrun hvin hgood hd hclear => answers_domainLost hrun hvin hgood ?_⟩
  · have h := afterLoss_withdraws (s := { s with out := [] }) hd hrun hclear
    generalize afterLoss { s with out := [] } d.val = t at h ⊢
    exact h
  · obtain ⟨hengine, hlost, hreacts⟩ := afterLoss_disables (s := { s with out := [] }) hd hclear
    have hcarry (h3 : d.val = 3) (htwin : isTwin s = true) : (afterLoss { s with out := [] } d.val).pair.carryUp = false
        ∧ (afterLoss { s with out := [] } d.val).pair.lane0.up = false ∧ (afterLoss { s with out := [] } d.val).pair.lane1.up = false := by
      rw [h3] at hclear ⊢
      exact afterLoss_carry (s := { s with out := [] }) hclear htwin
    have hring (h4 : d.val = 4) : (afterLoss { s with out := [] } d.val).journal.ring = [] := by
      rw [h4] at hclear ⊢
      exact afterLoss_emptiesRing (s := { s with out := [] }) hclear
    have hscan (h8 : d.val = 8) (hscans : s.plug.scanning = true) : (afterLoss { s with out := [] } d.val).plug.scanBroken = true := by
      rw [h8] at hclear ⊢
      exact afterLoss_scan (s := { s with out := [] }) hclear hscans
    generalize afterLoss { s with out := [] } d.val = t at *
    exact ⟨fun _ => hengine, hlost, hreacts, hcarry, hring, hscan⟩
  · have h := afterLoss_core (s := { s with out := [] }) hfuse
    rw [show (1 : Fin 11).val = 1 from rfl]
    generalize afterLoss { s with out := [] } 1 = t at h ⊢
    exact h
  · have h := afterLoss_adc (s := { s with out := [] }) hclear
    rw [show (7 : Fin 11).val = 7 from rfl]
    generalize afterLoss { s with out := [] } 7 = t at h ⊢
    exact h
  · have h := afterLoss_retention (s := { s with out := [] }) hclear
    rw [show (0 : Fin 11).val = 0 from rfl]
    generalize afterLoss { s with out := [] } 0 = t at h ⊢
    exact h
  · have h := afterLoss_group (s := { s with out := [] }) hrun hclear
    rw [← hd] at h
    generalize afterLoss { s with out := [] } d.val = t at h ⊢
    exact h

end Sys2Proof.Machine
end

section
/-! What a zone evaluates, and the end of a stream, leave of the unit: their own parts apart, all of it (R34, R266, R445, R473 to R481). -/
namespace Sys2Proof.Machine

/-- The unit without its zones, streams, clocks and records, and without the pair: what samples and agreement leave. -/
def State.unitAlone (s : State) : State := { s.unitOnly with waits := [], pipesY := [], time := {}, pair := {} }

theorem unitAlone_of {s t : State} (h : t.unitOnly = s.unitOnly) : t.unitAlone = s.unitAlone := by
  unfold State.unitAlone
  rw [h]

theorem unitAlone_records {s t : State} (h : t.sansRecords = s.sansRecords) : t.unitAlone = s.unitAlone := unitAlone_of (unitOnly_records h)

@[simp] theorem causeGone_unitAlone (s : State) (k : FaultKey) : (causeGone s k).unitAlone = s.unitAlone := unitAlone_of (causeGone_unitOnly s k)
@[simp] theorem causeGoneU_unitAlone (s : State) (c : Nat) : (causeGoneU s c).unitAlone = s.unitAlone := causeGone_unitAlone s (keyU c)
theorem arise_unitAlone (s : State) (k : FaultKey) (det hdl : Nat) (d : List Byte) (h : max (faultRow k.code).2.1 (faultRow k.code).1 < 4) :
    (arise s k det hdl d).unitAlone = s.unitAlone := unitAlone_of (arise_unitOnly s k det hdl d h)
theorem judgeFault_unitAlone (s : State) (k : FaultKey) (det hdl : Nat) (b : Bool) (h : max (faultRow k.code).2.1 (faultRow k.code).1 < 4) :
    (judgeFault s k det hdl b).unitAlone = s.unitAlone := unitAlone_of (judgeFault_unitOnly s k det hdl b h)
@[simp] theorem submitEntry_unitAlone (s : State) (e : Entry) : (submitEntry s e).unitAlone = s.unitAlone := unitAlone_of (submitEntry_unitOnly s e)
@[simp] theorem journalEntry_unitAlone (s : State) (e : Entry) : (journalEntry s e).unitAlone = s.unitAlone := unitAlone_of (journalEntry_unitOnly s e)
@[simp] theorem unitSnapshots_unitAlone (s : State) (t : Nat) (i : SIndex) : (unitSnapshots s t i).unitAlone = s.unitAlone :=
  unitAlone_records (unitSnapshots_sansRecords s t i)
@[simp] theorem carrySend_unitAlone (s : State) (l : Fin 2) (m : CarryMsg) : (carrySend s l m).unitAlone = s.unitAlone :=
  unitAlone_records (carrySend_sansRecords s l m)
@[simp] theorem coilsFollow_unitAlone (l : List Nat) (s : State) : (coilsFollow l s).unitAlone = s.unitAlone := unitAlone_of (coilsFollow_unitOnly l s)
@[simp] theorem zonePut_unitAlone (s : State) (z : Nat) (x : Zone) : (zonePut s z x).unitAlone = s.unitAlone := rfl
@[simp] theorem coilPut_unitAlone (s : State) (cc : Nat) (c : Coil) : (coilPut s cc c).unitAlone = s.unitAlone := rfl
@[simp] theorem svPut_unitAlone (s : State) (n : Nat) (x : SvSlot) : (svPut s n x).unitAlone = s.unitAlone := rfl
@[simp] theorem brkPut_unitAlone (s : State) (n : Nat) (x : BrkSlot) : (brkPut s n x).unitAlone = s.unitAlone := rfl
@[simp] theorem zoneRestart_unitAlone (s : State) (z : Nat) (x : Zone) : (zoneRestart s z x).unitAlone = s.unitAlone :=
  unitAlone_of (zoneRestart_unitOnly s z x)

/-- What an effect under another image leaves, once the image is put back. -/
theorem unitAlone_restored {s u : State} {im : Option Rods} (h : u.unitAlone = ({ s with plug := { s.plug with image := im } } : State).unitAlone) :
    ({ u with plug := { u.plug with image := s.plug.image } } : State).unitAlone = s.unitAlone := by
  have hput : ({ u with plug := { u.plug with image := s.plug.image } } : State).unitAlone
      = { u.unitAlone with plug := { u.unitAlone.plug with image := s.plug.image } } := rfl
  rw [hput, h]
  rfl

/-! Snapshots -/

@[simp] theorem zoneSnapshotsAt_unitAlone (s : State) (z t : Nat) (i : SIndex) : (zoneSnapshotsAt s z t i).unitAlone = s.unitAlone := by
  unfold zoneSnapshotsAt
  rw [foldl_keeps State.unitAlone _ (fun u _ => submitEntry_unitAlone u _)]

@[simp] theorem zoneSnapshots_unitAlone (s : State) (z t : Nat) (i : SIndex) : (zoneSnapshots s z t i).unitAlone = s.unitAlone :=
  zoneSnapshotsAt_unitAlone s z t _

@[simp] theorem dueSnapshots_unitAlone (s : State) (z : Nat) (i : SIndex) : (dueSnapshots s z i).unitAlone = s.unitAlone := by
  unfold dueSnapshots
  dsimp only
  rw [foldl_keeps State.unitAlone _ (fun u (d : Nat × Nat × SIndex) => zoneSnapshotsAt_unitAlone u z d.2.1 d.2.2)]
  rfl

/-- A position seen at one of its samples is put back (R445). -/
theorem atSample_unitAlone {f : State → State} (hf : ∀ u, (f u).unitAlone = u.unitAlone) (s : State) (pos : Nat) (r : PastRec) :
    (atSample s pos r f).unitAlone = s.unitAlone := by
  have piped (u : State) : ({ u with pipes := s.pipes } : State).unitAlone = u.unitAlone := rfl
  rw [atSample, piped, hf]
  rfl

theorem zoneSnapshotsWhen_unitAlone (s : State) (t : Nat) (i : SIndex) (z : Nat) : (zoneSnapshotsWhen s t i z).unitAlone = s.unitAlone := by
  -- whichever sample is found: the kernel must not search for it
  obtain ⟨found, hfound⟩ : ∃ f, sampleFrom s = f := ⟨_, rfl⟩
  unfold zoneSnapshotsWhen
  rw [hfound]
  split
  · exact zoneSnapshotsAt_unitAlone s z t i
  · dsimp only
    split
    · split
      · rfl
      · rw [atSample_unitAlone (fun u => zoneSnapshotsAt_unitAlone u z t i)]
    · rfl

theorem allSnapshots_unitAlone (s : State) (t : Nat) (i : SIndex) : (allSnapshots s t i).unitAlone = s.unitAlone := by
  rw [allSnapshots, unitSnapshots_unitAlone, foldl_keeps State.unitAlone _ (fun u z => zoneSnapshotsWhen_unitAlone u t i z)]

/-! A zone settles -/

@[simp] theorem zoneChange_unitAlone (s : State) (z : Nat) (i : SIndex) : (zoneChange s z i).unitAlone = s.unitAlone := by
  have published (u : State) : (if zEnabled u z then zoneChangeAt u z i (sampleTime (pipeRate u) i) else u).unitAlone = u.unitAlone := by
    split
    · exact unitAlone_of (unitOnly_reports (zoneChangeAt_sansReports u z i _))
    · rfl
  unfold zoneChange withNow
  split
  · exact published s
  · exact unitAlone_restored (published _)

@[simp] theorem requestUrgent_unitAlone (s : State) (z : Nat) : (requestUrgent s z).unitAlone = s.unitAlone := by
  have requested (i : Nat) : (requestCheck s i).unitAlone = s.unitAlone := by
    unfold requestCheck
    split <;> rfl
  unfold requestUrgent
  split
  · rfl
  · split
    · rfl
    · dsimp only
      split
      · rfl
      · exact requested _

@[simp] theorem verdictChange_unitAlone (s : State) (z : Nat) (i : SIndex) (before : List Nat) (old new : Dataset) :
    (verdictChange s z i before old new).unitAlone = s.unitAlone := by
  simp [verdictChange, apply_ite State.unitAlone]

@[simp] theorem recordTrace_unitAlone (s : State) (z : Nat) (i : SIndex) : (recordTrace s z i).unitAlone = s.unitAlone := by
  unfold recordTrace
  dsimp only
  split <;> rfl

theorem reopenRecord_unitAlone (s : State) (o : DrRecord) : (reopenRecord s o).unitAlone = s.unitAlone := by
  unfold reopenRecord
  split <;> rfl

@[simp] theorem recordTrigger_unitAlone (s : State) (z fired : Nat) (i : SIndex) : (recordTrigger s z fired i).unitAlone = s.unitAlone := by
  unfold recordTrigger
  dsimp only
  split
  · rfl
  · split
    · rfl
    · split
      · rfl
      · split
        · rfl
        · exact (show (recordUpd _ _ _).unitAlone = _ from rfl).trans (reopenRecord_unitAlone s _)

@[simp] theorem settle_unitAlone (s : State) (z n : Nat) (i : SIndex) (b : Bool) : (settle s z n i b).unitAlone = s.unitAlone := by
  have failed (u : State) : (arise u (keyZ 0x3680 z) 0 none16 []).unitAlone = u.unitAlone :=
    arise_unitAlone u _ _ _ _ (by dsimp only [keyZ]; decide)
  simp [settle, apply_ite State.unitAlone, failed]

/-! A zone evaluates a sample -/

@[simp] theorem testStep_unitAlone (s : State) (z : Nat) : (testStep s z).unitAlone = s.unitAlone := by
  have entered (u : State) : (enterTest u z).unitAlone = u.unitAlone := by
    rw [enterTest, arise_unitAlone _ _ _ _ _ (by dsimp only [keyZ]; decide), zoneRestart_unitAlone]
  simp [testStep, leaveTest, apply_ite State.unitAlone, entered]

theorem runFault_unitAlone (s : State) (z code det limit run : Nat) (gone : Bool) (h : max (faultRow code).2.1 (faultRow code).1 < 4) :
    (runFault s z code det limit run gone).unitAlone = s.unitAlone := by
  unfold runFault
  split
  · exact arise_unitAlone s (keyZ code z) _ _ _ h
  · split
    · exact causeGone_unitAlone s _
    · rfl

@[simp] theorem zoneFaults_unitAlone (s : State) (z : Nat) : (zoneFaults s z).unitAlone = s.unitAlone := by
  unfold zoneFaults
  dsimp only
  rw [runFault_unitAlone _ _ _ _ _ _ _ (by decide), runFault_unitAlone _ _ _ _ _ _ _ (by decide), runFault_unitAlone _ _ _ _ _ _ _ (by decide),
    runFault_unitAlone _ _ _ _ _ _ _ (by decide)]
  rw [foldl_keeps State.unitAlone _ (fun u d => runFault_unitAlone u z 0x3580 _ _ _ _ (by decide)), zonePut_unitAlone]

@[simp] theorem evalSample_unitAlone (s : State) (z : Nat) (i : SIndex) : (evalSample s z i).unitAlone = s.unitAlone := by
  simp [evalSample, evalZone]

theorem evalWait_unitAlone (s : State) (w : ZoneWait) : (evalWait s w).unitAlone = s.unitAlone := by
  unfold evalWait
  dsimp only
  split
  · rfl
  · exact unitAlone_restored (atSample_unitAlone (fun u => evalSample_unitAlone u w.zone w.sample.idx) _ w.pos w.sample)

@[simp] theorem evalWaits_unitAlone (s : State) (p : ZoneWait → Bool) : (evalWaits s p).unitAlone = s.unitAlone := by
  rw [evalWaits, foldl_keeps State.unitAlone evalWait evalWait_unitAlone]
  rfl

/-! A slot is destroyed -/

theorem zoneLost_unitAlone (s : State) (z : Nat) (i : SIndex) : (zoneLost s z i).unitAlone = s.unitAlone := by
  simp [zoneLost]

theorem streamLost_unitAlone (s : State) (n : Nat) : (streamLost s n).unitAlone = s.unitAlone := by
  unfold streamLost
  split
  · exact arise_unitAlone s _ _ _ _ (by dsimp only [keyS]; decide)
  · rfl

/-- A destroyed slot takes its samples along and resets its zones; the unit stays (R266). -/
theorem destroySlot_unitAlone (s : State) (n : Nat) (i : SIndex) : (destroySlot s n i).unitAlone = s.unitAlone := by
  have reset (b : Bool) (l : List Nat) (u : State) (j : SIndex) : (if b then l.foldl (fun u z => zoneLost u z j) u else u).unitAlone = u.unitAlone := by
    split
    · exact foldl_keeps State.unitAlone _ (fun u z => zoneLost_unitAlone u z j) l u
    · rfl
  have emptied (u : State) (l : List Sample) : ({ u with streams := { u.streams with intake := l } } : State).unitAlone = u.unitAlone := rfl
  have unheld (u : State) (l : List Held) : (setHeld u l).unitAlone = u.unitAlone := rfl
  have cleared (u : State) : (pipeClear u n).unitAlone = u.unitAlone := rfl
  unfold destroySlot
  dsimp only
  rw [reset, streamLost_unitAlone, cleared, unheld, emptied, svPut_unitAlone, journalEntry_unitAlone]

theorem brkDestroy_unitAlone (s : State) (n : Nat) (i : SIndex) : (brkDestroy s n i).unitAlone = s.unitAlone := by
  have lost (b : Bool) (u : State) (h : Nat) : (if b then arise u (keyB 0x2D40 n) 0 h [] else u).unitAlone = u.unitAlone := by
    split
    · exact arise_unitAlone u _ _ _ _ (by dsimp only [keyB]; decide)
    · rfl
  unfold brkDestroy brkEntry
  dsimp only
  rw [lost, brkPut_unitAlone, journalEntry_unitAlone]

end Sys2Proof.Machine
end

section
/-! The end of input agreement, and the settings split that a commit can begin: beside the pair, they leave the unit as it is (Tables 16.9, 16.11,
R638). -/
namespace Sys2Proof.Machine

/-! Breaker messages that are confirmed are decided -/

theorem brkHeard_unitAlone (s : State) (n : Nat) : (if faultStands s (keyB 0x2D40 n) then causeGone s (keyB 0x2D40 n) else s).unitAlone = s.unitAlone := by
  split
  · exact causeGone_unitAlone s _
  · rfl

theorem brkApply_unitAlone (s : State) (n : Nat) (m : BrkMsg) (tick : Nat) (i : SIndex) : (brkApply s n m tick i).unitAlone = s.unitAlone := by
  have admitted : (brkAdmit s n m i).unitAlone = s.unitAlone := by simp [brkAdmit, brkHeard_unitAlone, brkEntry]
  have used : (brkUse s n m).unitAlone = s.unitAlone := by simp [brkUse, apply_ite State.unitAlone]
  unfold brkApply
  dsimp only
  split <;> simp [apply_ite State.unitAlone, admitted, used]

theorem decide_unitAlone (s : State) (ds : List DecisionRec) : (decide_ s ds).unitAlone = s.unitAlone := by
  have ordered (u : State) (n : Fin 2) : (orderLane u n).unitAlone = u.unitAlone := by
    unfold orderLane lanePut
    dsimp only
    split <;> rfl
  unfold decide_ sendOrdered
  split
  · rw [ordered, carrySend_unitAlone]
  · rfl

theorem brkDecide_unitAlone (s : State) (n : Nat) (m : BrkMsg) (tick : Nat) : (brkDecide s n (.message m tick)).unitAlone = s.unitAlone := by
  unfold brkDecide
  dsimp only
  split
  · rfl
  · split
    · exact (decide_unitAlone _ _).trans rfl
    · exact brkApply_unitAlone s n m tick _

theorem brkAdvance_unitAlone (s : State) : (brkAdvance s).unitAlone = s.unitAlone := by
  unfold brkAdvance
  split
  · rfl
  · dsimp only
    rw [foldl_keeps State.unitAlone _ (fun u (h : HeldBrk) => brkDecide_unitAlone u h.slot h.msg h.tick)]
    rfl

/-! Samples that are held pass -/

theorem passMissing_unitAlone (s : State) (n : Nat) (i : SIndex) : (passMissing s n i).unitAlone = s.unitAlone := by
  unfold passMissing
  dsimp only
  split
  · rfl
  · split
    · exact (journalEntry_unitAlone _ _).trans rfl
    · rfl

theorem passReceived_unitAlone (s : State) (x : Sample) : (passReceived s x).unitAlone = s.unitAlone := by
  have jumped (y : SvSlot) : (if x.jumped then svPut s x.slot y else s).unitAlone = s.unitAlone := by split <;> rfl
  unfold passReceived
  dsimp only
  generalize hu : (if x.jumped = true then _ else s) = u
  have hkept : u.unitAlone = s.unitAlone := hu ▸ jumped _
  split
  · rw [passMissing_unitAlone]
    exact hkept
  · exact hkept

theorem followNext_unitAlone (s : State) (n : Nat) (i : SIndex) : (followNext s n i).unitAlone = s.unitAlone := by
  unfold followNext
  dsimp only
  split
  · split <;> rfl
  · rfl

theorem advance_unitAlone : ∀ (fuel : Nat) (s : State) (n : Nat), (advance fuel s n).unitAlone = s.unitAlone
  | 0, _, _ => rfl
  | fuel + 1, s, n => by
    have followed (b : Bool) (u : State) (i : SIndex) : (if b then u else followNext u n i).unitAlone = u.unitAlone := by
      split
      · rfl
      · exact followNext_unitAlone u n i
    unfold advance
    split
    · rfl
    · split
      · rfl
      · dsimp only
        rw [advance_unitAlone fuel, apply_ite State.unitAlone, passMissing_unitAlone, passReceived_unitAlone, ite_self, followed]
        rfl

theorem advanceSlot_unitAlone (s : State) (n : Nat) : (advanceSlot s n).unitAlone = s.unitAlone :=
  (show (updateDue _ n).unitAlone = _ from rfl).trans (advance_unitAlone _ s n)

/-! The pair state follows -/

theorem startDeciding_unitAlone (s : State) : (startDeciding s).unitAlone = s.unitAlone := by
  unfold startDeciding
  dsimp only
  rw [foldl_keeps State.unitAlone _ (fun u p => by split <;> rfl)]
  rfl

theorem endAgreement_unitAlone (s : State) : (endAgreement s).unitAlone = s.unitAlone := by
  have unheld (u : State) (l : List Held) : (setHeld u l).unitAlone = u.unitAlone := rfl
  unfold endAgreement dropAwaited
  dsimp only
  rw [foldl_keeps State.unitAlone advanceSlot advanceSlot_unitAlone, unheld, brkAdvance_unitAlone]
  rfl

theorem standAlone_unitAlone (s : State) (st : PairState) : (standAlone s st).unitAlone = s.unitAlone := by
  have decided : (if decides s then s else startDeciding s).unitAlone = s.unitAlone := by
    split
    · rfl
    · exact startDeciding_unitAlone s
  unfold standAlone
  dsimp only
  rw [endAgreement_unitAlone]
  exact decided

theorem loseStandby_unitAlone (s : State) (p : Nat) : (loseStandby s p).unitAlone = s.unitAlone := by
  have abandoned (u : State) : (abandonSwap u).unitAlone = u.unitAlone := by
    unfold abandonSwap
    split <;> rfl
  rw [loseStandby, endAgreement_unitAlone, abandoned]
  rfl

theorem splitBegins_unitAlone (s : State) : (splitBegins s).unitAlone = s.unitAlone := by
  unfold splitBegins
  dsimp only
  rw [apply_ite State.unitAlone, loseStandby_unitAlone, standAlone_unitAlone, ite_self, judgeFault_unitAlone _ _ _ _ _ (by decide)]
  rfl

/-- Outside a split, judging it can begin one (R638). -/
theorem judgeSplit_unitAlone {s : State} (h : s.pair.split = false) : (judgeSplit s).unitAlone = s.unitAlone := by
  simp [judgeSplit, h, apply_ite State.unitAlone, splitBegins_unitAlone]

end Sys2Proof.Machine
end

section
/-! The boundary of a commit: what it changes beside the zones, the image in force and the bank that is named (R34, R153 to R157, R645). -/
namespace Sys2Proof.Machine

/-! What a commit changes beside the image (R157) -/

theorem windowCommit_unitAlone (s : State) (old new : Rods) (i : SIndex) : (windowCommit s old new i).unitAlone = s.unitAlone := by
  unfold windowCommit
  dsimp only
  rw [foldl_keeps State.unitAlone _ (fun u n => by
      split
      · exact brkDestroy_unitAlone u n i
      · rfl),
    foldl_keeps State.unitAlone _ (fun u n => by
      split
      · exact destroySlot_unitAlone u n _
      · rfl)]

theorem sequenceChange_unitAlone (s : State) (old new : Rods) (i : SIndex) : (sequenceChange s old new i).unitAlone = s.unitAlone := by
  unfold sequenceChange
  dsimp only
  split
  · rfl
  · rw [foldl_keeps State.unitAlone _ (fun u n => by split <;> rfl)]
    rfl

theorem hostsCommit_unitAlone (s : State) (old new : Rods) : (hostsCommit s old new).unitAlone = s.unitAlone := by
  unfold hostsCommit closeSessions
  dsimp only
  rw [foldl_keeps State.unitAlone _ (fun u i => by
    split
    · exact unitAlone_of (unitOnly_of (closeSession_sansSettled u i 3))
    · rfl)]
  rfl

theorem coilsCommit_unitAlone (s : State) (old : Rods) : (coilsCommit s old).unitAlone = s.unitAlone :=
  foldl_keeps State.unitAlone _ (fun u cc => by split <;> rfl) _ s

theorem enterTime_unitAlone (s : State) (t : TimeState) : (enterTime s t).unitAlone = s.unitAlone := by
  unfold enterTime
  split
  · rfl
  · cases t with
    | locked =>
      simp only [List.foldl_cons, List.foldl_nil, causeGoneU_unitAlone]
      rfl
    | tracking =>
      simp only [List.foldl_cons, List.foldl_nil, causeGoneU_unitAlone]
      rfl
    | holdover => exact arise_unitAlone _ (keyU 0x0D40) 0 none16 [] (by decide)
    | freeRunning => exact arise_unitAlone _ (keyU 0x0D80) 0 none16 [] (by decide)
    | unsynchronised => rfl
    | acquiring => rfl

theorem holdoverCommit_unitAlone (s : State) : (holdoverCommit s).unitAlone = s.unitAlone := by
  unfold holdoverCommit
  split
  · exact enterTime_unitAlone s _
  · rfl

theorem instancesCommit_unitAlone (s : State) : (instancesCommit s).unitAlone = s.unitAlone :=
  foldl_keeps State.unitAlone _ (fun u r => causeGone_unitAlone u (recKey r)) _ s

theorem globalsCommit_unitAlone (s : State) (old new : Rods) (i : SIndex) : (globalsCommit s old new i).unitAlone = s.unitAlone := by
  have depths (u : State) : (depthCommit u old new).unitAlone = u.unitAlone := rfl
  have sequence (u : State) :
      (if u.adc.rowNew then { u with adc := { u.adc with rowNew := false } } else sequenceChange u old new i).unitAlone = u.unitAlone := by
    split
    · rfl
    · exact sequenceChange_unitAlone u old new i
  unfold globalsCommit
  dsimp only
  rw [instancesCommit_unitAlone, holdoverCommit_unitAlone, coilsCommit_unitAlone, depths, hostsCommit_unitAlone, sequence, windowCommit_unitAlone]

/-! The zones and their publications (R156, R468, R605, R612) -/

theorem thetaCommit_unitAlone (s : State) (old new : Rods) : (thetaCommit s old new).unitAlone = s.unitAlone :=
  foldl_keeps State.unitAlone _ (fun u z => zonePut_unitAlone u z _) _ s

theorem publishCommit_unitAlone (s : State) (old new : Rods) : (publishCommit s old new).unitAlone = s.unitAlone := by
  unfold publishCommit
  dsimp only
  rw [unitAlone_of (startPublishing_unitOnly _ _)]
  exact (show _ = (List.foldl presentDataset s _).unitAlone from rfl).trans
    (foldl_keeps State.unitAlone presentDataset (fun u z => unitAlone_of (presentDataset_unitOnly u z)) _ s)

/-- What a commit puts in place: the image in force, the commit in progress and what MRAM keeps. -/
def State.committed (s : State) : Option Rods × Commit × Nvm := (s.plug.image, s.plug.commit, s.nvm)

theorem committed_of {s t : State} (h : t.unitAlone = s.unitAlone) : t.committed = s.committed := by
  have e := congrArg State.committed h; exact e

theorem zonesCommit_committed (s : State) (old new : Rods) : (zonesCommit s old new).committed = s.committed := by
  unfold zonesCommit
  dsimp only
  rw [committed_of (foldl_keeps State.unitAlone commitRestart (fun u z => zoneRestart_unitAlone u z _) _ _)]
  rfl

/-! The unit after the commit (Table 1.7) -/

theorem enterServing_committed (s : State) : (enterServing s).committed = s.committed := by
  obtain ⟨h, e⟩ := enterServing_unit s
  have e := congrArg State.committed e
  exact e

theorem withheldCommit_committed (s : State) : (withheldCommit s).committed = s.committed := by
  unfold withheldCommit
  split
  · exact enterServing_committed s
  · split <;> rfl

/-- The commit takes effect: the new image is in force, no commit is in progress, and the pointer names the other bank (R153). -/
theorem commitBoundary_committed (s : State) (new : Rods) :
    (commitBoundary s new).committed = (some new, .none, { s.nvm with pointer := !s.nvm.pointer }) := by
  have theta (u : State) : (if s.plug.image.isNone then adoptTheta u else thetaCommit u (s.plug.image.getD []) new).committed = u.committed := by
    split
    · exact committed_of (unitAlone_of (adoptTheta_unitOnly u))
    · exact committed_of (thetaCommit_unitAlone u _ new)
  have zones (u : State) :
      (if serving s then coilsFollow (commanded s) (zonesCommit u (s.plug.image.getD []) new) else u).committed = u.committed := by
    split
    · rw [committed_of (coilsFollow_unitAlone _ _), zonesCommit_committed]
    · rfl
  have splits (u : State) : (if isTwin u && !u.pair.split then judgeSplit u else u).committed = u.committed := by
    split
    next h =>
      simp only [Bool.and_eq_true, Bool.not_eq_true'] at h
      exact committed_of (judgeSplit_unitAlone h.2)
    next => rfl
  have publish (u : State) : (if serving s && serving u then publishCommit u (s.plug.image.getD []) new else u).committed = u.committed := by
    split
    · exact committed_of (publishCommit_unitAlone u _ new)
    · rfl
  unfold commitBoundary
  dsimp only
  rw [committed_of (unitAlone_of (settlePair_unitOnly _)), withheldCommit_committed, committed_of (allSnapshots_unitAlone _ _ _), publish,
    committed_of (unitAlone_of (limitEntry_unitOnly _ _)), splits, committed_of (unitAlone_records (comparePlug_sansRecords _)),
    committed_of (causeGoneU_unitAlone _ _), committed_of (causeGoneU_unitAlone _ _), committed_of (unitAlone_of (judgeImage_unitOnly _)),
    zones, theta, committed_of (globalsCommit_unitAlone _ _ _ _)]
  rfl

theorem withTwin_committed (f : State → State) (s : State) : (withTwin f s).committed = (f s).committed := by
  have e := congrArg State.committed (withTwin_frame f s); exact e

end Sys2Proof.Machine
end

section
/-! The course of a commit (R147, R149 to R153, R163, R170). -/
namespace Sys2Proof.Machine

/-- A stable image that differs and breaks no global rule is written after its hold, or waits for the zones it changes (R151). -/
theorem judgeHold_plug {s : State} {img : Image} (hdiffers : plugDiffers s img = true) (hglobal : globalFails img = false) :
    (judgeHold s img).plug
      = { s.plug with commit := if busyZones s (newImage s img) = [] then .writing (newImage s img) else .waiting img } := by
  have hbusy : busyZones { s with plug := { s.plug with commit := .waiting img } } (newImage { s with plug := { s.plug with commit := .waiting img } } img)
      = busyZones s (newImage s img) := rfl
  have hwaits : judgeHold s img = quiescenceMet { s with plug := { s.plug with commit := .waiting img } } img := by
    simp [judgeHold, hdiffers, hglobal]
  rw [hwaits, quiescenceMet, hbusy]
  split <;> rfl

/-- A complete valid hold in which a rescan has counted is judged (R149, R150). -/
theorem answers_holdComplete {s : State} {n : Nat} {img : Image} {p : State → Prop} (hserves : plugServes s = true)
    (hhold : s.plug.hold = .timing true (n + 1)) (hstable : s.plug.stable = some img) (hnone : s.plug.commit = .none)
    (h : p { judgeSummary (judgeHold { s with out := [], plug := { s.plug with hold := .spent } } img) with pending := s.pending }) :
    Answers .holdComplete s p := by
  have hserves' : plugServes { s with out := [] } = true := hserves
  refine answers_of_run (execHoldComplete.eq_def s) ?_
  dsimp only
  split
  next valid m img' hhold' hstable' =>
    obtain ⟨rfl, rfl⟩ : valid = true ∧ m = n + 1 := by simpa using hhold'.symm.trans hhold
    obtain rfl : img' = img := by simpa using hstable'.symm.trans hstable
    rw [if_pos (by simp [hnone, hserves'])]
    exact h
  next hnoImage => simp [hstable] at hnoImage
  next hother _ => exact absurd hstable (hother true (n + 1) img hhold)

/-- The wait for quiescence ends with a zone busy: the commit is refused, with its entry and its fault (R163). -/
theorem quiescenceTimeout_refuses {s : State} {img : Image} (hbusy : busyZones s (newImage s img) ≠ []) (hclear : faultGet s (keyU 0x16C0) = none) :
    (quiescenceTimeout s img).plug = { s.plug with commit := .none } ∧ Reacts (quiescenceTimeout s img) (keyU 0x16C0) 2 := by
  unfold quiescenceTimeout
  dsimp only
  rw [if_neg hbusy]
  generalize hu : journalEntry _ _ = u
  have hplug : u.plug = { s.plug with commit := .none } := by
    have e := congrArg State.plug (journalEntry_sansRecords { s with plug := { s.plug with commit := .none } }
      (unitEntry { s with plug := { s.plug with commit := .none } } (ownCode 5 22) 2 0 none16 none16
        (ownPayload 22 (busyZones s (newImage s img)))))
    rw [← hu]
    exact e
  have hget : faultGet u (keyU 0x16C0) = none := by
    rw [← hu, faultGet_of_steady (journalEntry_steady _ _) _ (by decide)]
    exact hclear
  exact ⟨(arise_plug u (keyU 0x16C0) 0 none16 [] (by decide)).trans hplug, reacts_arise_row hget (by decide) 0 none16 []⟩

/-- Settles O13: each command of the course finds the stage before it; its faults, entries and zones leave the image, the commit and the banks. -/
theorem commitCourse : Obligations.CommitCourse := by
  unfold Obligations.CommitCourse
  refine ⟨fun s hidle hrun hengine hnone => ?_, fun s => ?_, fun s n img hserves hhold hstable hnone hdiffers hglobal => ?_,
    fun s img hwaiting hquiet => ?_, fun s img hwaiting hbusy hclear => ?_, fun s new hwriting hon hfree => ?_, fun s new hdecided hrun hon => ?_⟩
  · have hrun' : coreRuns { s with out := [] } = true := hrun
    refine answers_of_run (execCommitInAsserted.eq_def s) ?_
    dsimp only
    rw [if_neg (by simp [hidle]), if_pos (by rcases hengine with h | h <;> simp [h, hnone, hrun'])]
  · exact answers_of_run (execCommitInReleased.eq_def s) rfl
  · refine answers_holdComplete hserves hhold hstable hnone ((judgeSummary_plug _).trans ?_)
    exact judgeHold_plug (s := { s with out := [], plug := { s.plug with hold := .spent } }) hdiffers hglobal
  · refine answers_of_run (execQuiescenceMet.eq_def s) ?_
    simp only [hwaiting]
    rw [quiescenceMet, if_pos (by exact hquiet)]
    rfl
  · obtain ⟨hplug, hreacts⟩ := quiescenceTimeout_refuses (s := { s with out := [] }) hbusy hclear
    refine answers_of_run (execQuiescenceTimeout.eq_def s) ?_
    simp only [hwaiting]
    exact ⟨(judgeSummary_plug _).trans hplug, reacts_judgeSummary (by decide) hreacts⟩
  · refine answers_of_run (execCommitDecision.eq_def s) ?_
    have hon' : storeOn { s with out := [] } = true := hon
    have hfree' : mramWaits { s with out := [] } = false := hfree
    simp only [hwriting]
    rw [if_neg (by simp [hon', hfree']), fillBank]
    dsimp only
    split <;> rfl
  · have h := (withTwin_committed (fun u => commitBoundary u new) { s with out := [] }).trans (commitBoundary_committed { s with out := [] } new)
    refine answers_of_run (execCommitBoundary.eq_def s) ?_
    have hrun' : coreRuns { s with out := [] } = true := hrun
    have hon' : storeOn { s with out := [] } = true := hon
    simp only [hdecided]
    rw [if_pos (by simp [hrun', hon'])]
    generalize withTwin (fun u => commitBoundary u new) { s with out := [] } = t at h ⊢
    simp only [State.committed, Prod.mk.injEq] at h
    obtain ⟨himage, hcommit, hnvm⟩ := h
    exact ⟨himage, hcommit, by rw [hnvm], by rw [hnvm], by rw [hnvm]⟩

end Sys2Proof.Machine
end

section
/-! Frames received on the four ports: the checks of R216, and the duplicate test of PRP (R222, R226 to R231). -/
namespace Sys2Proof.Machine

/-! The checks, in their order -/

theorem frameReceived_badCoding {s : State} {p : Port} {f : RxFrame} (hcoding : f.codingOk = false) :
    frameReceived s p f = portTally s p 1 := by
  simp [frameReceived, hcoding]

theorem frameReceived_badSize {s : State} {p : Port} {f : RxFrame} (hcoding : f.codingOk = true) (hsize : f.size < 64 ∨ 1536 < f.size) :
    frameReceived s p f = portTally s p 2 := by
  simp [frameReceived, hcoding, hsize]

/-- Checks 1 and 2 passed outside an HSR ring: the FCS decides, then the address, then the tags. -/
theorem frameReceived_sized {s : State} {p : Port} {f : RxFrame} (hbus : (isProcess p && isHsr s) = false) (hcoding : f.codingOk = true)
    (hmin : 64 ≤ f.size) (hmax : f.size ≤ 1536) : frameReceived s p f =
      if !f.fcsOk then portTally s p 3
      else if !addrOk s p f.dst then portTally s p 4
      else if !tagOk f.tags then portTally s p 5
      else if isProcess p && !isPrp s then typeCheck s p f
      else if (prpCheck s p f).2 then typeCheck (prpCheck s p f).1 p f else (prpCheck s p f).1 := by
  have hsize : (decide (f.size < 64) || decide (1536 < f.size)) = false := by simp [hmin, hmax]
  unfold frameReceived
  simp only [hcoding, hsize, hbus, Bool.not_true, Bool.false_eq_true, if_false, Bool.false_and]

/-- One count in word `w` of a port's tallies (Table 6.4). -/
theorem portTally_eq (s : State) (p : Port) (w : Nat) : portTally s p w =
    { s with tally := Tab.put 0 s.tally (16 * portNum p + w) (Tab.get 0 s.tally (16 * portNum p + w) + 1) } := by
  unfold portTally tallyAdd
  rw [Nat.zero_mul, Nat.zero_add]
  rfl

theorem answers_frameReceived {s : State} {p : Port} {f : RxFrame} {u : State} (hopen : rxOpen s p = true)
    (h : frameReceived { s with out := [] } p f = u) (hqueue : u.pending = s.pending) : Answers (.frameReceived p f) s (fun t => t = u) :=
  answers_of_guard (execFrameReceived.eq_def p f s) hopen (by rw [h, ← hqueue])

/-- A frame whose check fails changes the word of that check alone (R217, R218). -/
theorem answers_tallied {s : State} {p : Port} {f : RxFrame} {w : Nat} (hopen : rxOpen s p = true)
    (h : frameReceived { s with out := [] } p f = portTally { s with out := [] } p w) : Answers (.frameReceived p f) s (fun t =>
      t = { s with out := [], tally := Tab.put 0 s.tally (16 * portNum p + w) (Tab.get 0 s.tally (16 * portNum p + w) + 1) }) := by
  rw [portTally_eq] at h
  exact answers_frameReceived hopen h rfl

theorem tagOk_false {tags : List (BitVec 16)} (h : 1 < tags.length ∨ 0x88A8 ∈ tags) : tagOk tags = false := by
  unfold tagOk
  rcases h with h | h
  · simp [h]
  · rw [List.contains_iff_mem.mpr h, Bool.not_true, Bool.and_false]

/-- Settles O14: the checks stand in the order of Table 6.1, and the first that fails counts its word. -/
theorem frameChecks : Obligations.FrameChecks := by
  unfold Obligations.FrameChecks
  intro tallied
  refine ⟨fun s p f hdown => ?_, fun s p f hopen => ⟨fun hcoding => ?_, fun hcoding hsize => ?_⟩,
    fun s p f hopen hbus => ⟨fun hcoding hmin hmax hfcs => ?_, fun hcoding hmin hmax hfcs haddr => ?_,
      fun hcoding hmin hmax hfcs haddr htags => ?_⟩⟩
  · have hclosed : rxOpen { s with out := [] } p = false := by
      change rxOpen s p = false
      simp [rxOpen, hdown]
    refine answers_of_run (execFrameReceived.eq_def p f s) ?_
    simp only [hclosed, Bool.false_eq_true, if_false]
  · exact answers_tallied hopen (frameReceived_badCoding hcoding)
  · exact answers_tallied hopen (frameReceived_badSize hcoding hsize)
  · refine answers_tallied hopen ((frameReceived_sized (s := { s with out := [] }) hbus hcoding hmin hmax).trans ?_)
    rw [if_pos (by simp [hfcs])]
  · have haddr' : addrOk { s with out := [] } p f.dst = false := haddr
    refine answers_tallied hopen ((frameReceived_sized (s := { s with out := [] }) hbus hcoding hmin hmax).trans ?_)
    rw [if_neg (by simp [hfcs]), if_pos (by simp [haddr'])]
  · have haddr' : addrOk { s with out := [] } p f.dst = true := haddr
    refine answers_tallied hopen ((frameReceived_sized (s := { s with out := [] }) hbus hcoding hmin hmax).trans ?_)
    rw [if_neg (by simp [hfcs]), if_neg (by simp [haddr']), if_pos (by simp [tagOk_false htags])]

/-! The duplicate test (R228, R229, R231) -/

/-- A source without an entry, in a table with room, opens one. -/
theorem prpTest_opens {t : Tab PrpEntry} {src : Mac} (n : BitVec 16) (now : Nat) (hnone : ∀ x ∈ t, x.1 ≠ src.toNat) (hroom : t.length < 2048) :
    prpTest t src n now = (.new, Tab.insert t src.toNat { highest := n, window := 1, seen := now }) := by
  have hfind : t.find? (fun x => x.1 == src.toNat) = none := List.find?_eq_none.mpr (fun x hx => by simpa using hnone x hx)
  unfold prpTest
  rw [hfind]
  exact if_neg (Nat.not_le.mpr hroom)

/-- A number that the window of its source's entry has is a duplicate. -/
theorem prpTest_duplicate {t : Tab PrpEntry} {src : Mac} {e : PrpEntry} {n : BitVec 16} (now : Nat)
    (hfind : t.find? (fun x => x.1 == src.toNat) = some (src.toNat, e)) (hback : (e.highest - n).toNat < 128)
    (hseen : e.window.getLsbD (e.highest - n).toNat = true) : prpTest t src n now =
      (.dup, Tab.insert t src.toNat { e with window := e.window ||| BitVec.ofNat 128 (2 ^ (e.highest - n).toNat), seen := now }) := by
  unfold prpTest
  rw [hfind]
  simp only [prpClass, if_pos hback, hseen, Bool.not_true, Bool.false_eq_true, if_false]

/-- A port's own LAN is not that of its partner (R226). -/
theorem lanId_ne_otherLan (p : Port) : ¬ (BitVec.ofNat 4 (lanId p)).toNat = otherLan p := by cases p <;> decide

section
variable {s : State} {p : Port} {f : RxFrame} {seq : BitVec 16} {t : Tab PrpEntry}

/-- With the trailer of its own LAN, and not the later of two copies of one tick (R23), a first copy is delivered. -/
theorem prpCheck_new (hred : f.red = .rct (BitVec.ofNat 4 (lanId p)) seq true true) (hfirst : p = .p1 → f.twinFromP0 = false)
    (htest : prpTest (prpTable s p) f.src seq s.now = (.new, t)) : prpCheck s p f = (prpPut s p t, true) := by
  have hkept : ¬ (decide (p = .p1) && f.twinFromP0) = true := by simpa using hfirst
  simp only [prpCheck, hred, if_neg (lanId_ne_otherLan p), if_neg hkept, htest]

/-- A second copy is counted as a duplicate, and not delivered. -/
theorem prpCheck_duplicate (hred : f.red = .rct (BitVec.ofNat 4 (lanId p)) seq true true) (hfirst : p = .p1 → f.twinFromP0 = false)
    (htest : prpTest (prpTable s p) f.src seq s.now = (.dup, t)) : prpCheck s p f = (portTally (prpPut s p t) p 7, false) := by
  have hkept : ¬ (decide (p = .p1) && f.twinFromP0) = true := by simpa using hfirst
  simp only [prpCheck, hred, if_neg (lanId_ne_otherLan p), if_neg hkept, htest]

end

/-! Delivery (R216, R222) -/

/-- A frame without an HSR tag whose type the port takes is delivered. -/
theorem typeCheck_delivers {s : State} {p : Port} {f : RxFrame} (htag : hsrTagged f = false) (hsup : f.ethertype ≠ 0x88FB)
    (htype : typeOk s p f = true) : typeCheck s p f = deliver s p f := by
  rw [typeCheck, if_neg (by simp [htag]), if_neg hsup, if_pos htype]

theorem prpPut_portGet (s : State) (p q : Port) (t : Tab PrpEntry) : portGet (prpPut s p t) q = portGet s q := by
  cases p <;> cases q <;> rfl

theorem prpPut_typeOk (s : State) (p : Port) (t : Tab PrpEntry) (f : RxFrame) : typeOk (prpPut s p t) p f = typeOk s p f := by
  cases p <;> rfl

/-- Checks 1 to 5 pass on a bus under PRP. -/
structure PassesUnderPrp (s : State) (p : Port) (f : RxFrame) : Prop where
  prp : isProcess p = true → isPrp s = true ∧ isHsr s = false
  coding : f.codingOk = true
  min : 64 ≤ f.size
  max : f.size ≤ 1536
  fcs : f.fcsOk = true
  addr : addrOk s p f.dst = true
  tags : tagOk f.tags = true

/-- A frame that has passed is judged by its trailer, and by its type where that delivers it. -/
theorem frameReceived_passed {s : State} {p : Port} {f : RxFrame} {u : State} {b : Bool} (h : PassesUnderPrp s p f)
    (hcheck : prpCheck s p f = (u, b)) : frameReceived s p f = if b then typeCheck u p f else u := by
  have hbus : (isProcess p && isHsr s) = false := by
    cases hp : isProcess p
    · rfl
    · exact (h.prp hp).2
  have hprp : ¬ (isProcess p && !isPrp s) = true := by
    cases hp : isProcess p
    · simp
    · simp [(h.prp hp).1]
  rw [frameReceived_sized hbus h.coding h.min h.max, if_neg (by simp [h.fcs]), if_neg (by simp [h.addr]), if_neg (by simp [h.tags]), if_neg hprp,
    hcheck]

/-- Settles O15: the frame passes the checks, the test finds its entry or opens one, and a forgotten entry is erased. -/
theorem duplicatesDiscarded : Obligations.DuplicatesDiscarded := by
  unfold Obligations.DuplicatesDiscarded
  refine ⟨fun s p f seq hopen hprp hcoding hmin hmax hfcs haddr htags hred hsup htype hfirst => ?_, fun s b src => ?_⟩
  · have hpasses : PassesUnderPrp { s with out := [] } p f := ⟨hprp, hcoding, hmin, hmax, hfcs, haddr, htags⟩
    refine ⟨fun hnone hroom => answers_frameReceived hopen ?_ ?_, fun e hfind hback hseen => answers_frameReceived hopen ?_ ?_⟩
    · have htagged : hsrTagged f = false := by simp [hsrTagged, hred]
      have htype' : typeOk { s with out := [] } p f = true := htype
      rw [frameReceived_passed hpasses (prpCheck_new hred hfirst (prpTest_opens seq s.now hnone hroom)), if_pos rfl,
        typeCheck_delivers htagged hsup ((prpPut_typeOk _ p _ f).trans htype'), deliver, prpPut_portGet]
      rfl
    · cases p <;> rfl
    · rw [frameReceived_passed hpasses (prpCheck_duplicate hred hfirst (prpTest_duplicate s.now hfind hback hseen)), if_neg Bool.false_ne_true]
      rfl
    · cases p <;> rfl
  · refine answers_of_run (execPrpEntryForgotten.eq_def b src s) ?_
    cases b <;> rfl

end Sys2Proof.Machine
end

section
/-! Faults of a port's cage, and polls of a module's diagnostics (R239, R241 to R245, R256). -/
namespace Sys2Proof.Machine

/-! A fault of a port that a command raises alone -/

theorem transmitterFault_row (p : Port) : plainRow (portKey 0x1940 p) 2 = true := by cases p <;> decide
theorem ringOpen_row (p : Port) : plainRow (portKey 0x1A00 p) 2 = true := by cases p <;> decide
theorem transmitterFault_below (p : Port) : max (faultRow (portKey 0x1940 p).code).2.1 (faultRow (portKey 0x1940 p).code).1 < 4 := by
  cases p <;> decide
theorem ringOpen_below (p : Port) : max (faultRow (portKey 0x1A00 p).code).2.1 (faultRow (portKey 0x1A00 p).code).1 < 4 := by cases p <;> decide

/-- A command that raises one Clear fault under its guard changes nothing but records. -/
theorem answers_fault {c : Instr} {s : State} {k : FaultKey} {l : Nat} {b : State → Bool}
    (he : exec c s = run (fun u => if b u then arise u k 0 none16 [] else u) s) (hb : b { s with out := [] } = true)
    (hclear : faultGet s k = none) (hrow : plainRow k l = true) (hbelow : max (faultRow k.code).2.1 (faultRow k.code).1 < 4) :
    Answers c s (fun t => Reacts t k l ∧ t.sansRecords = s.sansRecords) :=
  answers_of_guard he hb ⟨reacts_arise_row (s := { s with out := [] }) hclear hrow 0 none16 [],
    congrArg (fun u : State => { u with pending := s.pending }) (arise_sansRecords { s with out := [] } k 0 none16 [] hbelow)⟩

/-! Faults of module diagnostics (R242) -/

theorem diagAlarm_row (p : Port) : plainRow (sfpKey 0x5940 p) 2 = true := by cases p <;> decide
theorem busFault_row (p : Port) : plainRow (sfpKey 0x5980 p) 2 = true := by cases p <;> decide
theorem busFault_below (p : Port) : max (faultRow (sfpKey 0x5980 p).code).2.1 (faultRow (sfpKey 0x5980 p).code).1 < 4 := by cases p <;> decide
theorem diagAlarm_ne_diagWarning (p : Port) : keyNum (sfpKey 0x5940 p) ≠ keyNum (sfpKey 0x5900 p) := by cases p <;> decide
theorem diagAlarm_ne_busFault (p : Port) : keyNum (sfpKey 0x5940 p) ≠ keyNum (sfpKey 0x5980 p) := by cases p <;> decide

section
variable (s : State) {code : Nat} (p : Port) (before after : List Bool)

theorem judgeDiag_sansRecords (h : max (faultRow code).2.1 (faultRow code).1 < 4) :
    (judgeDiag s code p before after).sansRecords = s.sansRecords := by
  unfold judgeDiag
  split
  · split
    · rfl
    · exact arise_sansRecords s (sfpKey code p) _ none16 [] h
  · exact causeGone_sansRecords s _

theorem judgeDiag_other (h : max (faultRow code).2.1 (faultRow code).1 < 4) {j : FaultKey} (hj : keyNum j ≠ keyNum (sfpKey code p)) :
    faultGet (judgeDiag s code p before after) j = faultGet s j := by
  unfold judgeDiag
  split
  · split
    · rfl
    · exact arise_other s (sfpKey code p) j hj h _ none16 []
  · exact causeGone_other s _ j hj

/-- A flag or crossing that two reads in succession show raises the fault. -/
theorem judgeDiag_reacts {l d : Nat} (hd : d < 20) (hbefore : before.getD d false = true) (hafter : after.getD d false = true)
    (hclear : faultGet s (sfpKey code p) = none) (hrow : plainRow (sfpKey code p) l = true) :
    Reacts (judgeDiag s code p before after) (sfpKey code p) l := by
  unfold judgeDiag
  split
  · rw [if_neg (by simp [faultStands_of_clear hclear])]
    exact reacts_arise_row hclear hrow _ none16 []
  next hnone => exact absurd (List.find?_eq_none.mp hnone d (List.mem_range.mpr hd)) (by rw [hbefore, hafter]; decide)

end

/-! One A2h read (R240 to R245) -/

theorem busRecovery_faults (s : State) (p : Port) (t : I2c) : (busRecovery s p t).faults = s.faults := by
  unfold busRecovery
  split
  · rfl
  · split
    · split <;> rfl
    · rfl

/-- A recovery that fails gives its nine pulses without a STOP (R244). -/
theorem busRecovery_fails {s : State} {p : Port} {t : I2c} (hlow : t.sdaLow = true) (hfails : recovered t = false) :
    .i2cRecovery p 9 false ∈ (busRecovery s p t).out := by
  have hmem (u : State) (o : Output) : o ∈ (emit u o).out := List.mem_append_right _ List.mem_cons_self
  unfold busRecovery
  rw [if_neg (by simp [hlow])]
  split
  next n hn =>
    have hlate : ¬ n ≤ 9 := by simpa [recovered, hlow, hn] using hfails
    rw [if_neg hlate]
    exact hmem s _
  · exact hmem s _

theorem portPut_ports_congr {s t : State} (h : t.ports = s.ports) (p : Port) (x : PortSt) : (portPut t p x).ports = (portPut s p x).ports := by
  cases p <;> simp only [portPut, h]

theorem recovered_of_page {t : I2c} {a : List Byte} (h : busPage t = some a) : recovered t = true := by
  unfold busPage at h
  split at h
  next hok => exact (Bool.and_eq_true _ _ ▸ hok).1
  next => cases h

/-- A port after a read that brought page `a` (R241). -/
def diagnosed (x : PortSt) (a : List Byte) : PortSt :=
  { x with
    recFails := 0, txnFails := 0, alarm := diagShown a x.extCal 0, warn := diagShown a x.extCal 1
    values := if x.extCal then none else some ((List.range 5).map (fun q => field a (96 + 2 * q) 2)) }

/-- The state in which the flags of a page are judged: the port has its values, and the bus is good (R245). -/
def pageTaken (s : State) (p : Port) (t : I2c) (a : List Byte) : State :=
  causeGone (portPut (busRecovery s p t) p (diagnosed (portGet s p) a)) (sfpKey 0x5980 p)

/-- The warnings of a page are judged, then its alarms. -/
theorem readA2h_page {s : State} {p : Port} {t : I2c} {a : List Byte} (h : busPage t = some a) : readA2h s p t =
    judgeDiag (judgeDiag (pageTaken s p t a) 0x5900 p (portGet s p).warn (diagShown a (portGet s p).extCal 1)) 0x5940 p
      (portGet s p).alarm (diagShown a (portGet s p).extCal 0) := by
  have hcount : countBus (portGet s p) t = { portGet s p with recFails := 0, txnFails := 0 } := by
    rw [countBus, recovered_of_page h, h]
    rfl
  unfold readA2h
  dsimp only
  rw [h, hcount]
  rfl

theorem readA2h_noPage {s : State} {p : Port} {t : I2c} (h : busPage t = none) :
    readA2h s p t = judgeBus (portPut (busRecovery s p t) p (countBus (portGet s p) t)) p := by
  unfold readA2h
  dsimp only
  rw [h]

/-- Transactions without a result count, and so do recoveries that fail (R245). -/
theorem countBus_noPage {x : PortSt} {t : I2c} (h : busPage t = none) :
    countBus x t = { x with recFails := if recovered t then 0 else x.recFails + 1, txnFails := x.txnFails + 1 } := by
  rw [countBus, h]
  rfl

theorem readA2h_page_ports {s : State} {p : Port} {t : I2c} {a : List Byte} (h : busPage t = some a) :
    (readA2h s p t).ports = (portPut s p (diagnosed (portGet s p) a)).ports := by
  rw [readA2h_page h, keeps_ports (judgeDiag_sansRecords _ p _ _ (by decide)), keeps_ports (judgeDiag_sansRecords _ p _ _ (by decide)),
    pageTaken, keeps_ports (causeGone_sansRecords _ _), portPut_ports_congr (keeps_ports (busRecovery_sansRecords s p t))]

/-- An alarm that the read before showed too raises the fault of the cage (R242). -/
theorem readA2h_alarm {s : State} {p : Port} {t : I2c} {a : List Byte} {d : Nat} (h : busPage t = some a) (hd : d < 20)
    (hbefore : (portGet s p).alarm.getD d false = true) (hafter : (diagShown a (portGet s p).extCal 0).getD d false = true)
    (hclear : faultGet s (sfpKey 0x5940 p) = none) : Reacts (readA2h s p t) (sfpKey 0x5940 p) 2 := by
  have htaken : faultGet (pageTaken s p t a) (sfpKey 0x5940 p) = none := by
    rw [pageTaken, causeGone_other _ _ _ (diagAlarm_ne_busFault p), ← hclear]
    exact faultGet_congr (congrArg Faults.recs ((portPut_faults _ _ _).trans (busRecovery_faults s p t))) _
  rw [readA2h_page h]
  refine judgeDiag_reacts _ p _ _ hd hbefore hafter ?_ (diagAlarm_row p)
  rw [judgeDiag_other _ p _ _ (by decide) (diagAlarm_ne_diagWarning p), htaken]

/-! The bus fault (R245) -/

theorem judgeBus_sends (s : State) (p : Port) : Sends s (judgeBus s p) := by
  have hput : Sends s (portPut s p { portGet s p with values := none }) := portPut_sends s p _ id
  unfold judgeBus
  dsimp only
  split
  · split
    · exact hput
    · exact hput.trans (arise_sends _ _ 0 none16 [] (busFault_below p))
  · exact Sends.refl s

/-- The third transaction in succession without a result raises the bus fault, and the values are unknown. -/
theorem judgeBus_third {s : State} {p : Port} (h : 3 ≤ (portGet s p).txnFails) (hclear : faultGet s (sfpKey 0x5980 p) = none) :
    (portGet (judgeBus s p) p).values = none ∧ Reacts (judgeBus s p) (sfpKey 0x5980 p) 2 := by
  have hput : faultGet (portPut s p { portGet s p with values := none }) (sfpKey 0x5980 p) = none :=
    (faultGet_congr (congrArg Faults.recs (portPut_faults _ _ _)) _).trans hclear
  have hraises : judgeBus s p = arise (portPut s p { portGet s p with values := none }) (sfpKey 0x5980 p) 0 none16 [] := by
    rw [judgeBus, if_pos (by simp [h]), if_neg (by simp [faultStands_of_clear hput])]
  rw [hraises]
  refine ⟨?_, reacts_arise_row hput (busFault_row p) 0 none16 []⟩
  rw [portGet_congr (keeps_ports (arise_sansRecords _ _ 0 none16 [] (busFault_below p))), portGet_portPut, if_pos rfl]

/-- What a read without a page leaves: the counts of its port, and the other ports. -/
theorem readA2h_noPage_ports {s : State} {p : Port} {t : I2c} (h : busPage t = none) :
    (portGet (readA2h s p t) p).txnFails = (portGet s p).txnFails + 1
      ∧ (portGet (readA2h s p t) p).recFails = (if recovered t then 0 else (portGet s p).recFails + 1)
      ∧ ∀ q, q ≠ p → portGet (readA2h s p t) q = portGet s q := by
  obtain ⟨-, v, hports⟩ := judgeBus_leaves (portPut (busRecovery s p t) p (countBus (portGet s p) t)) p
  have hget (q : Port) : portGet (readA2h s p t) q = if q = p then { countBus (portGet s p) t with values := v } else portGet s q := by
    rw [readA2h_noPage h, portGet_congr hports, portPut_portPut, portGet_portPut, portGet_portPut, if_pos rfl,
      portGet_congr (keeps_ports (busRecovery_sansRecords s p t))]
  rw [hget p, if_pos rfl, countBus_noPage h]
  exact ⟨rfl, rfl, fun q hq => by rw [hget q, if_neg hq]⟩

theorem readA2h_noPage_out {s : State} {p : Port} {t : I2c} (h : busPage t = none) (hlow : t.sdaLow = true) (hfails : recovered t = false) :
    .i2cRecovery p 9 false ∈ (readA2h s p t).out := by
  rw [readA2h_noPage h]
  refine (judgeBus_sends _ p).out _ ?_
  rw [portPut_out]
  exact busRecovery_fails hlow hfails

theorem readA2h_noPage_third {s : State} {p : Port} {t : I2c} (h : busPage t = none) (htwo : 2 ≤ (portGet s p).txnFails)
    (hclear : faultGet s (sfpKey 0x5980 p) = none) :
    (portGet (readA2h s p t) p).values = none ∧ Reacts (readA2h s p t) (sfpKey 0x5980 p) 2 := by
  rw [readA2h_noPage h]
  refine judgeBus_third ?_ ?_
  · rw [portGet_portPut, if_pos rfl, countBus_noPage h]
    exact Nat.succ_le_succ htwo
  · rw [← hclear]
    exact faultGet_congr (congrArg Faults.recs ((portPut_faults _ _ _).trans (busRecovery_faults s p t))) _

/-! The commands -/

/-- A poll of a fitted module whose A0h read has succeeded is one A2h read (R240). -/
theorem answers_a2hPoll {s : State} {p : Port} {retry read : I2c} {q : State → Prop} (hretry : WellFormed.a0h retry = true)
    (hread : WellFormed.a2h read = true) (hdone : portsDone s = true) (hfitted : (portGet s p).modAbs = false)
    (hknown : (portGet s p).a0hRead = true) (h : q { readA2h { s with out := [] } p read with pending := s.pending }) :
    Answers (.a2hPoll p retry read) s q := by
  have hpoll : (if portsDone { s with out := [] } && !(portGet { s with out := [] } p).modAbs then pollCage { s with out := [] } p retry read
      else { s with out := [] }) = readA2h { s with out := [] } p read := by
    have hguard : (portsDone s && !(portGet s p).modAbs) = true := by simp [hdone, hfitted]
    exact (if_pos hguard).trans (if_pos hknown)
  exact answers_of_runIf (execA2hPoll.eq_def p retry read s) (by rw [hretry, hread]; rfl) (by rw [hpoll]; exact h)

/-- Settles O17: a fault arises alone, a read with a page stores it before its flags are judged, and one without counts before the bus is. -/
theorem portDiagnostics : Obligations.PortDiagnostics := by
  unfold Obligations.PortDiagnostics
  refine ⟨fun s p hrun huse hclear => ?_, fun s p hdone hring hprocess hclear => ?_,
    fun s p retry read a hretry hread hdone hfitted hknown hpage => ?_, fun s p retry read hretry hread hdone hfitted hknown hpage => ?_⟩
  · exact answers_fault (execTransmitterFault.eq_def p s) (Bool.and_eq_true _ _ ▸ ⟨hrun, huse⟩) hclear (transmitterFault_row p)
      (transmitterFault_below p)
  · refine answers_fault (execRingOpen.eq_def p s) ?_ hclear (ringOpen_row p) (ringOpen_below p)
    exact Bool.and_eq_true _ _ ▸ ⟨Bool.and_eq_true _ _ ▸ ⟨hdone, hring⟩, hprocess⟩
  · have hget (q : Port) := (portGet_congr (readA2h_page_ports (s := { s with out := [] }) (p := p) hpage) q).trans (portGet_portPut _ p q _)
    refine answers_a2hPoll hretry hread hdone hfitted hknown ⟨(hget p).trans (if_pos rfl), fun q hq => (hget q).trans (if_neg hq),
      fun d hd hbefore hafter hclear => readA2h_alarm (s := { s with out := [] }) hpage hd hbefore hafter hclear⟩
  · obtain ⟨htxn, hrec, hothers⟩ := readA2h_noPage_ports (s := { s with out := [] }) (p := p) hpage
    exact answers_a2hPoll hretry hread hdone hfitted hknown ⟨htxn, hrec, readA2h_noPage_out hpage,
      fun htwo hclear => readA2h_noPage_third (s := { s with out := [] }) hpage htwo hclear, hothers⟩

end Sys2Proof.Machine
end

section
/-! The masters of a port, as Announces and their loss leave them (R310, R312, R313). -/
namespace Sys2Proof.Machine

/-! The list (R312) -/

/-- An Announce of a sender that the list does not have is noted behind the others. -/
theorem noteMaster_new {now : Nat} {m : PtpAnnounce} {l : List Master} (h : ∀ x ∈ l, x.src ≠ m.hdr.src) :
    noteMaster now m l = l ++ [{ src := m.hdr.src, ann := m, seen := now, qualified := false }] := by
  have hfind : l.find? (fun x => x.src == m.hdr.src) = none := List.find?_eq_none.mpr (fun x hx => by simpa using h x hx)
  unfold noteMaster
  rw [hfind]

/-- A master heard again within four announce intervals is qualified. -/
theorem noteMaster_again {now : Nat} {m : PtpAnnounce} {l : List Master} {x : Master} (hx : x ∈ l) (hsrc : x.src = m.hdr.src)
    (hsoon : now - x.seen ≤ 4 * m.interval) : { src := m.hdr.src, ann := m, seen := now, qualified := true } ∈ noteMaster now m l := by
  unfold noteMaster
  split
  next hnone => exact absurd (List.find?_eq_none.mp hnone x hx) (by simp [hsrc])
  next => exact List.mem_map.mpr ⟨x, hx, by simp [hsrc, hsoon]⟩

/-! The list through the time block -/

theorem masters_of_exchange {x y : PtpPort} (h : x.exchange = y.exchange) : x.masters = y.masters := by
  have e := congrArg PtpPort.masters h; exact e

theorem bestChanged_masters (s : State) (p1 : Bool) (before : Option Master) (b : Bool) :
    (ptpGet (bestChanged s p1 before) b).masters = (ptpGet s b).masters := by
  unfold bestChanged
  dsimp only
  split
  · rfl
  · rw [ptpGet_ptpPut]
    split
    next h => rw [h]
    next => rfl

theorem applyAnnounce_ptpGet (s : State) (m : PtpAnnounce) (b : Bool) : ptpGet (applyAnnounce s m) b = ptpGet s b := by
  have hoffset (u : State) : ptpGet (takeOffset u m) b = ptpGet u b := by
    unfold takeOffset
    split <;> rfl
  have hclass (u : State) : ptpGet (takeClass u m) b = ptpGet u b := by
    unfold takeClass
    split
    · split
      · exact enterTime_ptpGet u _ b
      · rfl
    · split
      · exact enterTime_ptpGet u _ b
      · rfl
    · rfl
  rw [applyAnnounce_eq, hclass, hoffset]
  rfl

/-- An Announce within R312 changes its port's list alone. -/
theorem announceArrived_masters {s : State} {m : PtpAnnounce} (p1 : Bool) (hok : announceOk m = true) (b : Bool) :
    (ptpGet (announceArrived s p1 m) b).masters
      = if b = p1 then noteMaster s.now m (ptpGet s p1).masters else (ptpGet s b).masters := by
  have hnoted : (ptpGet (reselect (bestChanged (ptpPut s p1 { ptpGet s p1 with masters := noteMaster s.now m (ptpGet s p1).masters }) p1
      (bestMaster (ptpGet s p1)))) b).masters = if b = p1 then noteMaster s.now m (ptpGet s p1).masters else (ptpGet s b).masters := by
    rw [reselect_ptpGet, bestChanged_masters, ptpGet_ptpPut]
    split <;> rfl
  unfold announceArrived
  rw [if_neg (by simp [hok])]
  dsimp only
  split
  · rw [applyAnnounce_ptpGet, hnoted]
  · exact hnoted

theorem dropMaster_masters (s : State) (p1 : Bool) (src : PortId) (b : Bool) :
    (ptpGet (dropMaster s p1 src) b).masters
      = if b = p1 then (ptpGet s p1).masters.filter (fun x => x.src != src) else (ptpGet s b).masters := by
  unfold dropMaster
  dsimp only
  rw [reselect_ptpGet, bestChanged_masters, ptpGet_ptpPut]
  split <;> rfl

/-- Without its Sync a port keeps its list. -/
theorem syncTimeout_port (s : State) (p1 : Bool) :
    (ptpGet (reselect (syncTimeout s p1)) p1).syncOk = false ∧ (ptpGet (reselect (syncTimeout s p1)) p1).masters = (ptpGet s p1).masters := by
  rw [reselect_ptpGet, syncTimeout, ptpGet_ptpPut, if_pos rfl]
  exact ⟨rfl, rfl⟩

/-! The selection through the judgements of elapsed time -/

theorem timeFaults_selected (s : State) : (timeFaults s).time.selected = s.time.selected := by
  have hput (u : State) (p1 : Bool) (x : PtpPort) : (ptpPut u p1 x).time.selected = u.time.selected := by cases p1 <;> rfl
  have hkeeps {u t : State} (h : t.sansRecords = u.sansRecords) : t.time.selected = u.time.selected :=
    congrArg Time.selected (keeps_time (sansSettled_records h))
  have hdelay (u : State) (p1 : Bool) (p : Port) : (judgeDelay u p1 p).time.selected = u.time.selected := by
    unfold judgeDelay
    dsimp only
    split
    · split
      · exact hput _ _ _
      · split
        · exact hkeeps (arise_sansRecords _ _ _ _ _ (by dsimp only; decide))
        · rfl
    · split
      · exact (hkeeps (causeGone_sansRecords _ _)).trans (hput _ _ _)
      · exact hput _ _ _
  obtain ⟨a, b, c, he⟩ := timeFaults_eq s
  rw [he, foldl_keeps (fun u => u.time.selected) _ (fun u p1 => hdelay u p1 _), hkeeps (elapsedFaults_keeps s a b c).1]

/-- A command that changes nothing of the time block is followed by its judgements alone. -/
theorem timeSettled_unchanged {f : State → State} {s : State} (h : f s = s) : (timeSettled f s).time.selected = s.time.selected := by
  unfold timeSettled
  rw [withTwin_of_runs (by rw [h]), h]
  exact timeFaults_selected s

/-! The commands -/

theorem timeSettled_masters (f : State → State) (s : State) (b : Bool) : (ptpGet (timeSettled f s) b).masters = (ptpGet (f s) b).masters :=
  masters_of_exchange (timeSettled_exchange f s b)

/-- An Announce that R310 accepts, within R312, leaves the lists as it notes them. -/
theorem answers_announce {s : State} {p : Port} {p1 : Bool} {m : PtpAnnounce} (hport : ptpPort? p = some p1) (hrun : clockRuns s = true)
    (hopen : rxOpen s p = true) (hacc : ptpAccepted s m.hdr = true) (hok : announceOk m = true) : Answers (.announce p m) s (fun t =>
      ∀ b, (ptpGet t b).masters = if b = p1 then noteMaster s.now m (ptpGet s p1).masters else (ptpGet s b).masters) :=
  (answers_exchange (c := .announce p m) (s := s) (g := fun p1 u => announceArrived u p1 m) (execAnnounce.eq_def p m s) hport hrun hopen hacc).imp
    (fun _ ht b => (masters_of_exchange (ht b)).trans (announceArrived_masters (s := { s with out := [] }) p1 hok b))

/-- A command of one port's time block, with the judgements that follow it. -/
theorem answers_timeSettled {c : Instr} {s : State} {p : Port} {p1 : Bool} {g : Bool → State → State} {q : State → Prop}
    (he : exec c s = run (fun u => match ptpPort? p with
      | some p1 => if coreRuns u then timeSettled (g p1) u else u
      | none => u) s) (hport : ptpPort? p = some p1) (hrun : coreRuns s = true)
    (h : q { timeSettled (g p1) { s with out := [] } with pending := s.pending }) : Answers c s q := by
  have hrun' : coreRuns { s with out := [] } = true := hrun
  refine answers_of_run he ?_
  rw [hport]
  dsimp only
  rw [if_pos hrun']
  exact h

/-- An Announce on a port that is down is none (R220). -/
theorem ptpReceive_closed {f : Bool → State → State} {p : Port} {h : PtpHdr} {s : State} (hclosed : rxOpen s p = false) :
    ptpReceive f p h s = s := by
  unfold ptpReceive
  split
  · rw [if_neg (by simp [hclosed])]
  · rfl

/-- Settles O23: each command changes the list of its port once, and selection, judgements and the TWIN slot leave the lists. -/
theorem mastersKept : Obligations.MastersKept := by
  unfold Obligations.MastersKept
  refine ⟨fun s p p1 m hport hrun hopen hacc hok hnew => ?_, fun s p p1 m x hport hrun hopen hacc hok hx hsrc hsoon => ?_,
    fun s p p1 m hport hrun hopen hacc hbad => ?_, fun s p p1 m hport hrun hopen hrefused => ?_, fun s p m hclosed => ?_,
    fun s p p1 src hport hrun => ?_, fun s p p1 hport hrun => ?_⟩
  · refine (answers_announce hport hrun hopen hacc hok).imp (fun t ht => ⟨?_, ?_⟩)
    · rw [ht p1, if_pos rfl, noteMaster_new hnew]
    · rw [ht (!p1), if_neg (by cases p1 <;> decide)]
  · refine (answers_announce hport hrun hopen hacc hok).imp (fun t ht => ?_)
    rw [ht p1, if_pos rfl]
    exact noteMaster_again hx hsrc hsoon
  · have hsame : announceArrived { s with out := [] } p1 m = { s with out := [] } := if_pos (by simp [hbad])
    refine answers_ptpReceive (f := fun p1 u => timeSettled (fun u => announceArrived u p1 m) u) (execAnnounce.eq_def p m s) hport hrun hopen hacc
      ⟨timeSettled_unchanged hsame, fun b => ?_⟩
    exact (timeSettled_masters (fun u => announceArrived u p1 m) { s with out := [] } b).trans (by rw [hsame]; rfl)
  · refine answers_of_run (execAnnounce.eq_def p m s) ?_
    rw [ptpReceive_refused (s := { s with out := [] }) hport hrun hopen hrefused]
    rfl
  · refine answers_of_run (execAnnounce.eq_def p m s) ?_
    rw [ptpReceive_closed (s := { s with out := [] }) hclosed]
  · have hkept (b : Bool) := (timeSettled_masters (fun u => dropMaster u p1 src) { s with out := [] } b).trans (dropMaster_masters _ p1 src b)
    refine answers_timeSettled (g := fun p1 u => dropMaster u p1 src) (execMasterLost.eq_def p src s) hport hrun
      ⟨(hkept p1).trans (if_pos rfl), (hkept (!p1)).trans (if_neg (by cases p1 <;> decide))⟩
  · have hkept := timeSettled_exchange (fun u => reselect (syncTimeout u p1)) { s with out := [] } p1
    obtain ⟨hsync, hmasters⟩ := syncTimeout_port { s with out := [] } p1
    have hlost : (ptpGet (timeSettled (fun u => reselect (syncTimeout u p1)) { s with out := [] }) p1).syncOk = false := by
      have e := congrArg PtpPort.syncOk hkept
      exact e.trans hsync
    refine answers_timeSettled (g := fun p1 u => reselect (syncTimeout u p1)) (execSyncReceiptTimeout.eq_def p s) hport hrun
      ⟨hlost, ?_, (masters_of_exchange hkept).trans hmasters⟩
    exact (congrArg (_ && ·) hlost).trans (Bool.and_false _)

end Sys2Proof.Machine
end

section
/-! A supervision frame of a pair, whose place in the order of indices lets other frames enter first (R225, R636, R793). -/
namespace Sys2Proof.Machine

/-- The Active of a formed pair. Among the frames that wait for the end of their index is one of a publication 257, which runs and whose stNum is
persisted; zones have the numbers 0 to 255 and the summary has 256 (R583), so no command brings it there. -/
def strayPublication : State := { sPair .active with
  nvm := { (sPair .active).nvm with stNum := [(257, 4)] }
  pub := { pubs := [(257, { stNum := 4, running := true })], due := [(⟨0, 0⟩, 257)] } }

theorem strayPublication_meets : portsDone strayPublication = true ∧ strayPublication.ports.seqStation = 0 := by decide

/-- The frame of publication 257 enters as one of the station bus, and takes a station number beside that of the supervision frame. -/
theorem strayPublication_counts : Answers .prpSupervisionSend strayPublication (fun t => t.ports.seqStation = 2) := ⟨_, rfl, by decide +kernel⟩

/-- Refutes O18: its first clause counts the station sequence number up by one from every state, but where a frame of a publication beyond 256
waits for the end of its index, the pair-node supervision frame lets it enter (R793) and it takes a station number of its own: in
`strayPublication`, the number is 0 before the command and 2 after it. -/
theorem not_supervisionAndTallies : ¬ Obligations.SupervisionAndTallies := by
  unfold Obligations.SupervisionAndTallies
  rintro ⟨hsupervision, -⟩
  obtain ⟨hdone, hzero⟩ := strayPublication_meets
  obtain ⟨t, -, ⟨hone, -⟩, htwo⟩ := (hsupervision strayPublication hdone).and strayPublication_counts
  rw [hone, hzero] at htwo
  exact absurd htwo (by decide)

end Sys2Proof.Machine
end

section
/-! A unit alone decides by itself, and the slots of its stream catcher as they are read back (Table 16.1, R260, R288). -/
namespace Sys2Proof.Machine

/-! A unit alone -/

section
variable {s : State} (hsolo : s.pair.state = .solo)
include hsolo

theorem decides_solo : decides s = true := by simp [decides, hsolo]
theorem formed_solo : formed s = false := by simp [formed, hsolo]
theorem agreeing_solo (i : SIndex) : agreeing s i = false := by simp [agreeing, formed_solo hsolo, hsolo]

end

/-! Streams through entries and frames -/

theorem streams_of_records {s t : State} (h : t.sansRecords = s.sansRecords) : t.streams = s.streams := by
  have e := congrArg State.streams h; exact e

@[simp] theorem journalEntry_streams (s : State) (e : Entry) : (journalEntry s e).streams = s.streams := streams_of_records (journalEntry_sansRecords s e)
@[simp] theorem causeGone_streams (s : State) (k : FaultKey) : (causeGone s k).streams = s.streams := streams_of_records (causeGone_sansRecords s k)
theorem arise_streams (s : State) (k : FaultKey) (det hdl : Nat) (d : List Byte) (h : max (faultRow k.code).2.1 (faultRow k.code).1 < 4) :
    (arise s k det hdl d).streams = s.streams := streams_of_records (arise_sansRecords s k det hdl d h)

/-- A fault that loses its cause where it stands leaves the streams. -/
theorem causeGoneWhen_streams (b : Bool) (s : State) (k : FaultKey) : (if b then causeGone s k else s).streams = s.streams := by
  split
  · exact causeGone_streams s k
  · rfl

/-- Which zones name a setting is read of the image and the straps alone. -/
theorem zonesWith_congr {s t : State} (hplug : t.plug = s.plug) (hident : t.ident = s.ident) (f : Rods → Nat → Bool) :
    zonesWith t f = zonesWith s f := by
  unfold zonesWith adcInputs strap
  rw [hplug, hident]

/-- The row of a key is that of its class, whichever its INST. -/
theorem plainRow_of_inst {code scope inst l : Nat} (h : plainRow { code := code, scope := scope, inst := 0 } l = true)
    (hinst : scope * 4096 + inst < 65536) : plainRow { code := code, scope := scope, inst := inst } l = true := by
  simp only [plainRow, bookkept, Bool.and_eq_true, Bool.not_eq_true', Bool.or_eq_false_iff, decide_eq_false_iff_not, not_le] at h ⊢
  obtain ⟨⟨⟨⟨hclass, -⟩, hrow⟩, hsfp⟩, hlevel⟩ := h
  exact ⟨⟨⟨⟨hclass, hinst⟩, hrow⟩, hsfp⟩, hlevel⟩

theorem svGet_of_streams {s t : State} (h : t.streams = s.streams) (n : Nat) : svGet t n = svGet s n := by unfold svGet; rw [h]
theorem brkGet_of_streams {s t : State} (h : t.streams = s.streams) (n : Nat) : brkGet t n = brkGet s n := by unfold brkGet; rw [h]

end Sys2Proof.Machine
end

section
/-! Breaker messages and the ends of breaker slots, in a unit alone (R286 to R290). -/
namespace Sys2Proof.Machine

/-- From `s` to `t`, breaker slot `n` has become `y`, and the others stay. -/
def BrkBecomes (s t : State) (n : Nat) (y : BrkSlot) : Prop := brkGet t n = y ∧ ∀ k, k ≠ n → brkGet t k = brkGet s k

namespace BrkBecomes

variable {s t u : State} {n : Nat} {x y : BrkSlot}

theorem put (s : State) (n : Nat) (y : BrkSlot) : BrkBecomes s (brkPut s n y) n y :=
  ⟨by rw [brkGet_brkPut, if_pos rfl], fun k hk => by rw [brkGet_brkPut, if_neg hk]⟩

theorem of_streams (h : BrkBecomes s t n y) (hu : u.streams = t.streams) : BrkBecomes s u n y :=
  ⟨(brkGet_of_streams hu n).trans h.1, fun k hk => (brkGet_of_streams hu k).trans (h.2 k hk)⟩

theorem again (h : BrkBecomes s t n x) (y : BrkSlot) : BrkBecomes s (brkPut t n y) n y :=
  ⟨(put t n y).1, fun k hk => ((put t n y).2 k hk).trans (h.2 k hk)⟩

end BrkBecomes

/-! A message at a slot (R288, R289) -/

/-- The slot as the candidate of a first message (R288). -/
def brkFirst (x : BrkSlot) (m : BrkMsg) (tick : Nat) : BrkSlot := { brkCandidate x m with formedAt := some tick }

/-- The slot as the third message of a run admits it (R288). -/
def brkAdmitted (x : BrkSlot) (m : BrkMsg) : BrkSlot := { brkStatus x m with phase := .admitted, gen := (x.gen + 1) % 64, used := true }

section
variable {s : State} {n : Nat} {m : BrkMsg} {tick : Nat} {i : SIndex}

theorem brkApply_free (h : (brkGet s n).phase = .free) : brkApply s n m tick i = brkPut s n (brkFirst (brkGet s n) m tick) := by
  simp only [brkApply, h, brkFirst]

/-- At a candidate, another sender is counted; in the tick in which the slot was free, the lower address forms the candidate (R267, R268). -/
theorem brkApply_otherSender {run last : Nat} (h : (brkGet s n).phase = .candidate run last) (hsrc : m.src ≠ (brkGet s n).src) :
    BrkBecomes s (brkApply s n m tick i) n (if (brkGet s n).formedAt = some tick ∧ m.src < (brkGet s n).src
      then brkFirst (brkTally (brkGet s n) 3) m tick else brkTally (brkGet s n) 3) := by
  have hcounted := BrkBecomes.put s n (brkTally (brkGet s n) 3)
  simp only [brkApply, h, bne_iff_ne, ne_eq, hsrc, not_false_eq_true, if_true, Bool.and_eq_true, decide_eq_true_eq]
  split
  · rw [hcounted.1]
    exact hcounted.again _
  · exact hcounted

theorem brkAdmit_becomes : BrkBecomes s (brkAdmit s n m i) n (brkAdmitted (brkGet s n) m) :=
  (BrkBecomes.put s n _).of_streams ((causeGoneWhen_streams _ _ _).trans (journalEntry_streams _ _))

theorem brkSame_src {x : BrkSlot} (h : brkSame x m = true) : m.src = x.src := by
  simp only [brkSame, Bool.and_eq_true, beq_iff_eq] at h
  exact h.1.1.symm

/-- The message after the second of a run admits the slot. -/
theorem brkApply_third {run last : Nat} (h : (brkGet s n).phase = .candidate run last) (hsame : brkSame (brkGet s n) m = true)
    (hst : m.stNum = (brkGet s n).stNum) (hsq : m.sqNum = (brkGet s n).sqNum + 1) (hrun : 2 ≤ run) :
    brkApply s n m tick i = brkAdmit s n m i := by
  have hsame' (ph : SlotPhase) : brkSame { brkGet s n with phase := ph, formedAt := none } m = true := hsame
  simp [brkApply, h, brkSame_src hsame, hsame', hst, hsq, Nat.not_lt.mpr hrun]

/-- A new stNum of the slot's identity replaces its status. -/
theorem brkApply_newStatus (h : (brkGet s n).phase = .admitted) (hsame : brkSame (brkGet s n) m = true) (hst : (brkGet s n).stNum < m.stNum) :
    BrkBecomes s (brkApply s n m tick i) n (brkStatus (brkTally (brkGet s n) 1) m) := by
  have hne : m.stNum ≠ (brkGet s n).stNum := by omega
  have hold : ¬ m.stNum < (brkTally (brkGet s n) 1).stNum := Nat.not_lt.mpr (Nat.le_of_lt hst)
  have hnew : m.stNum ≠ (brkTally (brkGet s n) 1).stNum := hne
  have huse : brkApply s n m tick i = brkUse s n m := by simp [brkApply, h, brkSame_src hsame, hsame]
  rw [huse, brkUse, if_neg (by simp [hne])]
  simp only [if_neg hold, if_neg hnew]
  exact (BrkBecomes.put s n _).of_streams (causeGoneWhen_streams _ _ _)

theorem brkApply_intruder (h : (brkGet s n).phase = .admitted) (hsrc : m.src ≠ (brkGet s n).src) :
    brkApply s n m tick i = brkPut s n (brkTally (brkGet s n) 3) := by
  simp [brkApply, h, hsrc]

end

/-- In a unit alone a valid message acts at once on the slot of its APPID. -/
theorem breakerMessage_solo {s : State} {m : BrkMsg} {n : Nat} (hsolo : s.pair.state = .solo) (hvalid : brkValid m = true)
    (hwindow : windowSlot m.appid.toNat (gBrkBase (rods s)) (gBrkSize (rods s)) = some n) :
    breakerMessage s m = brkApply s n m s.now s.journal.latest := by
  simp [breakerMessage, hwindow, hvalid, agreeing_solo hsolo]

/-- A message that makes its slot `y` leaves it so as the command completes. -/
theorem answers_breakerMessage {s : State} {p : Port} {m : BrkMsg} {n : Nat} {y : BrkSlot} (hcatches : catches s p = true)
    (hsolo : s.pair.state = .solo) (hvalid : brkValid m = true)
    (hwindow : windowSlot m.appid.toNat (gBrkBase (rods s)) (gBrkSize (rods s)) = some n)
    (h : BrkBecomes s (brkApply { s with out := [] } n m s.now s.journal.latest) n y) :
    Answers (.breakerMessage p m) s (fun t => BrkBecomes s t n y) := by
  refine answers_of_guard (execBreakerMessage.eq_def p m s) hcatches (h.of_streams ?_)
  rw [breakerMessage_solo (s := { s with out := [] }) hsolo hvalid hwindow]
  exact judgeSummary_streams _

/-! The ends of a slot (R290) -/

/-- Whether a zone uses a breaker slot is read of the image and the straps alone (R201). -/
theorem brkUsed_congr {s t : State} (hplug : t.plug = s.plug) (hident : t.ident = s.ident) (n : Nat) : brkUsed t n = brkUsed s n := by
  unfold brkUsed
  rw [zonesWith_congr hplug hident]

/-- In a unit alone a decision on a breaker slot acts at once. -/
theorem brkDecide_solo {s : State} (hsolo : s.pair.state = .solo) (n : Nat) (a : BrkAct) : brkDecide s n a = brkAct s n a s.journal.latest := by
  simp [brkDecide, decides_solo hsolo, agreeing_solo hsolo]

theorem brkExpire_admitted {s : State} {n : Nat} (h : (brkGet s n).phase = .admitted) (hlive : (brkGet s n).expired = false) :
    brkExpire s n = brkPut s n { brkTally (brkGet s n) 6 with expired := true } := by
  simp [brkExpire, h, hlive]

theorem brkEnd_expired {s : State} {n : Nat} (h : (brkGet s n).phase = .admitted) (hexpired : (brkGet s n).expired = true) (i : SIndex) :
    brkEnd s n i = brkDestroy s n i := by
  simp [brkEnd, h, hexpired]

/-- What a destroyed breaker slot keeps: its last generation, its tallies and what is judged of them (R260, R293). -/
def brkFreed (x : BrkSlot) : BrkSlot := { gen := x.gen, used := x.used, tally := x.tally, intruder := x.intruder }

/-- The state in which a destroyed slot's zones are looked for. -/
def brkGone (s : State) (n : Nat) (i : SIndex) : State :=
  brkPut (brkEntry s 0x2C04 n i (destroyPayload 1 n (handleOf (brkGet s n).gen n) (Tab.get 0 (brkGet s n).tally 1).toNat)) n (brkFreed (brkGet s n))

theorem brkLost_below (n : Nat) : max (faultRow (keyB 0x2D40 n).code).2.1 (faultRow (keyB 0x2D40 n).code).1 < 4 := by
  dsimp only [keyB]
  decide

theorem brkLost_row (n : Fin 256) : plainRow (keyB 0x2D40 n) 2 = true := plainRow_of_inst (by decide) (by omega)

/-- A destroyed slot that a zone uses is lost. -/
theorem brkDestroy_eq (s : State) (n : Nat) (i : SIndex) : brkDestroy s n i =
    if brkUsed (brkGone s n i) n && !faultStands (brkGone s n i) (keyB 0x2D40 n)
      then arise (brkGone s n i) (keyB 0x2D40 n) 0 (slotHandle (brkGet s n).used (brkGet s n).gen n) [] else brkGone s n i := rfl

theorem brkGone_becomes (s : State) (n : Nat) (i : SIndex) : BrkBecomes s (brkGone s n i) n (brkFreed (brkGet s n)) := by
  obtain ⟨hn, hothers⟩ := BrkBecomes.put (brkEntry s 0x2C04 n i
    (destroyPayload 1 n (handleOf (brkGet s n).gen n) (Tab.get 0 (brkGet s n).tally 1).toNat)) n (brkFreed (brkGet s n))
  exact ⟨hn, fun k hk => (hothers k hk).trans (brkGet_of_streams (journalEntry_streams _ _) k)⟩

theorem brkDestroy_becomes (s : State) (n : Nat) (i : SIndex) : BrkBecomes s (brkDestroy s n i) n (brkFreed (brkGet s n)) := by
  refine (brkGone_becomes s n i).of_streams ?_
  rw [brkDestroy_eq]
  split
  · exact arise_streams _ _ _ _ _ (brkLost_below n)
  · rfl

/-- A destroyed slot that a zone uses, its fault Clear, raises it. -/
theorem brkDestroy_reacts {s : State} {n : Fin 256} (hused : brkUsed s n = true) (hclear : faultGet s (keyB 0x2D40 n) = none) (i : SIndex) :
    Reacts (brkDestroy s n i) (keyB 0x2D40 n) 2 := by
  have hplug : (brkGone s n i).plug = s.plug := (congrArg State.plug (journalEntry_sansRecords s _) : _)
  have hident : (brkGone s n i).ident = s.ident := (congrArg State.ident (journalEntry_sansRecords s _) : _)
  have hused' : brkUsed (brkGone s n i) n = true := (brkUsed_congr hplug hident n).trans hused
  have hclear' : faultGet (brkGone s n i) (keyB 0x2D40 n) = none :=
    (faultGet_of_steady (journalEntry_steady s _) _ (bookkept_of_plainRow (brkLost_row n))).trans hclear
  rw [brkDestroy_eq, if_pos (by simp [hused', faultStands_of_clear hclear'])]
  exact reacts_arise_row hclear' (brkLost_row n) _ _ _

/-- Settles O21: in a unit alone a message acts at once on its slot by the slot's phase, and faults, entries and the summary leave the slots. -/
theorem breakerReports : Obligations.BreakerReports := by
  unfold Obligations.BreakerReports
  refine ⟨fun s p m n hcatches hsolo hvalid hwindow => ?_, fun s n hserving hsolo hphase hlive => ?_, fun s n hserving hsolo hphase hexpired => ?_⟩
  · have acts {y : BrkSlot} := answers_breakerMessage (y := y) hcatches hsolo hvalid hwindow
    refine ⟨fun hfree => ?_, fun run last hcand hsrc => ?_, fun run last hcand hsame hst hsq hrun => ?_, fun hadm hsame hst => ?_, fun hadm hsrc => ?_⟩
    · exact acts (brkApply_free (s := { s with out := [] }) hfree ▸ BrkBecomes.put _ n _)
    · exact acts (brkApply_otherSender (s := { s with out := [] }) hcand hsrc)
    · refine (acts (brkApply_third (s := { s with out := [] }) hcand hsame hst hsq hrun ▸ brkAdmit_becomes)).imp (fun t ⟨hn, hothers⟩ => ?_)
      rw [hn]
      exact ⟨rfl, rfl, rfl, rfl, hothers⟩
    · refine (acts (brkApply_newStatus (s := { s with out := [] }) hadm hsame hst)).imp (fun t ⟨hn, hothers⟩ => ?_)
      rw [hn]
      exact ⟨hadm, rfl, rfl, rfl, rfl, hothers⟩
    · exact (acts (brkApply_intruder (s := { s with out := [] }) hadm hsrc ▸ BrkBecomes.put _ n _)).imp (fun t ⟨hn, _⟩ => hn)
  · refine answers_of_guard (execBreakerStatusExpired.eq_def n s) hserving ?_
    rw [brkDecide_solo (s := { s with out := [] }) hsolo, brkAct, brkExpire_admitted (s := { s with out := [] }) hphase hlive]
    rfl
  · refine answers_of_guard (execBreakerDestroyed.eq_def n s) hserving ?_
    rw [brkDecide_solo (s := { s with out := [] }) hsolo, brkAct, brkEnd_expired (s := { s with out := [] }) hphase hexpired]
    obtain ⟨hn, hothers⟩ := (brkDestroy_becomes { s with out := [] } n s.journal.latest).of_streams (judgeSummary_streams _)
    exact ⟨hn, hothers, fun hused hclear =>
      reacts_judgeSummary (bookkept_of_plainRow (brkLost_row n)) (brkDestroy_reacts (s := { s with out := [] }) hused hclear _)⟩

end Sys2Proof.Machine
end

section
/-! What a zone evaluates leaves of the stream catcher and of the pair's state: all of it (R266, R445, R473 to R481). -/
namespace Sys2Proof.Machine

/-- What the decisions on slots rest on: the stream catcher and the pair state (Table 16.9). -/
def State.catcher (s : State) : Streams × PairState := (s.streams, s.pair.state)

theorem catcher_reports {s t : State} (h : t.sansReports = s.sansReports) : t.catcher = s.catcher := by
  have e := congrArg State.catcher h; exact e
theorem catcher_records {s t : State} (h : t.sansRecords = s.sansRecords) : t.catcher = s.catcher := catcher_reports (sansReports_of _ _ h)

@[simp] theorem submitEntry_catcher (s : State) (e : Entry) : (submitEntry s e).catcher = s.catcher := catcher_records (submitEntry_sansRecords s e)
@[simp] theorem journalEntry_catcher (s : State) (e : Entry) : (journalEntry s e).catcher = s.catcher := catcher_records (journalEntry_sansRecords s e)
@[simp] theorem unitSnapshots_catcher (s : State) (t : Nat) (i : SIndex) : (unitSnapshots s t i).catcher = s.catcher :=
  catcher_records (unitSnapshots_sansRecords s t i)
@[simp] theorem causeGone_catcher (s : State) (k : FaultKey) : (causeGone s k).catcher = s.catcher := catcher_records (causeGone_sansRecords s k)
theorem arise_catcher (s : State) (k : FaultKey) (det hdl : Nat) (d : List Byte) (h : max (faultRow k.code).2.1 (faultRow k.code).1 < 4) :
    (arise s k det hdl d).catcher = s.catcher := catcher_records (arise_sansRecords s k det hdl d h)
@[simp] theorem zonePut_catcher (s : State) (z : Nat) (x : Zone) : (zonePut s z x).catcher = s.catcher := rfl
@[simp] theorem coilPut_catcher (s : State) (cc : Nat) (c : Coil) : (coilPut s cc c).catcher = s.catcher := rfl

@[simp] theorem coilsFollow_catcher (l : List Nat) (s : State) : (coilsFollow l s).catcher = s.catcher := by
  have commanded (s : State) (cc : Nat) (on : Bool) : (coilCommand s cc on).catcher = s.catcher := by
    simp [coilCommand, coilIdle, coilPick, apply_ite State.catcher]
  unfold coilsFollow
  exact foldl_keeps State.catcher _ (fun t cc => by split_ifs <;> simp [commanded]) _ s

@[simp] theorem zoneRestart_catcher (s : State) (z : Nat) (x : Zone) : (zoneRestart s z x).catcher = s.catcher := by
  simp [zoneRestart]

/-! Snapshots -/

@[simp] theorem zoneSnapshotsAt_catcher (s : State) (z t : Nat) (i : SIndex) : (zoneSnapshotsAt s z t i).catcher = s.catcher := by
  unfold zoneSnapshotsAt
  rw [foldl_keeps State.catcher _ (fun u _ => submitEntry_catcher u _)]

@[simp] theorem zoneSnapshots_catcher (s : State) (z t : Nat) (i : SIndex) : (zoneSnapshots s z t i).catcher = s.catcher :=
  zoneSnapshotsAt_catcher s z t _

@[simp] theorem dueSnapshots_catcher (s : State) (z : Nat) (i : SIndex) : (dueSnapshots s z i).catcher = s.catcher := by
  unfold dueSnapshots
  dsimp only
  rw [foldl_keeps State.catcher _ (fun u (d : Nat × Nat × SIndex) => zoneSnapshotsAt_catcher u z d.2.1 d.2.2)]
  rfl

theorem atSample_catcher {f : State → State} (hf : ∀ u, (f u).catcher = u.catcher) (s : State) (pos : Nat) (r : PastRec) :
    (atSample s pos r f).catcher = s.catcher := hf _

/-! A zone settles -/

@[simp] theorem zoneChange_catcher (s : State) (z : Nat) (i : SIndex) : (zoneChange s z i).catcher = s.catcher := by
  have published (u : State) : (if zEnabled u z then zoneChangeAt u z i (sampleTime (pipeRate u) i) else u).catcher = u.catcher := by
    split
    · exact catcher_reports (zoneChangeAt_sansReports u z i _)
    · rfl
  unfold zoneChange withNow
  split
  · exact published s
  · exact published { s with plug := { s.plug with image := some _ } }

@[simp] theorem requestUrgent_catcher (s : State) (z : Nat) : (requestUrgent s z).catcher = s.catcher := by
  have requested (i : Nat) : (requestCheck s i).catcher = s.catcher := by
    unfold requestCheck
    split <;> rfl
  unfold requestUrgent
  split
  · rfl
  · split
    · rfl
    · dsimp only
      split
      · rfl
      · exact requested _

@[simp] theorem verdictChange_catcher (s : State) (z : Nat) (i : SIndex) (before : List Nat) (old new : Dataset) :
    (verdictChange s z i before old new).catcher = s.catcher := by
  simp [verdictChange, apply_ite State.catcher]

@[simp] theorem recordTrace_catcher (s : State) (z : Nat) (i : SIndex) : (recordTrace s z i).catcher = s.catcher := by
  unfold recordTrace
  dsimp only
  split <;> rfl

@[simp] theorem recordTrigger_catcher (s : State) (z fired : Nat) (i : SIndex) : (recordTrigger s z fired i).catcher = s.catcher := by
  have reopened (o : DrRecord) : (reopenRecord s o).catcher = s.catcher := by
    unfold reopenRecord
    split <;> rfl
  unfold recordTrigger
  dsimp only
  split
  · rfl
  · split
    · rfl
    · split
      · rfl
      · split
        · rfl
        · exact reopened _

@[simp] theorem settle_catcher (s : State) (z n : Nat) (i : SIndex) (b : Bool) : (settle s z n i b).catcher = s.catcher := by
  have failed (u : State) : (arise u (keyZ 0x3680 z) 0 none16 []).catcher = u.catcher := arise_catcher u _ _ _ _ (by dsimp only [keyZ]; decide)
  simp [settle, apply_ite State.catcher, failed]

/-! A zone evaluates a sample -/

@[simp] theorem testStep_catcher (s : State) (z : Nat) : (testStep s z).catcher = s.catcher := by
  have entered (u : State) : (enterTest u z).catcher = u.catcher := by
    rw [enterTest, arise_catcher _ _ _ _ _ (by dsimp only [keyZ]; decide), zoneRestart_catcher]
  simp [testStep, leaveTest, apply_ite State.catcher, entered]

@[simp] theorem zoneFaults_catcher (s : State) (z : Nat) : (zoneFaults s z).catcher = s.catcher := by
  have ran (u : State) (code det limit run : Nat) (gone : Bool) (h : max (faultRow code).2.1 (faultRow code).1 < 4) :
      (runFault u z code det limit run gone).catcher = u.catcher := by
    simp [runFault, apply_ite State.catcher, arise_catcher _ (keyZ code z) _ _ _ h]
  unfold zoneFaults
  dsimp only
  rw [ran _ _ _ _ _ _ (by decide), ran _ _ _ _ _ _ (by decide), ran _ _ _ _ _ _ (by decide), ran _ _ _ _ _ _ (by decide),
    foldl_keeps State.catcher _ (fun u d => ran u 0x3580 _ _ _ _ (by decide)), zonePut_catcher]

@[simp] theorem evalSample_catcher (s : State) (z : Nat) (i : SIndex) : (evalSample s z i).catcher = s.catcher := by
  simp [evalSample, evalZone]

theorem evalWait_catcher (s : State) (w : ZoneWait) : (evalWait s w).catcher = s.catcher := by
  have imaged (u : State) (im : Option Rods) : ({ u with plug := { u.plug with image := im } } : State).catcher = u.catcher := rfl
  unfold evalWait
  dsimp only
  split
  · rfl
  · rw [imaged, atSample_catcher (fun u => evalSample_catcher u w.zone w.sample.idx), imaged]

@[simp] theorem evalWaits_catcher (s : State) (p : ZoneWait → Bool) : (evalWaits s p).catcher = s.catcher := by
  rw [evalWaits, foldl_keeps State.catcher evalWait evalWait_catcher]
  rfl

end Sys2Proof.Machine
end

section
/-! A slot of the stream catcher is destroyed (R266, R296). -/
namespace Sys2Proof.Machine

theorem zoneLost_catcher (s : State) (z : Nat) (i : SIndex) : (zoneLost s z i).catcher = s.catcher := by
  simp [zoneLost]

theorem streamLost_below (n : Nat) : max (faultRow (keyS 0x2D00 n).code).2.1 (faultRow (keyS 0x2D00 n).code).1 < 4 := by
  dsimp only [keyS]
  decide

theorem streamLost_catcher (s : State) (n : Nat) : (streamLost s n).catcher = s.catcher := by
  unfold streamLost
  split
  · exact arise_catcher s _ _ _ _ (streamLost_below n)
  · rfl

/-- What a destroyed slot keeps: its last generation, its tallies and what is judged of them, and smpSynch (R266, R277, R293). -/
def svFreed (x : SvSlot) : SvSlot :=
  { gen := x.gen, used := x.used, tally := x.tally, intruder := x.intruder, authFail := x.authFail, smpSynch := x.smpSynch }

/-- A destroyed slot is free, and its samples at the intake are gone. -/
theorem destroySlot_catcher (s : State) (n : Nat) (i : SIndex) : (destroySlot s n i).catcher =
    ({ (svPut s n (svFreed (svGet s n))).streams with intake := s.streams.intake.filter (fun y => y.slot != n) }, s.pair.state) := by
  have reset (b : Bool) (l : List Nat) (u : State) (j : SIndex) : (if b then l.foldl (fun u z => zoneLost u z j) u else u).catcher = u.catcher := by
    split
    · exact foldl_keeps State.catcher _ (fun u z => zoneLost_catcher u z j) l u
    · rfl
  have put (u : State) (l : List Held) (h : u.catcher = s.catcher) :
      (pipeClear (setHeld { svPut u n (svFreed (svGet s n)) with
        streams := { (svPut u n (svFreed (svGet s n))).streams with
          intake := (svPut u n (svFreed (svGet s n))).streams.intake.filter (fun y => y.slot != n) } } l) n).catcher =
      ({ (svPut s n (svFreed (svGet s n))).streams with intake := s.streams.intake.filter (fun y => y.slot != n) }, s.pair.state) := by
    obtain ⟨hstreams, hpair⟩ := Prod.mk.inj h
    simp only [State.catcher, svPut, setHeld, pipeClear, lanesPut, hstreams, hpair]
  unfold destroySlot
  dsimp only
  rw [reset, streamLost_catcher]
  exact put _ _ (journalEntry_catcher s _)

theorem svGet_destroySlot (s : State) (n : Nat) (i : SIndex) (m : Nat) :
    svGet (destroySlot s n i) m = if m = n then svFreed (svGet s n) else svGet s m := by
  have h := congrArg Prod.fst (destroySlot_catcher s n i)
  calc svGet (destroySlot s n i) m
      = svGet (svPut s n (svFreed (svGet s n))) m := by unfold svGet; rw [show (destroySlot s n i).streams = _ from h]; rfl
    _ = _ := svGet_svPut s n m _

theorem intake_destroySlot (s : State) (n : Nat) (i : SIndex) :
    (destroySlot s n i).streams.intake = s.streams.intake.filter (fun y => y.slot != n) := by
  have h := congrArg (fun c => c.1.intake) (destroySlot_catcher s n i); exact h

theorem pairState_destroySlot (s : State) (n : Nat) (i : SIndex) : (destroySlot s n i).pair.state = s.pair.state := by
  have h := congrArg Prod.snd (destroySlot_catcher s n i); exact h

/-- In a unit alone an admitted slot is destroyed at once. -/
theorem streamDestroyed_solo {s : State} {n : Nat} (hsolo : s.pair.state = .solo) (hphase : (svGet s n).phase = .admitted) :
    streamDestroyed s n = destroySlot s n (svGet s n).next := by
  simp [streamDestroyed, hphase, decides_solo hsolo, agreeing_solo hsolo]

end Sys2Proof.Machine
end

section
/-! A frame in the tick in which its slot is destroyed (R296). -/
namespace Sys2Proof.Machine

/-- In a unit alone, the destruction of an admitted slot goes before the frame of its tick, which then forms a candidate. -/
theorem svFrame_afterDestruction {s : State} {f : SvFrame} {n : Nat} (hsolo : s.pair.state = .solo) (hauth : gAuthSv (rods s) = none)
    (hframe : frameFails s f = none) (hwindow : windowSlot f.appid.toNat (gSvBase (rods s)) (gSvSize (rods s)) = some n)
    (hphase : (svGet s n).phase = .admitted) (hdestroys : s.pending.any (destroys n) = true) :
    svFrame s f = firstCandidate (destroySlot s n (svGet s n).next) n f := by
  have hsolo' : (destroySlot s n (svGet s n).next).pair.state = .solo := (pairState_destroySlot s n _).trans hsolo
  have hfree : (svGet (destroySlot s n (svGet s n).next) n).phase = .free := by rw [svGet_destroySlot, if_pos rfl]; rfl
  have hagrees : frameAgrees (destroySlot s n (svGet s n).next) n f = false := agreeing_solo hsolo' _
  have hpassed : authSv s f = (s, none) := by simp only [authSv, hauth]
  simp [svFrame, hframe, hpassed, hwindow, hdestroys, streamDestroyed_solo hsolo hphase, hagrees, decides_solo hsolo', decideFrame, hfree]

theorem firstCandidate_phase (s : State) (n : Nat) (f : SvFrame) : (svGet (firstCandidate s n f) n).phase = .candidate 1 (lastCnt f) := by
  simp [firstCandidate, newCandidate]

/-- The command as it answers there. -/
theorem answers_afterDestruction {s : State} {p : Port} {f : SvFrame} {n : Nat} (hcatches : catches s p = true) (hsolo : s.pair.state = .solo)
    (hauth : gAuthSv (rods s) = none) (hframe : frameFails s (seenAt p f) = none)
    (hwindow : windowSlot f.appid.toNat (gSvBase (rods s)) (gSvSize (rods s)) = some n) (hphase : (svGet s n).phase = .admitted)
    (hdestroys : s.pending.any (destroys n) = true) : Answers (.svFrame p f) s (fun t => (svGet t n).phase = .candidate 1 (lastCnt f)) := by
  refine answers_of_guard (execSvFrame.eq_def p f s) hcatches ?_
  have hforms := svFrame_afterDestruction (s := { s with out := [] }) (f := seenAt p f) hsolo hauth hframe hwindow hphase hdestroys
  have hslot : svGet (judgeSummary (svFrame { s with out := [] } (seenAt p f))) n = svGet (svFrame { s with out := [] } (seenAt p f)) n :=
    svGet_of_streams (judgeSummary_streams _) n
  exact (congrArg SvSlot.phase (hslot.trans (congrArg (svGet · n) hforms))).trans (firstCandidate_phase _ n _)

/-- A unit alone whose slot 1 is admitted, and whose destruction comes in this tick. -/
def contendedSlot : State := { sZone with streams := { sZone.streams with sv := [(1, anAdmitted)] }, pending := [.streamDestroyed 1] }

/-- A frame to slot 1 that comes before the destruction in the queue, from another source than that of the slot. -/
def strangerFrame : SvFrame := { anSv 2 with appid := 2, src := 6 }

theorem contendedSlot_meets : catches contendedSlot .p0 = true ∧ contendedSlot.pair.state = .solo ∧ gAuthSv (rods contendedSlot) = none
    ∧ frameFails contendedSlot (seenAt .p0 strangerFrame) = none
    ∧ windowSlot strangerFrame.appid.toNat (gSvBase (rods contendedSlot)) (gSvSize (rods contendedSlot)) = some 1
    ∧ (svGet contendedSlot 1).phase = .admitted ∧ strangerFrame.src ≠ (svGet contendedSlot 1).ident.src
    ∧ contendedSlot.pending.any (destroys 1) = true ∧ lastCnt strangerFrame = 3 := by decide +kernel

/-- The stranger's frame forms a candidate on the slot. -/
theorem contendedSlot_forms : Answers (.svFrame .p0 strangerFrame) contendedSlot (fun t => (svGet t 1).phase = .candidate 1 3) := by
  obtain ⟨hcatches, hsolo, hauth, hframe, hwindow, hphase, -, hdestroys, hlast⟩ := contendedSlot_meets
  exact hlast ▸ answers_afterDestruction hcatches hsolo hauth hframe hwindow hphase hdestroys

/-- Refutes O19: its fourth clause says that a frame of another source at an admitted slot is counted on the slot, which stays, but where the
destruction of the slot comes in the tick of the frame, it is decided first (R296), and the frame forms a candidate: in `contendedSlot`, slot 1 is
admitted before the command and a candidate after it. -/
theorem not_streamsAdmitted : ¬ Obligations.StreamsAdmitted := by
  unfold Obligations.StreamsAdmitted
  intro h
  obtain ⟨hcatches, hsolo, hauth, hframe, hwindow, hphase, hsrc, -, -⟩ := contendedSlot_meets
  obtain ⟨-, -, -, hintruder, -⟩ := h contendedSlot .p0 strangerFrame 1 hcatches hsolo hauth hframe hwindow
  obtain ⟨t, -, ⟨hstays, -⟩, hforms⟩ := (hintruder hphase hsrc).and contendedSlot_forms
  rw [hstays] at hforms
  exact absurd (hphase.symm.trans hforms) (by decide)

end Sys2Proof.Machine
end

section
/-! Missing indices of a slot, in a unit alone (R271, R272, R524). -/
namespace Sys2Proof.Machine

/-- From `s` to `t`, slot `n` has become `y` and `k` samples have entered the intake; the other slots, the zones and the straps stay, and the pair
state. -/
structure SvBecomes (s t : State) (n : Nat) (y : SvSlot) (k : Nat) : Prop where
  slot : svGet t n = y
  others : ∀ m, m ≠ n → svGet t m = svGet s m
  intake : t.streams.intake.length = s.streams.intake.length + k
  zones : t.zones = s.zones
  ident : t.ident = s.ident
  pair : t.pair.state = s.pair.state

namespace SvBecomes

variable {s t u : State} {n k j : Nat} {x y : SvSlot}

theorem put (s : State) (n : Nat) (y : SvSlot) : SvBecomes s (svPut s n y) n y 0 where
  slot := by rw [svGet_svPut, if_pos rfl]
  others m hm := by rw [svGet_svPut, if_neg hm]
  intake := rfl
  zones := rfl
  ident := rfl
  pair := rfl

theorem trans (h : SvBecomes s t n x k) (g : SvBecomes t u n y j) : SvBecomes s u n y (k + j) where
  slot := g.slot
  others m hm := (g.others m hm).trans (h.others m hm)
  intake := by rw [g.intake, h.intake, Nat.add_assoc]
  zones := g.zones.trans h.zones
  ident := g.ident.trans h.ident
  pair := g.pair.trans h.pair

theorem again (h : SvBecomes s t n x k) (y : SvSlot) : SvBecomes s (svPut t n y) n y k := h.trans (put t n y)

theorem of_records (h : SvBecomes s t n y k) (hu : u.sansRecords = t.sansRecords) : SvBecomes s u n y k where
  slot := (svGet_of_streams (streams_of_records hu) n).trans h.slot
  others m hm := (svGet_of_streams (streams_of_records hu) m).trans (h.others m hm)
  intake := (congrArg (fun c => c.intake.length) (streams_of_records hu)).trans h.intake
  zones := by have e := congrArg State.zones hu; exact e.trans h.zones
  ident := by have e := congrArg State.ident hu; exact e.trans h.ident
  pair := by have e := congrArg (fun v => v.pair.state) hu; exact e.trans h.pair

/-- Free values are taken. -/
theorem free (h : SvBecomes s t n y k) (v : Nat) : SvBecomes s { t with free := v } n y k :=
  ⟨h.slot, h.others, h.intake, h.zones, h.ident, h.pair⟩

/-- In a unit alone a sample enters the intake at its end (R21). -/
theorem push (h : SvBecomes s t n y k) (hsolo : s.pair.state = .solo) (smp : Sample) : SvBecomes s (pushIntake t smp) n y (k + 1) where
  slot := h.slot
  others := h.others
  intake := by
    have hsolo' : t.pair.state = .solo := h.pair.trans hsolo
    simp [pushIntake, agreeing_solo hsolo', h.intake, Nat.add_assoc]
  zones := h.zones
  ident := h.ident
  pair := h.pair

end SvBecomes

/-! The slot itself -/

@[simp] theorem svTally_next (x : SvSlot) (w n : Nat) : (svTally x w n).next = x.next := rfl
@[simp] theorem svTally_run (x : SvSlot) (w n : Nat) : (svTally x w n).run = x.run := rfl
@[simp] theorem noteMissed_next (s : State) (x : SvSlot) (i : SIndex) : (noteMissed s x i).next = x.next := by
  unfold noteMissed
  split <;> rfl
@[simp] theorem startBlock_next (s : State) (x : SvSlot) : (startBlock s x).next = x.next := by
  unfold startBlock
  dsimp only
  split <;> rfl
@[simp] theorem startBlock_run (s : State) (x : SvSlot) : (startBlock s x).run = x.run := by
  unfold startBlock
  dsimp only
  split <;> rfl

/-- A missing index passes as one sample, substituted or blocking, and lengthens the run. -/
theorem passMissing_becomes {s : State} (hsolo : s.pair.state = .solo) (n : Nat) (i : SIndex) :
    ∃ y, SvBecomes s (passMissing s n i) n y 1 ∧ y.next = (svGet s n).next ∧ y.run = (svGet s n).run + 1 := by
  unfold passMissing
  dsimp only
  split
  · exact ⟨_, (SvBecomes.put s n _).push hsolo _, by simp, by simp⟩
  · have hpushed (y : SvSlot) (smp : Sample) : SvBecomes s (pushIntake { svPut s n y with free := s.free + 8 } smp) n y 1 :=
      ((SvBecomes.put s n y).free _).push hsolo smp
    split
    · exact ⟨_, (hpushed _ _).of_records (journalEntry_sansRecords _ _), by simp, by simp⟩
    · exact ⟨_, hpushed _ _, by simp, by simp⟩

theorem updateDue_becomes {s t : State} {n k : Nat} {y : SvSlot} (h : SvBecomes s t n y k) : ∃ d, SvBecomes s (updateDue t n) n { y with due := d } k := by
  rw [← h.slot]
  exact ⟨_, h.again _⟩

/-- In a unit alone an index declared missing passes at once, and the next index is expected. -/
theorem declareMissing_becomes {s : State} (hsolo : s.pair.state = .solo) (n : Nat) :
    ∃ y, SvBecomes s (declareMissing s n) n y 1 ∧ y.next = succIndex s (svGet s n).next ∧ y.run = (svGet s n).run + 1 := by
  have hput := SvBecomes.put s n { svGet s n with next := succIndex s (svGet s n).next }
  have hsolo' := hput.pair.trans hsolo
  have hdeclared : declareMissing s n = updateDue (passMissing (svPut s n { svGet s n with next := succIndex s (svGet s n).next }) n (svGet s n).next) n := by
    unfold declareMissing
    dsimp only
    rw [if_pos (by rw [agreeing_solo hsolo']; rfl)]
  obtain ⟨y, hpassed, hnext, hrun⟩ := passMissing_becomes hsolo' n (svGet s n).next
  obtain ⟨d, hdue⟩ := updateDue_becomes (hput.trans hpassed)
  rw [hput.slot] at hnext hrun
  rw [hdeclared]
  exact ⟨_, hdue, hnext, hrun⟩

/-- The index after another is counted at the rate of the straps. -/
theorem succIndex_congr {s t : State} (h : t.ident = s.ident) : succIndex t = succIndex s := by
  funext i
  unfold succIndex strapRate strap
  rw [h]

/-- `k` indices declared missing. -/
theorem declareRun_becomes (k : Nat) {s : State} (hsolo : s.pair.state = .solo) (n : Nat) : ∃ y, SvBecomes s (declareRun k s n) n y k
    ∧ y.next = (succIndex s)^[k] (svGet s n).next ∧ y.run = (svGet s n).run + k := by
  induction k generalizing s with
  | zero => exact ⟨svGet s n, ⟨rfl, fun _ _ => rfl, rfl, rfl, rfl, rfl⟩, rfl, rfl⟩
  | succ k ih =>
    obtain ⟨x, hone, hnext, hrun⟩ := declareMissing_becomes hsolo n
    obtain ⟨y, hrest, hnexts, hruns⟩ := ih (hone.pair.trans hsolo)
    rw [hone.slot] at hnexts hruns
    have hboth := hone.trans hrest
    rw [Nat.add_comm] at hboth
    refine ⟨y, hboth, ?_, by omega⟩
    rw [hnexts, hnext, succIndex_congr hone.ident, Function.iterate_succ_apply]

/-! A frame is overdue (R271, R295, R524) -/

section
variable {s : State} {n : Nat}

theorem frameOverdue_missing (hsolo : s.pair.state = .solo) (hphase : (svGet s n).phase = .admitted) (hn : n < 1024)
    (hheard : (svGet s n).heardAt ≠ some s.now) (hbrings : s.pending.any (bringsFrame s n) = false) :
    frameOverdue s n = declareRun (svGet s n).ident.noAsdu s n := by
  simp [frameOverdue, hphase, hheard, hbrings, Nat.not_le.mpr hn, decides_solo hsolo]

/-- A frame heard in the tick, or that a waiting command brings, is on time (R295). -/
theorem frameOverdue_onTime (hphase : (svGet s n).phase = .admitted) (hn : n < 1024)
    (h : (svGet s n).heardAt = some s.now ∨ s.pending.any (bringsFrame s n) = true) : frameOverdue s n = s := by
  rcases h with h | h <;> simp [frameOverdue, hphase, h, Nat.not_le.mpr hn]

theorem frameOverdue_local (hphase : (svGet s n).phase = .admitted) (hn : 1024 ≤ n) (hruns : adcRuns s = true) (hrefix : (svGet s n).refix = false)
    (hheard : (svGet s n).heardAt ≠ some s.now) : frameOverdue s n = declareMissing s n := by
  simp [frameOverdue, hphase, hheard, hn, hruns, hrefix]

end

/-- Whether a waiting command brings a frame does not look at what has left the block. -/
theorem bringsFrame_out (s : State) (l : List Output) (n : Nat) : bringsFrame { s with out := l } n = bringsFrame s n := by
  have key (k : Nat) : (readKey { s with out := l } k).2 = (readKey s k).2 := by
    have hslot : keySlot { s with out := l } k = keySlot s k := rfl
    unfold readKey
    rw [hslot]
    split
    · rfl
    · split <;> rfl
  have auth (f : SvFrame) : (authSv { s with out := l } f).2 = (authSv s f).2 := by
    have hrods : rods { s with out := l } = rods s := rfl
    unfold authSv
    rw [hrods]
    split
    · rfl
    · dsimp only
      rw [key]
      split <;> rfl
  funext c
  unfold bringsFrame
  split
  · rw [auth]
    rfl
  · rfl

end Sys2Proof.Machine
end

section
/-! Entries, faults and frames of the summary count nothing among the words of refused SV frames and of the catcher (R258, Table 7.6). -/
namespace Sys2Proof.Machine

/-- Words 0 to 30 of the tallies' page 1: those of the stream catcher and of the intake lie there (Table 15.7). -/
def State.catcherTally (s : State) (w : Fin 31) : Tally := Tab.get 0 s.tally (64 + w.val)

theorem tallyAdd_catcherTally (s : State) (page word n : Nat) (h : page * 64 + word < 64 ∨ 95 ≤ page * 64 + word) :
    (tallyAdd s page word n).catcherTally = s.catcherTally := by
  funext w
  unfold State.catcherTally tallyAdd
  rw [Tab.get_put, if_neg (by omega)]

/-! Entries and faults -/

@[simp] theorem carrySend_catcherTally (s : State) (l : Fin 2) (m : CarryMsg) : (carrySend s l m).catcherTally = s.catcherTally := by
  refine foldl_keeps State.catcherTally _ (fun u x => ?_) _ s
  unfold carryPut
  dsimp only
  split_ifs <;> rfl

@[simp] theorem queueEntry_catcherTally (s : State) (e : Entry) : (queueEntry s e).catcherTally = s.catcherTally := by
  have placed : (placeEntry s e).catcherTally = s.catcherTally := by
    unfold placeEntry
    split
    · exact carrySend_catcherTally _ _ _
    · rfl
  unfold queueEntry
  dsimp only
  split_ifs
  · exact tallyAdd_catcherTally s 1 32 1 (.inr (by decide))
  · exact placed
  · exact tallyAdd_catcherTally s 1 41 1 (.inr (by decide))
  · rfl
  · exact placed

@[simp] theorem submitEntry_catcherTally (s : State) (e : Entry) : (submitEntry s e).catcherTally = s.catcherTally := by
  have limited : (limitEntry s e).catcherTally = s.catcherTally := by
    unfold limitEntry
    dsimp only
    split_ifs
    · exact queueEntry_catcherTally s e
    · rfl
    · rfl
    · exact queueEntry_catcherTally _ e
    · exact (queueEntry_catcherTally _ e).trans (queueEntry_catcherTally _ _)
  unfold submitEntry
  split_ifs
  · rfl
  · rfl
  · exact limited

@[simp] theorem reactPlain_catcherTally (s : State) (k : FaultKey) (r : FaultRec) (n : Nat) (d : List Byte) :
    (reactPlain s k r n d).catcherTally = s.catcherTally := submitEntry_catcherTally _ _

/-- An arising keeps what its reaction, below Withdraw, keeps. -/
theorem ariseWith_catcherTally (re : State → FaultKey → FaultRec → Nat → List Byte → State)
    (h : ∀ s k r n d, r.level ≠ 4 → (re s k r n d).catcherTally = s.catcherTally) (s : State) (k : FaultKey) (det hdl : Nat) (d : List Byte)
    (hl : max (faultRow k.code).2.1 (raiseLevel s k.code) < 4) : (ariseWith re s k det hdl d).catcherTally = s.catcherTally := by
  unfold ariseWith
  split
  · apply h; dsimp only; omega
  · rename_i r _
    dsimp only
    split_ifs with h1 h2 <;> (try rfl) <;> split <;> (try rfl) <;> (apply h; dsimp only; omega)

@[simp] theorem journalEntry_catcherTally (s : State) (e : Entry) : (journalEntry s e).catcherTally = s.catcherTally := by
  have lost (u : State) : (raiseLost u e).catcherTally = u.catcherTally := by
    unfold raiseLost
    refine ariseWith_catcherTally reactPlain (fun u k r n d _ => reactPlain_catcherTally u k r n d) u _ _ _ _ (ceiling_lt u _ ?_)
    split_ifs <;> (try dsimp only) <;> decide
  unfold journalEntry
  dsimp only
  split_ifs
  · rw [lost, submitEntry_catcherTally]
  · exact submitEntry_catcherTally s e

theorem judgeFault_catcherTally (s : State) (k : FaultKey) (det hdl : Nat) (b : Bool) (h : max (faultRow k.code).2.1 (faultRow k.code).1 < 4) :
    (judgeFault s k det hdl b).catcherTally = s.catcherTally := by
  have arisen : (arise s k det hdl []).catcherTally = s.catcherTally :=
    ariseWith_catcherTally react (fun u k r n d hr => by rw [react, if_neg hr, reactPlain_catcherTally]) s k det hdl [] (ceiling_lt s k.code h)
  have gone : (causeGone s k).catcherTally = s.catcherTally := by
    unfold causeGone
    split
    · rfl
    · split
      · rfl
      · split
        · rfl
        · split
          · exact submitEntry_catcherTally _ _
          · exact reactPlain_catcherTally s _ _ _ _
        · rfl
  unfold judgeFault
  split_ifs
  · rfl
  · exact arisen
  · exact gone
  · rfl

/-! Keys and frames of the summary -/

theorem judgeKeys_catcherTally (s : State) : (judgeKeys s).catcherTally = s.catcherTally := by
  unfold judgeKeys
  dsimp only
  rw [judgeFault_catcherTally _ (keyU 0x5140) _ _ _ (by decide), judgeFault_catcherTally _ (keyU 0x5100) _ _ _ (by decide)]
  exact foldl_keeps State.catcherTally judgeKey (fun u n => judgeFault_catcherTally u _ _ _ _ (by dsimp only; decide)) _ s

theorem gooseKey_catcherTally (s : State) (z : Bool) : (gooseKey s z).1.catcherTally = s.catcherTally := by
  have read (n : Nat) : (readKey s n).1.catcherTally = s.catcherTally := by
    unfold readKey
    split
    · rfl
    · split
      · rfl
      · dsimp only
        rw [judgeKeys_catcherTally, journalEntry_catcherTally]
        rfl
  unfold gooseKey
  split
  · rfl
  · rename_i n _
    dsimp only
    split <;> exact read n

/-- A frame that leaves counts on page 0 (Table 6.4). -/
theorem sendUnit_catcherTally (s : State) (p : Port) (o : Output) : (sendUnit s p o).catcherTally = s.catcherTally := by
  have counted (u : State) (h : u.tally = s.tally) : (portTally u p 14).catcherTally = s.catcherTally := by
    have hport : portNum p < 4 := by cases p <;> decide
    refine (tallyAdd_catcherTally u 0 (16 * portNum p + 14) 1 (.inl (by omega))).trans ?_
    funext w
    unfold State.catcherTally
    rw [h]
  unfold sendUnit
  dsimp only
  split_ifs
  · rfl
  · exact counted _ (portPut_tally s p _)
  · exact counted _ (portPut_tally s p _)

theorem releaseSummary_catcherTally (s : State) : (releaseSummary s).catcherTally = s.catcherTally := by
  have station (u : State) (l : List Byte) : (sendStation u l).catcherTally = u.catcherTally :=
    (sendUnit_catcherTally _ _ _).trans (sendUnit_catcherTally _ _ _)
  have summary (u : State) (l : List Byte) : (sendSummary u l).catcherTally = u.catcherTally := by
    unfold sendSummary
    dsimp only
    split
    · rw [station, gooseKey_catcherTally]
    · exact gooseKey_catcherTally u _
  unfold releaseSummary
  dsimp only
  refine (foldl_keeps State.catcherTally _ (fun u f => ?_) _ _).trans rfl
  split
  · exact summary u _
  · rfl

/-- Judging the summary counts nothing there. -/
theorem judgeSummary_catcherTally (s : State) : (judgeSummary s).catcherTally = s.catcherTally := by
  have handed (u : State) (st : Nat) (c : Bool) (l : List Byte) : (handGoose u 256 st c l).catcherTally = u.catcherTally := by
    rw [handGoose, if_neg (by decide), releaseSummary_catcherTally]
    rfl
  have changed (u : State) (i : SIndex) (t : Nat × Nat) (q : Nat) (l : List Byte) (r e : Nat) (d : List Byte) (b : Bool) :
      (pubSet u 256 i t q l r e d b).catcherTally = u.catcherTally := by
    rw [pubSet, if_neg (by decide)]
    rfl
  unfold judgeSummary summaryChange handChange
  dsimp only
  split
  · rw [handed, changed]
    rfl
  · rfl

end Sys2Proof.Machine
end

section
/-! Streams that are lost, not admitted or malformed (R258, R266, R301, Tables 7.1 and 7.7). -/
namespace Sys2Proof.Machine

/-! A stream that a zone needs (R301) -/

theorem streamLost_row {n : Nat} (hn : n < 1024) : plainRow (keyS 0x2D00 n) 3 = true := plainRow_of_inst (by decide) (by omega)

/-- A bound slot's fault that is Clear arises. -/
theorem streamLost_clear {s : State} {n : Nat} (hbound : zonesWith s (fun r z => zMain r z == some n || zVolt r z == some n) ≠ [])
    (hclear : faultGet s (keyS 0x2D00 n) = none) :
    streamLost s n = arise s (keyS 0x2D00 n) 0 (slotHandle (svGet s n).used (svGet s n).gen n) [] := by
  simp [streamLost, hbound, faultStands_of_clear hclear]

/-- A slot that is not admitted loses its stream, and a breaker slot of that number leaves its fault and the streams (log 44). -/
theorem notAdmitted_reacts {s : State} {n : Nat} (hn : n < 1024) (hphase : (svGet s n).phase ≠ .admitted)
    (hbound : zonesWith s (fun r z => zMain r z == some n || zVolt r z == some n) ≠ []) (hclear : faultGet s (keyS 0x2D00 n) = none) :
    Reacts (notAdmitted s n) (keyS 0x2D00 n) 3 ∧ (notAdmitted s n).streams = s.streams := by
  have hlost := reacts_arise_row hclear (streamLost_row hn) 0 (slotHandle (svGet s n).used (svGet s n).gen n) []
  rw [← streamLost_clear hbound hclear] at hlost
  have hstreams : (streamLost s n).streams = s.streams := congrArg Prod.fst (streamLost_catcher s n)
  have hkeys : keyNum (keyS 0x2D00 n) ≠ keyNum (keyB 0x2D40 n) :=
    keyNum_ne _ _ (by dsimp only [keyS]; omega) (by dsimp only [keyB]; omega) (by dsimp only [keyS, keyB]; decide)
  have hbreaker (u : State) (hdl : Nat) : faultGet (arise u (keyB 0x2D40 n) 0 hdl []) (keyS 0x2D00 n) = faultGet u (keyS 0x2D00 n) :=
    arise_other u _ _ hkeys (brkLost_below n) _ _ _
  have hfree : ((svGet s n).phase != .admitted) = true := by simpa using hphase
  unfold notAdmitted
  simp only [hfree, if_true]
  split
  · refine ⟨?_, (arise_streams _ _ _ _ _ (brkLost_below n)).trans hstreams⟩
    unfold Reacts
    rw [hbreaker]
    exact hlost
  · exact ⟨hlost, hstreams⟩

/-! A frame that fails a rule (R258, Table 7.1) -/

/-- The tallies of Table 7.1 are words 0 to 3. -/
theorem frameFails_word {s : State} {f : SvFrame} {w : Nat} (h : frameFails s f = some w) : w < 4 := by
  unfold frameFails at h
  dsimp only at h
  split_ifs at h <;> (cases h; decide)

theorem svFrame_refused {s : State} {f : SvFrame} {w : Nat} (h : frameFails s f = some w) : svFrame s f = tallyAdd s 1 w 1 := by
  simp only [svFrame, h]

/-- A refused frame counts one in its word, and leaves the rest. -/
theorem answers_svFrame_refused {s : State} {p : Port} {f : SvFrame} {w : Nat} (hcatches : catches s p = true)
    (hfails : frameFails s (seenAt p f) = some w) : Answers (.svFrame p f) s (fun t =>
      t.sansReports = s.sansReports ∧ tallyGet t 1 w = (tallyGet s 1 w + 1) % 2 ^ 32) := by
  have hword := frameFails_word hfails
  refine answers_of_guard (execSvFrame.eq_def p f s) hcatches ?_
  rw [show svFrame { s with out := [] } { f with rxTime := f.rxTime - Config.portLatency (portNum p) false } = _
    from svFrame_refused (s := { s with out := [] }) hfails]
  constructor
  · exact congrArg (fun u : State => { u with pending := s.pending }) (judgeSummary_sansReports (tallyAdd { s with out := [] } 1 w 1))
  · have hkept : (judgeSummary (tallyAdd { s with out := [] } 1 w 1)).catcherTally ⟨w, by omega⟩
        = (tallyAdd { s with out := [] } 1 w 1).catcherTally ⟨w, by omega⟩ := congrFun (judgeSummary_catcherTally _) _
    calc tallyGet (judgeSummary (tallyAdd { s with out := [] } 1 w 1)) 1 w
        = tallyGet (tallyAdd { s with out := [] } 1 w 1) 1 w := congrArg BitVec.toNat hkept
      _ = (tallyGet s 1 w + 1) % 2 ^ 32 := (tallyGet_tallyAdd _ 1 w 1 1 w).trans (if_pos rfl)

/-! The commands -/

/-- What FRAME_OVERDUE leaves is read after the summary has been judged. -/
theorem answers_frameOverdue {s u : State} {n : Fin 1026} (hserving : serving s = true) (hu : frameOverdue { s with out := [] } n = u) :
    Answers (.frameOverdue n) s (fun t => t.streams = u.streams ∧ t.zones = u.zones) := by
  refine answers_of_guard (execFrameOverdue.eq_def n s) hserving ?_
  rw [hu]
  exact ⟨judgeSummary_streams u, judgeSummary_zones u⟩

/-- What an overdue frame makes of the slot's missing indices, as the command completes. -/
theorem answers_frameOverdue_missing {s u : State} {n : Fin 1026} {y : SvSlot} {k : Nat} (hserving : serving s = true)
    (hu : frameOverdue { s with out := [] } n = u) (h : SvBecomes { s with out := [] } u n y k) : Answers (.frameOverdue n) s (fun t =>
      svGet t n = y ∧ t.streams.intake.length = s.streams.intake.length + k ∧ (∀ m, m ≠ n.val → svGet t m = svGet s m) ∧ t.zones = s.zones) :=
  (answers_frameOverdue hserving hu).imp (fun _ ⟨hstreams, hzones⟩ => ⟨(svGet_of_streams hstreams n).trans h.slot,
    (congrArg (fun c => c.intake.length) hstreams).trans h.intake,
    fun m hm => (svGet_of_streams hstreams m).trans (h.others m hm), hzones.trans h.zones⟩)

/-- A destroyed slot, as the command completes. -/
theorem answers_streamDestroyed {s : State} {n : Fin 1024} (hserving : serving s = true) (hsolo : s.pair.state = .solo)
    (hphase : (svGet s n).phase = .admitted) : Answers (.streamDestroyed n) s (fun t =>
      svGet t n = svFreed (svGet s n) ∧ t.streams.intake = s.streams.intake.filter (fun y => y.slot != n.val)
        ∧ ∀ m, m ≠ n.val → svGet t m = svGet s m) := by
  refine answers_of_guard (execStreamDestroyed.eq_def n s) hserving ?_
  rw [streamDestroyed_solo (s := { s with out := [] }) hsolo hphase]
  have hkept (m : Nat) := (svGet_of_streams (judgeSummary_streams (destroySlot { s with out := [] } n (svGet s n).next)) m).trans
    (svGet_destroySlot { s with out := [] } n (svGet s n).next m)
  exact ⟨(hkept n).trans (if_pos rfl), (congrArg Streams.intake (judgeSummary_streams _)).trans (intake_destroySlot _ _ _),
    fun m hm => (hkept m).trans (if_neg hm)⟩

/-- Settles O20: in a unit alone missing indices pass one by one, a destroyed slot takes its samples along, a needed stream's fault arises, and
a frame that fails a rule counts in its word; faults, entries, zones and the summary leave the streams. -/
theorem streamsLost : Obligations.StreamsLost := by
  unfold Obligations.StreamsLost
  refine ⟨fun s n hserving hsolo hphase hn => ?_, fun s n hserving hsolo hphase hn hruns hrefix hheard => ?_,
    fun s n hserving hsolo hphase hmine => ?_, fun s n hserving hphase hbound hclear => ?_, fun s p f w hcatches hfails => ?_⟩
  · have hbrought := bringsFrame_out s [] n
    by_cases htime : (svGet s n).heardAt = some s.now ∨ s.pending.any (bringsFrame s n) = true
    · have hontime := frameOverdue_onTime (s := { s with out := [] }) hphase hn (htime.imp_right (fun h => by rwa [hbrought]))
      refine (answers_frameOverdue hserving hontime).imp (fun t ⟨hstreams, hzones⟩ => ?_)
      exact ⟨fun hheard hbrings => absurd htime (by simp [hheard, hbrings]), fun _ => hstreams, fun m _ => svGet_of_streams hstreams m, hzones⟩
    · obtain ⟨hheard, hbrings⟩ := not_or.mp htime
      have hoverdue := frameOverdue_missing (s := { s with out := [] }) hsolo hphase hn hheard (by rwa [hbrought, ← Bool.not_eq_true])
      obtain ⟨y, hmissed, hnext, hrun⟩ := declareRun_becomes (svGet s n).ident.noAsdu (s := { s with out := [] }) hsolo n
      refine (answers_frameOverdue_missing hserving hoverdue hmissed).imp (fun t ⟨hslot, hintake, hothers, hzones⟩ => ?_)
      exact ⟨fun _ _ => ⟨hslot ▸ hnext, hslot ▸ hrun, hintake⟩, fun h => absurd h htime, hothers, hzones⟩
  · obtain ⟨y, hmissed, hnext, hrun⟩ := declareMissing_becomes (s := { s with out := [] }) hsolo n
    refine (answers_frameOverdue_missing hserving (frameOverdue_local (s := { s with out := [] }) hphase hn hruns hrefix hheard) hmissed).imp
      (fun t ⟨hslot, hintake, hothers, hzones⟩ => ?_)
    exact ⟨hslot ▸ hnext, hslot ▸ hrun, hintake, hothers, hzones⟩
  · refine (answers_streamDestroyed hserving hsolo hphase).imp (fun t ⟨hslot, hintake, hothers⟩ => ?_)
    have hgone : s.streams.intake.filter (fun y => y.slot != n.val) = [] := List.filter_eq_nil_iff.mpr (fun x hx => by simp [hmine x hx])
    rw [hslot]
    exact ⟨rfl, rfl, rfl, hintake.trans hgone, hothers⟩
  · refine answers_of_guard (execStreamNotAdmitted.eq_def n s) hserving ?_
    obtain ⟨hreacts, hstreams⟩ := notAdmitted_reacts (s := { s with out := [] }) n.isLt hphase hbound hclear
    exact ⟨reacts_judgeSummary (bookkept_of_plainRow (streamLost_row n.isLt)) hreacts, (judgeSummary_streams _).trans hstreams⟩
  · exact answers_svFrame_refused hcatches hfails

end Sys2Proof.Machine
end

section
/-! A step on an empty queue: one core tick of the counter and of the oscillator of 10MHZ_OUT (R303, R304, Table 8.6). -/
namespace Sys2Proof.Machine

/-- A clamp between limits that stand in order. -/
theorem clampInt_eq_max_min {lo hi : Int} (h : lo ≤ hi) (x : Int) : clampInt lo hi x = max lo (min hi x) := by
  unfold clampInt
  split_ifs <;> omega

/-- INCR by the clamped sum of the outputs of CLK and TWIN. -/
theorem incr_eq (s : State) : (incr s : Int) = 0x280000000 + 2 * max (-32767) (min 32767 (s.reck.clk.u + s.reck.twin.u)) := by
  unfold incr
  rw [clampInt_eq_max_min (by decide)]
  omega

theorem ncoTick_nco (s : State) : (ncoTick s).time.nco = if domainGood s 6 then (s.time.nco + incr s) % (100 * 2 ^ 32) else s.time.nco := by
  unfold ncoTick
  split <;> rfl

theorem ncoTick_frame (s : State) : ncoTick s = { s with time := { s.time with nco := (ncoTick s).time.nco } } := by
  unfold ncoTick
  split <;> rfl

/-- Of the state a tick changes the clocks alone; nothing has left the block. -/
theorem tick_frame (s : State) : tick s = { s with now := s.now + 1, out := [], time := (tick s).time } := by
  unfold tick counterTick ncoTick
  dsimp only
  split <;> split <;> rfl

/-- In a tick the oscillator is advanced first. -/
theorem ncoTick_ticking (s : State) : ncoTick { s with now := s.now + 1, out := [] }
    = { s with now := s.now + 1, out := [], time := { s.time with nco := (ncoTick s).time.nco } } := by
  have hnco : (ncoTick { s with now := s.now + 1, out := [] }).time.nco = (ncoTick s).time.nco := by
    rw [ncoTick_nco, ncoTick_nco]
    rfl
  rw [ncoTick_frame, hnco]

/-- The counter moves on while CLK_CORE runs, beside the oscillator. -/
theorem tick_time_runs {s : State} (h : clockRuns s = true) : (tick s).time = { (counterTick s).time with nco := (ncoTick s).time.nco } := by
  have hruns : clockRuns (ncoTick { s with now := s.now + 1, out := [] }) = true := by rw [ncoTick_frame]; exact h
  have htick : tick s = counterTick (ncoTick { s with now := s.now + 1, out := [] }) := if_pos hruns
  rw [htick, ncoTick_ticking]
  rfl

/-- Where it does not run, the counter stands. -/
theorem tick_time_stands {s : State} (h : clockRuns s = false) : (tick s).time = { s.time with nco := (ncoTick s).time.nco } := by
  have hstands : ¬ clockRuns (ncoTick { s with now := s.now + 1, out := [] }) = true := by
    rw [ncoTick_frame, Bool.not_eq_true]
    exact h
  have htick : tick s = ncoTick { s with now := s.now + 1, out := [] } := if_neg hstands
  rw [htick, ncoTick_ticking]

theorem tick_nco (s : State) : (tick s).time.nco = if domainGood s 6 then (s.time.nco + incr s) % (100 * 2 ^ 32) else s.time.nco := by
  rw [← ncoTick_nco]
  cases h : clockRuns s
  · rw [tick_time_stands h]
  · rw [tick_time_runs h]

/-- One tick of a counter within its ranges: its reading in units of 2^-32 ns moves on by INCR, and NS stays within its second. -/
theorem counterTick_reading {s : State} (hns : s.time.ns < 1000000000) (hfrac : s.time.frac < 65536) (hres : s.time.residue < 65536)
    (hsec : s.time.sec + 1 < 2 ^ 48) :
    (((counterTick s).time.sec * 1000000000 + (counterTick s).time.ns) * 2 ^ 32
        + ((counterTick s).time.frac * 65536 + (counterTick s).time.residue)
      = (s.time.sec * 1000000000 + s.time.ns) * 2 ^ 32 + (s.time.frac * 65536 + s.time.residue) + incr s)
      ∧ (counterTick s).time.ns < 1000000000 := by
  have hincr := incr_eq s
  simp only [counterTick]
  generalize incr s = x at hincr
  split_ifs <;> omega

theorem step_of_empty {s : State} (h : s.pending = []) : step s = idle s := by
  unfold step
  rw [h]

/-- Settles O2: the step is a tick, whose counter and oscillator move on by INCR, and the summary's judgement leaves the clocks. -/
theorem idleTickCounts : Obligations.IdleTickCounts := by
  unfold Obligations.IdleTickCounts
  intro s hempty
  have hframe := tick_frame { s with out := [] }
  have htime : (judgeSummary (tick { s with out := [] })).time = (tick { s with out := [] }).time := judgeSummary_time _
  refine ⟨_, (step_of_empty hempty).trans (run_next _ s), hempty, ?_, ?_, ?_⟩
  · exact (judgeSummary_now _).trans (congrArg State.now hframe)
  · have hkept := (judgeSummary_sansReports (tick { s with out := [] })).trans (congrArg State.sansReports hframe)
    rw [← htime] at hkept
    exact congrArg (fun u : State => { u with pending := s.pending }) hkept
  · dsimp only
    rw [htime]
    refine ⟨fun hruns hns hfrac hres hsec => ?_, fun hstands => ?_, fun hgood => ?_, fun hlost => ?_⟩
    · obtain ⟨hreading, hrange⟩ := counterTick_reading hns hfrac hres hsec
      rw [tick_time_runs (s := { s with out := [] }) hruns, ← incr_eq]
      exact ⟨by exact_mod_cast hreading, hrange⟩
    · rw [tick_time_stands (s := { s with out := [] }) hstands]
    · rw [← incr_eq, Int.toNat_natCast]
      exact (tick_nco { s with out := [] }).trans (if_pos hgood)
    · exact (tick_nco { s with out := [] }).trans (if_neg (by rw [Bool.not_eq_true]; exact hlost))

end Sys2Proof.Machine
end

section
/-! What a change of the time state, and the conditions judged after a command of the time block, leave of counter, slots and faults
(Tables 8.4 and 8.7, R322). -/
namespace Sys2Proof.Machine

/-! The conditions that rest on elapsed time (Table 8.7) -/

/-- The state beyond the ports' PTP exchanges and what faults and entries change. -/
def State.sansExchanges (s : State) : State := { s.sansRecords with time := { s.time with p0 := {}, p1 := {} } }

theorem sansExchanges_of {s t : State} (h : t.sansRecords = s.sansRecords) : t.sansExchanges = s.sansExchanges := by
  have e : ∀ u : State, u.sansExchanges = { u.sansRecords with time := { u.sansRecords.time with p0 := {}, p1 := {} } } := fun _ => rfl
  rw [e, e, h]

theorem ptpPut_sansExchanges (s : State) (p1 : Bool) (x : PtpPort) : (ptpPut s p1 x).sansExchanges = s.sansExchanges := by cases p1 <;> rfl

theorem judgeDelay_sansExchanges (s : State) (p1 : Bool) (p : Port) : (judgeDelay s p1 p).sansExchanges = s.sansExchanges := by
  unfold judgeDelay
  dsimp only
  split
  · split
    · exact ptpPut_sansExchanges s p1 _
    · split
      · exact sansExchanges_of (arise_sansRecords s _ 0 none16 [] (by dsimp only; decide))
      · rfl
  · split
    · exact (sansExchanges_of (causeGone_sansRecords _ _)).trans (ptpPut_sansExchanges s p1 _)
    · exact ptpPut_sansExchanges s p1 _

theorem timeFaults_sansExchanges (s : State) : (timeFaults s).sansExchanges = s.sansExchanges := by
  obtain ⟨a, b, c, he⟩ := timeFaults_eq s
  rw [he, foldl_keeps State.sansExchanges _ (fun u p1 => judgeDelay_sansExchanges u p1 _), sansExchanges_of (elapsedFaults_keeps s a b c).1]

/-- The time block beyond the exchanges of its ports. -/
def Time.sansPorts (x : Time) : Time := { x with p0 := {}, p1 := {} }

theorem timeFaults_time (s : State) : (timeFaults s).time.sansPorts = s.time.sansPorts := by
  have e := congrArg State.time (timeFaults_sansExchanges s); exact e

theorem timeFaults_reck (s : State) : (timeFaults s).reck = s.reck := by
  have e := congrArg State.reck (timeFaults_sansExchanges s); exact e

/-- The classes of fault that rest on elapsed time: no time base, no Locked state, no link delay, the oven out of specification. -/
def elapsedClass (k : FaultKey) : Bool := [0x34, 0x37, 0x39, 0x3B].contains (k.code / 64)

theorem judgeDelay_faultGet (s : State) (p1 : Bool) (p : Port) {k : FaultKey} (hk : elapsedClass k = false) (hr : k.scope * 4096 + k.inst < 65536) :
    faultGet (judgeDelay s p1 p) k = faultGet s k := by
  have hne : keyNum k ≠ keyNum { code := 0x0E40, scope := 6, inst := portNum p } :=
    keyNum_ne _ _ hr (by cases p <;> decide) (fun h => by simp [elapsedClass, h] at hk)
  have hput (x : PtpPort) : faultGet (ptpPut s p1 x) k = faultGet s k := faultGet_congr (congrArg Faults.recs (ptpPut_faults s p1 x)) k
  unfold judgeDelay
  dsimp only
  split
  · split
    · exact hput _
    · split
      · exact arise_other s _ k hne (by dsimp only; decide) 0 none16 []
      · rfl
  · split
    · exact (causeGone_other _ _ k hne).trans (hput _)
    · exact hput _

theorem elapsedFaults_faultGet (s : State) (a b c : State → Bool) {k : FaultKey} (hk : elapsedClass k = false)
    (hr : k.scope * 4096 + k.inst < 65536) : faultGet (elapsedFaults s a b c) k = faultGet s k := by
  have hraise (u : State) (x : State → Bool) (code : Nat) (hl : max (faultRow code).2.1 (faultRow code).1 < 4)
      (hc : elapsedClass (keyU code) = true) : faultGet (if x u then ariseU u code 0 else u) k = faultGet u k := by
    have hne : keyNum k ≠ keyNum (keyU code) := keyNum_ne _ _ hr (by dsimp only [keyU]; decide)
      (fun h => by rw [elapsedClass, h] at hk; exact absurd (hk.symm.trans hc) (by decide))
    split
    · exact arise_other u (keyU code) k hne hl 0 none16 []
    · rfl
  exact (hraise _ c 0x0EC0 (by decide) (by decide)).trans
    ((hraise _ b 0x0DC0 (by decide) (by decide)).trans (hraise s a 0x0D00 (by decide) (by decide)))

/-- A fault of another class reads the same. -/
theorem timeFaults_faultGet (s : State) {k : FaultKey} (hk : elapsedClass k = false) (hr : k.scope * 4096 + k.inst < 65536) :
    faultGet (timeFaults s) k = faultGet s k := by
  obtain ⟨a, b, c, he⟩ := timeFaults_eq s
  rw [he, foldl_keeps (faultGet · k) _ (fun u p1 => judgeDelay_faultGet u p1 _ hk hr), elapsedFaults_faultGet s a b c hk hr]

/-! A change of the time state (Table 8.4, R322) -/

/-- The state beyond the time state, the times since which it and what rests on it hold, the output of CLK, and what faults and entries change. -/
def State.sansTimeState (s : State) : State :=
  { s.sansRecords with
    time := { s.time with
      state := .unsynchronised, twinApartAt := none, twinCloseAt := none, lockedAt := 0, settled := false, trackingAt := 0, holdoverAt := 0 }
    reck := { s.reck with clk := { s.reck.clk with u := 0 } } }

theorem sansTimeState_of {s t : State} (h : t.sansRecords = s.sansRecords) : t.sansTimeState = s.sansTimeState := by
  have e : ∀ u : State, u.sansTimeState = { u.sansRecords with
    time := { u.sansRecords.time with
      state := .unsynchronised, twinApartAt := none, twinCloseAt := none, lockedAt := 0, settled := false, trackingAt := 0, holdoverAt := 0 }
    reck := { u.sansRecords.reck with clk := { u.sansRecords.reck.clk with u := 0 } } } := fun _ => rfl
  rw [e, e, h]

theorem enterTime_sansTimeState (s : State) (x : TimeState) : (enterTime s x).sansTimeState = s.sansTimeState := by
  have gone (l : List Nat) (u : State) : (l.foldl causeGoneU u).sansTimeState = u.sansTimeState :=
    foldl_keeps State.sansTimeState causeGoneU (fun u c => sansTimeState_of (causeGoneU_sansRecords u c)) l u
  have raised (u : State) (code : Nat) (h : max (faultRow code).2.1 (faultRow code).1 < 4) : (ariseU u code 0).sansTimeState = u.sansTimeState :=
    sansTimeState_of (arise_sansRecords u (keyU code) 0 none16 [] h)
  unfold enterTime
  split
  · rfl
  · cases x with
    | locked => exact gone _ _
    | tracking => exact gone _ _
    | holdover => exact raised _ _ (by decide)
    | freeRunning => exact raised _ _ (by decide)
    | unsynchronised => rfl
    | acquiring => rfl

/-- The state entered is the time state. -/
theorem enterTime_state (s : State) (x : TimeState) : (enterTime s x).time.state = x := by
  have kept {u t : State} (h : t.sansRecords = u.sansRecords) : t.time.state = u.time.state :=
    congrArg Time.state (keeps_time (sansSettled_records h))
  have gone (l : List Nat) (u : State) : (l.foldl causeGoneU u).time.state = u.time.state :=
    foldl_keeps (fun u => u.time.state) causeGoneU (fun u c => kept (causeGoneU_sansRecords u c)) l u
  have raised (u : State) (code : Nat) (h : max (faultRow code).2.1 (faultRow code).1 < 4) : (ariseU u code 0).time.state = u.time.state :=
    kept (arise_sansRecords u (keyU code) 0 none16 [] h)
  unfold enterTime
  split
  next h => exact h
  next =>
    cases x with
    | locked => exact gone _ _
    | tracking => exact gone _ _
    | holdover => exact raised _ _ (by decide)
    | freeRunning => exact raised _ _ (by decide)
    | unsynchronised => rfl
    | acquiring => rfl

/-- Acquiring raises and ends no fault. -/
theorem enterTime_acquiring_faults (s : State) : (enterTime s .acquiring).faults = s.faults := by
  unfold enterTime
  split <;> rfl

/-- A unit whose counter runs free: the output of CLK is what its integrator holds (R322). -/
def freeRuns (s : State) : State :=
  { s with
    time := { s.time with state := .freeRunning, twinApartAt := none, twinCloseAt := none }
    reck := { s.reck with clk := { s.reck.clk with u := (s.reck.clk.i + 2 ^ 14) / 2 ^ 15 } } }

theorem enterTime_freeRunning {s : State} (h : s.time.state ≠ .freeRunning) : enterTime s .freeRunning = ariseU (freeRuns s) 0x0D80 0 := if_neg h

end Sys2Proof.Machine
end

section
/-! The end of Holdover, leap seconds, and the pulse each second (Table 8.4, R322, R327, R329). -/
namespace Sys2Proof.Machine

/-- The end of Holdover, with the judgements that follow it. -/
theorem holdoverEnds {s : State} (hstate : s.time.state = .holdover) (hclear : faultGet s (keyU 0x0D80) = none) :
    (timeFaults (enterTime s .freeRunning)).time.sansPorts = (freeRuns s).time.sansPorts
      ∧ (timeFaults (enterTime s .freeRunning)).reck = (freeRuns s).reck
      ∧ Reacts (timeFaults (enterTime s .freeRunning)) (keyU 0x0D80) 2 := by
  have hframe := arise_sansRecords (freeRuns s) (keyU 0x0D80) 0 none16 [] (by decide)
  have hreacts : Reacts (ariseU (freeRuns s) 0x0D80 0) (keyU 0x0D80) 2 :=
    reacts_arise_row (s := freeRuns s) hclear (by decide) 0 none16 []
  rw [enterTime_freeRunning (by rw [hstate]; decide), timeFaults_time, timeFaults_reck]
  refine ⟨congrArg Time.sansPorts (keeps_time (sansSettled_records hframe)), keeps_reck (sansSettled_records hframe), ?_⟩
  unfold Reacts
  rw [timeFaults_faultGet _ (by decide) (by decide)]
  exact hreacts

/-- An armed leap second moves the UTC offset by one second, which MRAM keeps (R325, R327). -/
theorem applyLeap_armed {s : State} {up : Bool} {mid : Nat} (h : s.time.leap = some (up, mid)) : applyLeap s =
    { s with
      time := { s.time with utcOffset := s.time.utcOffset + (if up then 1 else -1), leap := none }
      nvm := { s.nvm with utcOffset := some (s.time.utcOffset + (if up then 1 else -1)) } } := by
  unfold applyLeap
  rw [h]
  cases up <;> rfl

/-- A step has been made so lately that the counter second has no edge (R329). -/
def ppsQuiet (s : State) : Bool :=
  match s.time.noPpsTo with
  | some n => s.time.sec ≤ n
  | none => false

theorem ppsQuiet_iff {s : State} : ppsQuiet s = true ↔ ∃ n, s.time.noPpsTo = some n ∧ s.time.sec ≤ n := by
  unfold ppsQuiet
  split <;> simp_all

theorem ppsRuns_iff {s : State} : ppsRuns s = true ↔ s.time.state ∈ [.locked, .tracking, .holdover] := by
  simp [ppsRuns, or_assoc]

/-- PPS_OUT pulses in the time states of Table 8.6 alone. -/
theorem ppsRuns_eq_false {s : State} (h : s.time.state ∈ [.unsynchronised, .acquiring, .freeRunning]) : ppsRuns s = false := by
  simp only [List.mem_cons, List.not_mem_nil, or_false] at h
  unfold ppsRuns
  rcases h with h | h | h <;> rw [h] <;> rfl

/-- A pulse leaves, its second is noted, and the oscillator of 10MHZ_OUT takes the counter's phase. -/
def ppsPulse (s : State) : State := emit { s with time := { s.time with ppsSec := some s.time.sec, nco := ncoOf s } } .pps

theorem exec_ppsEdge (s : State) :
    exec .ppsEdge s = run (fun u => if clockRuns u && ppsRuns u && !ppsQuiet u then ppsPulse u else u) s := rfl

/-- Settles O25: the end of Holdover frees the output of CLK and raises its fault, a leap second moves the offset, and an edge pulses where the
clock runs, its state pulses and no step forbids it. -/
theorem timeEvents : Obligations.TimeEvents := by
  unfold Obligations.TimeEvents
  refine ⟨fun s hrun hstate hclear => ?_, fun s up mid hrun hleap => ?_, fun s hrun hstate hedge => ?_, fun s hnone => ?_⟩
  · obtain ⟨htime, hreck, hreacts⟩ := holdoverEnds (s := { s with out := [] }) hstate hclear
    have hfree := congrArg Time.state htime
    have hsec := congrArg Time.sec htime
    have hns := congrArg Time.ns htime
    exact answers_of_guard (execHoldoverExpiry.eq_def s) (Bool.and_eq_true _ _ ▸ ⟨hrun, decide_eq_true hstate⟩)
      ⟨hfree, congrArg Reckoner.clk hreck, hreacts, hsec, hns⟩
  · refine answers_of_guard (execLeapSecond.eq_def s) hrun ?_
    rw [applyLeap_armed (s := { s with out := [] }) hleap]
  · have hquiet : ppsQuiet s = false := by
      rw [← Bool.not_eq_true, ppsQuiet_iff]
      rintro ⟨n, hn, hle⟩
      exact absurd (hedge n hn) (Nat.not_lt.mpr hle)
    have hguard : (clockRuns s && ppsRuns s && !ppsQuiet s) = true := by rw [hrun, ppsRuns_iff.mpr hstate, hquiet]; rfl
    exact answers_of_guard (b := fun u => clockRuns u && ppsRuns u && !ppsQuiet u) (exec_ppsEdge s) hguard rfl
  · have hguard : (clockRuns s && ppsRuns s && !ppsQuiet s) = false := by
      rcases hnone with hstop | hstate | hstep
      · rw [hstop, Bool.false_and, Bool.false_and]
      · rw [ppsRuns_eq_false hstate, Bool.and_false, Bool.false_and]
      · rw [ppsQuiet_iff.mpr hstep, Bool.not_true, Bool.and_false]
    refine answers_of_run (exec_ppsEdge s) ?_
    rw [if_neg (by rw [Bool.not_eq_true]; exact hguard)]

end Sys2Proof.Machine
end

section
/-! Updates of OVEN and TWIN, the oven in specification, and following errors (R324, R348 to R352, Table 9.5). -/
namespace Sys2Proof.Machine

/-! OVEN (R324, R351) -/

/-- The OVEN slot after an update: its following error is timed once the oven has been in specification. -/
def ovenLoop (s : State) (err : Int) : Loop :=
  let l := controlLaw 0x6000 0x0040 0 0x7FFF s.reck.oven (satError err)
  if s.time.ovenWas then feTimer 100 l (satError err) else { l with fe := 0 }

/-- The following-error timer is beside integrator and output. -/
theorem ovenLoop_law (s : State) (err : Int) :
    (ovenLoop s err).u = (controlLaw 0x6000 0x0040 0 0x7FFF s.reck.oven (satError err)).u
      ∧ (ovenLoop s err).i = (controlLaw 0x6000 0x0040 0 0x7FFF s.reck.oven (satError err)).i := by
  unfold ovenLoop
  dsimp only
  split <;> exact ⟨rfl, rfl⟩

/-- The oven leaves its specification with this error. -/
def ovenLeaves (s : State) (err : Int) : Bool := s.time.ovenIn && 100 < (satError err).natAbs

/-- The slot updated, and the oven out of its specification where the error says so. -/
def ovenUpdated (s : State) (err : Int) : State :=
  { s with
    reck := { s.reck with oven := ovenLoop s err, ovenErr := err }
    time := { s.time with ovenIn := s.time.ovenIn && !ovenLeaves s err, ovenOutAt := if ovenLeaves s err then s.now else s.time.ovenOutAt } }

theorem ovenUpdate_eq (s : State) (err : Int) : ovenUpdate s err =
    if ovenLeaves s err && s.time.state = .holdover then enterTime (ovenUpdated s err) .freeRunning else ovenUpdated s err := rfl

/-- What an update in Holdover may enter besides leaves the slots and the oven. -/
theorem ovenUpdate_sansTimeState (s : State) (err : Int) : (ovenUpdate s err).sansTimeState = (ovenUpdated s err).sansTimeState := by
  rw [ovenUpdate_eq]
  split
  · exact enterTime_sansTimeState _ _
  · rfl

theorem ovenUpdated_out {s : State} {err : Int} (h : 100 < (satError err).natAbs) : (ovenUpdated s err).time.ovenIn = false := by
  simp [ovenUpdated, ovenLeaves, h]

/-- An update of OVEN, with the judgements that follow it. -/
theorem ovenUpdate_judged (s : State) (err : Int) :
    (timeFaults (ovenUpdate s err)).time.ovenIn = (ovenUpdated s err).time.ovenIn
      ∧ (timeFaults (ovenUpdate s err)).reck.oven = ovenLoop s err ∧ (timeFaults (ovenUpdate s err)).reck.ovenErr = err
      ∧ (timeFaults (ovenUpdate s err)).reck.twin = s.reck.twin ∧ (timeFaults (ovenUpdate s err)).reck.coil = s.reck.coil := by
  have hframe := ovenUpdate_sansTimeState s err
  have hin := congrArg (fun u => u.time.ovenIn) hframe
  have hoven := congrArg (fun u => u.reck.oven) hframe
  have herr := congrArg (fun u => u.reck.ovenErr) hframe
  have htwin := congrArg (fun u => u.reck.twin) hframe
  have hcoil := congrArg (fun u => u.reck.coil) hframe
  have hjudged := congrArg Time.ovenIn (timeFaults_time (ovenUpdate s err))
  rw [timeFaults_reck]
  exact ⟨hjudged.trans hin, hoven, herr, htwin, hcoil⟩

/-! TWIN (R351) -/

/-- An update of TWIN leaves the rest but for the cause of its following error. -/
theorem twinUpdate_sansRecords {s : State} {off : Int} (h : s.time.twinOffset = some off) : (twinUpdate s).sansRecords =
    { s.sansRecords with reck := { s.reck with
      twin := feTimer 0x0C80 (controlLaw 0x7FFF 0x0100 (-32767) 32767 s.reck.twin (errorLsb off)) (errorLsb off) } } := by
  unfold twinUpdate
  simp only [h]
  split
  · rw [causeGone_sansRecords]
    rfl
  · rfl

/-! Following errors (R349, Table 9.5) -/

theorem clkFollowing_row : plainRow ⟨0x1100, 10, 0⟩ 2 = true := by decide

/-- The error of CLK, at its time, raises its fault and takes a synchronised unit to Acquiring (Table 8.4). -/
theorem followingError_clk {s : State} (hlong : 30 ≤ s.reck.clk.fe) (hclear : faultGet s ⟨0x1100, 10, 0⟩ = none) :
    Reacts (followingError s 0) ⟨0x1100, 10, 0⟩ 2
      ∧ (followingError s 0).time.state = (if s.time.state = .locked ∨ s.time.state = .tracking then .acquiring else s.time.state) := by
  have hreacts := reacts_arise_row hclear clkFollowing_row 0 none16 []
  have hstate : (arise s ⟨0x1100, 10, 0⟩ 0 none16 []).time.state = s.time.state :=
    congrArg Time.state (keeps_time (sansSettled_records (arise_sansRecords s ⟨0x1100, 10, 0⟩ 0 none16 [] (by decide))))
  unfold followingError
  rw [if_pos rfl, if_pos hlong]
  dsimp only
  generalize arise s ⟨0x1100, 10, 0⟩ 0 none16 [] = u at hreacts hstate ⊢
  simp only [Bool.or_eq_true, decide_eq_true_eq, hstate]
  split
  · refine ⟨?_, enterTime_state u .acquiring⟩
    unfold Reacts
    rw [faultGet_congr (congrArg Faults.recs (enterTime_acquiring_faults u))]
    exact hreacts
  · exact ⟨hreacts, hstate⟩

theorem coilFollowing_row {n : Nat} (hn : n < 36) : plainRow ⟨0x1180, 10, n⟩ 2 = true := plainRow_of_inst (by decide) (by omega)

/-- The error of a COIL slot, at its time, raises its fault. -/
theorem followingError_coil {s : State} {cc : Nat} (hlong : 20 * gCoilFeTime (rods s) cc ≤ (coilGet s cc).loop.fe) :
    followingError s (4 + cc) = arise s ⟨0x1180, 10, 4 + cc⟩ 0 none16 [] := by
  have hslot : 4 + cc - 4 = cc := by omega
  unfold followingError
  rw [if_neg (by omega), if_neg (by omega), if_neg (by omega), if_neg (by omega), hslot, if_pos hlong]

/-- Settles O26: each update stores what the law makes of its slot, and the judgements after it leave the slots; an oven back in specification ends
its fault's cause; a following error raises its slot's fault. -/
theorem slotUpdates : Obligations.SlotUpdates := by
  unfold Obligations.SlotUpdates
  refine ⟨fun s err hrun hgood => ?_, fun s hrun hwithin hbelow => ?_, fun s off hrun htwin hoff => ?_, fun s hrun hlong hclear => ?_,
    fun s n cc hrun hn hlong hclear => ?_⟩
  · obtain ⟨hin, hoven, herr, htwin, hcoil⟩ := ovenUpdate_judged { s with out := [] } err
    obtain ⟨hu, hi⟩ := ovenLoop_law { s with out := [] } err
    exact answers_of_guard (execOvenUpdate.eq_def err s) (Bool.and_eq_true _ _ ▸ ⟨hrun, hgood⟩)
      ⟨herr, (congrArg Loop.u hoven).trans hu, (congrArg Loop.i hoven).trans hi, fun hout => hin.trans (ovenUpdated_out hout), htwin, hcoil⟩
  · refine answers_of_guard (execOvenInSpec.eq_def s) (Bool.and_eq_true _ _ ▸ ⟨hrun, decide_eq_true hwithin⟩) ?_
    have hgone := causeGoneU_sansRecords { s with out := [], time := { s.time with ovenIn := true, ovenWas := true } } 0x0EC0
    exact ⟨congrArg (fun u : State => { u with pending := s.pending }) hgone,
      faultStands_causeGone { s with out := [], time := { s.time with ovenIn := true, ovenWas := true } } (keyU 0x0EC0) hbelow⟩
  · refine answers_of_guard (execTwinUpdate.eq_def s) (Bool.and_eq_true _ _ ▸ ⟨hrun, htwin⟩) ?_
    exact congrArg (fun u : State => { u with pending := s.pending }) (twinUpdate_sansRecords (s := { s with out := [] }) hoff)
  · exact answers_of_guard (execFollowingError.eq_def 0 s) hrun (followingError_clk (s := { s with out := [] }) hlong hclear)
  · refine answers_of_guard (execFollowingError.eq_def n s) hrun ?_
    rw [hn] at hclear ⊢
    rw [followingError_coil (s := { s with out := [] }) hlong]
    exact ⟨reacts_arise_row (s := { s with out := [] }) hclear (coilFollowing_row (hn ▸ n.isLt)) 0 none16 [],
      congrArg (fun u : State => { u with pending := s.pending })
        (arise_sansRecords { s with out := [] } ⟨0x1180, 10, 4 + cc.val⟩ 0 none16 [] (by dsimp only; decide))⟩

end Sys2Proof.Machine
end

section
/-! Offsets from the masters of a port, and the first step of the counter (R317 to R319, R328). -/
namespace Sys2Proof.Machine

/-! A step of the counter (R319, R328, R342) -/

/-- A leap second that a step has passed or moved changes the calendar alone (R342). -/
theorem leapStepped_time (first : Bool) (s : State) :
    ∃ offset leap, (leapStepped first s).time = { s.time with utcOffset := offset, leap := leap } := by
  unfold leapStepped
  split
  · exact ⟨_, _, rfl⟩
  next up mid h =>
    have hpassed := congrArg State.time (applyLeap_armed h)
    dsimp only
    generalize (if up = true then mid + 1 else mid - 1) = last
    split
    · exact ⟨_, _, rfl⟩
    · split
      · exact ⟨_, _, hpassed⟩
      · split <;> exact ⟨_, _, rfl⟩

/-- The counter set by an offset, and what the step restarts, before its entry or its fault. -/
def counterStepped (s : State) (off : Int) : State :=
  let t := setCounter s off
  refixStreams (leapStepped (!s.time.stepped) { t with time := { t.time with
    stepped := true, noPpsTo := some (t.time.sec + 1), over10us := 0, within100 := 0, over1us := 0 } })

/-- What a step has made of the clock: the counter, and that it has been stepped. -/
theorem counterStepped_time (s : State) (off : Int) : ∃ offset leap, (counterStepped s off).time =
    { (setCounter s off).time with
      stepped := true, noPpsTo := some ((setCounter s off).time.sec + 1), over10us := 0, within100 := 0, over1us := 0
      utcOffset := offset, leap := leap } := by
  obtain ⟨offset, leap, h⟩ := leapStepped_time (!s.time.stepped) { setCounter s off with time := { (setCounter s off).time with
    stepped := true, noPpsTo := some ((setCounter s off).time.sec + 1), over10us := 0, within100 := 0, over1us := 0 } }
  exact ⟨offset, leap, h⟩

/-- The entry of the first step of the epoch (R328): the counter before it and after it, and whose offset it was. -/
def stepEntry (s : State) (off : Int) (source : Nat) : Entry :=
  let t := counterStepped s off
  unitEntry t (ownCode 3 6) 1 0 none16 none16 (ownPayload 6 [s.time.sec, s.time.ns, halfNs s, t.time.sec, t.time.ns, halfNs t, source])

/-- The step with its entry, or with the fault of a later one (R328, Table 8.7). -/
def stepNoted (s : State) (off : Int) (source : Nat) : State :=
  if !s.time.stepped then submitEntry (counterStepped s off) (stepEntry s off source) else ariseU (counterStepped s off) 0x0E00 0

theorem stepNoted_sansRecords (s : State) (off : Int) (source : Nat) :
    (stepNoted s off source).sansRecords = (counterStepped s off).sansRecords := by
  unfold stepNoted
  split
  · exact submitEntry_sansRecords _ _
  · exact arise_sansRecords _ (keyU 0x0E00) 0 none16 [] (by decide)

/-- A time state that a step ends is followed by Acquiring. -/
theorem stepCounter_cases (s : State) (off : Int) (source : Nat) :
    stepCounter s off source = enterTime (stepNoted s off source) .acquiring
      ∨ (stepCounter s off source = stepNoted s off source
        ∧ ((stepNoted s off source).time.state = .acquiring ∨ (stepNoted s off source).time.state = .freeRunning)) := by
  have hstep : stepCounter s off source = (match (stepNoted s off source).time.state with
      | .unsynchronised | .locked | .tracking | .holdover => enterTime (stepNoted s off source) .acquiring
      | _ => stepNoted s off source) := rfl
  rw [hstep]
  cases (stepNoted s off source).time.state with
  | acquiring => exact .inr ⟨rfl, .inl rfl⟩
  | freeRunning => exact .inr ⟨rfl, .inr rfl⟩
  | unsynchronised => exact .inl rfl
  | locked => exact .inl rfl
  | tracking => exact .inl rfl
  | holdover => exact .inl rfl

theorem stepCounter_sansTimeState (s : State) (off : Int) (source : Nat) :
    (stepCounter s off source).sansTimeState = (counterStepped s off).sansTimeState := by
  have hnoted := sansTimeState_of (stepNoted_sansRecords s off source)
  rcases stepCounter_cases s off source with h | ⟨h, -⟩
  · rw [h, enterTime_sansTimeState]
    exact hnoted
  · rw [h]
    exact hnoted

/-- A step leaves the exchanges of the ports. -/
theorem stepCounter_ptpGet (s : State) (off : Int) (source : Nat) (b : Bool) : ptpGet (stepCounter s off source) b = ptpGet s b := by
  obtain ⟨offset, leap, h⟩ := counterStepped_time s off
  have hframe := congrArg (ptpGet · b) (stepCounter_sansTimeState s off source)
  have hports := congrArg (fun x => ptpGet { s with time := x } b) h
  exact hframe.trans hports

/-- The counter is read from the time block alone, beside its ports. -/
theorem counterValue_of_time {s t : State} (h : t.time.sansPorts = s.time.sansPorts) : counterValue t = counterValue s := by
  have e := congrArg (fun x => counterValue { s with time := x }) h; exact e

/-- The counter after the first step of a unit without a time base (R319, R328). -/
theorem stepCounter_unsynchronised {s : State} (h : s.time.state = .unsynchronised) (off : Int) (source : Nat) :
    (stepCounter s off source).time.state = .acquiring ∧ (stepCounter s off source).time.stepped = true
      ∧ (stepCounter s off source).time.frac = 0 ∧ (stepCounter s off source).time.residue = 0
      ∧ counterValue (stepCounter s off source) = counterValue (setCounter s off) := by
  obtain ⟨offset, leap, hstepped⟩ := counterStepped_time s off
  have hstate : (stepNoted s off source).time.state = .unsynchronised :=
    (congrArg Time.state ((keeps_time (sansSettled_records (stepNoted_sansRecords s off source))).trans hstepped)).trans h
  have hacquiring : stepCounter s off source = enterTime (stepNoted s off source) .acquiring := by
    rcases stepCounter_cases s off source with hcase | ⟨-, hcase | hcase⟩
    · exact hcase
    · rw [hstate] at hcase; cases hcase
    · rw [hstate] at hcase; cases hcase
  have hframe := stepCounter_sansTimeState s off source
  have hfirst := (congrArg (fun u => u.time.stepped) hframe).trans (congrArg Time.stepped hstepped)
  have hfrac := (congrArg (fun u => u.time.frac) hframe).trans (congrArg Time.frac hstepped)
  have hresidue := (congrArg (fun u => u.time.residue) hframe).trans (congrArg Time.residue hstepped)
  have hkept : counterValue (stepCounter s off source) = counterValue (counterStepped s off) := by have e := congrArg counterValue hframe; exact e
  have hset : counterValue (counterStepped s off) = counterValue (setCounter s off) := by
    have e := congrArg (fun x => counterValue { s with time := x }) hstepped; exact e
  refine ⟨?_, hfirst, hfrac, hresidue, hkept.trans hset⟩
  rw [hacquiring]
  exact enterTime_state _ _

/-- The counter is set to within a nanosecond of what the offset asks for, where that is in its range. -/
theorem setCounter_near {s : State} {off : Int} (hlow : 0 ≤ counterValue s - off)
    (hhigh : counterValue s - off < (2 ^ 48 - 1) * 1000000000 * 65536) :
    |counterValue (setCounter s off) - (counterValue s - off)| < 65536 := by
  have hset : counterValue (setCounter s off)
      = (((setCounter s off).time.sec : Int) * 1000000000 + (setCounter s off).time.ns) * 65536 + (setCounter s off).time.frac := rfl
  rw [hset]
  unfold setCounter
  dsimp only
  generalize counterValue s - off = v at hlow hhigh ⊢
  generalize hr : (if v % 65536 = 0 then v / 65536 else if Config.roundUp v 65536 = true then v / 65536 + 1 else v / 65536) = r
  have hround : 0 ≤ r ∧ 65536 * r - v < 65536 ∧ v - 65536 * r < 65536 := by
    rw [← hr]
    split_ifs <;> omega
  obtain ⟨hpos, hup, hdown⟩ := hround
  rw [abs_lt]
  omega

/-! The use of an offset (R318, R319) -/

theorem clkUpdate_time (s : State) (e : Int) : (clkUpdate s e).time = s.time := by
  have hgone (u : State) (k : FaultKey) : (causeGone u k).time = u.time := keeps_time (sansSettled_records (causeGone_sansRecords u k))
  unfold clkUpdate
  dsimp only
  split
  · exact hgone _ _
  · rfl

/-- The counts of offsets in succession (R319, Tables 8.3 and 8.4). -/
def offsetCounted (s : State) (off : Int) : State :=
  let n := off.natAbs
  { s with time := { s.time with
    within100 := if n ≤ 100 * 65536 then s.time.within100 + 1 else 0
    over1us := if 1000 * 65536 < n then s.time.over1us + 1 else 0
    over10us := if 10000 * 65536 < n then s.time.over10us + 1 else 0 } }

theorem steer_of_unsynchronised {s : State} (h : s.time.state = .unsynchronised) (p1 : Bool) (off : Int) :
    steer s p1 off = clkUsed (stepCounter (offsetCounted s off) off (if p1 then 1 else 0)) :=
  if_pos (by simp [h])

theorem steer_ptpGet (s : State) (p1 : Bool) (off : Int) (b : Bool) : ptpGet (steer s p1 off) b = ptpGet s b := by
  have hslewed (u : State) : ptpGet (if clkDue u then clkUpdate (clkUsed u) (errorLsb off) else u) b = ptpGet u b := by
    split
    · exact ptpGet_congr (clkUpdate_time _ _) b
    · rfl
  unfold steer
  extract_lets n _ u v
  split
  · exact stepCounter_ptpGet u off _ b
  · have hkept : ptpGet v b = ptpGet s b := hslewed u
    clear_value v
    have entered (c : Prop) [Decidable c] (x : TimeState) : ptpGet (if c then enterTime v x else v) b = ptpGet s b := by
      split
      · exact (enterTime_ptpGet v x b).trans hkept
      · exact hkept
    split
    · exact entered _ _
    · exact entered _ _
    · exact entered _ _
    · exact entered _ _
    · exact entered _ _
    · exact hkept

theorem lanSplit_ptpGet (s : State) (b : Bool) : ptpGet (lanSplit s) b = ptpGet s b := by
  unfold lanSplit
  split <;> rfl

theorem lanCompare_ptpGet (s : State) (b : Bool) : ptpGet (lanCompare s) b = ptpGet s b := by
  have raised (u : State) : ptpGet (ariseU u 0x0E80 0) b = ptpGet u b :=
    ptpGet_of_records (arise_sansRecords u (keyU 0x0E80) 0 none16 [] (by decide)) b
  have gone (u : State) : ptpGet (causeGoneU u 0x0E80) b = ptpGet u b := ptpGet_of_records (causeGoneU_sansRecords u 0x0E80) b
  unfold lanCompare
  split
  · extract_lets apart _ u
    split
    · exact raised u
    · split
      · exact gone u
      · rfl
  · exact lanSplit_ptpGet s b

/-- An offset stands at its port, and its Sync is used up, whatever the offset makes of the clock. -/
theorem offsetFormed_ptpGet (s : State) (p1 : Bool) (src : PortId) (off : Int) (b : Bool) : ptpGet (offsetFormed s p1 src off) b =
    if b = p1 then { ptpGet s p1 with offset := some off, sync := none } else ptpGet s b := by
  rw [← ptpGet_ptpPut]
  unfold offsetFormed
  dsimp only
  split
  · exact steer_ptpGet _ p1 off b
  · exact lanCompare_ptpGet _ b

/-- The first offset of the selected master steps a counter that has no time base, by the offset to within a nanosecond. -/
theorem offsetFormed_steps {s : State} {p1 : Bool} {src : PortId} {off : Int} (hselected : s.time.selected = some (p1, src))
    (hstate : s.time.state = .unsynchronised) (hlow : 0 ≤ counterValue s - off)
    (hhigh : counterValue s - off < (2 ^ 48 - 1) * 1000000000 * 65536) :
    let t := offsetFormed s p1 src off
    t.time.state = .acquiring ∧ t.time.stepped = true ∧ t.time.frac = 0 ∧ t.time.residue = 0
      ∧ |counterValue t - (counterValue s - off)| < 65536 := by
  have hput (x : PtpPort) : (ptpPut s p1 x).time.sansPorts = s.time.sansPorts := by cases p1 <;> rfl
  unfold offsetFormed
  dsimp only
  generalize hu : ptpPut s p1 _ = u
  have htime : u.time.sansPorts = s.time.sansPorts := hu ▸ hput _
  have hselected' : u.time.selected = some (p1, src) := (congrArg Time.selected htime).trans hselected
  have hstate' : u.time.state = .unsynchronised := (congrArg Time.state htime).trans hstate
  have hvalue : counterValue (offsetCounted u off) = counterValue s := counterValue_of_time (s := s) (t := u) htime
  rw [if_pos hselected', steer_of_unsynchronised hstate']
  obtain ⟨hacquiring, hstepped, hfrac, hresidue, hset⟩ := stepCounter_unsynchronised (s := offsetCounted u off) hstate' off (if p1 then 1 else 0)
  refine ⟨hacquiring, hstepped, hfrac, hresidue, ?_⟩
  have hnear := setCounter_near (s := offsetCounted u off) (off := off) (by rwa [hvalue]) (by rwa [hvalue])
  rw [← hset, hvalue] at hnear
  exact hnear

/-! Sync and Follow_Up (R317) -/

/-- The Sync of a port's best master is noted, and the selection judged with it (R313, R315). -/
def syncNoted (s : State) (p1 : Bool) (m : PtpSync) : State :=
  let s := ptpPut s p1 { ptpGet s p1 with syncs := noteSync s.now m (ptpGet s p1).syncs }
  reselect (ptpPut s p1 { ptpGet s p1 with syncOk := true })

theorem syncNoted_port (s : State) (p1 : Bool) (m : PtpSync) : ptpGet (syncNoted s p1 m) p1 =
    { ptpGet s p1 with syncs := noteSync s.now m (ptpGet s p1).syncs, syncOk := true } := by
  unfold syncNoted
  dsimp only
  rw [reselect_ptpGet, ptpGet_ptpPut, if_pos rfl, ptpGet_ptpPut, if_pos rfl]

/-- What a Sync of the best master makes of its port. -/
theorem syncArrived_best {s : State} (p : Port) {p1 : Bool} {m : PtpSync} {b : Master} (hbest : bestMaster (ptpGet s p1) = some b)
    (hsrc : b.src = m.hdr.src) : syncArrived s p p1 m =
      if m.twoStep then ptpPut (syncNoted s p1 m) p1 { ptpGet (syncNoted s p1 m) p1 with sync := some m }
      else if delayValid (ptpGet (syncNoted s p1 m) p1) then offsetFormed (syncNoted s p1 m) p1 m.hdr.src
        (rxStamp p m.rx - (m.origin + m.correction + median (ptpGet (syncNoted s p1 m) p1).delays))
      else syncNoted s p1 m := by
  have hnoted : bestMaster (ptpGet (ptpPut s p1 { ptpGet s p1 with syncs := noteSync s.now m (ptpGet s p1).syncs }) p1) = some b := by
    rw [ptpGet_ptpPut, if_pos rfl]
    exact hbest
  exact if_neg (by rw [hnoted, Option.map_some, hsrc, bne_self_eq_false]; exact Bool.false_ne_true)

theorem syncArrived_twoStep {s : State} (p : Port) {p1 : Bool} {m : PtpSync} {b : Master} (hbest : bestMaster (ptpGet s p1) = some b)
    (hsrc : b.src = m.hdr.src) (htwo : m.twoStep = true) : ptpGet (syncArrived s p p1 m) p1 =
      { ptpGet s p1 with syncs := noteSync s.now m (ptpGet s p1).syncs, syncOk := true, sync := some m } := by
  rw [syncArrived_best p hbest hsrc, if_pos htwo, ptpGet_ptpPut, if_pos rfl, syncNoted_port]

theorem syncArrived_oneStep {s : State} (p : Port) {p1 : Bool} {m : PtpSync} {b : Master} (hbest : bestMaster (ptpGet s p1) = some b)
    (hsrc : b.src = m.hdr.src) (hone : m.twoStep = false) (hvalid : delayValid (ptpGet s p1) = true) : ptpGet (syncArrived s p p1 m) p1 =
      { ptpGet s p1 with
        syncs := noteSync s.now m (ptpGet s p1).syncs, syncOk := true, sync := none
        offset := some (rxStamp p m.rx - (m.origin + m.correction + median (ptpGet s p1).delays)) } := by
  have hdelay : delayValid (ptpGet (syncNoted s p1 m) p1) = true := by rw [syncNoted_port]; exact hvalid
  rw [syncArrived_best p hbest hsrc, if_neg (by rw [hone]; exact Bool.false_ne_true), if_pos hdelay, offsetFormed_ptpGet, if_pos rfl, syncNoted_port]

/-- A Follow_Up of the Sync that waits forms the offset of both. -/
theorem followUpArrived_formed {s : State} (p : Port) {p1 : Bool} {m : PtpFollowUp} {y : PtpSync} (hsync : (ptpGet s p1).sync = some y)
    (hsrc : y.hdr.src = m.hdr.src) (hseq : y.hdr.seq = m.hdr.seq) (hvalid : delayValid (ptpGet s p1) = true) :
    followUpArrived s p p1 m
      = offsetFormed s p1 m.hdr.src (rxStamp p y.rx - (m.origin + y.correction + m.correction + median (ptpGet s p1).delays)) := by
  simp only [followUpArrived, hsync, hsrc, hseq, hvalid, decide_true, Bool.and_self, if_true]

/-! The commands -/

theorem withTwin_time (f : State → State) (s : State) : (withTwin f s).time = (f s).time := by
  have e := congrArg State.time (withTwin_frame f s); exact e

theorem timeSettled_time (f : State → State) (s : State) : (timeSettled f s).time.sansPorts = (f s).time.sansPorts :=
  (timeFaults_time _).trans (congrArg Time.sansPorts (withTwin_time f s))

theorem sync_of_exchange {x y : PtpPort} (h : x.exchange = y.exchange) : x.sync = y.sync ∧ x.syncOk = y.syncOk ∧ x.offset = y.offset := by
  simp only [PtpPort.exchange, PtpPort.mk.injEq] at h
  simp only [h, and_self]

/-- A Sync that R310 accepts leaves its port as its arrival makes it. -/
theorem answers_sync {s : State} {p : Port} {p1 : Bool} {m : PtpSync} (hport : ptpPort? p = some p1) (hrun : clockRuns s = true)
    (hopen : rxOpen s p = true) (hacc : ptpAccepted s m.hdr = true) : Answers (.sync p m) s (fun t =>
      ∀ b, (ptpGet t b).exchange = (ptpGet (syncArrived { s with out := [] } p p1 m) b).exchange) :=
  answers_exchange (g := fun p1 u => syncArrived u p p1 m) (execSync.eq_def p m s) hport hrun hopen hacc

/-- A Follow_Up that R310 accepts leaves ports and clock as its arrival makes them. -/
theorem answers_followUp {s : State} {p : Port} {p1 : Bool} {m : PtpFollowUp} (hport : ptpPort? p = some p1) (hrun : clockRuns s = true)
    (hopen : rxOpen s p = true) (hacc : ptpAccepted s m.hdr = true) : Answers (.followUp p m) s (fun t =>
      (ptpGet t p1).exchange = (ptpGet (followUpArrived { s with out := [] } p p1 m) p1).exchange
        ∧ t.time.sansPorts = (followUpArrived { s with out := [] } p p1 m).time.sansPorts) :=
  answers_ptpReceive (f := fun p1 u => timeSettled (fun u => followUpArrived u p p1 m) u) (execFollowUp.eq_def p m s) hport hrun hopen hacc
    ⟨timeSettled_exchange _ _ p1, timeSettled_time (fun u => followUpArrived u p p1 m) _⟩

/-- A Follow_Up that does not come leaves its Sync unused. -/
theorem answers_followUpTimeout {s : State} {p : Port} {p1 : Bool} (hport : ptpPort? p = some p1) (hrun : coreRuns s = true) :
    Answers (.followUpTimeout p) s (fun t => t = ptpPut { s with out := [] } p1 { ptpGet s p1 with sync := none }) := by
  have hrun' : coreRuns { s with out := [] } = true := hrun
  refine answers_of_run (execFollowUpTimeout.eq_def p s) ?_
  rw [hport]
  dsimp only
  rw [if_pos hrun']
  cases p1 <;> rfl

end Sys2Proof.Machine
end

section
/-! The TIME exchange with the partner (R331, R332), on a carry frame that is taken (R619). -/
namespace Sys2Proof.Machine

/-! A carry frame that is taken -/

theorem lanePut_sansRecords (s : State) (n : Fin 2) (x : Lane) : (lanePut s n x).sansRecords = s.sansRecords := by
  unfold lanePut
  split <;> rfl

theorem pumpLane_sansRecords : ∀ (fuel : Nat) (s : State) (n : Fin 2), (pumpLane fuel s n).sansRecords = s.sansRecords
  | 0, _, _ => rfl
  | fuel + 1, s, n => by
    unfold pumpLane
    dsimp only
    split
    · rfl
    · split
      · rfl
      · rw [pumpLane_sansRecords fuel, emit_sansRecords, lanePut_sansRecords]

/-- A frame that is taken changes the lanes alone, and what waits on them leaves. -/
theorem carryTake_taken {s : State} {h : CarryHdr} (htakes : takes s h = true) :
    (carryTake s h).2 = true ∧ (carryTake s h).1.sansRecords = s.sansRecords := by
  simp only [takes, Bool.and_eq_true, beq_iff_eq] at htakes
  obtain ⟨⟨⟨-, hup⟩, hvalid⟩, hseq⟩ := htakes
  have htake : carryTake s h = (pumpLane (laneGet s h.lane).waiting.length (lanePut s h.lane { laneGet s h.lane with
      rxSeq := (laneGet s h.lane).rxSeq + 1, unacked := ackDrop h.ackn (laneGet s h.lane).unacked }) h.lane, true) := by
    simp only [carryTake, hup, hvalid, hseq, Bool.not_true, bne_self_eq_false, Bool.or_self, Bool.false_eq_true, if_false]
  rw [htake]
  exact ⟨rfl, (pumpLane_sansRecords _ _ _).trans (lanePut_sansRecords _ _ _)⟩

/-- What a taken frame brings is done behind its taking, and the pair settles. -/
theorem onCarry_taken {s : State} {h : CarryHdr} (htakes : takes s h = true) (f : State → State) : onCarry h f s = settled f (carryTake s h).1 := by
  obtain ⟨htaken, -⟩ := carryTake_taken htakes
  have hon : carryOn s = true := by
    simp only [takes, Bool.and_eq_true] at htakes
    exact htakes.1.1.1
  simp only [onCarry, hon, htaken, Bool.not_true, Bool.false_eq_true, if_false, if_true]
  rfl

theorem settled_time (f : State → State) (s : State) : (settled f s).time = (f s).time := by
  have e := congrArg State.time (settled_frame f s); exact e
theorem settled_lastRx (f : State → State) (s : State) : (settled f s).pair.lastRx = (f s).pair.lastRx := by
  have e := congrArg (fun u => u.pair.lastRx) (settled_frame f s); exact e
theorem settled_lastTx (f : State → State) (s : State) : (settled f s).pair.lastTx = (f s).pair.lastTx := by
  have e := congrArg (fun u => u.pair.lastTx) (settled_frame f s); exact e

/-! The offset from the partner (R331) -/

/-- The offset of a two-way exchange. -/
def twinOffsetOf (b : TimeBody) : Int := halve ((b.ownTx - b.partnerRx) + (b.ownRx - b.partnerTx))

/-- What the frame tells: the offset, and the partner's time. -/
def timeTold (s : State) (b : TimeBody) : State :=
  { s with time := { s.time with
    twinOffset := some (twinOffsetOf b), partnerState := timeOfCode b.leaderState, partnerTimeq := b.leaderTimeq } }

/-- A follower without a time base steps to the partner's (R332); what is left is its offset. -/
def twinFollowed (s : State) (b : TimeBody) : State :=
  if formed s && !timeLeads s && s.time.state == .unsynchronised && hasBase s.time.partnerState then
    let t := stepCounter s (twinOffsetOf b) 2
    { t with time := { t.time with
      twinOffset := some (counterValue t - (counterValue s - twinOffsetOf b)), leapKnown := t.time.leapKnown || b.leaderTimeq.getLsbD 7 } }
  else s

/-- The frame is answered with the unit's own times. -/
def timeAnswered (s : State) (b : TimeBody) : State :=
  let s := carrySend { s with pair := { s.pair with lastRx := b.ownRx } } 0 (.time s.pair.lastTx b.ownRx)
  { s with pair := { s.pair with lastTx := stampValue s } }

theorem timeExchange_eq (s : State) (b : TimeBody) :
    timeExchange s b = timeAnswered (twinFollowed (judgeTwin (timeTold s b) (twinOffsetOf b)) b) b := by
  unfold timeExchange timeAnswered twinFollowed
  rfl

/-- The answer leaves the clock, and notes when it left. -/
theorem timeAnswered_reads (s : State) (b : TimeBody) :
    (timeAnswered s b).time = s.time ∧ (timeAnswered s b).pair.lastRx = b.ownRx ∧ (timeAnswered s b).pair.lastTx = stampValue s := by
  have hsent := carrySend_sansRecords { s with pair := { s.pair with lastRx := b.ownRx } } 0 (.time s.pair.lastTx b.ownRx)
  have htime : (timeAnswered s b).time = s.time := by have e := congrArg State.time hsent; exact e
  have hrx : (timeAnswered s b).pair.lastRx = b.ownRx := by have e := congrArg (fun u => u.pair.lastRx) hsent; exact e
  have htx : (timeAnswered s b).pair.lastTx = stampValue s := by have e := congrArg stampValue hsent; exact e
  exact ⟨htime, hrx, htx⟩

/-- The judgement of the two counters notes since when they are apart, or close. -/
theorem judgeTwin_frame (s : State) (off : Int) : ∃ apart close, (judgeTwin s off).sansRecords =
    { s.sansRecords with time := { s.time with twinApartAt := apart, twinCloseAt := close } } := by
  unfold judgeTwin
  extract_lets far near _ u long
  split
  · exact ⟨_, _, judgeFault_sansRecords u (keyU 0x0F00) 0 none16 true (by decide)⟩
  · split
    · exact ⟨_, _, causeGoneU_sansRecords u 0x0F00⟩
    · exact ⟨_, _, rfl⟩

/-- The unit as a frame that is taken has told it: its clock, and what decides who leads. -/
theorem timeTold_judged {s v : State} (hv : v.sansRecords = s.sansRecords) (b : TimeBody) : ∃ apart close,
    (judgeTwin (timeTold v b) (twinOffsetOf b)).time = { (timeTold s b).time with twinApartAt := apart, twinCloseAt := close }
      ∧ formed (judgeTwin (timeTold v b) (twinOffsetOf b)) = formed s
      ∧ (judgeTwin (timeTold v b) (twinOffsetOf b)).pair.state = s.pair.state := by
  obtain ⟨apart, close, hjudged⟩ := judgeTwin_frame (timeTold v b) (twinOffsetOf b)
  have htold : (timeTold v b).time = (timeTold s b).time := by
    have e := congrArg (fun u => (timeTold u b).time) hv; exact e
  have htime : (judgeTwin (timeTold v b) (twinOffsetOf b)).time = { (timeTold v b).time with twinApartAt := apart, twinCloseAt := close } := by
    have e := congrArg State.time hjudged; exact e
  have hformed : formed (judgeTwin (timeTold v b) (twinOffsetOf b)) = formed v := by have e := congrArg formed hjudged; exact e
  have hformed' : formed v = formed s := by have e := congrArg formed hv; exact e
  have hpair : (judgeTwin (timeTold v b) (twinOffsetOf b)).pair.state = v.pair.state := by
    have e := congrArg (fun u => u.pair.state) hjudged; exact e
  have hpair' : v.pair.state = s.pair.state := by have e := congrArg (fun u => u.pair.state) hv; exact e
  exact ⟨apart, close, by rw [htime, htold], hformed.trans hformed', hpair.trans hpair'⟩

/-- A unit that has a time base keeps its counter. -/
theorem twinFollowed_of_base {s : State} (h : s.time.state ≠ .unsynchronised) (b : TimeBody) : twinFollowed s b = s :=
  if_neg (by simp [h])

/-- A follower without one steps. -/
theorem twinFollowed_steps {s : State} (b : TimeBody) (hformed : formed s = true) (hleads : timeLeads s = false)
    (hstate : s.time.state = .unsynchronised) (hbase : hasBase s.time.partnerState = true) :
    (twinFollowed s b).time.state = .acquiring ∧ (twinFollowed s b).time.stepped = true
      ∧ (twinFollowed s b).time.twinOffset = some (counterValue (twinFollowed s b) - (counterValue s - twinOffsetOf b)) := by
  obtain ⟨hacquiring, hstepped, -⟩ := stepCounter_unsynchronised hstate (twinOffsetOf b) 2
  have hguard : (formed s && !timeLeads s && s.time.state == .unsynchronised && hasBase s.time.partnerState) = true := by
    rw [hformed, hleads, hstate, hbase]
    rfl
  unfold twinFollowed
  rw [if_pos hguard]
  exact ⟨hacquiring, hstepped, rfl⟩

/-- What a TIME frame that is taken leaves of clock and timestamps. -/
theorem answers_timeExchange {s : State} {h : CarryHdr} {b : TimeBody} (htakes : takes s h = true) :
    ∃ u apart close, u.time = { (timeTold s b).time with twinApartAt := apart, twinCloseAt := close } ∧ formed u = formed s
      ∧ u.pair.state = s.pair.state ∧ Answers (.timeExchange h b) s (fun t =>
        t.time = (twinFollowed u b).time ∧ t.pair.lastRx = b.ownRx ∧ t.pair.lastTx = stampValue (twinFollowed u b)) := by
  have htakes' : takes { s with out := [] } h = true := htakes
  obtain ⟨-, hv⟩ := carryTake_taken htakes'
  obtain ⟨apart, close, htime, hformed, hpair⟩ := timeTold_judged hv b
  refine ⟨_, apart, close, htime, hformed, hpair, answers_of_run (execTimeExchange.eq_def h b s) ?_⟩
  rw [onCarry_taken htakes']
  obtain ⟨hkept, hrx, htx⟩ := timeAnswered_reads (twinFollowed (judgeTwin (timeTold (carryTake { s with out := [] } h).1 b) (twinOffsetOf b)) b) b
  rw [← timeExchange_eq] at hkept hrx htx
  exact ⟨(settled_time _ _).trans hkept, (settled_lastRx _ _).trans hrx, (settled_lastTx _ _).trans htx⟩

/-- Settles O24: an arriving Sync, Follow_Up or TIME frame forms its offset once, an offset steps the counter of a unit without a time base, and the
judgements that follow leave ports and clock. -/
theorem offsetsFormed : Obligations.OffsetsFormed := by
  unfold Obligations.OffsetsFormed
  refine ⟨fun s p p1 m b hport hrun hopen hacc hbest hsrc => ⟨fun htwo => ?_, fun hone hvalid => ?_⟩,
    fun s p p1 m y hport hrun hopen hacc hsync hsrc hseq hvalid => ?_, fun s p p1 hport hrun => answers_followUpTimeout hport hrun,
    fun s h b htakes => ⟨fun hstate => ?_, fun hformed hstate hbase hleads => ?_⟩⟩
  · refine (answers_sync hport hrun hopen hacc).imp (fun t ht => ?_)
    have hkept := ht p1
    rw [syncArrived_twoStep (s := { s with out := [] }) p hbest hsrc htwo] at hkept
    obtain ⟨hnoted, hok, -⟩ := sync_of_exchange hkept
    exact ⟨hnoted, hok⟩
  · refine (answers_sync hport hrun hopen hacc).imp (fun t ht => ?_)
    have hkept := ht p1
    rw [syncArrived_oneStep (s := { s with out := [] }) p hbest hsrc hone hvalid] at hkept
    obtain ⟨hused, -, hoffset⟩ := sync_of_exchange hkept
    exact ⟨hused, hoffset⟩
  · refine (answers_followUp hport hrun hopen hacc).imp (fun t ⟨hkept, htime⟩ => ?_)
    rw [followUpArrived_formed (s := { s with out := [] }) p hsync hsrc hseq hvalid] at hkept htime
    rw [offsetFormed_ptpGet, if_pos rfl] at hkept
    obtain ⟨hused, -, hoffset⟩ := sync_of_exchange hkept
    refine ⟨hused, hoffset, fun hselected hstate hlow hhigh => ?_⟩
    obtain ⟨hacquiring, hstepped, hfrac, hresidue, hnear⟩ := offsetFormed_steps (s := { s with out := [] }) hselected hstate hlow hhigh
    exact ⟨(congrArg Time.state htime).trans hacquiring, (congrArg Time.stepped htime).trans hstepped, (congrArg Time.frac htime).trans hfrac,
      (congrArg Time.residue htime).trans hresidue,
      (congrArg (fun x => |x - _|) (counterValue_of_time htime)).trans_lt hnear⟩
  · obtain ⟨u, apart, close, htime, -, -, hanswers⟩ := answers_timeExchange (b := b) htakes
    have hfollowed : twinFollowed u b = u := twinFollowed_of_base (by rw [htime]; exact hstate) b
    rw [hfollowed] at hanswers
    refine hanswers.imp (fun t ⟨ht, hrx, htx⟩ => ?_)
    have hclock := ht.trans htime
    have hstamp : stampValue u = stampValue s := by have e := congrArg (fun x => stampValue { s with time := x }) htime; exact e
    rw [hclock]
    exact ⟨rfl, rfl, hrx, htx.trans hstamp, rfl, rfl⟩
  · obtain ⟨u, apart, close, htime, hformed', hpair, hanswers⟩ := answers_timeExchange (b := b) htakes
    have hleads' : timeLeads u = false := by
      rw [← hleads]
      simp only [timeLeads, htime, hpair]
      rfl
    obtain ⟨hacquiring, hstepped, hoffset⟩ := twinFollowed_steps (s := u) b (hformed'.trans hformed) hleads' (by rw [htime]; exact hstate)
      (by rw [htime]; exact hbase)
    refine hanswers.imp (fun t ⟨ht, _, _⟩ => ?_)
    have hbefore : counterValue u = counterValue s := by have e := congrArg (fun x => counterValue { s with time := x }) htime; exact e
    rw [counterValue_of_time (congrArg Time.sansPorts ht), ht, ← hbefore]
    exact ⟨hacquiring, hstepped, hoffset⟩

end Sys2Proof.Machine
end

section
/-! The phases of a COIL slot: a commit at its first update, Pick and its end, and regulation in Hold (R357 to R360, R366, R574, Table 9.4). -/
namespace Sys2Proof.Machine

/-- The slots are read from the Reckoner alone, which a cause that goes leaves. -/
@[simp] theorem causeGone_coilGet (s : State) (k : FaultKey) (n : Nat) : coilGet (causeGone s k) n = coilGet s n := by
  unfold coilGet
  rw [keeps_reck (sansSettled_records (causeGone_sansRecords s k))]

/-- A slot that goes to Idle keeps only that a commit is due. -/
theorem coilGet_coilIdle (s : State) (cc k : Nat) :
    coilGet (coilIdle s cc) k = if k = cc then { due := (coilGet s cc).due } else coilGet s k := by
  rw [coilIdle, causeGone_coilGet, coilGet_coilPut]

/-! A commit (R366) -/

/-- A slot with no commit due runs by the image in force. -/
theorem coilRods_of_settled {s : State} {cc : Nat} (h : (coilGet s cc).due = false) : coilRods s cc = rods s := by
  rw [coilRods, h]

theorem coilCommit_of_settled {s : State} {cc : Nat} (h : (coilGet s cc).due = false) : coilCommit s cc = s := by
  simp [coilCommit, h]

/-- A commit that opens the hold current leaves the slot as at reset, and the others as before. -/
theorem coilCommit_opens {s : State} {cc : Nat} (hdue : (coilGet s cc).due = true) (hwas : coilEnabled (coilRods s cc) cc = true)
    (hnow : coilEnabled (rods s) cc = false) (k : Nat) : coilGet (coilCommit s cc) k = if k = cc then {} else coilGet s k := by
  have hidle : coilCommit s cc = coilIdle (coilPut s cc { coilGet s cc with due := false }) cc := by
    simp [coilCommit, hdue, hwas, hnow]
  rw [hidle, coilGet_coilIdle, coilGet_coilPut, coilGet_coilPut, if_pos rfl]
  split <;> rfl

/-! Pick (R357, R359) -/

theorem coilUpdate_pick {s : State} {cc : Nat} (h : (coilGet s cc).phase = .pick) :
    coilUpdate s cc = coilPut s cc { coilGet s cc with picked := (coilGet s cc).picked + 1, mPick := coilCurrent s cc } := by
  simp only [coilUpdate, h]

/-- After the pick time the slot leaves Pick with its preset. -/
theorem pickEnd_leaves {s : State} {cc : Nat} (hphase : (coilGet s cc).phase = .pick) (hdue : (coilGet s cc).due = false)
    (hon : coilEnabled (rods s) cc = true) (hlong : 20 * chPick (rods s) cc ≤ (coilGet s cc).picked) :
    pickEnd s cc = coilPut s cc { coilGet s cc with
      phase := if coilSetpoint (rods s) cc < (coilGet s cc).mPick then .approach else .hold
      picked := 0, loop := { i := coilPreset (rods s) cc (coilGet s cc).mPick, u := (coilGet s cc).loop.u, fe := 0 } } := by
  have hguard : ((coilGet s cc).phase != .pick || !coilEnabled (rods s) cc || decide ((coilGet s cc).picked < 20 * chPick (rods s) cc)) = false := by
    simp [hphase, hon, hlong]
  simp only [pickEnd, coilRods_of_settled hdue, hguard, Bool.false_eq_true, if_false]

/-! Hold (R358, R360, R574) -/

/-- The slot's error in Hold, in LSB. -/
def coilError (s : State) (cc : Nat) : Int := satError ((coilSetpoint (rods s) cc : Int) - coilCurrent s cc)

/-- The slot after an update in Hold: the law's loop, its reading used. -/
def coilHeld (s : State) (cc : Nat) : Coil :=
  { coilGet s cc with
    fresh := false
    loop := feTimer (gCoilFeLim (rods s) cc)
      (controlLaw (gCoilKp (rods s) cc) (gCoilKi (rods s) cc) 0 (gCoilUmax (rods s) cc) (coilGet s cc).loop (coilError s cc)) (coilError s cc) }

/-- With a fresh reading the slot is stored, and a timer at 0 takes the cause of its following error away. -/
theorem coilUpdate_hold {s : State} {cc : Nat} (hphase : (coilGet s cc).phase = .hold) (hfresh : (coilGet s cc).fresh = true)
    (hcoupler : (chGet s cc).coupler = false) : coilUpdate s cc =
      if (coilHeld s cc).loop.fe = 0 then causeGone (coilPut s cc (coilHeld s cc)) { code := 0x1180, scope := 10, inst := 4 + cc }
      else coilPut s cc (coilHeld s cc) := by
  have hreads : (!(coilGet s cc).fresh || (Tab.get {} s.field.ch cc).coupler) = false := by rw [hfresh]; exact hcoupler
  simp only [coilUpdate, hphase, hreads, coilHeld, coilError]
  simp

/-- What an update in Hold leaves beside fault records is its slot stored. -/
theorem coilUpdate_hold_leaves {s : State} {cc : Nat} (hphase : (coilGet s cc).phase = .hold) (hfresh : (coilGet s cc).fresh = true)
    (hcoupler : (chGet s cc).coupler = false) : (coilUpdate s cc).sansRecords = (coilPut s cc (coilHeld s cc)).sansRecords := by
  rw [coilUpdate_hold hphase hfresh hcoupler]
  split
  · exact causeGone_sansRecords _ _
  · rfl

theorem coilUpdate_hold_coilGet {s : State} {cc : Nat} (hphase : (coilGet s cc).phase = .hold) (hfresh : (coilGet s cc).fresh = true)
    (hcoupler : (chGet s cc).coupler = false) (k : Nat) : coilGet (coilUpdate s cc) k = if k = cc then coilHeld s cc else coilGet s k := by
  have e := congrArg (coilGet · k) (coilUpdate_hold_leaves hphase hfresh hcoupler)
  exact e.trans (coilGet_coilPut s cc k _)

/-- An update in Hold is confined to the Reckoner and to fault records. -/
theorem coilUpdate_hold_frame {s : State} {cc : Nat} (hphase : (coilGet s cc).phase = .hold) (hfresh : (coilGet s cc).fresh = true)
    (hcoupler : (chGet s cc).coupler = false) :
    (coilUpdate s cc).sansRecords = { s.sansRecords with reck := (coilUpdate s cc).reck } := by
  have hleaves := coilUpdate_hold_leaves hphase hfresh hcoupler
  have hreck : (coilUpdate s cc).reck = (coilPut s cc (coilHeld s cc)).reck := keeps_reck (sansSettled_records hleaves)
  rw [hleaves, hreck]
  rfl

/-- Without a fresh reading, or with a coupler fault, the slot skips its update. -/
theorem coilUpdate_hold_skips {s : State} {cc : Nat} (hphase : (coilGet s cc).phase = .hold)
    (hskip : (coilGet s cc).fresh = false ∨ (chGet s cc).coupler = true) : coilUpdate s cc = s := by
  have hreads : (!(coilGet s cc).fresh || (Tab.get {} s.field.ch cc).coupler) = true := by
    rcases hskip with h | h
    · rw [h]; rfl
    · exact Bool.or_eq_true_iff.mpr (.inr h)
  simp only [coilUpdate, hphase, hreads, if_true]

theorem coilUpdate_idle {s : State} {cc : Nat} (h : (coilGet s cc).phase = .idle) : coilUpdate s cc = s := by
  simp only [coilUpdate, h]

/-- An update with no commit due runs by the slot's phase alone. -/
theorem answers_coilUpdate {s : State} {cc : Fin 32} {p : State → Prop} (hrun : coreRuns s = true) (hdue : (coilGet s cc).due = false)
    (h : p { coilUpdate { s with out := [] } cc with pending := s.pending }) : Answers (.coilUpdate cc) s p := by
  refine answers_of_guard (execCoilUpdate.eq_def cc s) hrun ?_
  rw [coilCommit_of_settled (s := { s with out := [] }) hdue]
  exact h

/-- Settles O27: with no commit due each update, and the end of Pick, acts by the slot's phase and puts back its slot alone; a commit due that opens
the hold current makes it Idle before its update, which leaves an idle slot. -/
theorem coilCourse : Obligations.CoilCourse := by
  unfold Obligations.CoilCourse
  refine ⟨fun s cc hrun hphase hdue => ?_, fun s cc hrun hphase hdue hon hlong => ?_, fun s cc hrun hphase hdue hfresh hcoupler => ?_,
    fun s cc hphase hdue hskip => ?_, fun s cc hrun hdue hwas hnow => ?_⟩
  · refine answers_coilUpdate hrun hdue ?_
    rw [coilUpdate_pick (s := { s with out := [] }) hphase]
    rfl
  · refine answers_of_guard (execPickEnd.eq_def cc s) hrun ?_
    rw [pickEnd_leaves (s := { s with out := [] }) hphase hdue hon hlong]
    rfl
  · have hslot := coilUpdate_hold_coilGet (s := { s with out := [] }) hphase hfresh hcoupler
    have hframe := coilUpdate_hold_frame (s := { s with out := [] }) hphase hfresh hcoupler
    exact answers_coilUpdate hrun hdue ⟨(hslot cc).trans (if_pos rfl), fun k hk => (hslot k).trans (if_neg hk),
      congrArg (fun u : State => { u with pending := s.pending }) hframe⟩
  · refine answers_of_run (execCoilUpdate.eq_def cc s) ?_
    rw [coilCommit_of_settled (s := { s with out := [] }) hdue, coilUpdate_hold_skips (s := { s with out := [] }) hphase hskip, ite_self]
  · have hslot := coilCommit_opens (s := { s with out := [] }) hdue hwas hnow
    have hidle := (hslot cc).trans (if_pos rfl)
    refine answers_of_guard (execCoilUpdate.eq_def cc s) hrun ?_
    rw [coilUpdate_idle (congrArg Coil.phase hidle)]
    exact ⟨hidle, fun k hk => (hslot k).trans (if_neg hk)⟩

end Sys2Proof.Machine
end

section
/-! Check patterns (R398, R400): up to three Withdraw-level faults raised one after another, none of which ends another's. -/
namespace Sys2Proof.Machine

/-! An arising, whatever stands under its key (Table 19.3) -/

/-- An arising changes nothing, stores a record, or has a record react. -/
theorem arise_cases (s : State) (k : FaultKey) (det hdl : Nat) (d : List Byte) :
    arise s k det hdl d = s ∨ (∃ r, arise s k det hdl d = faultPut s k r) ∨ ∃ r n, arise s k det hdl d = react s k r n d := by
  unfold arise ariseWith
  split
  next => exact .inr (.inr ⟨_, _, rfl⟩)
  next r _ =>
    dsimp only
    by_cases hwithdraw : r.level = 4
    · exact .inl (if_pos hwithdraw)
    · rw [if_neg hwithdraw]
      right
      generalize (if (faultRow k.code).2.1 = (faultRow k.code).1 then r.level else (faultRow k.code).2.1) = ceiling
      cases r.phase with
      | reacting => exact .inl ⟨_, rfl⟩
      | present =>
        dsimp only
        split_ifs
        · exact .inr ⟨_, _, rfl⟩
        · exact .inr ⟨_, _, rfl⟩
        · exact .inl ⟨_, rfl⟩
      | gone =>
        dsimp only
        split_ifs
        · exact .inr ⟨_, _, rfl⟩
        · exact .inr ⟨_, _, rfl⟩

/-- While the core runs a reaction leaves the supplies and the engine, or withdraws the unit. -/
theorem react_power_cases {s : State} (hrun : coreRuns s = true) (k : FaultKey) (r : FaultRec) (n : Nat) (d : List Byte) :
    (react s k r n d).power = s.power ∨ (react s k r n d).power = { s.power with engine := .withdrawn } := by
  by_cases hlevel : r.level = 4
  · exact .inr (react_withdraws s k r n d hlevel hrun)
  · exact .inl (keeps_power (sansSettled_records (react_sansRecords s k r n d hlevel)))

theorem arise_power_cases {s : State} (hrun : coreRuns s = true) (k : FaultKey) (det hdl : Nat) (d : List Byte) :
    (arise s k det hdl d).power = s.power ∨ (arise s k det hdl d).power = { s.power with engine := .withdrawn } := by
  obtain he | ⟨r, he⟩ | ⟨r, n, he⟩ := arise_cases s k det hdl d
  · exact .inl (congrArg State.power he)
  · exact .inl (by rw [he]; rfl)
  · rw [he]
    exact react_power_cases hrun k r n d

/-- The core goes on running whatever arises. -/
theorem arise_coreRuns {s : State} (hrun : coreRuns s = true) (k : FaultKey) (det hdl : Nat) (d : List Byte) :
    coreRuns (arise s k det hdl d) = true := by
  obtain hp | hp := arise_power_cases hrun k det hdl d
  · exact (coreRuns_congr hp).trans hrun
  · simp only [coreRuns, Bool.and_eq_true] at hrun ⊢
    rw [hp]
    exact ⟨hrun.1, rfl⟩

/-- A unit that is Withdrawn stays so whatever arises. -/
theorem arise_staysWithdrawn {s : State} (hrun : coreRuns s = true) (hengine : s.power.engine = .withdrawn) (k : FaultKey) (det hdl : Nat)
    (d : List Byte) : (arise s k det hdl d).power.engine = .withdrawn := by
  obtain hp | hp := arise_power_cases hrun k det hdl d
  · exact (congrArg Power.engine hp).trans hengine
  · exact congrArg Power.engine hp

/-- The keys whose records neither bookkeeping nor a withdrawal (Table 9.5) changes. -/
def lasting (j : FaultKey) : Bool := !bookkept j && j.code / 64 != 0x45 && j.code / 64 != 0x46

theorem lasting_iff (j : FaultKey) : lasting j = true ↔ bookkept j = false ∧ j.code / 64 ≠ 0x45 ∧ j.code / 64 ≠ 0x46 := by
  simp [lasting, and_assoc]

theorem withdraw_lasting (s : State) {j : FaultKey} (hj : lasting j = true) : faultGet (withdraw s) j = faultGet s j := by
  obtain ⟨hb, h5, h6⟩ := (lasting_iff j).mp hj
  simp only [bookkept, Bool.or_eq_false_iff, decide_eq_false_iff_not, not_le] at hb
  exact withdraw_other s j hb.2 h5 h6

/-- A reaction of any level leaves the lasting records of other keys. -/
theorem react_lasting (s : State) (k : FaultKey) (r : FaultRec) (n : Nat) (d : List Byte) {j : FaultKey} (hj : lasting j = true)
    (hne : keyNum j ≠ keyNum k) : faultGet (react s k r n d) j = faultGet s j := by
  by_cases hlevel : r.level = 4
  · have hentered : faultGet (journalEntry (faultSeq (faultPut s k r) k) (faultEntry s k r n d)) j = faultGet s j := by
      rw [faultGet_of_steady (journalEntry_steady _ _) j ((lasting_iff j).mp hj).1, faultGet_faultSeq, faultGet_faultPut, if_neg hne]
    unfold react
    rw [if_pos hlevel]
    dsimp only
    split
    · rw [withdraw_lasting _ hj, faultGet_congr (congrArg Faults.recs (unitSnapshots_faults _ _ _)), hentered]
    · exact hentered
  · exact react_other s k r n d j hne hlevel

theorem arise_lasting (s : State) (k : FaultKey) (det hdl : Nat) (d : List Byte) {j : FaultKey} (hj : lasting j = true)
    (hne : keyNum j ≠ keyNum k) : faultGet (arise s k det hdl d) j = faultGet s j :=
  ariseWith_other react s k j hne (fun r n d => react_lasting s k r n d hj hne) det hdl d

/-! One verdict of the check pattern -/

/-- A check of the lanes that fails raises its fault. -/
def laneCheck (ok : Bool) (code : Nat) (s : State) : State := if ok then s else ariseU s code 0

/-- The unit is Withdrawn, and the fault of the code is one that withdrew it. -/
def WithdrawnBy (s : State) (code : Nat) : Prop := s.power.engine = .withdrawn ∧ Reacts s (keyU code) 4

section
variable {s : State} (ok : Bool) (code : Nat)

theorem laneCheck_sansCourse (s : State) : (laneCheck ok code s).sansCourse = s.sansCourse := by
  cases ok
  · exact ariseU_sansCourse s code 0
  · rfl

theorem laneCheck_coreRuns (hrun : coreRuns s = true) : coreRuns (laneCheck ok code s) = true := by
  cases ok
  · exact arise_coreRuns hrun (keyU code) 0 none16 []
  · exact hrun

theorem laneCheck_lasting (s : State) {j : FaultKey} (hj : lasting j = true) (hne : keyNum j ≠ keyNum (keyU code)) :
    faultGet (laneCheck ok code s) j = faultGet s j := by
  cases ok
  · exact arise_lasting s (keyU code) 0 none16 [] hj hne
  · rfl

/-- A later check leaves the unit withdrawn by an earlier one. -/
theorem laneCheck_keeps {c : Nat} (hj : lasting (keyU c) = true) (hne : keyNum (keyU c) ≠ keyNum (keyU code)) (hrun : coreRuns s = true)
    (h : WithdrawnBy s c) : WithdrawnBy (laneCheck ok code s) c := by
  obtain ⟨hengine, hreacts⟩ := h
  refine ⟨?_, ?_⟩
  · cases ok
    · exact arise_staysWithdrawn hrun hengine (keyU code) 0 none16 []
    · exact hengine
  · unfold Reacts
    rw [laneCheck_lasting ok code s hj hne]
    exact hreacts

/-- A check that fails withdraws the unit, where its fault was Clear. -/
theorem laneCheck_fails {code : Nat} (hrow : plainRow (keyU code) 4 = true) (hlevel : raiseLevel s code = 4) (hrun : coreRuns s = true)
    (hclear : faultGet s (keyU code) = none) : WithdrawnBy (laneCheck false code s) code :=
  ⟨congrArg Power.engine (arise_withdraws s (keyU code) 0 none16 [] hclear hlevel hrun), reacts_arise_row hclear hrow 0 none16 []⟩

end

theorem withdrawnBy_judgeSummary {s : State} {code : Nat} (hb : bookkept (keyU code) = false) (h : WithdrawnBy s code) :
    WithdrawnBy (judgeSummary s) code := by
  obtain ⟨hengine, hreacts⟩ := h
  exact ⟨(congrArg Power.engine (judgeSummary_power s)).trans hengine, reacts_judgeSummary hb hreacts⟩

/-! The pattern -/

/-- The verdict on the signature rests on the straps alone. -/
theorem signatureOk_congr {s t : State} (h : t.sansCourse = s.sansCourse) (p : PatternRun) : signatureOk t p = signatureOk s p := by
  have e := congrArg (signatureOk · p) h; exact e

/-- The three verdicts on a pattern, in the order in which they are judged. -/
def patternJudged (s : State) (p : PatternRun) : State :=
  laneCheck p.parityOk 0x3180 (laneCheck (signatureOk s p) 0x3140 (laneCheck (p.x == p.y) 0x3100 s))

/-- A pattern passes the lanes while the core runs with its lane test passed and nothing waits at the intake. -/
def patternRuns (s : State) : Bool := coreRuns s && s.power.laneTestPassed && decide (s.streams.intake = [])

theorem checkPattern_eq (s : State) (p : PatternRun) : checkPattern s p = if patternRuns s then patternJudged s p else s := by
  have hcompared : (if p.x = p.y then s else ariseU s 0x3100 0) = laneCheck (p.x == p.y) 0x3100 s := by simp [laneCheck]
  have hsignature := signatureOk_congr (laneCheck_sansCourse (p.x == p.y) 0x3100 s) p
  have hguard : (!coreRuns s || !s.power.laneTestPassed || decide (s.streams.intake ≠ [])) = !patternRuns s := by simp [patternRuns, Bool.not_and]
  simp only [checkPattern, hcompared, hsignature, hguard]
  cases patternRuns s <;> rfl

theorem patternJudged_sansCourse (s : State) (p : PatternRun) : (patternJudged s p).sansCourse = s.sansCourse := by
  simp only [patternJudged, laneCheck_sansCourse]

theorem checkPattern_good {s : State} {p : PatternRun} (hxy : p.x = p.y) (hsignature : signatureOk s p = true) (hparity : p.parityOk = true) :
    checkPattern s p = s := by
  rw [checkPattern_eq, patternJudged, hsignature, hparity, hxy, beq_self_eq_true]
  exact ite_self s

theorem checkPattern_waits {s : State} (h : s.streams.intake ≠ []) (p : PatternRun) : checkPattern s p = s := by
  rw [checkPattern_eq, if_neg (by simp [patternRuns, h])]

section
variable {s : State} {p : PatternRun} (hrun : coreRuns s = true)
include hrun

/-- Results that differ (R398). -/
theorem patternJudged_differ (hxy : p.x ≠ p.y) (hclear : faultGet s (keyU 0x3100) = none) : WithdrawnBy (patternJudged s p) 0x3100 := by
  have hfailed : WithdrawnBy (laneCheck (p.x == p.y) 0x3100 s) 0x3100 := by
    rw [beq_false_of_ne hxy]
    exact laneCheck_fails (by decide) (raiseLevel_row s _ (by decide) (by decide)) hrun hclear
  have hcompared := laneCheck_coreRuns (p.x == p.y) 0x3100 hrun
  exact laneCheck_keeps _ _ (by decide) (by decide) (laneCheck_coreRuns _ _ hcompared) (laneCheck_keeps _ _ (by decide) (by decide) hcompared hfailed)

/-- A signature that is not the one fixed in the logic (R398). -/
theorem patternJudged_signature (hsignature : signatureOk s p = false) (hclear : faultGet s (keyU 0x3140) = none) :
    WithdrawnBy (patternJudged s p) 0x3140 := by
  have hcompared := laneCheck_coreRuns (p.x == p.y) 0x3100 hrun
  have hstillClear := (laneCheck_lasting (p.x == p.y) 0x3100 s (j := keyU 0x3140) (by decide) (by decide)).trans hclear
  unfold patternJudged
  rw [hsignature]
  exact laneCheck_keeps _ _ (by decide) (by decide) (laneCheck_coreRuns _ _ hcompared)
    (laneCheck_fails (by decide) (raiseLevel_row _ _ (by decide) (by decide)) hcompared hstillClear)

/-- A lane memory that fails its parity (R400). -/
theorem patternJudged_parity (hparity : p.parityOk = false) (hclear : faultGet s (keyU 0x3180) = none) : WithdrawnBy (patternJudged s p) 0x3180 := by
  have hjudged := laneCheck_coreRuns (signatureOk s p) 0x3140 (laneCheck_coreRuns (p.x == p.y) 0x3100 hrun)
  have hstillClear : faultGet (laneCheck (signatureOk s p) 0x3140 (laneCheck (p.x == p.y) 0x3100 s)) (keyU 0x3180) = none := by
    rw [laneCheck_lasting _ _ _ (by decide) (by decide), laneCheck_lasting _ _ _ (by decide) (by decide), hclear]
  unfold patternJudged
  rw [hparity]
  exact laneCheck_fails (by decide) (raiseLevel_row _ _ (by decide) (by decide)) hjudged hstillClear

end

/-- A pattern reaches no zone, stream or pipeline, whatever its verdicts. -/
theorem patternJudged_frame (s : State) (p : PatternRun) :
    (judgeSummary (patternJudged s p)).zones = s.zones ∧ (judgeSummary (patternJudged s p)).streams = s.streams
      ∧ (judgeSummary (patternJudged s p)).pipes = s.pipes := by
  have hframe := patternJudged_sansCourse s p
  have hzones := congrArg State.zones hframe
  have hstreams := congrArg State.streams hframe
  have hpipes := congrArg State.pipes hframe
  exact ⟨(judgeSummary_zones _).trans hzones, (judgeSummary_streams _).trans hstreams, (judgeSummary_pipes _).trans hpipes⟩

/-- Where a pattern changes nothing, the command leaves at most what the summary reports. -/
theorem answers_checkPattern_idle {s : State} {p : PatternRun} (h : checkPattern { s with out := [] } p = { s with out := [] }) :
    Answers (.checkPattern (p.x, p.y) p.signature p.parityOk) s (fun t => t.sansReports = s.sansReports) := by
  refine answers_of_run (execCheckPattern.eq_def (p.x, p.y) p.signature p.parityOk s) ?_
  rw [h]
  exact congrArg (fun u : State => { u with pending := s.pending }) (judgeSummary_sansReports { s with out := [] })

/-- Settles O30: of the three verdicts each withdraws the unit by its own fault, which those judged before and after it leave. -/
theorem checkPatternWithdraws : Obligations.CheckPattern := by
  unfold Obligations.CheckPattern
  refine ⟨fun s p hrun hpassed hempty => ?_, fun s p hxy hsignature hparity => ?_, fun s p hwaits => ?_⟩
  · refine answers_of_run (execCheckPattern.eq_def (p.x, p.y) p.signature p.parityOk s) ?_
    have hrun' : coreRuns { s with out := [] } = true := hrun
    have hruns : patternRuns { s with out := [] } = true := by simp [patternRuns, hrun', hpassed, hempty]
    rw [checkPattern_eq, if_pos hruns]
    exact ⟨fun hxy hclear => withdrawnBy_judgeSummary (by decide) (patternJudged_differ hrun' hxy hclear),
      fun hsignature hclear => withdrawnBy_judgeSummary (by decide) (patternJudged_signature hrun' hsignature hclear),
      fun hparity hclear => withdrawnBy_judgeSummary (by decide) (patternJudged_parity hrun' hparity hclear),
      patternJudged_frame { s with out := [] } p⟩
  · exact answers_checkPattern_idle (checkPattern_good hxy hsignature hparity)
  · exact answers_checkPattern_idle (checkPattern_waits (s := { s with out := [] }) hwaits p)

end Sys2Proof.Machine
end

section
/-! The end of a zone's wait: the zone settles with the wait's effect, and what settling leaves of the zone and of the unit (R454, R473 to R480). -/
namespace Sys2Proof.Machine

/-! What a settling zone reports (R14, R520, R583, R672, R676) -/

/-- The unit without what a zone's verdicts reach: reports, COIL slots, the journal and urgent checks. -/
def State.sansVerdicts (s : State) : State := { s.sansReports with reck := {}, journal := {}, adc := {} }

theorem sansVerdicts_reports {s t : State} (h : t.sansReports = s.sansReports) : t.sansVerdicts = s.sansVerdicts := by
  unfold State.sansVerdicts
  rw [h]

theorem sansVerdicts_records {s t : State} (h : t.sansRecords = s.sansRecords) : t.sansVerdicts = s.sansVerdicts :=
  sansVerdicts_reports (sansReports_of _ _ h)

@[simp] theorem judgeSummary_sansVerdicts (s : State) : (judgeSummary s).sansVerdicts = s.sansVerdicts :=
  sansVerdicts_reports (judgeSummary_sansReports s)

@[simp] theorem coilsFollow_sansVerdicts (l : List Nat) (s : State) : (coilsFollow l s).sansVerdicts = s.sansVerdicts := by
  have hput (u : State) (cc : Nat) (c : Coil) : (coilPut u cc c).sansVerdicts = u.sansVerdicts := rfl
  have hcommand (u : State) (cc : Nat) (on : Bool) : (coilCommand u cc on).sansVerdicts = u.sansVerdicts := by
    have hgone (k : FaultKey) (v : State) : (causeGone v k).sansVerdicts = v.sansVerdicts := sansVerdicts_records (causeGone_sansRecords v k)
    simp [coilCommand, coilIdle, coilPick, apply_ite State.sansVerdicts, hput, hgone]
  unfold coilsFollow
  exact foldl_keeps State.sansVerdicts _ (fun u cc => by split_ifs <;> simp [hcommand]) _ s

@[simp] theorem zoneSnapshots_sansVerdicts (s : State) (z t : Nat) (i : SIndex) : (zoneSnapshots s z t i).sansVerdicts = s.sansVerdicts := by
  unfold zoneSnapshots zoneSnapshotsAt
  rw [foldl_keeps State.sansVerdicts _ (fun u _ => sansVerdicts_records (submitEntry_sansRecords u _))]

/-- A publication under another image, which is put back then (R34). -/
@[simp] theorem zoneChange_sansVerdicts (s : State) (z : Nat) (i : SIndex) : (zoneChange s z i).sansVerdicts = s.sansVerdicts := by
  have hpublished (u : State) : (if zEnabled u z then zoneChangeAt u z i (sampleTime (pipeRate u) i) else u).sansVerdicts = u.sansVerdicts := by
    split
    · exact sansVerdicts_reports (zoneChangeAt_sansReports u z i _)
    · rfl
  have himaged (u : State) (im : Option Rods) : ({ u with plug := { u.plug with image := im } } : State).sansVerdicts
      = { u.sansVerdicts with plug := { u.sansVerdicts.plug with image := im } } := rfl
  unfold zoneChange withNow
  split
  · exact hpublished s
  · dsimp only
    rw [himaged, hpublished, himaged]
    rfl

@[simp] theorem requestUrgent_sansVerdicts (s : State) (z : Nat) : (requestUrgent s z).sansVerdicts = s.sansVerdicts := by
  have hrequested (i : Nat) : (requestCheck s i).sansVerdicts = s.sansVerdicts := by
    unfold requestCheck
    split <;> rfl
  unfold requestUrgent
  split
  · rfl
  · split
    · rfl
    · dsimp only
      split
      · rfl
      · exact hrequested _

@[simp] theorem verdictChange_sansVerdicts (s : State) (z : Nat) (i : SIndex) (before : List Nat) (old new : Dataset) :
    (verdictChange s z i before old new).sansVerdicts = s.sansVerdicts := by
  have hentry (u : State) (e : Entry) : (journalEntry u e).sansVerdicts = u.sansVerdicts := sansVerdicts_records (journalEntry_sansRecords u e)
  have hunit (u : State) (t : Nat) (j : SIndex) : (unitSnapshots u t j).sansVerdicts = u.sansVerdicts :=
    sansVerdicts_records (unitSnapshots_sansRecords u t j)
  simp [verdictChange, apply_ite State.sansVerdicts, hentry, hunit]

@[simp] theorem recordTrigger_sansVerdicts (s : State) (z fired : Nat) (i : SIndex) : (recordTrigger s z fired i).sansVerdicts = s.sansVerdicts := by
  have hreopened (o : DrRecord) : (reopenRecord s o).sansVerdicts = s.sansVerdicts := by
    unfold reopenRecord
    split <;> rfl
  unfold recordTrigger
  dsimp only
  split
  · rfl
  · split
    · rfl
    · split
      · rfl
      · split
        · rfl
        · exact hreopened _

/-! The zone that settles (R473 to R480) -/

/-- The zone without its commands, its machines and its dataset: what trip command, 50BF and 79 leave of it. -/
def Zone.sansCommands (x : Zone) : Zone :=
  { x with
    trip := false, tripFor := 0, close := false, bf := .idle, bfC := 0, bfFalse := 0, bfCurrent := false
    ar := .open, arK := 0, arTimer := 0, lockRun := 0, ds := {} }

/-- Whatever these fields become, the rest of the zone stays. -/
theorem Zone.sansCommands_with (x : Zone) (trip close bfCurrent : Bool) (tripFor bfC bfFalse arK arTimer lockRun : Nat) (bf : BfState) (ar : ArState)
    (ds : Dataset) :
    ({ x with
        trip := trip, tripFor := tripFor, close := close, bf := bf, bfC := bfC, bfFalse := bfFalse, bfCurrent := bfCurrent
        ar := ar, arK := arK, arTimer := arTimer, lockRun := lockRun, ds := ds } : Zone).sansCommands = x.sansCommands := rfl

@[simp] theorem tripDrop_sansCommands (s : State) (v : Bool) (x : Zone) : (tripDrop s v x).sansCommands = x.sansCommands := by
  unfold tripDrop
  split <;> rfl

@[simp] theorem bfStep_sansCommands (s : State) (z n : Nat) (crit : Option Bool) (x : Zone) : (bfStep s z n crit x).sansCommands = x.sansCommands := by
  unfold bfStep
  split <;> simp only [apply_ite Zone.sansCommands, Zone.sansCommands_with, ite_self]

/-- The trip command rises or counts on, and may drop; with 50BF set its row of Table 12.4 applies, and the trip command may drop then. -/
theorem tripStep_sansCommands (c : ZoneCtx) (n : Nat) : (tripStep c n).1.sansCommands = c.x.sansCommands := by
  have hcurrent (x : Zone) (b : Bool) : ({ x with bfCurrent := b } : Zone).sansCommands = x.sansCommands := rfl
  have hrisen (rose : Bool) (k : Nat) :
      (if rose = true then { c.x with trip := true, tripFor := 0 } else { c.x with tripFor := k } : Zone).sansCommands = c.x.sansCommands := by
    split <;> rfl
  unfold tripStep
  dsimp only
  split
  · rw [tripDrop_sansCommands, hrisen]
  · rw [tripDrop_sansCommands, bfStep_sansCommands, hcurrent, tripDrop_sansCommands, hrisen]

/-- Each row of Table 12.5 writes fields of 79 and the close command alone. -/
theorem arStep_sansCommands (s : State) (z n : Nat) (rose bfEntered : Bool) (x : Zone) :
    (arStep s z n rose bfEntered x).1.sansCommands = x.sansCommands := by
  unfold arStep
  dsimp only
  split
  · rfl
  · split <;> simp only [lockOut, arEnter, apply_ite Prod.fst, apply_ite Zone.sansCommands, Zone.sansCommands_with, ite_self]

/-- The zone at the end of a wait: trip command, 50BF and 79 follow its elements, and its dataset follows them all. -/
def settledZone (s : State) (z : Nat) : Zone :=
  let t := tripStep (zoneCtx s z (zoneGet s z)) 0
  let a := if z79On (rods s) z then arStep s z 0 t.2.1 t.2.2 t.1 else (t.1, false)
  { a.1 with ds := datasetOf (zoneCtx s z a.1) }

theorem settledZone_sansCommands (s : State) (z : Nat) : (settledZone s z).sansCommands = (zoneGet s z).sansCommands := by
  have hds (x : Zone) (d : Dataset) : ({ x with ds := d } : Zone).sansCommands = x.sansCommands := rfl
  have htrip := tripStep_sansCommands (zoneCtx s z (zoneGet s z)) 0
  unfold settledZone
  dsimp only
  rw [hds]
  split
  · exact (arStep_sansCommands _ _ _ _ _ _).trans htrip
  · exact htrip

/-- Settling at the end of a wait stores the settled zone, and reaches nothing else beside what verdicts reach. -/
theorem settle_wait_sansVerdicts (s : State) (z : Nat) (i : SIndex) (b : Bool) :
    (settle s z 0 i b).sansVerdicts = (zonePut s z (settledZone s z)).sansVerdicts := by
  have hfailed (u : State) : (arise u (keyZ 0x3680 z) 0 none16 []).sansVerdicts = u.sansVerdicts :=
    sansVerdicts_records (arise_sansRecords u _ _ _ _ (by dsimp only [keyZ]; decide))
  simp [settle, settledZone, apply_ite State.sansVerdicts, hfailed]

end Sys2Proof.Machine
end

section
/-! The ends of the waits of elements, direction decisions and status (R423, R427, R434 to R436, R440, R457, R459, R470, R471). -/
namespace Sys2Proof.Machine

/-! The command of a wait -/

/-- A wait of zone z has ended with the zone as `y`, its commands, machines and dataset apart; other zones, streams and inputs stay. -/
structure WaitEnded (s : State) (z : Nat) (y : Zone) (t : State) : Prop where
  zone : (zoneGet t z).sansCommands = y.sansCommands
  zones : ∀ k, k ≠ z → zoneGet t k = zoneGet s k
  pipes : t.pipes = s.pipes
  streams : t.streams = s.streams
  field : t.field = s.field

namespace WaitEnded

variable {s t : State} {z : Nat} {y : Zone}

theorem els (h : WaitEnded s z y t) : (zoneGet t z).el = y.el := by have e := congrArg Zone.el h.zone; exact e
theorem dirs (h : WaitEnded s z y t) : (zoneGet t z).dir = y.dir := by have e := congrArg Zone.dir h.zone; exact e
theorem brk (h : WaitEnded s z y t) : (zoneGet t z).brk = y.brk := by have e := congrArg Zone.brk h.zone; exact e
theorem armed (h : WaitEnded s z y t) : (zoneGet t z).armed = y.armed := by have e := congrArg Zone.armed h.zone; exact e
theorem restore (h : WaitEnded s z y t) : (zoneGet t z).restore = y.restore := by have e := congrArg Zone.restore h.zone; exact e

theorem elGet_eq (h : WaitEnded s z y t) (k : Nat) : elGet (zoneGet t z) k = elGet y k := by simp only [elGet, h.els]
theorem dirGet_eq (h : WaitEnded s z y t) (k : Nat) : dirGet (zoneGet t z) k = dirGet y k := by simp only [dirGet, h.dirs]

end WaitEnded

/-- Zones lie beyond the reach of verdicts. -/
theorem zoneGet_verdicts (s : State) (k : Nat) : zoneGet s.sansVerdicts k = zoneGet s k := rfl

/-- The wait of a zone that serves ends: its effect is put into the zone, and the zone settles. -/
theorem zoneEvent_waitEnded {s : State} {z : Nat} (hserving : serving s = true) (henabled : zEnabled s z = true) (f : State → Zone → Zone) :
    WaitEnded s z (f s (zoneGet s z)) (zoneEvent z f s) := by
  have hframe : (zoneEvent z f s).sansVerdicts
      = (zonePut (zonePut s z (f s (zoneGet s z))) z (settledZone (zonePut s z (f s (zoneGet s z))) z)).sansVerdicts := by
    rw [zoneEvent, if_pos (by simp [hserving, henabled]), judgeSummary_sansVerdicts, settle_wait_sansVerdicts]
  have hzone (k : Nat) := congrArg (zoneGet · k) hframe
  have hpipes := congrArg State.pipes hframe
  have hstreams := congrArg State.streams hframe
  have hfield := congrArg State.field hframe
  refine ⟨?_, fun k hk => (hzone k).trans ?_, hpipes, hstreams, hfield⟩
  · refine (congrArg Zone.sansCommands (hzone z)).trans ?_
    rw [zoneGet_verdicts, zoneGet_zonePut, if_pos rfl, settledZone_sansCommands, zoneGet_zonePut, if_pos rfl]
  · rw [zoneGet_verdicts, zoneGet_zonePut, if_neg hk, zoneGet_zonePut, if_neg hk]

/-- A command that ends a wait completes with the wait's effect. -/
theorem answers_zoneEvent {c : Instr} {s : State} {z : Nat} {f : State → Zone → Zone} {p : State → Prop} (he : exec c s = run (zoneEvent z f) s)
    (hserving : serving s = true) (henabled : zEnabled s z = true) {y : Zone} (hy : f { s with out := [] } (zoneGet s z) = y)
    (h : ∀ t, WaitEnded s z y t → p t) : Answers c s p := by
  obtain ⟨hzone, hzones, hpipes, hstreams, hfield⟩ :=
    zoneEvent_waitEnded (s := { s with out := [] }) hserving henabled f
  exact answers_of_run he (h _ ⟨hzone.trans (congrArg Zone.sansCommands hy), hzones, hpipes, hstreams, hfield⟩)

/-! Elements and decisions read back -/

@[simp] theorem elGet_elPut (x : Zone) (n k : Nat) (e : El) : elGet (elPut x n e) k = if k = n then e else elGet x k := by
  simp [elGet, elPut]
@[simp] theorem dirGet_dirPut (x : Zone) (n k : Nat) (v : DirSt) : dirGet (dirPut x n v) k = if k = n then v else dirGet x k := by
  simp [dirGet, dirPut]

/-- What a wait leaves beside its zone. -/
theorem WaitEnded.others {s t : State} {z : Nat} {y : Zone} (h : WaitEnded s z y t) :
    (∀ k, k ≠ z → zoneGet t k = zoneGet s k) ∧ t.pipes = s.pipes ∧ t.streams = s.streams ∧ t.field = s.field :=
  ⟨h.zones, h.pipes, h.streams, h.field⟩

/-- A wait of element n: it becomes `e`, and the zone's other elements and decisions stay. -/
theorem WaitEnded.element {s t : State} {z n : Nat} {e : El} (h : WaitEnded s z (elPut (zoneGet s z) n e) t) :
    elGet (zoneGet t z) n = e ∧ (∀ k, k ≠ n → elGet (zoneGet t z) k = elGet (zoneGet s z) k) ∧ (zoneGet t z).dir = (zoneGet s z).dir
      ∧ (∀ k, k ≠ z → zoneGet t k = zoneGet s k) ∧ t.pipes = s.pipes ∧ t.streams = s.streams ∧ t.field = s.field :=
  ⟨by rw [h.elGet_eq, elGet_elPut, if_pos rfl], fun k hk => by rw [h.elGet_eq, elGet_elPut, if_neg hk], h.dirs, h.others⟩

/-- A wait of decision d: it becomes `v`, and the zone's other decisions and elements stay. -/
theorem WaitEnded.decision {s t : State} {z d : Nat} {v : DirSt} (h : WaitEnded s z (dirPut (zoneGet s z) d v) t) :
    dirGet (zoneGet t z) d = v ∧ (∀ k, k ≠ d → dirGet (zoneGet t z) k = dirGet (zoneGet s z) k) ∧ (zoneGet t z).el = (zoneGet s z).el
      ∧ (∀ k, k ≠ z → zoneGet t k = zoneGet s k) ∧ t.pipes = s.pipes ∧ t.streams = s.streams ∧ t.field = s.field :=
  ⟨by rw [h.dirGet_eq, dirGet_dirPut, if_pos rfl], fun k hk => by rw [h.dirGet_eq, dirGet_dirPut, if_neg hk], h.els, h.others⟩

/-! What each wait puts into the zone -/

section
variable {s : State} {z n d m : Nat} {x : Zone}

/-- The confirmation time of a raw direction has run (R434). -/
theorem confirmDirection_due (hon : decisionOn (rods s) z d = true) (havailable : (dirGet x d).unavailable = false)
    (hlatched : (dirGet x d).latched = false) (hrun : 0 < (dirGet x d).rawRun) :
    confirmDirection s z d x = dirPut x d { dirGet x d with confirmed := (dirGet x d).raw, rawRun := max (dirGet x d).rawRun (nHc s / 2) } :=
  if_pos (by simp [hon, havailable, hlatched, hrun])

/-- The memory goes; a direction confirmed by then stays latched (R435, R436). -/
theorem expireMemory_due {p : Int × Int × Int} (hmem : (dirGet x d).mem = some p) :
    expireMemory d x = dirPut x d { dirGet x d with
      mem := none, memLeft := 0, latched := (dirGet x d).latched || (dirGet x d).confirmed != .undecided } :=
  if_pos (by rw [hmem]; rfl)

/-- A frozen element reaches its limit: it is cleared, and stays frozen (R440). -/
theorem clearFrozen_due (hfrozen : (elGet x n).frozen ≠ 0) :
    clearFrozen s n x = elPut x n { frozen := max (elGet x n).frozen (pipeRate s) } :=
  if_neg hfrozen

/-- An element with a delay has started for all of it (R427, R459). -/
theorem expireDelay_due (hstart : elStart x n = true) (hdelay : elementDelay s z n = some d) :
    expireDelay s z n x = elPut x n { elGet x n with c := max (elGet x n).c d, operate := true } := by
  simp [expireDelay, hstart, hdelay]

/-- A definite-time integrator has no delay of its own: it counts by J (R421). -/
theorem elementDelay_of_definiteCurve (hcurve : definiteCurve (rods s) z n = true) : elementDelay s z n = none := by
  have hn : n ≤ 2 ∨ n = 6 ∨ n = 8 := by
    simp only [definiteCurve, Bool.and_eq_true, Bool.or_eq_true, decide_eq_true_eq, beq_iff_eq] at hcurve
    omega
  unfold elementDelay
  dsimp only
  rw [if_neg (by simp; omega), if_neg (by simp; omega), if_neg (by omega)]

/-- A definite-time integrator goes to its end (R421). -/
theorem expireDelay_definite (hstart : elStart x n = true) (hcurve : definiteCurve (rods s) z n = true) :
    expireDelay s z n x = elPut x n { elGet x n with j := 2 ^ 40 - 1, operate := true } := by
  simp [expireDelay, hstart, elementDelay_of_definiteCurve hcurve, hcurve]

/-- The reset delay of an element that has not started (R423). -/
theorem expireReset_due (hn : n ≤ 2 ∨ n = 6 ∨ n = 8) (hlow : 1 ≤ elemReset (rods s) z n) (hhigh : elemReset (rods s) z n ≤ 30)
    (hstarted : (elGet x n).started = false) (hfrozen : (elGet x n).frozen = 0) : expireReset s z n x = elPut x n {} :=
  if_pos (by simp [hlow, hhigh, hstarted, hfrozen, or_assoc, hn])

/-- An intermediate position has lasted too long (R457). -/
theorem expireIntermediate_due (hbrk : x.brk = .intermediate) :
    expireIntermediate s x = { x with brk := .bad, interm := max x.interm (pipeRate s + 1) } :=
  if_pos hbrk

/-- The breaker has been open for the cold time (R470). -/
theorem armCold_due (hclp : zClpOn (rods s) z = true) (hbrk : x.brk = .opened) :
    armCold s z x = { x with armed := true, openRun := coldTime s z + 1 } :=
  if_pos (by simp [hclp, hbrk])

/-- The restore time ends at once, or waits one sample for a known status (R470, R471). -/
theorem endCold_restore (x : Zone) : (endCold x).restore = if x.brk = .opened ∨ x.brk = .closed then 0 else min x.restore 1 := by
  simp [endCold, statusKnown]

end

/-- Settles O31: each command puts its wait's effect into the zone, and settling leaves elements, decisions, status and cold load. -/
theorem elementWaitsEnd : Obligations.ElementWaitsEnd := by
  unfold Obligations.ElementWaitsEnd
  intro s z hserving henabled
  refine ⟨fun d hon havailable hlatched hrun => ?_, fun d p hmem => ?_, fun e hfrozen => ?_, fun e d hstart hdelay => ?_,
    fun e hstart hcurve => ?_, fun e hn hlow hhigh hstarted hfrozen => ?_, fun hbrk => ?_, fun hclp hbrk => ?_, ?_⟩
  · refine answers_zoneEvent (execDirectionConfirmed.eq_def z d s) hserving henabled (confirmDirection_due hon havailable hlatched hrun)
      (fun t h => ?_)
    obtain ⟨hdecision, hrest⟩ := h.decision
    exact ⟨by rw [hdecision], hrest⟩
  · refine answers_zoneEvent (execMemoryExpiry.eq_def z d s) hserving henabled (expireMemory_due hmem) (fun t h => ?_)
    obtain ⟨hdecision, hrest⟩ := h.decision
    exact ⟨by rw [hdecision], by rw [hdecision], fun hdecided => by simp [hdecision, hdecided], hrest⟩
  · exact answers_zoneEvent (execFreezeLimit.eq_def z e s) hserving henabled (clearFrozen_due hfrozen) (fun t h => h.element)
  · exact answers_zoneEvent (execDefiniteDelayExpiry.eq_def z e s) hserving henabled (expireDelay_due hstart hdelay) (fun t h => h.element)
  · exact answers_zoneEvent (execDefiniteDelayExpiry.eq_def z e s) hserving henabled (expireDelay_definite hstart hcurve) (fun t h => h.element)
  · exact answers_zoneEvent (execDefiniteResetExpiry.eq_def z e s) hserving henabled (expireReset_due hn hlow hhigh hstarted hfrozen)
      (fun t h => h.element)
  · exact answers_zoneEvent (execIntermediateTimeout.eq_def z s) hserving henabled (expireIntermediate_due hbrk)
      (fun t h => ⟨h.brk, h.els, h.dirs, h.others⟩)
  · exact answers_zoneEvent (execColdLoadArmed.eq_def z s) hserving henabled (armCold_due hclp hbrk)
      (fun t h => ⟨h.armed, h.els, h.dirs, h.others⟩)
  · exact answers_zoneEvent (execColdLoadEnd.eq_def z s) hserving henabled rfl
      (fun t h => ⟨h.restore.trans (endCold_restore _), h.els, h.dirs, h.others⟩)

end Sys2Proof.Machine
end

section
/-! The queue: a step takes its front command, and a command stops exactly where its operands are ill-formed (log 1). -/
namespace Sys2Proof.Machine

/-- Settles O1: a step on a queue that is not empty is its front command's meaning. -/
theorem stepRunsFront : Obligations.StepRunsFront := by
  intro c rest s h
  simp only [step, h]

/-- Every command has one effect, which runs where its operands are well-formed. -/
theorem exec_eq_runIf (c : Instr) (s : State) : ∃ f, exec c s = runIf (WellFormed c) f s := by
  cases c <;> exact ⟨_, rfl⟩

/-- A command whose operands the hardware can bring completes, and leaves the queue as it was. -/
theorem exec_of_wellFormed {c : Instr} (h : WellFormed c = true) (s : State) : ∃ t, exec c s = .next t ∧ t.pending = s.pending := by
  obtain ⟨f, he⟩ := exec_eq_runIf c s
  exact ⟨_, he.trans (runIf_next f s _ h), rfl⟩

/-- A command whose operands the hardware cannot bring stops. -/
theorem exec_of_not_wellFormed {c : Instr} (h : WellFormed c = false) (s : State) : exec c s = .fault .illFormed := by
  obtain ⟨f, he⟩ := exec_eq_runIf c s
  rw [he, h]
  rfl

/-- Settles O3: the outcome of each command follows its operands alone, and completing leaves the queue's rest. -/
theorem queueNeverStops : Obligations.QueueNeverStops := by
  refine ⟨fun c s => ?_, fun s hpending => ?_⟩
  · cases hc : WellFormed c with
    | false => simp [exec_of_not_wellFormed hc s]
    | true =>
      obtain ⟨t, he, -⟩ := exec_of_wellFormed hc s
      simp [he]
  · cases hq : s.pending with
    | nil =>
      have hstep : step s = idle s := by simp only [step, hq]
      have hidle : { judgeSummary (tick { s with out := [] }) with pending := s.pending }.pending = [] := hq
      exact ⟨_, hstep.trans (run_next _ s), hidle, fun c hc => by rw [hidle] at hc; exact absurd hc List.not_mem_nil⟩
    | cons c rest =>
      obtain ⟨t, he, ht⟩ := exec_of_wellFormed (hpending c (by simp [hq])) { s with pending := rest }
      refine ⟨t, (stepRunsFront c rest s hq).trans he, ht, fun d hd => hpending d ?_⟩
      rw [ht] at hd
      exact hq ▸ List.mem_cons_of_mem c hd

end Sys2Proof.Machine
end

section
/-! Erases of every key slot: the hatch, the mesh, its monitor, and a failed read-back (R754 to R758, R784, R785). -/
namespace Sys2Proof.Machine

/-- From `s` to `t` the seal stays but for key slots that a read found corrupt and emptied (R750, R783). -/
structure SealKept (s t : State) : Prop where
  rest : { t.sealSt with keys := [] } = { s.sealSt with keys := [] }
  keys : OnlyEmpties s t

namespace SealKept

variable {s t u : State}

theorem refl (s : State) : SealKept s s := ⟨rfl, .refl s⟩
theorem of_seal (h : t.sealSt = s.sealSt) : SealKept s t := ⟨by rw [h], .of_seal h⟩
theorem of_records (h : t.sansRecords = s.sansRecords) : SealKept s t := of_seal (keeps_sealSt h)
theorem of_reports (h : t.sansReports = s.sansReports) (k : OnlyEmpties s t) : SealKept s t :=
  ⟨by have e := congrArg State.sealSt h; exact e, k⟩
theorem trans (h : SealKept s t) (k : SealKept t u) : SealKept s u := ⟨k.rest.trans h.rest, h.keys.trans k.keys⟩

/-- With no slot loaded the seal stays as it is. -/
theorem eq_of_no_keys (h : SealKept s t) (hs : s.sealSt.keys = []) : t.sealSt = s.sealSt := by
  have ht := h.keys.empty hs
  calc t.sealSt = { t.sealSt with keys := [] } := by rw [← ht]
    _ = { s.sealSt with keys := [] } := h.rest
    _ = s.sealSt := by rw [← hs]

end SealKept

theorem judgeSummary_sealKept (s : State) : SealKept s (judgeSummary s) := .of_reports (judgeSummary_sansReports s) (judgeSummary_empties s)
theorem keysChanged_sealKept (s : State) : SealKept s (keysChanged s) := .of_reports (keysChanged_sansReports s) (keysChanged_empties s)
theorem portStops_sealKept (s : State) : SealKept s (portStops s) := .of_records (portStops_sansRecords s)
theorem eraseEntry_sealKept (s : State) (d : Nat) : SealKept s (eraseEntry s d) := .of_records (journalEntry_sansRecords _ _)

/-- A fault below Withdraw leaves the seal. -/
theorem judgeFault_sealKept (s : State) {k : FaultKey} (hk : max (faultRow k.code).2.1 (faultRow k.code).1 < 4) (det hdl : Nat) (b : Bool) :
    SealKept s (judgeFault s k det hdl b) := .of_records (judgeFault_sansRecords s k det hdl b hk)

theorem keysChanged_steady (s : State) : steady (keysChanged s) = steady s := by
  unfold keysChanged
  split
  · exact authChanged_steady s
  · rfl

/-- What reacts goes on reacting while keys and the summary are judged. -/
theorem reacts_keysChanged {s : State} {k : FaultKey} {l : Nat} (hb : bookkept k = false) (h : Reacts s k l) :
    Reacts (judgeSummary (keysChanged s)) k l := by
  refine reacts_judgeSummary hb ?_
  unfold Reacts
  rw [faultGet_of_steady (keysChanged_steady s) k hb]
  exact h

/-- A Clear fault of a plain row that is judged present reacts. -/
theorem reacts_judgeFault {s : State} {k : FaultKey} {l : Nat} (h : faultGet s k = none) (hk : plainRow k l = true) (det hdl : Nat) :
    Reacts (judgeFault s k det hdl true) k l := by
  rw [judgeFault_clear h]
  exact reacts_arise_row h hk det hdl []

/-- The seal as an open hatch leaves it. -/
def hatchSeal (s : State) : Seal :=
  { s.sealSt with
    keys := [], staging := 0, result := 0, hatchOpen := true, erased := true, heldOff := false, live := false, busy := false
    evHatch := s.sealSt.evHatch || !coreReads s }

theorem hatchOpened_sealSt (s : State) : (judgeSummary (hatchOpened s)).sealSt = hatchSeal s := by
  have kept : SealKept { s with sealSt := hatchSeal s } (judgeSummary (hatchOpened s)) := by
    refine .trans ?_ (judgeSummary_sealKept _)
    unfold hatchOpened
    dsimp only
    split
    next hreads =>
      have hreads : coreReads s = true := hreads
      refine .trans (.trans (.trans (.of_seal ?_) (portStops_sealKept _)) (eraseEntry_sealKept _ 0)) (keysChanged_sealKept _)
      simp [hatchSeal, hreads, zeroSlots]
    next hreads =>
      have hreads : coreReads s = false := Bool.eq_false_of_not_eq_true hreads
      refine .trans (.of_seal ?_) (keysChanged_sealKept _)
      simp [hatchSeal, hreads, zeroSlots]
  exact kept.eq_of_no_keys rfl

/-- The seal as a mesh event leaves it. -/
def meshSeal (s : State) : Seal :=
  { s.sealSt with
    keys := [], staging := 0, result := 0, meshOk := false, latch := true, live := false, busy := false, erased := s.sealSt.hatchOpen
    evMesh := s.sealSt.evMesh || !coreReads s }

theorem meshEvent_sealSt (s : State) : (judgeSummary (meshEvent s)).sealSt = meshSeal s := by
  have kept : SealKept { s with sealSt := meshSeal s } (judgeSummary (meshEvent s)) := by
    refine .trans ?_ (judgeSummary_sealKept _)
    unfold meshEvent
    dsimp only
    split
    next hreads =>
      have hreads : coreReads s = true := hreads
      refine .trans (.trans (.trans (.trans (.of_seal ?_) (portStops_sealKept _)) (eraseEntry_sealKept _ 1))
        (judgeFault_sealKept _ (by decide) 0 none16 true)) (keysChanged_sealKept _)
      simp [meshSeal, hreads, zeroSlots]
    next hreads =>
      have hreads : coreReads s = false := Bool.eq_false_of_not_eq_true hreads
      refine .trans (.of_seal ?_) (keysChanged_sealKept _)
      simp [meshSeal, hreads, zeroSlots]
  exact kept.eq_of_no_keys rfl

/-- A fault that portStops and an entry do not touch is Clear behind them. -/
theorem clear_after_erase {s : State} {k : FaultKey} (h : faultGet s k = none) (hb : bookkept k = false) (hk : keyNum k ≠ keyNum (keyU 0x0A40))
    (d : Nat) : faultGet (eraseEntry (portStops s) d) k = none := by
  rw [eraseEntry, faultGet_of_steady (journalEntry_steady _ _) k hb, portStops_other s hk, h]

/-- The mesh fault reacts where the core reads the event (Table 20.10). -/
theorem meshEvent_reacts {s : State} (hreads : coreReads s = true) (hclear : faultGet s (keyU 0x0A00) = none) :
    Reacts (judgeSummary (meshEvent s)) (keyU 0x0A00) 2 := by
  have hevent : meshEvent s = keysChanged (judgeFault (eraseEntry (portStops { zeroSlots s with sealSt := { (zeroSlots s).sealSt with
      meshOk := false, latch := true, live := false, busy := false, erased := s.sealSt.hatchOpen } }) 1) (keyU 0x0A00) 0 none16 true) :=
    if_pos hreads
  rw [hevent]
  refine reacts_keysChanged (by decide) (reacts_judgeFault (clear_after_erase ?_ (by decide) (by decide) 1) (by decide) 0 none16)
  exact hclear

/-- A mesh event: the seal it leaves, and the fault or the event register's flag (R755 to R757). -/
theorem meshEvent_tampers (s : State) :
    let t := judgeSummary (meshEvent s)
    t.sealSt.keys = [] ∧ t.sealSt.staging = 0 ∧ t.sealSt.result = 0 ∧ t.sealSt.latch = true ∧ t.sealSt.meshOk = false ∧ t.sealSt.live = false
      ∧ (coreReads s = true → faultGet s (keyU 0x0A00) = none → Reacts t (keyU 0x0A00) 2) ∧ (coreReads s = false → t.sealSt.evMesh = true) := by
  dsimp only
  rw [meshEvent_sealSt]
  exact ⟨rfl, rfl, rfl, rfl, rfl, rfl, meshEvent_reacts, fun hreads => by simp [meshSeal, hreads]⟩

/-- The seal as a failed read-back leaves it. -/
def unerasedSeal (s : State) : Seal := { s.sealSt with keys := [], heldOff := true, latch := true, live := false, busy := false }

/-- The mesh fault of a failed read-back, where the core reads the events (R785). -/
def readbackFault (s : State) : State := if coreReads s then judgeFault (portStops s) (keyU 0x0A00) 0 none16 true else s

theorem readbackFault_sealKept (s : State) : SealKept s (readbackFault s) := by
  unfold readbackFault
  split
  · exact (portStops_sealKept s).trans (judgeFault_sealKept _ (by decide) 0 none16 true)
  · exact .refl s

theorem readbackFault_reacts {s : State} (hreads : coreReads s = true) (hclear : faultGet s (keyU 0x0A00) = none) :
    Reacts (readbackFault s) (keyU 0x0A00) 2 := by
  rw [readbackFault, if_pos hreads]
  exact reacts_judgeFault ((portStops_other s (by decide)).trans hclear) (by decide) 0 none16

/-- The hatch's own fault follows the report (R758). -/
def hatchFault (s : State) (isOpen : Bool) : State := if coreReads s then judgeFault s (keyU 0x09C0) 0 none16 isOpen else s

theorem hatchFault_sealKept (s : State) (isOpen : Bool) : SealKept s (hatchFault s isOpen) := by
  unfold hatchFault
  split
  · exact judgeFault_sealKept s (by decide) 0 none16 isOpen
  · exact .refl s

/-- A reported opening is a fault that reacts, where the core reads it (Table 20.10). -/
theorem hatchFault_reacts {s : State} (hreads : coreReads s = true) (hclear : faultGet s (keyU 0x09C0) = none) :
    Reacts (judgeSummary (portStops (hatchFault s true))) (keyU 0x09C0) 2 := by
  refine reacts_judgeSummary (by decide) ?_
  unfold Reacts
  rw [portStops_other _ (by decide), hatchFault, if_pos hreads]
  exact reacts_judgeFault hclear (by decide) 0 none16

/-- The seal as a report of the hatch leaves it. -/
def reportSeal (s : State) (isOpen : Bool) : Seal :=
  { s.sealSt with hatchReported := isOpen, hatchOpen := isOpen, erased := s.sealSt.erased && isOpen, live := s.sealSt.live && isOpen }

theorem answers_hatchReport {s : State} {isOpen : Bool} {p : State → Prop} (hd0 : d0Powered s = true)
    (h : p { judgeSummary (portStops (hatchFault { cleanRead { s with out := [] } with sealSt := reportSeal s isOpen } isOpen)) with pending := s.pending }) :
    Answers (.hatchReport isOpen) s p :=
  answers_of_run (execHatchReport.eq_def isOpen s) (by
    rw [if_neg (by simpa using show d0Powered { s with out := [] } = true from hd0)]
    exact h)

/-- The report's effect leaves the seal as the report gives it, key slots apart. -/
theorem hatchReport_sealKept (s u : State) (isOpen : Bool) (hu : u.sealSt = reportSeal s isOpen) :
    { (judgeSummary (portStops (hatchFault u isOpen))).sealSt with keys := [] } = { reportSeal s isOpen with keys := [] } := by
  have kept := ((hatchFault_sealKept u isOpen).trans (portStops_sealKept _)).trans (judgeSummary_sealKept _)
  rw [kept.rest, hu]

/-- Settles O52: each erase leaves the seal that its `def` above gives; the faults react where the core reads the events. -/
theorem sealErases : Obligations.SealErases := by
  unfold Obligations.SealErases
  dsimp only
  refine ⟨fun s hd0 => ?_, fun s hd0 => ?_, fun s hrun => ?_, fun s => ?_, fun s hd0 => ?_, fun s hd0 => ?_, fun s hd0 => ?_⟩
  · refine answers_of_guard (b := d0Powered) (execHatchOpened.eq_def s) hd0 ?_
    have hseal := hatchOpened_sealSt (cleanRead { s with out := [] })
    refine ⟨congrArg Seal.keys hseal, congrArg Seal.staging hseal, congrArg Seal.result hseal, congrArg Seal.hatchOpen hseal,
      congrArg Seal.live hseal, (congrArg Seal.latch hseal).trans rfl, fun hreads => (congrArg Seal.evHatch hseal).trans ?_⟩
    rw [hatchSeal, show coreReads (cleanRead { s with out := [] }) = false from hreads]
    exact Bool.or_true _
  · exact answers_of_guard (b := d0Powered) (execMeshEvent.eq_def s) hd0 (meshEvent_tampers (cleanRead { s with out := [] }))
  · refine answers_of_run (execMeshMonitorTest.eq_def false s) ?_
    rw [if_pos (by simpa using show coreRuns { s with out := [] } = true from hrun)]
    exact meshEvent_tampers { s with out := [] }
  · exact answers_of_run (execMeshMonitorTest.eq_def true s) (by simp)
  · refine answers_of_run (execEraseReadbackFailure.eq_def s) ?_
    rw [if_neg (by simpa using show d0Powered { s with out := [] } = true from hd0)]
    have kept := fun u => ((readbackFault_sealKept u).trans (keysChanged_sealKept _)).trans (judgeSummary_sealKept _)
    have hseal := (kept { s with out := [], sealSt := unerasedSeal s }).eq_of_no_keys rfl
    refine ⟨congrArg Seal.keys hseal, congrArg Seal.heldOff hseal, congrArg Seal.latch hseal, congrArg Seal.live hseal, fun hreads hclear => ?_⟩
    exact reacts_keysChanged (by decide) (readbackFault_reacts hreads hclear)
  · refine answers_hatchReport hd0 ?_
    have hseal := hatchReport_sealKept s { cleanRead { s with out := [] } with sealSt := reportSeal s true } true rfl
    refine ⟨congrArg Seal.hatchReported hseal, (congrArg Seal.live hseal).trans (Bool.and_true _), fun hreads hclear => hatchFault_reacts hreads hclear⟩
  · refine answers_hatchReport hd0 ?_
    have hseal := hatchReport_sealKept s { cleanRead { s with out := [] } with sealSt := reportSeal s false } false rfl
    exact ⟨congrArg Seal.hatchReported hseal, congrArg Seal.hatchOpen hseal, (congrArg Seal.live hseal).trans (Bool.and_false _)⟩

end Sys2Proof.Machine
end

section
/-! Key slots whose parity is right: reads leave them, whatever else they empty (R750, R783). -/
namespace Sys2Proof.Machine

/-- Each slot of `s` that a read finds whole is in `t` as it was. -/
def WholeKept (s t : State) : Prop := ∀ n k, k.par = parBits k.key k.kcv → keySlot s n = some k → keySlot t n = some k

namespace WholeKept

variable {s t u : State}

theorem refl (s : State) : WholeKept s s := fun _ _ _ h => h
theorem of_seal (h : t.sealSt = s.sealSt) : WholeKept s t := fun n k _ hs => by
  unfold keySlot at *
  rw [h]
  exact hs
theorem of_records (h : t.sansRecords = s.sansRecords) : WholeKept s t := of_seal (keeps_sealSt h)
theorem pub (s : State) (p : Publisher) : WholeKept s { s with pub := p } := refl s
theorem trans (h : WholeKept s t) (k : WholeKept t u) : WholeKept s u := fun n x hx hs => k n x hx (h n x hx hs)
theorem foldl {α : Type} {f : State → α → State} (h : ∀ s x, WholeKept s (f s x)) : ∀ (l : List α) (s : State), WholeKept s (l.foldl f s)
  | [], s => refl s
  | x :: l, s => (h s x).trans (foldl h l (f s x))

end WholeKept

open WholeKept

theorem keySlot_emptySlot (s : State) (n m : Nat) : keySlot (emptySlot s n) m = if m = n then none else keySlot s m := by
  unfold keySlot emptySlot
  dsimp only
  rw [find_erase]
  split <;> rfl

theorem readKey_whole (s : State) (n : Nat) : WholeKept s (readKey s n).1 := by
  unfold readKey
  split
  · exact refl s
  next k hk =>
    split
    · exact refl s
    next hbad =>
      have emptied : WholeKept s (emptySlot s n) := fun m x hx hs => by
        rw [keySlot_emptySlot, if_neg]
        · exact hs
        · rintro rfl
          rw [hk, Option.some.injEq] at hs
          exact hbad (hs ▸ hx)
      dsimp only
      exact (emptied.trans (of_records (journalEntry_sansRecords _ _))).trans (of_records (judgeKeys_sansRecords _))

theorem gooseKey_whole (s : State) (z : Bool) : WholeKept s (gooseKey s z).1 := by
  unfold gooseKey
  split
  · exact refl s
  next n _ =>
    dsimp only
    split <;> exact readKey_whole s n

theorem sendSummary_whole (s : State) (l : List Byte) : WholeKept s (sendSummary s l) := by
  unfold sendSummary
  dsimp only
  split
  · exact (gooseKey_whole s false).trans (of_seal (sendStation_sealSt _ _))
  · exact gooseKey_whole s false

theorem releaseSummary_whole (s : State) : WholeKept s (releaseSummary s) := by
  unfold releaseSummary
  dsimp only
  refine (pub s _).trans (foldl (fun u f => ?_) _ _)
  split
  · exact sendSummary_whole u _
  · exact refl u

theorem handGoose_whole (s : State) (p st : Nat) (c : Bool) (l : List Byte) : WholeKept s (handGoose s p st c l) := by
  unfold handGoose
  split
  · split
    · exact of_seal (enqueue_sealSt s _)
    · split
      · exact of_seal rfl
      · exact refl s
  · exact (pub s _).trans (releaseSummary_whole _)

theorem zoneChangeNow_whole (s : State) (z : Nat) : WholeKept s (zoneChangeNow s z) := by
  unfold zoneChangeNow zoneChangeAt
  dsimp only
  split
  · exact of_seal (pubSet_sealSt s _ _ _ _ _ _ _ _ _)
  · exact (of_seal (pubSet_sealSt s _ _ _ _ _ _ _ _ _)).trans (handGoose_whole _ _ _ _ _)

theorem summaryChange_whole (s : State) : WholeKept s (summaryChange s) := by
  unfold summaryChange
  dsimp only
  exact ((pub s _).trans (of_seal (pubSet_sealSt _ _ _ _ _ _ _ _ _ _))).trans (handGoose_whole _ _ _ _ _)

theorem judgeSummary_whole (s : State) : WholeKept s (judgeSummary s) := by
  unfold judgeSummary
  split
  · exact summaryChange_whole s
  · exact refl s

theorem keysChanged_whole (s : State) : WholeKept s (keysChanged s) := by
  have summed (u : State) : WholeKept u (if summaryRuns u then summaryChange u else u) := by
    split
    · exact summaryChange_whole u
    · exact refl u
  have zoned (u : State) (b : Bool) (l : List Nat) : WholeKept u (if b then l.foldl zoneChangeNow u else u) := by
    split
    · exact foldl zoneChangeNow_whole l u
    · exact refl u
  have stopped (b : Bool) : WholeKept s { judgeKeys s with pub := { (judgeKeys s).pub with stopped := b } } :=
    (of_records (judgeKeys_sansRecords s)).trans (pub _ _)
  unfold keysChanged authChanged
  dsimp only
  split
  · split
    · exact ((stopped _).trans (zoned _ _ _)).trans (summed _)
    · exact stopped _
  · exact refl s

end Sys2Proof.Machine
end

section
/-! Transactions of the key loader port: applied, discarded, and read out on KL_DOUT (R760, R762 to R769, R775, Tables 20.5 to 20.8). -/
namespace Sys2Proof.Machine

/-- What the loader reads: the result word while the port is not busy, low else and behind it (R764). -/
theorem shiftOut_out {s : State} (x : KlTransaction) (hlive : s.sealSt.live = true) :
    .klDout ((List.range x.bits.length).map (fun n => !s.sealSt.busy && decide (n < 32) && s.sealSt.result.getLsbD (31 - n))) ∈ (shiftOut s x).out := by
  have hlevel (n : Nat) : (klDoutLevel s false n).getD false = (!s.sealSt.busy && decide (n < 32) && s.sealSt.result.getLsbD (31 - n)) := by
    cases hbusy : s.sealSt.busy <;> simp [klDoutLevel, hlive, hbusy]
  simp [shiftOut, emit, hlevel]

/-- The state of a port that is judging a transaction. -/
def clocked (s : State) (x : KlTransaction) : State :=
  { shiftOut s x with sealSt := { s.sealSt with busy := true, ignoring := false } }

section
variable {s : State} {x : KlTransaction}

theorem transaction_failed {c : Nat} {early : Bool} (hlive : s.sealSt.live = true) (hbusy : s.sealSt.busy = false)
    (hfails : klFails x = some (c, early)) :
    transaction s x = discardTransaction (clocked s x) (some (klResult c (if early then 0 else klSlot x) 0)) := by
  simp [transaction, hlive, hbusy, hfails, clocked, shiftOut]

theorem transaction_passed (hlive : s.sealSt.live = true) (hbusy : s.sealSt.busy = false) (hfails : klFails x = none) :
    transaction s x = if klCode x = 1 then applyLoad (clocked s x) x
      else if klCode x = 2 then applyErase (clocked s x) x else applyCheck (clocked s x) x := by
  simp [transaction, hlive, hbusy, hfails, clocked, shiftOut]

theorem transaction_busy (hlive : s.sealSt.live = true) (hbusy : s.sealSt.busy = true) :
    transaction s x = discardTransaction (shiftOut s x) (some (klResult 0xD (if x.bits.length < 64 then 0 else klSlot x) 0)) := by
  simp [transaction, hlive, hbusy, shiftOut]

end

/-- The seal as a discarded transaction leaves it. -/
def discardSeal (s : State) (r : Option (BitVec 32)) : Seal :=
  { s.sealSt with
    staging := 0, result := r.getD s.sealSt.result
    discards := if coreReads s then s.sealSt.discards else min 255 (s.sealSt.discards + 1) }

theorem discardTransaction_eq (s : State) (r : Option (BitVec 32)) : discardTransaction s r
    = if coreReads s then ariseU { s with sealSt := discardSeal s r } 0x0A40 0 else { s with sealSt := discardSeal s r } := rfl

/-- The slot that a LOAD writes (R768). -/
def loadedSlot (x : KlTransaction) : KeySlot :=
  { key := klKey x, kcv := kcvOf (klKey x), par := parBits (klKey x) (kcvOf (klKey x)) }

/-- The seal as a LOAD leaves it. -/
def loadSeal (s : State) (x : KlTransaction) : Seal :=
  { s.sealSt with
    keys := Tab.insert s.sealSt.keys (klSlot x) (loadedSlot x)
    result := klResult 1 (klSlot x) (kcvOf (klKey x)).toNat, staging := 0, latch := s.sealSt.latch && !(s.sealSt.latch && s.sealSt.meshOk)
    loadMap := if coreReads s then s.sealSt.loadMap else s.sealSt.loadMap ||| BitVec.ofNat 16 (2 ^ klSlot x) }

/-- A LOAD with its entry, where the core reads the events (R774). -/
def loadEntered (s : State) (x : KlTransaction) : State :=
  if coreReads s then journalEntry { s with sealSt := loadSeal s x } (sealEntry { s with sealSt := loadSeal s x } (0x0800 + klSlot x) (klSlot x)
    (kcvOf (klKey x)).toNat 0 0 0) else { s with sealSt := loadSeal s x }

theorem applyLoad_eq (s : State) (x : KlTransaction) : applyLoad s x = keysChanged
    (if s.sealSt.latch && s.sealSt.meshOk && coreReads (loadEntered s x) then causeGoneU (loadEntered s x) 0x0A00 else loadEntered s x) := rfl

/-- A result word is ready, and the staging buffer zero (R764, R765). -/
def withResult (s : State) (r : BitVec 32) : State := { s with sealSt := { s.sealSt with result := r, staging := 0 } }

theorem withResult_latch (s : State) (r : BitVec 32) : (withResult s r).sealSt.latch = s.sealSt.latch := rfl
theorem withResult_result (s : State) (r : BitVec 32) : (withResult s r).sealSt.result = r := rfl

theorem emptySlot_latch (s : State) (n : Nat) : (emptySlot s n).sealSt.latch = s.sealSt.latch := rfl
theorem emptySlot_result (s : State) (n : Nat) : (emptySlot s n).sealSt.result = s.sealSt.result := rfl

theorem withResult_wire (s : State) (r : BitVec 32) : (withResult s r).wire = s.wire := rfl
theorem emptySlot_wire (s : State) (n : Nat) : (emptySlot s n).wire = s.wire := rfl

/-- The state as an ERASE leaves it, its entry apart. -/
def erased (s : State) (x : KlTransaction) : State := emptySlot (withResult s (klResult 2 (klSlot x) 0)) (klSlot x)

theorem erased_latch (s : State) (x : KlTransaction) : (erased s x).sealSt.latch = s.sealSt.latch := by
  rw [erased, emptySlot_latch, withResult_latch]

theorem erased_wire (s : State) (x : KlTransaction) : (erased s x).wire = s.wire := by
  rw [erased, emptySlot_wire, withResult_wire]

theorem erased_result (s : State) (x : KlTransaction) : (erased s x).sealSt.result = klResult 2 (klSlot x) 0 := by
  rw [erased, emptySlot_result, withResult_result]

theorem applyErase_eq (s : State) (x : KlTransaction) : applyErase s x = keysChanged
    (if coreReads (erased s x) then journalEntry (erased s x) (sealEntry (erased s x) (0x0840 + klSlot x) (klSlot x)
      (((keySlot s (klSlot x)).map (fun k => k.kcv.toNat)).getD 0) 0 0 0) else erased s x) := rfl

/-! What each of them sends -/

theorem keysChanged_sends (s : State) : Sends s (keysChanged s) := by
  unfold keysChanged
  split
  · exact authChanged_sends s
  · exact .refl s

theorem discardTransaction_sends (s : State) (r : Option (BitVec 32)) : Sends s (discardTransaction s r) := by
  rw [discardTransaction_eq]
  split
  · exact .after (arise_sends { s with sealSt := discardSeal s r } (keyU 0x0A40) 0 none16 [] (by decide)) rfl
  · exact .of_wire rfl

theorem applyLoad_sends (s : State) (x : KlTransaction) : Sends s (applyLoad s x) := by
  have entered : Sends s (loadEntered s x) := by
    unfold loadEntered
    split
    · exact .after (journalEntry_sends { s with sealSt := loadSeal s x } _) rfl
    · exact .of_wire rfl
  rw [applyLoad_eq]
  refine .trans ?_ (keysChanged_sends _)
  split
  · exact entered.trans (causeGone_sends _ _)
  · exact entered

theorem applyErase_sends (s : State) (x : KlTransaction) : Sends s (applyErase s x) := by
  rw [applyErase_eq]
  refine .trans ?_ (keysChanged_sends _)
  split
  · exact .after (journalEntry_sends (erased s x) _) (erased_wire s x)
  · exact .of_wire (erased_wire s x)

/-- Whatever comes of a transaction of a live port, what was clocked out has left. -/
theorem transaction_sends {s : State} (x : KlTransaction) (hlive : s.sealSt.live = true) : Sends (shiftOut s x) (transaction s x) := by
  cases hbusy : s.sealSt.busy with
  | true =>
    rw [transaction_busy hlive hbusy]
    exact discardTransaction_sends _ _
  | false =>
    cases hfails : klFails x with
    | some f =>
      rw [transaction_failed hlive hbusy hfails]
      exact .after (discardTransaction_sends _ _) rfl
    | none =>
      rw [transaction_passed hlive hbusy hfails]
      split
      · exact .after (applyLoad_sends _ _) rfl
      · split
        · exact .after (applyErase_sends _ _) rfl
        · exact .of_wire rfl

/-! What each of them leaves of the seal -/

theorem discardTransaction_sealKept (s : State) (r : Option (BitVec 32)) :
    SealKept { s with sealSt := discardSeal s r } (judgeSummary (discardTransaction s r)) := by
  refine .trans ?_ (judgeSummary_sealKept _)
  rw [discardTransaction_eq]
  split
  · exact .of_records (arise_sansRecords _ (keyU 0x0A40) 0 none16 [] (by decide))
  · exact .refl _

/-- The core's fault of a discarded transaction (Table 20.10). -/
theorem discardTransaction_reacts {s : State} (r : Option (BitVec 32)) (hreads : coreReads s = true) (hclear : faultGet s (keyU 0x0A40) = none) :
    Reacts (judgeSummary (discardTransaction s r)) (keyU 0x0A40) 1 := by
  rw [discardTransaction_eq, if_pos hreads]
  exact reacts_judgeSummary (by decide) (reacts_arise_row (s := { s with sealSt := discardSeal s r }) (k := keyU 0x0A40) hclear (by decide) 0 none16 [])

theorem keySlot_loadSeal (s : State) (x : KlTransaction) : keySlot { s with sealSt := loadSeal s x } (klSlot x) = some (loadedSlot x) := by
  simp [keySlot, loadSeal, find_insert]

/-- A LOAD's entry and the end of the mesh fault leave the seal; then keys and the summary are judged. -/
theorem applyLoad_keeps (s : State) (x : KlTransaction) : ∃ u : State, u.sealSt = loadSeal s x ∧ applyLoad s x = keysChanged u := by
  have entered : (loadEntered s x).sealSt = loadSeal s x := by
    unfold loadEntered
    split
    · exact keeps_sealSt (journalEntry_sansRecords _ _)
    · rfl
  refine ⟨_, ?_, applyLoad_eq s x⟩
  split
  · exact (keeps_sealSt (causeGoneU_sansRecords _ _)).trans entered
  · exact entered

theorem applyLoad_sealKept (s : State) (x : KlTransaction) : SealKept { s with sealSt := loadSeal s x } (judgeSummary (applyLoad s x)) := by
  obtain ⟨u, hu, happly⟩ := applyLoad_keeps s x
  rw [happly]
  exact ((SealKept.of_seal hu).trans (keysChanged_sealKept u)).trans (judgeSummary_sealKept _)

theorem applyLoad_keySlot (s : State) (x : KlTransaction) : keySlot (judgeSummary (applyLoad s x)) (klSlot x) = some (loadedSlot x) := by
  obtain ⟨u, hu, happly⟩ := applyLoad_keeps s x
  have whole : WholeKept { s with sealSt := loadSeal s x } (judgeSummary (keysChanged u)) :=
    (WholeKept.of_seal hu).trans ((keysChanged_whole u).trans (judgeSummary_whole _))
  rw [happly]
  exact whole (klSlot x) (loadedSlot x) rfl (keySlot_loadSeal s x)

theorem applyErase_sealKept (s : State) (x : KlTransaction) : SealKept (erased s x) (judgeSummary (applyErase s x)) := by
  rw [applyErase_eq]
  refine .trans (.trans ?_ (keysChanged_sealKept _)) (judgeSummary_sealKept _)
  split
  · exact .of_records (journalEntry_sansRecords _ _)
  · exact .refl _

/-- A slot that is empty stays so, whatever a read empties besides. -/
theorem keySlot_of_onlyEmpties {s t : State} {n : Nat} (h : OnlyEmpties s t) (hs : keySlot s n = none) : keySlot t n = none := by
  simp only [keySlot, Option.map_eq_none_iff, List.find?_eq_none] at *
  exact fun p hp => hs p (h.subset hp)

theorem keySlot_erased (s : State) (x : KlTransaction) : keySlot (erased s x) (klSlot x) = none := by
  rw [erased, keySlot_emptySlot, if_pos rfl]

/-! The commands -/

section
variable {s : State} {c : Instr} {x : KlTransaction} {p : State → Prop}

theorem answers_transaction (hc : c = .load x ∨ c = .eraseCommand x ∨ c = .check x)
    (h : p { judgeSummary (transaction { s with out := [] } x) with pending := s.pending }) : Answers c s p := by
  rcases hc with rfl | rfl | rfl
  · exact answers_of_run (execLoad.eq_def x s) h
  · exact answers_of_run (execEraseCommand.eq_def x s) h
  · exact answers_of_run (execCheck.eq_def x s) h

/-- A transaction that fails a check, or that meets the busy port, is judged the same when it is cut off. -/
theorem answers_cutOff (hlive : s.sealSt.live = true) (hcut : (klFails x).isSome = true ∨ s.sealSt.busy = true)
    (h : p { judgeSummary (transaction { s with out := [] } x) with pending := s.pending }) : Answers (.transactionDiscarded x) s p := by
  refine answers_of_run (execTransactionDiscarded.eq_def x s) ?_
  rw [if_neg (by simp [hlive]), if_pos (by simpa using hcut)]
  exact h

/-- A transaction that passes and is cut off is discarded with the result as it was (R775). -/
theorem answers_passed_cutOff (hlive : s.sealSt.live = true) (hbusy : s.sealSt.busy = false) (hfails : klFails x = none)
    (h : p { judgeSummary (discardTransaction (shiftOut { s with out := [] } x) none) with pending := s.pending }) :
    Answers (.transactionDiscarded x) s p := by
  refine answers_of_run (execTransactionDiscarded.eq_def x s) ?_
  rw [if_neg (by simp [hlive]), if_neg (by simp [hfails, hbusy])]
  exact h

/-- What was clocked out of a live port has left, whatever the command makes of the transaction. -/
theorem answers_klDout (hc : c = .load x ∨ c = .eraseCommand x ∨ c = .check x ∨ c = .transactionDiscarded x) (hlive : s.sealSt.live = true) :
    Answers c s (fun t =>
      .klDout ((List.range x.bits.length).map (fun n => !s.sealSt.busy && decide (n < 32) && s.sealSt.result.getLsbD (31 - n))) ∈ t.out) := by
  have hout := shiftOut_out (s := { s with out := [] }) x hlive
  have judged := ((transaction_sends (s := { s with out := [] }) x hlive).trans (judgeSummary_sends _)).out _ hout
  have cases : (c = .load x ∨ c = .eraseCommand x ∨ c = .check x) ∨ c = .transactionDiscarded x := by
    simpa only [or_assoc] using hc
  rcases cases with hc | rfl
  · exact answers_transaction hc judged
  · by_cases hcut : (klFails x).isSome = true ∨ s.sealSt.busy = true
    · exact answers_cutOff hlive hcut judged
    · obtain ⟨hfails, hbusy⟩ := not_or.mp hcut
      exact answers_passed_cutOff hlive (Bool.eq_false_of_not_eq_true hbusy) (Option.not_isSome_iff_eq_none.mp hfails) (((discardTransaction_sends _ none).trans (judgeSummary_sends _)).out _ hout)

/-- A transaction that fails a check: its result code, the staging buffer, the core's fault or the count of discards (Table 20.7). -/
theorem answers_failed {code : Nat} {early : Bool} (hc : c = .load x ∨ c = .eraseCommand x ∨ c = .check x ∨ c = .transactionDiscarded x)
    (hlive : s.sealSt.live = true) (hbusy : s.sealSt.busy = false) (hfails : klFails x = some (code, early)) :
    Answers c s (fun t => t.sealSt.result = klResult code (if early then 0 else klSlot x) 0 ∧ t.sealSt.staging = 0
      ∧ (coreReads s = true → faultGet s (keyU 0x0A40) = none → Reacts t (keyU 0x0A40) 1)
      ∧ (coreReads s = false → t.sealSt.discards = min 255 (s.sealSt.discards + 1))) := by
  have hseal := (discardTransaction_sealKept (clocked { s with out := [] } x) (some (klResult code (if early then 0 else klSlot x) 0))).rest
  have hreacts := discardTransaction_reacts (s := clocked { s with out := [] } x) (some (klResult code (if early then 0 else klSlot x) 0))
  rw [← transaction_failed (s := { s with out := [] }) hlive hbusy hfails] at hseal hreacts
  have cases : (c = .load x ∨ c = .eraseCommand x ∨ c = .check x) ∨ c = .transactionDiscarded x := by
    simpa only [or_assoc] using hc
  have hdiscards (hreads : coreReads s = false) :
      (discardSeal (clocked { s with out := [] } x) (some (klResult code (if early then 0 else klSlot x) 0))).discards = min 255 (s.sealSt.discards + 1) :=
    if_neg (by rw [show coreReads (clocked { s with out := [] } x) = false from hreads]; exact Bool.false_ne_true)
  have left := And.intro (congrArg Seal.result hseal) (And.intro (congrArg Seal.staging hseal)
    (And.intro hreacts (fun hreads => (congrArg Seal.discards hseal).trans (hdiscards hreads))))
  rcases cases with hc | rfl
  · exact answers_transaction hc left
  · exact answers_cutOff hlive (.inl (by simp [hfails])) left

theorem answers_portLive (hd0 : d0Powered s = true) (hopen : s.sealSt.hatchOpen = true) (herased : s.sealSt.erased = true)
    (hheld : s.sealSt.heldOff = false) (hlive : s.sealSt.live = false) : Answers (.portLive true) s (fun t =>
      t = { s with out := [], sealSt := { s.sealSt with live := true, meshOk := true, result := 0, busy := false, ignoring := false } }) := by
  refine answers_of_run (execPortLive.eq_def true s) ?_
  dsimp only
  rw [if_neg (by simpa using show d0Powered { s with out := [] } = true from hd0), if_pos rfl, if_pos (by simp [hopen, herased, hheld, hlive])]

theorem answers_portNotLive (hd0 : d0Powered s = true) : Answers (.portLive false) s (fun t => t.sealSt.live = false ∧ t.sealSt.staging = 0) := by
  refine answers_of_run (execPortLive.eq_def false s) ?_
  dsimp only
  rw [if_neg (by simpa using show d0Powered { s with out := [] } = true from hd0), if_neg (by simp)]
  have hseal := ((portStops_sealKept { s with out := [], sealSt := { s.sealSt with live := false, busy := false, staging := 0 } }).trans
    (judgeSummary_sealKept _)).rest
  exact ⟨congrArg Seal.live hseal, congrArg Seal.staging hseal⟩

/-- A LOAD that passes is in its slot, and ends the latch while the mesh is intact (R757, R768). -/
theorem answers_load (hlive : s.sealSt.live = true) (hbusy : s.sealSt.busy = false) (hfails : klFails x = none) (hcode : klCode x = 1) :
    Answers (.load x) s (fun t => keySlot t (klSlot x) = some (loadedSlot x) ∧ t.sealSt.result = klResult 1 (klSlot x) (kcvOf (klKey x)).toNat
      ∧ t.sealSt.busy = true ∧ (t.sealSt.latch = true ↔ s.sealSt.latch = true ∧ s.sealSt.meshOk = false)) := by
  refine answers_transaction (.inl rfl) ?_
  rw [transaction_passed (s := { s with out := [] }) hlive hbusy hfails, if_pos hcode]
  have hseal := (applyLoad_sealKept (clocked { s with out := [] } x) x).rest
  have hlatch : (judgeSummary (applyLoad (clocked { s with out := [] } x) x)).sealSt.latch = (s.sealSt.latch && !(s.sealSt.latch && s.sealSt.meshOk)) :=
    (congrArg Seal.latch hseal).trans rfl
  refine ⟨applyLoad_keySlot _ x, congrArg Seal.result hseal, congrArg Seal.busy hseal, ?_⟩
  rw [show Seal.latch _ = _ from hlatch]
  cases s.sealSt.latch <;> cases s.sealSt.meshOk <;> decide

theorem answers_erase (hlive : s.sealSt.live = true) (hbusy : s.sealSt.busy = false) (hfails : klFails x = none) (hcode : klCode x = 2) :
    Answers (.eraseCommand x) s (fun t => keySlot t (klSlot x) = none ∧ t.sealSt.result = klResult 2 (klSlot x) 0
      ∧ t.sealSt.latch = s.sealSt.latch) := by
  refine answers_transaction (.inr (.inl rfl)) ?_
  rw [transaction_passed (s := { s with out := [] }) hlive hbusy hfails, if_neg (by omega), if_pos hcode]
  have hlatch : (clocked { s with out := [] } x).sealSt.latch = s.sealSt.latch := rfl
  generalize clocked { s with out := [] } x = u at hlatch ⊢
  have hkept := applyErase_sealKept u x
  exact ⟨keySlot_of_onlyEmpties hkept.keys (keySlot_erased u x), (congrArg Seal.result hkept.rest).trans (erased_result u x),
    (congrArg Seal.latch hkept.rest).trans ((erased_latch u x).trans hlatch)⟩

/-- The result of a CHECK (Table 20.8). -/
def checkResult (s : State) (x : KlTransaction) : BitVec 32 :=
  match keySlot s (klSlot x) with
  | some k => klResult 3 (klSlot x) k.kcv.toNat
  | none => klResult 4 (klSlot x) 0

theorem applyCheck_sealSt (s : State) (x : KlTransaction) : (applyCheck s x).sealSt = { s.sealSt with result := checkResult s x, staging := 0 } := by
  cases hslot : keySlot s (klSlot x) <;> simp only [applyCheck, checkResult, hslot]

theorem answers_check (hlive : s.sealSt.live = true) (hbusy : s.sealSt.busy = false) (hfails : klFails x = none) (hcode : klCode x = 3) :
    Answers (.check x) s (fun t => t.sealSt.latch = s.sealSt.latch ∧ t.sealSt.result = checkResult s x) := by
  refine answers_transaction (.inr (.inr rfl)) ?_
  rw [transaction_passed (s := { s with out := [] }) hlive hbusy hfails, if_neg (by omega), if_neg (by omega)]
  have hseal := (judgeSummary_sealKept (applyCheck (clocked { s with out := [] } x) x)).rest
  rw [applyCheck_sealSt] at hseal
  exact ⟨(congrArg Seal.latch hseal).trans rfl, congrArg Seal.result hseal⟩

theorem answers_timeout (hlive : s.sealSt.live = true) : Answers .transactionTimeout s (fun t =>
    t.sealSt.ignoring = true ∧ t.sealSt.result = klResult 0xC 0 0 ∧ t.sealSt.staging = 0) := by
  refine answers_of_run (execTransactionTimeout.eq_def s) ?_
  rw [if_neg (by simp [hlive])]
  have hseal := (discardTransaction_sealKept { s with out := [], sealSt := { s.sealSt with ignoring := true } } (some (klResult 0xC 0 0))).rest
  exact ⟨congrArg Seal.ignoring hseal, congrArg Seal.result hseal, congrArg Seal.staging hseal⟩

end

/-- Settles O53: each transaction is discarded or applied with the seal that its `def` above gives. -/
theorem keyLoader : Obligations.KeyLoader := by
  unfold Obligations.KeyLoader
  dsimp only
  refine ⟨fun s => answers_portLive, fun s => answers_portNotLive, fun s x ⟨hlive, hbusy, hfails⟩ hcode => answers_load hlive hbusy hfails hcode,
    fun s x ⟨hlive, hbusy, hfails⟩ hcode => answers_erase hlive hbusy hfails hcode, fun s x ⟨hlive, hbusy, hfails⟩ hcode => ?_,
    fun s c x code early hc hlive hbusy hfails => answers_failed hc hlive hbusy hfails, fun s x ⟨hlive, hbusy, hfails⟩ => ?_,
    fun s c x hc hlive => answers_klDout hc hlive, fun s => answers_timeout, fun s => answers_of_run (execPortBusyEnd.eq_def s) rfl⟩
  · obtain ⟨t, hexec, hlatch, hresult⟩ := answers_check hlive hbusy hfails hcode
    refine ⟨t, hexec, hlatch, hresult.trans ?_⟩
    unfold checkResult
    cases keySlot s (klSlot x) <;> rfl
  · refine answers_passed_cutOff hlive hbusy hfails ?_
    have hseal := (discardTransaction_sealKept (shiftOut { s with out := [] } x) none).rest
    exact ⟨(congrArg Seal.result hseal).trans rfl, congrArg Seal.staging hseal, fun hreads hclear => discardTransaction_reacts none hreads hclear⟩

end Sys2Proof.Machine
end

section
/-! Acknowledgements, completed reactions and retests (R121, R723 to R730, R740, Table 19.3). -/
namespace Sys2Proof.Machine

/-! An acknowledgement of every fault -/

/-- A record as an acknowledgement leaves it (Table 19.3). -/
def ackedRec : Option FaultRec → Option FaultRec
  | none => none
  | some r =>
    if r.level = 4 then some r
    else
      match r.phase with
      | .reacting => some r
      | .present => some { r with acked := true }
      | .gone => none

/-- A second acknowledgement finds nothing more to do. -/
theorem ackedRec_idem (o : Option FaultRec) : ackedRec (ackedRec o) = ackedRec o := by
  cases o with
  | none => rfl
  | some r =>
    by_cases hl : r.level = 4
    · simp [ackedRec, hl]
    · cases hp : r.phase <;> simp [ackedRec, hl, hp]

theorem faultGet_faultClear (s : State) (k : FaultKey) (r : FaultRec) (j : FaultKey) :
    faultGet (faultClear s k r) j = if keyNum j = keyNum k then none else faultGet s j := by
  unfold faultClear
  simp only [faultGet_submitEntry, faultGet_faultSeq]
  unfold faultGet
  dsimp only
  rw [find_erase]
  by_cases h : keyNum j = keyNum k <;> simp [h]

/-- Records are read by the number of their key. -/
theorem faultGet_of_keyNum (s : State) {j k : FaultKey} (h : keyNum j = keyNum k) : faultGet s j = faultGet s k := by
  unfold faultGet
  rw [h]

theorem faultGet_ackFault (s : State) (k j : FaultKey) :
    faultGet (ackFault s k) j = if keyNum j = keyNum k then ackedRec (faultGet s j) else faultGet s j := by
  by_cases hj : keyNum j = keyNum k
  · rw [if_pos hj, faultGet_of_keyNum s hj]
    unfold ackFault
    cases hr : faultGet s k with
    | none => exact (faultGet_of_keyNum s hj).trans hr
    | some r =>
      by_cases hl : r.level = 4
      · simp [ackedRec, hl, faultGet_of_keyNum s hj, hr]
      · cases hp : r.phase <;> simp [ackedRec, hl, hp, faultGet_of_keyNum s hj, hr, faultGet_faultPut, faultGet_faultClear, hj]
  · rw [if_neg hj]
    unfold ackFault
    split
    · rfl
    · split
      · rfl
      · split <;> simp [faultGet_faultPut, faultGet_faultClear, hj]

theorem faultGet_ackKeys (j : FaultKey) : ∀ (l : List FaultKey) (s : State),
    faultGet (l.foldl ackFault s) j = if ∃ k ∈ l, keyNum j = keyNum k then ackedRec (faultGet s j) else faultGet s j
  | [], s => by simp
  | k :: l, s => by
    rw [List.foldl_cons, faultGet_ackKeys j l, faultGet_ackFault]
    by_cases hk : keyNum j = keyNum k <;> by_cases hl : ∃ x ∈ l, keyNum j = keyNum x <;> simp [hk, hl, ackedRec_idem]

/-- Every record stands under its own key's number. -/
def RecordsKeyed (s : State) : Prop := ∀ x ∈ s.faults.recs, keyNum (recKey x.2) = x.1

/-- Every fault, acknowledged. -/
def ackAll (s : State) : State := (s.faults.recs.map (fun p => recKey p.2)).foldl ackFault s

theorem ackAll_sansRecords (s : State) : (ackAll s).sansRecords = s.sansRecords :=
  foldl_keeps State.sansRecords ackFault ackFault_sansRecords _ s

theorem faultGet_ackAll {s : State} (hkeyed : RecordsKeyed s) (k : FaultKey) : faultGet (ackAll s) k = ackedRec (faultGet s k) := by
  rw [ackAll, faultGet_ackKeys]
  split
  · rfl
  next hnone =>
    cases hr : faultGet s k with
    | none => rfl
    | some r =>
      exfalso
      apply hnone
      unfold faultGet at hr
      split at hr
      next p hp =>
        refine ⟨recKey p.2, List.mem_map.mpr ⟨p, List.mem_of_find?_eq_some hp, rfl⟩, ?_⟩
        rw [hkeyed p (List.mem_of_find?_eq_some hp)]
        exact (by simpa using List.find?_some hp : p.1 = keyNum k).symm
      · exact absurd hr (Option.some_ne_none r).symm

/-- The engine accepts acknowledgements (R730). -/
def acceptsAck (s : State) : Prop := s.power.engine = .withheld ∨ s.power.engine = .serving ∨ s.power.engine = .withdrawn

theorem acceptAck_accepted {s : State} (h : acceptsAck s) (source : Nat) : ∃ e,
    acceptAck s source = submitEntry { ackAll s with field := { (ackAll s).field with ackTo := (ackAll s).now + 400000 } } e := by
  unfold acceptAck
  rcases h with h | h | h <;> rw [h] <;> exact ⟨_, rfl⟩

theorem acceptAck_starting {s : State} (h : s.power.engine = .starting) (source : Nat) : acceptAck s source = s := by
  simp [acceptAck, h]

/-- An accepted acknowledgement reaches the coupler frames for 1.0 ms, and nothing else of the field (R729). -/
theorem acceptAck_field {s : State} (h : acceptsAck s) (source : Nat) : (acceptAck s source).field = { s.field with ackTo := s.now + 400000 } := by
  obtain ⟨e, haccept⟩ := acceptAck_accepted h source
  have hfield : (ackAll s).field = s.field := by have e := congrArg State.field (ackAll_sansRecords s); exact e
  have hnow : (ackAll s).now = s.now := by have e := congrArg State.now (ackAll_sansRecords s); exact e
  rw [haccept, hfield, hnow]
  have hentry := congrArg State.field (submitEntry_sansRecords { ackAll s with field := { s.field with ackTo := s.now + 400000 } } e)
  exact hentry

theorem acceptAck_faultGet {s : State} (h : acceptsAck s) (hkeyed : RecordsKeyed s) (source : Nat) (k : FaultKey) :
    faultGet (acceptAck s source) k = ackedRec (faultGet s k) := by
  obtain ⟨e, haccept⟩ := acceptAck_accepted h source
  rw [haccept, faultGet_submitEntry]
  exact faultGet_ackAll hkeyed k

/-! Completed reactions and retests -/

theorem reactionComplete_other (s : State) {k j : FaultKey} (hj : keyNum j ≠ keyNum k) : faultGet (reactionComplete s k) j = faultGet s j := by
  unfold reactionComplete
  split
  · rfl
  · split
    · rfl
    · split
      · simp [faultGet_faultPut, hj]
      · dsimp only
        split
        · rw [causeGone_other _ k j hj, faultGet_faultPut, if_neg hj]
        · rw [faultGet_faultPut, if_neg hj]

section
variable {s : State} {k : FaultKey} {r : FaultRec} (hr : faultGet s k = some r) (hlevel : r.level < 4) (hphase : r.phase = .reacting)
include hr hlevel hphase

/-- The cause has gone before the reaction is complete: the fault is Gone. -/
theorem reactionComplete_gone (hgone : r.causeGone = true) : faultGet (reactionComplete s k) k = some { r with phase := .gone } := by
  unfold reactionComplete
  rw [hr]
  dsimp only
  rw [if_neg (by simp [hphase]; omega), if_pos hgone, faultGet_faultSeq, faultGet_faultPut, if_pos rfl]

/-- The cause stays: the fault is Present, or Gone where the cause was an event (R725). -/
theorem reactionComplete_present (hgone : r.causeGone = false) : faultGet (reactionComplete s k) k
    = some { r with phase := if goneAtOnce k.code then .gone else .present, acked := false } := by
  have hput : faultGet (faultPut s k { r with phase := .present, acked := false }) k = some { r with phase := .present, acked := false } := by
    rw [faultGet_faultPut, if_pos rfl]
  unfold reactionComplete
  rw [hr]
  dsimp only
  rw [if_neg (by simp [hphase]; omega), if_neg (by simp [hgone])]
  split
  · unfold causeGone
    rw [hput]
    dsimp only
    rw [if_neg (by omega), if_neg Bool.false_ne_true, faultGet_reactPlain, if_pos rfl]
  · exact hput

/-- A retest of a fault whose reaction is not complete notes that its cause has gone (R740). -/
theorem retestFault_reacting (hretest : r.retest = true) : faultGet (retestFault s k) k = some { r with retest := false, causeGone := true } := by
  have hput : faultGet (faultPut s k { r with retest := false }) k = some { r with retest := false } := by
    rw [faultGet_faultPut, if_pos rfl]
  unfold retestFault
  rw [hr]
  dsimp only
  rw [if_pos hretest]
  unfold causeGone
  rw [hput]
  dsimp only
  rw [if_neg (by omega), hphase, faultGet_faultPut, if_pos rfl]

end

theorem retestFault_other (s : State) {k j : FaultKey} (hj : keyNum j ≠ keyNum k) : faultGet (retestFault s k) j = faultGet s j := by
  unfold retestFault
  split
  · rfl
  · split
    · rw [causeGone_other _ k j hj, faultGet_faultPut, if_neg hj]
    · rfl

/-! The commands -/

/-- Either acknowledgement is accepted the same way, from its own source. -/
theorem answers_ack {s : State} {c : Instr} {p : State → Prop} (hack : c = .ackInAccepted ∨ (c = .ackInputAccepted ∧ (ackInput s).isSome = true))
    (hrun : coreRuns s = true)
    (h : ∀ (u : State) source, u.power = s.power → u.field = s.field → u.faults = s.faults → u.now = s.now →
      p { settlePair (acceptAck u source) with pending := s.pending }) : Answers c s p := by
  have hrun' : coreRuns { s with out := [] } = true := hrun
  rcases hack with rfl | ⟨rfl, hinput⟩
  · refine answers_of_run (execAckInAccepted.eq_def s) ?_
    rw [if_pos hrun']
    exact h _ 0 rfl rfl rfl rfl
  · obtain ⟨cc, hcc⟩ := Option.isSome_iff_exists.mp hinput
    have hcc' : ackInput { s with out := [] } = some cc := hcc
    refine answers_of_run (execAckInputAccepted.eq_def s) ?_
    rw [if_neg (by simp [hrun']), hcc']
    exact h _ (1 + cc) rfl rfl rfl rfl

/-- Settles O55: the engine state decides, and settling leaves the field and the faults that bookkeeping cannot change. -/
theorem acknowledgementsByState : Obligations.AcknowledgementsByState := by
  refine ⟨fun s c hack hrun hstate => ?_, fun s c hack hstate => ?_⟩
  · refine answers_ack hack hrun (fun u source hpower hfield _ hnow => ?_)
    have haccepts : acceptsAck u := by rw [acceptsAck, hpower]; exact hstate
    show (settlePair (acceptAck u source)).field.ackTo = _
    rw [settlePair_field, acceptAck_field haccepts, hnow]
  · by_cases hrun : coreRuns s = true
    · refine answers_ack hack hrun (fun u source hpower hfield hfaults hnow => ?_)
      rw [acceptAck_starting (by rw [hpower]; exact hstate)]
      exact ⟨(settlePair_field u).trans hfield,
        fun k hk => (settlePair_faultGet u k hk).trans (faultGet_congr (congrArg Faults.recs hfaults) k)⟩
    · have hrun' : ¬ coreRuns { s with out := [] } = true := hrun
      rcases hack with rfl | ⟨rfl, -⟩
      · refine answers_of_run (execAckInAccepted.eq_def s) ?_
        rw [if_neg hrun']
        exact ⟨rfl, fun k _ => rfl⟩
      · refine answers_of_run (execAckInputAccepted.eq_def s) ?_
        rw [if_pos (by simpa using hrun')]
        exact ⟨rfl, fun k _ => rfl⟩

/-- An accepted acknowledgement acts on each record by its phase. -/
theorem answers_ack_acts {s : State} {c : Instr} (hack : c = .ackInAccepted ∨ (c = .ackInputAccepted ∧ (ackInput s).isSome = true))
    (hrun : coreRuns s = true) (haccepts : acceptsAck s) (hkeyed : RecordsKeyed s) :
    Answers c s (fun t => t.field.ackTo = s.now + 400000 ∧ t.field.ch = s.field.ch
      ∧ ∀ k r, bookkept k = false → faultGet s k = some r → r.level < 4 →
        (r.phase = .present → faultGet t k = some { r with acked := true }) ∧ (r.phase = .gone → faultGet t k = none)
          ∧ (r.phase = .reacting → faultGet t k = some r)) := by
  refine answers_ack hack hrun (fun u source hpower hfield hfaults hnow => ?_)
  have haccepts' : acceptsAck u := by rw [acceptsAck, hpower]; exact haccepts
  have hkeyed' : RecordsKeyed u := by rw [RecordsKeyed, hfaults]; exact hkeyed
  have hsettled : (settlePair (acceptAck u source)).field = { s.field with ackTo := s.now + 400000 } := by
    rw [settlePair_field, acceptAck_field haccepts', hfield, hnow]
  refine ⟨congrArg Field.ackTo hsettled, (congrArg Field.ch hsettled).trans rfl, fun k r hk hr hlevel => ?_⟩
  have hget : faultGet (settlePair (acceptAck u source)) k = ackedRec (some r) := by
    rw [settlePair_faultGet _ k hk, acceptAck_faultGet haccepts' hkeyed', faultGet_congr (congrArg Faults.recs hfaults) k, hr]
  exact ⟨fun hp => hget.trans (by simp [ackedRec, hlevel.ne, hp]), fun hp => hget.trans (by simp [ackedRec, hlevel.ne, hp]),
    fun hp => hget.trans (by simp [ackedRec, hlevel.ne, hp])⟩

/-- Settles O47: acknowledgements act on every record, completions and retests on their own key alone. -/
theorem faultReactions : Obligations.FaultReactions := by
  unfold Obligations.FaultReactions
  dsimp only
  refine ⟨fun s ⟨hrun, hstate⟩ hkeyed => answers_ack_acts (.inl rfl) hrun hstate hkeyed,
    fun s cc ⟨hrun, hstate⟩ hkeyed hcc => answers_ack_acts (.inr ⟨rfl, by rw [hcc]; rfl⟩) hrun hstate hkeyed,
    fun s k r hrun hk hr hlevel hphase hwaits => ?_, fun s k r hrun hk hr hlevel hphase hretest => ?_⟩
  · refine answers_of_guard (b := fun u => coreRuns u && !reactionWaits u k) (execFaultReactionComplete.eq_def k s) ?_ ?_
    · show (coreRuns s && !reactionWaits s k) = true
      rw [hrun, hwaits]
      rfl
    · have settled (j : FaultKey) (hj : bookkept j = false) := settlePair_faultGet (reactionComplete { s with out := [] } k) j hj
      have hr' : faultGet { s with out := [] } k = some r := hr
      refine ⟨fun hgone hat => ?_, fun hgone => ?_, fun hgone hat => ?_, fun j hj hne => ?_⟩
      · refine (settled k hk).trans ((reactionComplete_present hr' hlevel hphase hgone).trans ?_)
        rw [if_neg (by simp [hat])]
      · exact (settled k hk).trans (reactionComplete_gone hr' hlevel hphase hgone)
      · refine (settled k hk).trans ((reactionComplete_present hr' hlevel hphase hgone).trans ?_)
        rw [if_pos hat]
      · exact (settled j hj).trans (reactionComplete_other _ hne)
  · refine answers_of_guard (b := coreRuns) (execCauseGoneRetest.eq_def k s) hrun ?_
    have settled (j : FaultKey) (hj : bookkept j = false) := settlePair_faultGet (retestFault { s with out := [] } k) j hj
    have hr' : faultGet { s with out := [] } k = some r := hr
    exact ⟨(settled k hk).trans (retestFault_reacting hr' hlevel hphase hretest), fun j hj hne => (settled j hj).trans (retestFault_other _ hne)⟩

end Sys2Proof.Machine
end

section
/-! A retry of a couple whose odd channel has lost its frames (R562, R569, R573). -/
namespace Sys2Proof.Machine

/-- Channels 0 and 1 are a commanded output in parallel (DIR 2, PAIR 1) that waits for a retry, and channel 1 has lost its frames. -/
def waitingCouple : State :=
  { sCh {} with field := { (sCh {}).field with
    ch := [(0, { down := downWith 2 [52, 58, 59], cmdRun := 2, latch := 1 }), (1, { downLost := true })] } }

/-- The couple's output stays open: its odd channel holds it back (R573). -/
theorem waitingCouple_open : Answers (.retry 0) waitingCouple (fun t => (chGet t 0).on = false) := ⟨_, rfl, rfl⟩

/-- Refutes O50: its clause on a retry closes the output of a couple whatever the other channel; in `waitingCouple` the odd channel's lost frames keep
it open (R573). -/
theorem not_outputProtection : ¬ Obligations.OutputProtection := by
  unfold Obligations.OutputProtection
  rintro ⟨-, -, hretry, -⟩
  have hcloses : commandStands (chGet waitingCouple 0) = true ∧ groupLive waitingCouple 0 = true ∧ (chGet waitingCouple 0).cmdRun = 2 := by decide
  obtain ⟨t, -, ⟨hclosed, -⟩, hopen⟩ := (hretry waitingCouple 0 (by decide) hcloses (by decide)).and waitingCouple_open
  have hclosed : (chGet t 0).on = true := hclosed
  rw [hopen] at hclosed
  cases hclosed

end Sys2Proof.Machine
end

section
/-! A PWM period that gives an output its full on-time (R549, R551). -/
namespace Sys2Proof.Machine

/-- Channel 0 is an output (DIR 2) that is on, at tick 5, and no switch has conducted throughout yet. -/
def periodStarts : State := { sCh { on := true, down := downWith 2 [58, 59] } with now := 5 }

/-- The full on-time of the next period starts the time for which the switch conducts throughout (R549). -/
theorem periodStarts_conducts : Answers (.pwmPeriodStart 0 0) periodStarts (fun t => (chGet t 0).condAt = 5) := ⟨_, rfl, rfl⟩

/-- Refutes O51: its clause on a PWM period changes the mean current and the on-time alone; in `periodStarts` the output goes from none to the full
on-time, and with it the tick since which its switch conducts throughout (R549). -/
theorem not_outputSupervision : ¬ Obligations.OutputSupervision := by
  unfold Obligations.OutputSupervision
  rintro ⟨-, -, -, -, -, -, hperiod⟩
  obtain ⟨t, -, hstate, hcond⟩ := (hperiod periodStarts 0 0 (by decide) (by decide)).and periodStarts_conducts
  have hkept : (chGet t 0).condAt = 0 := by rw [hstate]; rfl
  rw [hkept] at hcond
  cases hcond

end Sys2Proof.Machine
end

section
/-! One sample of a terminal: the supply, the voltage, the raw and the filtered state (R533, R542 to R545, R567). -/
namespace Sys2Proof.Machine

/-! The supply -/

/-- A channel without what opening its output changes. -/
def Channel.inputStage (c : Channel) : Channel := { c with on := false, demag := none, pwm := 0 }

theorem openOutput_inputStage (s : State) (o : Nat) (slow : Bool) (cc : Nat) :
    (chGet (openOutput s o slow) cc).inputStage = (chGet s cc).inputStage := by
  rw [chGet_openOutput]
  split
  next h => rw [h.1]; rfl
  · rfl

theorem openOutputs_inputStage (l : List Nat) (s : State) (cc : Nat) : (chGet (openOutputs l s) cc).inputStage = (chGet s cc).inputStage :=
  foldl_keeps (fun s => (chGet s cc).inputStage) _ (fun s o => openOutput_inputStage s o _ cc) l s

theorem openOutputs_other (cc : Nat) : ∀ (l : List Nat) (s : State), cc ∉ l → chGet (openOutputs l s) cc = chGet s cc
  | [], _, _ => rfl
  | x :: l, s, h => by
    simp only [List.mem_cons, not_or] at h
    refine (openOutputs_other cc l (openOutput s x (slowNow s x)) h.2).trans ?_
    rw [chGet_openOutput, if_neg (fun hc => h.1 hc.1)]

theorem openOutputs_group (l : List Nat) (s : State) (g : Group) : groupGet (openOutputs l s) g = groupGet s g :=
  foldl_keeps (fun s => groupGet s g) _ (fun s o => by
    show groupGet (openOutput s o (slowNow s o)) g = groupGet s g
    unfold openOutput
    dsimp only
    split
    · cases g <;> rfl
    · rfl) l s

/-- The measured supply of a group (R533). -/
def suppliedGroup (s : State) (g : Group) (vf : Nat) : GroupSt :=
  { groupGet s g with
    vf := vf, vfOk := decide (16000 ≤ vf ∧ vf ≤ 155000)
    overAt := if 155000 < vf then some ((groupGet s g).overAt.getD s.now) else none
    underAt := if vf ≤ 150000 then some ((groupGet s g).underAt.getD s.now) else none }

/-- The field once a supply has been measured: below 16 V the group's outputs lose drive (R567). -/
def suppliedField (s : State) (g : Group) (vf : Nat) : State :=
  if vf < 16000 then openOutputs (groupChannels g) (groupPut s g (suppliedGroup s g vf)) else groupPut s g (suppliedGroup s g vf)

theorem supplyFault_below (g : Group) : max (faultRow (keyG 0x3B40 g).code).2.1 (faultRow (keyG 0x3B40 g).code).1 < 4 := by cases g <;> decide

/-- The supply's fault changes nothing of the field. -/
theorem measureSupply_field (s : State) (g : Group) (vf : Nat) : (measureSupply s g vf).field = (suppliedField s g vf).field := by
  have gone (u : State) : (causeGone u (keyG 0x3B40 g)).field = u.field := by
    have e := congrArg State.field (causeGone_sansRecords u (keyG 0x3B40 g)); exact e
  have arisen (u : State) : (arise u (keyG 0x3B40 g) 0 none16 []).field = u.field := by
    have e := congrArg State.field (arise_sansRecords u (keyG 0x3B40 g) 0 none16 [] (supplyFault_below g)); exact e
  have judged (u : State) (x : GroupSt) : (if !coreRuns u then u
      else if faultStands u (keyG 0x3B40 g) then
        (match x.underAt with
          | some t => if t + ticksPerSec ≤ u.now then causeGone u (keyG 0x3B40 g) else u
          | none => u)
      else match x.overAt with
        | some t => if t + 4000000 ≤ u.now then arise u (keyG 0x3B40 g) 0 none16 [] else u
        | none => u).field = u.field := by
    split
    · rfl
    · split
      · split
        · split
          · exact gone u
          · rfl
        · rfl
      · split
        · split
          · exact arisen u
          · rfl
        · rfl
  exact judged (suppliedField s g vf) (suppliedGroup s g vf)

section
variable (s : State) (g : Group) (vf : Nat)

theorem measureSupply_chGet (cc : Nat) : chGet (measureSupply s g vf) cc = chGet (suppliedField s g vf) cc := chGet_congr (measureSupply_field s g vf) cc

theorem measureSupply_group : groupGet (measureSupply s g vf) g = suppliedGroup s g vf := by
  rw [groupGet_congr (measureSupply_field s g vf), suppliedField]
  split <;> simp [openOutputs_group]

theorem measureSupply_inputStage (cc : Nat) : (chGet (measureSupply s g vf) cc).inputStage = (chGet s cc).inputStage := by
  rw [measureSupply_chGet, suppliedField]
  split <;> simp [openOutputs_inputStage]

theorem measureSupply_other {cc : Nat} (h : 16000 ≤ vf ∨ cc ∉ groupChannels g) : chGet (measureSupply s g vf) cc = chGet s cc := by
  rw [measureSupply_chGet, suppliedField]
  split
  next hlow =>
    rw [openOutputs_other cc _ _ (h.resolve_left (by omega)), chGet_groupPut]
  · rw [chGet_groupPut]

theorem measureSupply_on {cc : Nat} (hlow : vf < 16000) (hcc : cc ∈ groupChannels g) : (chGet (measureSupply s g vf) cc).on = false := by
  rw [measureSupply_chGet, suppliedField, if_pos hlow]
  exact openOutputs_on cc _ _ (.inl hcc)

end

/-! The filter (R543) -/

/-- The count of the filter moves towards its end by the raw state. -/
def filterCount (c : Channel) : Nat := if c.raw then min (c.count + 1) (8 * downField c 46 5) else c.count - 1

theorem filterStep_eq (c : Channel) : filterStep c =
    if c.raw && filterCount c == 8 * downField c 46 5 && !c.filtered then filteredChange { c with count := filterCount c } true
    else if filterCount c == 0 && c.filtered && !c.raw then filteredChange { c with count := filterCount c } false
    else { c with count := filterCount c } := rfl

/-- The filter changes its count and what hangs on a change of the filtered state: that state, chatter and the held state (R544). -/
theorem filterStep_frame (c : Channel) : ∃ f l ch h,
    filterStep c = { c with count := filterCount c, filtered := f, changes := l, chatter := ch, held := h } := by
  rw [filterStep_eq]
  split
  · exact ⟨_, _, _, _, rfl⟩
  · split
    · exact ⟨_, _, _, _, rfl⟩
    · exact ⟨_, _, _, _, rfl⟩

/-- The filtered state follows the raw one at the ends of the count. -/
theorem filterStep_filtered (c : Channel) : (filterStep c).filtered =
    if c.raw && filterCount c == 8 * downField c 46 5 && !c.filtered then true
    else if filterCount c == 0 && c.filtered && !c.raw then false
    else c.filtered := by
  rw [filterStep_eq]
  split
  · rfl
  · split <;> rfl

/-! The sample -/

/-- A channel as a sample finds it, with its voltage. -/
def sampled (c : Channel) (mv : Nat) : Channel := { c with vterm := volts mv, samples := c.samples + 1 }

/-- An input as a sample leaves it before its filter (R541, R542, R545). -/
def sampledInput (c : Channel) (mv vf : Nat) : Channel :=
  { sampled c mv with
    raw := decide (vf ≤ 20 * mv) && rawState c.raw mv vf, above := if vf ≤ 20 * mv then min (c.above + 1) 800 else 0
    openWire := c.openWire && decide ((if vf ≤ 20 * mv then min (c.above + 1) 800 else 0) < 800), folded := decide (40000 < mv) }

/-- A sample writes its own channel alone: an input through its filter, another channel with its voltage and perhaps its readback. -/
theorem inputSample_eq (s : State) (cc mv vf : Nat) : ∃ c, inputSample s cc mv vf = chPut (measureSupply s (groupOf cc) vf) cc c
    ∧ (isIn (chGet (measureSupply s (groupOf cc) vf) cc) = true → c = filterStep (sampledInput (chGet (measureSupply s (groupOf cc) vf) cc) mv vf))
    ∧ c.vterm = volts mv ∧ c.samples = (chGet (measureSupply s (groupOf cc) vf) cc).samples + 1
    ∧ c.on = (chGet (measureSupply s (groupOf cc) vf) cc).on := by
  unfold inputSample
  dsimp only
  generalize measureSupply s (groupOf cc) vf = u
  have hin : isIn (sampled (chGet u cc) mv) = isIn (chGet u cc) := rfl
  split
  · refine ⟨_, rfl, fun _ => rfl, ?_⟩
    obtain ⟨f, l, ch, h, hf⟩ := filterStep_frame (sampledInput (chGet u cc) mv vf)
    exact ⟨(congrArg Channel.vterm hf).trans rfl, (congrArg Channel.samples hf).trans rfl, (congrArg Channel.on hf).trans rfl⟩
  next hnot =>
    have hnot : ¬ isIn (chGet u cc) = true := hnot
    split
    · exact ⟨_, rfl, fun h => absurd h hnot, rfl, rfl, rfl⟩
    · exact ⟨_, rfl, fun h => absurd h hnot, rfl, rfl, rfl⟩

/-- What an input's sample leaves of its raw state, count and filtered state, by the channel before its supply was measured. -/
theorem filterStep_sampledInput {c d : Channel} (h : c.inputStage = d.inputStage) (mv vf : Nat) :
    let x := filterStep (sampledInput c mv vf)
    x.raw = (decide (vf ≤ 20 * mv) && rawState d.raw mv vf)
      ∧ x.count = (if x.raw then min (d.count + 1) (8 * downField d 46 5) else d.count - 1)
      ∧ (x.raw = true → x.count = 8 * downField d 46 5 → x.filtered = true)
      ∧ (x.raw = false → x.count = 0 → x.filtered = false)
      ∧ (x.count ≠ 0 → x.count ≠ 8 * downField d 46 5 → x.filtered = d.filtered) := by
  have hraw : c.raw = d.raw := (congrArg Channel.raw h :)
  have hcount : c.count = d.count := (congrArg Channel.count h :)
  have hfiltered : c.filtered = d.filtered := (congrArg Channel.filtered h :)
  have hdown : downField c 46 5 = downField d 46 5 := (congrArg (fun x => downField x 46 5) h :)
  rw [← hraw, ← hcount, ← hfiltered, ← hdown]
  obtain ⟨f, l, ch, held, hf⟩ := filterStep_frame (sampledInput c mv vf)
  have hxraw : (filterStep (sampledInput c mv vf)).raw = (decide (vf ≤ 20 * mv) && rawState c.raw mv vf) := (congrArg Channel.raw hf).trans rfl
  have hxcount : (filterStep (sampledInput c mv vf)).count = filterCount (sampledInput c mv vf) := (congrArg Channel.count hf).trans rfl
  have hend : downField (sampledInput c mv vf) 46 5 = downField c 46 5 := rfl
  have hkept : (sampledInput c mv vf).filtered = c.filtered := rfl
  have hcountEq : filterCount (sampledInput c mv vf)
      = if (sampledInput c mv vf).raw then min (c.count + 1) (8 * downField c 46 5) else c.count - 1 := rfl
  have hrawEq : (sampledInput c mv vf).raw = (decide (vf ≤ 20 * mv) && rawState c.raw mv vf) := rfl
  refine ⟨hxraw, ?_, ?_⟩
  · rw [hxcount, hxraw, hcountEq, hrawEq]
  · rw [hxcount, hxraw, filterStep_filtered, hend, hkept, ← hrawEq]
    generalize (sampledInput c mv vf).raw = raw
    generalize filterCount (sampledInput c mv vf) = n
    generalize c.filtered = was
    cases raw <;> cases was <;> grind

/-- Settles O49: a sample's channel, its group's supply, and what the others keep. -/
theorem fieldInputs : Obligations.FieldInputs := by
  unfold Obligations.FieldInputs
  refine ⟨fun s ch mv vf hrun => ?_, fun s ch => answers_of_run (execChatterEnd.eq_def ch s) rfl, fun s ch below hin hrun => ?_⟩
  · refine answers_of_guard (b := fun u => (groupGet u (groupOf ch)).running) (execInputSample.eq_def ch mv vf s) hrun ?_
    obtain ⟨c, hsample, hinput, hvterm, hsamples, hon⟩ := inputSample_eq { s with out := [] } ch mv vf
    have hfield : (judgeSummary (inputSample { s with out := [] } ch mv vf)).field
        = (chPut (measureSupply { s with out := [] } (groupOf ch) vf) ch c).field := by rw [judgeSummary_field, hsample]
    have hch (k : Nat) := chGet_congr hfield k
    have hown : chGet (judgeSummary (inputSample { s with out := [] } ch mv vf)) ch = c := by rw [hch, chGet_chPut, if_pos rfl]
    have hother (k : Nat) (hk : k ≠ ch) : chGet (judgeSummary (inputSample { s with out := [] } ch mv vf)) k
        = chGet (measureSupply { s with out := [] } (groupOf ch) vf) k := by rw [hch, chGet_chPut, if_neg hk]
    have hstage := measureSupply_inputStage { s with out := [] } (groupOf ch) vf ch
    have hgroup : groupGet (judgeSummary (inputSample { s with out := [] } ch mv vf)) (groupOf ch) = suppliedGroup { s with out := [] } (groupOf ch) vf := by
      rw [groupGet_congr hfield]
      exact measureSupply_group _ _ _
    have hsampled : (chGet (measureSupply { s with out := [] } (groupOf ch) vf) ch).samples = (chGet s ch).samples :=
      (congrArg Channel.samples hstage :)
    refine ⟨hown ▸ hvterm, (congrArg Channel.samples hown).trans (hsamples.trans (congrArg (· + 1) hsampled)), congrArg GroupSt.vf hgroup,
      congrArg GroupSt.vfOk hgroup, fun k hk hvf => (hother k hk).trans (measureSupply_other _ _ _ hvf), fun hlow k hk => ?_, fun hin => ?_⟩
    · by_cases he : k = ch
      · subst he
        exact (congrArg Channel.on hown).trans (hon.trans (measureSupply_on _ _ _ hlow hk))
      · exact (congrArg Channel.on (hother k he)).trans (measureSupply_on _ _ _ hlow hk)
    · have hc := hown.trans (hinput ((congrArg isIn hstage :).trans hin))
      have hlaw := filterStep_sampledInput hstage mv vf
      rw [← hc] at hlaw
      exact hlaw
  · exact answers_of_guard (b := fun u => isIn (chGet u ch) && (groupGet u (groupOf ch)).running) (execOpenWireInput.eq_def ch below s)
      (Bool.and_eq_true_iff.mpr ⟨hin, hrun⟩) rfl

end Sys2Proof.Machine
end

section
/-! The ends of the waits of the trip command, 50BF and 79 (R474, R478, R479, Tables 12.4, 12.5). -/
namespace Sys2Proof.Machine

/-! Trip command and 50BF at the end of a wait -/

/-- The zone without what the trip command and 50BF write of it. -/
def Zone.sansTrip (x : Zone) : Zone := { x with trip := false, tripFor := 0, bf := .idle, bfC := 0, bfFalse := 0, bfCurrent := false }

/-- Whatever these fields become, the rest of the zone stays. -/
theorem Zone.sansTrip_with (x : Zone) (trip bfCurrent : Bool) (tripFor bfC bfFalse : Nat) (bf : BfState) :
    ({ x with trip := trip, tripFor := tripFor, bf := bf, bfC := bfC, bfFalse := bfFalse, bfCurrent := bfCurrent } : Zone).sansTrip = x.sansTrip := rfl

theorem tripDrop_sansTrip (s : State) (v : Bool) (x : Zone) : (tripDrop s v x).sansTrip = x.sansTrip := by
  unfold tripDrop
  split <;> rfl

theorem bfStep_sansTrip (s : State) (z n : Nat) (crit : Option Bool) (x : Zone) : (bfStep s z n crit x).sansTrip = x.sansTrip := by
  unfold bfStep
  split <;> simp only [apply_ite Zone.sansTrip, Zone.sansTrip_with, ite_self]

/-- The trip command after n samples, before 50BF: it rises with a verdict, counts on, and may drop (R474). -/
def tripHeld (c : ZoneCtx) (n : Nat) : Zone :=
  tripDrop c.s (tripVerdict c.r c.z c.x)
    (if (!c.x.trip && tripVerdict c.r c.z c.x) = true then { c.x with trip := true, tripFor := 0 }
      else { c.x with tripFor := if c.x.trip then c.x.tripFor + n else 0 })

/-- The zone as 50BF finds it, and as 50BF leaves it (R477, R478). -/
def bfFound (c : ZoneCtx) (n : Nat) : Zone := { tripHeld c n with bfCurrent := (bfCurrentPart c).getD (tripHeld c n).bfCurrent }
def bfLeft (c : ZoneCtx) (n : Nat) : Zone := bfStep c.s c.z n (bfCriterion (bfCurrentPart c) (bfFound c n).brk) (bfFound c n)

theorem tripStep_eq (c : ZoneCtx) (n : Nat) : tripStep c n =
    if (!zBfOn c.r c.z) = true then (tripHeld c n, !c.x.trip && tripVerdict c.r c.z c.x, false)
    else (tripDrop c.s (tripVerdict c.r c.z c.x) (bfLeft c n), !c.x.trip && tripVerdict c.r c.z c.x,
      (bfFound c n).bf != .operated && (bfLeft c n).bf == .operated) := rfl

theorem tripHeld_sansTrip (c : ZoneCtx) (n : Nat) : (tripHeld c n).sansTrip = c.x.sansTrip := by
  unfold tripHeld
  rw [tripDrop_sansTrip]
  split <;> rfl

theorem tripStep_sansTrip (c : ZoneCtx) (n : Nat) : (tripStep c n).1.sansTrip = c.x.sansTrip := by
  have hfound : (bfFound c n).sansTrip = c.x.sansTrip := tripHeld_sansTrip c n
  rw [tripStep_eq]
  split
  · exact tripHeld_sansTrip c n
  · exact (tripDrop_sansTrip _ _ _).trans ((bfStep_sansTrip _ _ _ _ _).trans hfound)

/-- A trip command that is off stays off in 50BF and at a drop. -/
theorem tripDrop_trip_false (s : State) (v : Bool) {x : Zone} (h : x.trip = false) : (tripDrop s v x).trip = false := by
  unfold tripDrop
  split
  · rfl
  · exact h

theorem bfStep_trip (s : State) (z n : Nat) (crit : Option Bool) (x : Zone) : (bfStep s z n crit x).trip = x.trip := by
  unfold bfStep
  split <;> simp only [apply_ite Zone.trip, ite_self]

/-- The trip command drops at the end of its minimum time, where no verdict holds it and 50BF has not operated (R474). -/
theorem tripDrop_due {s : State} {x : Zone} (hbf : x.bf ≠ .operated) (hmin : pipeRate s ≤ 10 * x.tripFor) : (tripDrop s false x).trip = false := by
  unfold tripDrop
  split
  · rfl
  next h => simpa [hbf, hmin] using h

theorem tripStep_drops {c : ZoneCtx} (htrip : c.x.trip = true) (hbf : c.x.bf ≠ .operated) (hverdict : tripVerdict c.r c.z c.x = false)
    (hmin : pipeRate c.s ≤ 10 * c.x.tripFor) : (tripStep c 0).1.trip = false := by
  have hheld : (tripHeld c 0).trip = false := by
    unfold tripHeld
    rw [hverdict, if_neg (by simp), if_pos htrip]
    exact tripDrop_due hbf hmin
  rw [tripStep_eq]
  split
  · exact hheld
  · exact tripDrop_trip_false _ _ ((bfStep_trip _ _ _ _ _).trans hheld)

/-- A verdict holds the trip command. -/
theorem tripDrop_verdict (s : State) (x : Zone) : tripDrop s true x = x := by simp [tripDrop]

/-- 50BF operates once its delay has run with the trip command and its criterion (R478, Table 12.4). -/
theorem tripStep_operates {c : ZoneCtx} (hon : zBfOn c.r c.z = true) (hbf : c.x.bf = .timing) (htrip : c.x.trip = true)
    (hverdict : tripVerdict c.r c.z c.x = true) (hcrit : bfCriterion (bfCurrentPart c) c.x.brk = some true) (hdue : bfDelay c.s c.z ≤ c.x.bfC) :
    (tripStep c 0).1.trip = true ∧ (tripStep c 0).1.bf = .operated ∧ (tripStep c 0).2 = (false, true) := by
  simp [tripStep, tripDrop_verdict, bfStep, hon, hbf, htrip, hverdict, hcrit, hdue]

/-- Nothing rises and 50BF does not enter Operated, where the trip command stands with every verdict and 50BF is not timing. -/
theorem bfStep_entered (s : State) (z : Nat) (crit : Option Bool) {x : Zone} (hbf : x.bf ≠ .timing) :
    (x.bf != .operated && (bfStep s z 0 crit x).bf == .operated) = false := by
  unfold bfStep
  cases h : x.bf with
  | idle => dsimp only; split <;> simp [h]
  | timing => exact absurd h hbf
  | operated => rfl

theorem tripStep_quiet {c : ZoneCtx} (hstands : tripVerdict c.r c.z c.x = true → c.x.trip = true) (hbf : c.x.bf ≠ .timing) :
    (tripStep c 0).2 = (false, false) := by
  have hrose : (!c.x.trip && tripVerdict c.r c.z c.x) = false := by
    cases hv : tripVerdict c.r c.z c.x
    · exact Bool.and_false _
    · rw [hstands hv]; rfl
  have hdrop (x : Zone) (v : Bool) : (tripDrop c.s v x).bf = x.bf := by unfold tripDrop; split <;> rfl
  have hfound : (bfFound c 0).bf = c.x.bf := (hdrop _ _).trans (by rw [hrose]; rfl)
  have hentered : ((bfFound c 0).bf != .operated && (bfLeft c 0).bf == .operated) = false :=
    bfStep_entered _ _ _ (by rw [hfound]; exact hbf)
  rw [tripStep_eq, hrose, hentered]
  split <;> rfl

/-! 79 at the end of a wait (Table 12.5) -/

theorem arStep_trip (s : State) (z n : Nat) (rose entered : Bool) (x : Zone) : (arStep s z n rose entered x).1.trip = x.trip := by
  unfold arStep
  dsimp only
  split
  · rfl
  · split <;> simp only [lockOut, arEnter, apply_ite Prod.fst, apply_ite Zone.trip, ite_self]

theorem arStep_bf (s : State) (z n : Nat) (rose entered : Bool) (x : Zone) : (arStep s z n rose entered x).1.bf = x.bf := by
  unfold arStep
  dsimp only
  split
  · rfl
  · split <;> simp only [lockOut, arEnter, apply_ite Prod.fst, apply_ite Zone.bf, ite_self]

section
variable {s : State} {z : Nat} {x : Zone}

/-- 50BF in Operated locks 79 out. -/
theorem arStep_entered (n : Nat) (rose : Bool) : (arStep s z n rose true x).1.ar = .lockout := rfl

theorem arStep_deadEnd (har : x.ar = .dead) (hbrk : x.brk ≠ .closed) (hblock : x.block = false) (hbad : statusBad x.brk = false)
    (hdue : deadTime s z x.arK ≤ x.arTimer) :
    (arStep s z 0 false false x).1.ar = .close ∧ (arStep s z 0 false false x).1.close = true ∧ (arStep s z 0 false false x).1.arTimer = 0 := by
  simp [arStep, inProgress, arEnter, har, hbrk, hblock, hbad, hdue]

theorem arStep_reclaimEnd (har : x.ar = .reclaim) (hbrk : x.brk ≠ .opened) (hbad : statusBad x.brk = false) (hdue : reclaimTime s z ≤ x.arTimer) :
    (arStep s z 0 false false x).1.ar = .ready ∧ (arStep s z 0 false false x).1.arK = 0 := by
  simp [arStep, inProgress, har, hbrk, hbad, hdue]

theorem arStep_openEnd (har : x.ar = .waitOpen) (hbrk : x.brk ≠ .opened) (hdue : pipeRate s ≤ x.arTimer) :
    (arStep s z 0 false false x).1.ar = .lockout ∧ (arStep s z 0 false false x).1.close = false := by
  simp only [arStep, inProgress, har, hbrk, hdue, Bool.false_eq_true, if_false, Bool.false_and, decide_false, beq_self_eq_true,
    Bool.true_or, Bool.or_true, if_true, Nat.add_zero, ite_self]
  exact ⟨rfl, rfl⟩

theorem arStep_pulseEnd (har : x.ar = .close) (hbrk : x.brk ≠ .closed) (hblock : x.block = false) (hbad : statusBad x.brk = false)
    (hfail : ¬ pipeRate s ≤ 2 * x.arTimer) (hdue : pipeRate s ≤ 5 * x.arTimer) :
    (arStep s z 0 false false x).1.ar = .close ∧ (arStep s z 0 false false x).1.close = false := by
  simp [arStep, inProgress, har, hbrk, hblock, hbad, hfail, hdue]

theorem arStep_closeFails (har : x.ar = .close) (hbrk : x.brk ≠ .closed) (hblock : x.block = false) (hbad : statusBad x.brk = false)
    (hdue : pipeRate s ≤ 2 * x.arTimer) :
    (arStep s z 0 false false x).1.ar = .lockout ∧ (arStep s z 0 false false x).1.close = false ∧ (arStep s z 0 false false x).2 = true := by
  simp [arStep, inProgress, lockOut, har, hbrk, hblock, hbad, hdue]

end

/-- A tenth, a fifth and a half of a second are whole samples. -/
theorem pipeRate_divides (s : State) : 10 ∣ pipeRate s ∧ 0 < pipeRate s := by
  unfold pipeRate strapRate decim
  split <;> simp_all

/-! What the zone's settling leaves of the fault records -/

/-- The fault records that neither bookkeeping, COIL slots nor a withdrawal change. -/
def lasted (s : State) (j : FaultKey) : Option FaultRec := if lasting j then faultGet s j else none

theorem lasted_of_steady {s t : State} (h : steady t = steady s) : lasted t = lasted s := by
  funext j
  unfold lasted
  split
  next hj => exact faultGet_of_steady h j ((lasting_iff j).mp hj).1
  · rfl

theorem lasted_congr {s t : State} (h : t.faults = s.faults) : lasted t = lasted s := lasted_of_steady (steady_congr h)

theorem faultGet_of_lasted {s t : State} (h : lasted t = lasted s) {j : FaultKey} (hj : lasting j = true) : faultGet t j = faultGet s j := by
  have e := congrFun h j
  simpa [lasted, hj] using e

theorem coilsFollow_lasted (l : List Nat) (s : State) : lasted (coilsFollow l s) = lasted s := by
  have hgone (u : State) (cc : Nat) (hcc : cc < 32) : lasted (causeGone u { code := 0x1180, scope := 10, inst := 4 + cc }) = lasted u := by
    funext j
    unfold lasted
    split
    next hj =>
      obtain ⟨hb, -, h6⟩ := (lasting_iff j).mp hj
      simp only [bookkept, Bool.or_eq_false_iff, decide_eq_false_iff_not, not_le] at hb
      exact causeGone_other u _ j (keyNum_ne j _ hb.2 (by dsimp only; omega) (by dsimp only; exact h6))
    · rfl
  have hcommand (u : State) (cc : Nat) (on : Bool) (hcc : cc < 32) : lasted (coilCommand u cc on) = lasted u := by
    unfold coilCommand
    split
    · exact (hgone _ cc hcc).trans (lasted_congr rfl)
    · split
      · exact lasted_congr rfl
      · rfl
  unfold coilsFollow
  refine List.foldlRecOn (motive := fun u => lasted u = lasted s) _ _ rfl (fun u hu cc hcc => ?_)
  split
  · exact hu
  · exact (hcommand _ _ _ (List.mem_range.mp hcc)).trans hu

theorem zoneSnapshots_faults (s : State) (z t : Nat) (i : SIndex) : (zoneSnapshots s z t i).faults = s.faults := by
  unfold zoneSnapshots zoneSnapshotsAt
  exact foldl_keeps State.faults _ (fun u _ => submitEntry_faults u _) _ s

theorem zoneChange_lasted (s : State) (z : Nat) (i : SIndex) : lasted (zoneChange s z i) = lasted s := by
  have hpublished (u : State) : lasted (if zEnabled u z then zoneChangeAt u z i (sampleTime (pipeRate u) i) else u) = lasted u := by
    split
    · exact lasted_of_steady (zoneChangeAt_steady u z i _)
    · rfl
  unfold zoneChange withNow
  split
  · exact hpublished s
  · exact (lasted_congr rfl).trans ((hpublished _).trans (lasted_congr rfl))

theorem requestUrgent_faults (s : State) (z : Nat) : (requestUrgent s z).faults = s.faults := by
  have hrequested (i : Nat) : (requestCheck s i).faults = s.faults := by
    unfold requestCheck
    split <;> rfl
  unfold requestUrgent
  split
  · rfl
  · split
    · rfl
    · dsimp only
      split
      · rfl
      · exact hrequested _

theorem verdictChange_lasted (s : State) (z : Nat) (i : SIndex) (before : List Nat) (old new : Dataset) :
    lasted (verdictChange s z i before old new) = lasted s := by
  have hentry (u : State) (e : Entry) : lasted (journalEntry u e) = lasted u := lasted_of_steady (journalEntry_steady u e)
  have hunit (u : State) (t : Nat) (j : SIndex) : lasted (unitSnapshots u t j) = lasted u := lasted_congr (unitSnapshots_faults u t j)
  have hzone (u : State) (t : Nat) : lasted (zoneSnapshots u z t i) = lasted u := lasted_congr (zoneSnapshots_faults u z t i)
  have hurgent (u : State) : lasted (requestUrgent u z) = lasted u := lasted_congr (requestUrgent_faults u z)
  simp [verdictChange, apply_ite lasted, hentry, hunit, hzone, hurgent, coilsFollow_lasted, zoneChange_lasted]

theorem recordTrigger_faults (s : State) (z fired : Nat) (i : SIndex) : (recordTrigger s z fired i).faults = s.faults := by
  have hreopened (o : DrRecord) : (reopenRecord s o).faults = s.faults := by
    unfold reopenRecord
    split <;> rfl
  unfold recordTrigger
  dsimp only
  split
  · rfl
  · split
    · rfl
    · split
      · rfl
      · split
        · rfl
        · exact hreopened _

theorem reacts_congr {s t : State} {k : FaultKey} {l : Nat} (h : faultGet t k = faultGet s k) (hr : Reacts s k l) : Reacts t k l := by
  unfold Reacts
  rw [h]
  exact hr

/-- What the trip command, 50BF and 79 leave of a zone at the end of a wait, and whether the close has failed (Table 12.5). -/
def arSettled (s : State) (z : Nat) : Zone × Bool :=
  let t := tripStep (zoneCtx s z (zoneGet s z)) 0
  if z79On (rods s) z then arStep s z 0 t.2.1 t.2.2 t.1 else (t.1, false)

/-- A zone that settles with a failed close raises its fault (R479). -/
theorem settle_closeFails {s : State} {z : Nat} (hz : z < 256) (i : SIndex) (b : Bool) (hfails : (arSettled s z).2 = true)
    (hclear : faultGet s (keyZ 0x3680 z) = none) : Reacts (settle s z 0 i b) (keyZ 0x3680 z) 2 := by
  have hrow : plainRow (keyZ 0x3680 z) 2 = true := plainRow_of_inst (by decide) (by omega)
  have hlasting : lasting (keyZ 0x3680 z) = true := by
    have hb := bookkept_of_plainRow hrow
    unfold keyZ at hb
    simp [lasting, keyZ, hb]
  have hreported (u : State) (same : Prop) [Decidable same] (l : List Nat) (old new : Dataset) :
      lasted (if same then coilsFollow l u else verdictChange u z i l old new) = lasted u := by
    split
    · exact coilsFollow_lasted l u
    · exact verdictChange_lasted u z i l old new
  unfold arSettled at hfails
  unfold settle
  dsimp only at hfails ⊢
  rw [if_pos rfl, if_pos hfails]
  refine reacts_congr (faultGet_congr (congrArg Faults.recs (recordTrigger_faults _ _ _ _)) _) (reacts_arise_row ?_ hrow _ _ _)
  refine (faultGet_of_lasted (s := s) ?_ hlasting).trans hclear
  exact (hreported _ _ _ _ _).trans (lasted_congr rfl)

/-! The command of a wait -/

/-- The wait of a zone that serves ends: the zone takes its effect and settles, and the summary is judged. -/
theorem zoneEvent_eq {s : State} {z : Nat} (hserving : serving s = true) (henabled : zEnabled s z = true) (f : State → Zone → Zone) :
    zoneEvent z f s = judgeSummary (settle (zonePut s z (f s (zoneGet s z))) z 0 (zoneIdx s z) false) :=
  if_pos (Bool.and_eq_true_iff.mpr ⟨hserving, henabled⟩)

/-- The zone of an ended wait stands settled. -/
theorem zoneEvent_settled {s : State} {z : Nat} (hserving : serving s = true) (henabled : zEnabled s z = true) (f : State → Zone → Zone) :
    zoneGet (zoneEvent z f s) z = settledZone (zonePut s z (f s (zoneGet s z))) z := by
  have hframe : (zoneEvent z f s).sansVerdicts
      = (zonePut (zonePut s z (f s (zoneGet s z))) z (settledZone (zonePut s z (f s (zoneGet s z))) z)).sansVerdicts := by
    rw [zoneEvent_eq hserving henabled, judgeSummary_sansVerdicts, settle_wait_sansVerdicts]
  refine (congrArg (zoneGet · z) hframe).trans ?_
  rw [zoneGet_verdicts, zoneGet_zonePut, if_pos rfl]

/-- The context in which a wait's zone settles, and what trip command, 50BF and 79 leave of it there. -/
def waitCtx (s : State) (z : Nat) (y : Zone) : ZoneCtx := zoneCtx (zonePut s z y) z y
def arWaited (s : State) (z : Nat) (y : Zone) : Zone × Bool :=
  if z79On (rods s) z then
    arStep (zonePut s z y) z 0 (tripStep (waitCtx s z y) 0).2.1 (tripStep (waitCtx s z y) 0).2.2 (tripStep (waitCtx s z y) 0).1
  else ((tripStep (waitCtx s z y) 0).1, false)

theorem arSettled_zonePut (s : State) (z : Nat) (y : Zone) : arSettled (zonePut s z y) z = arWaited s z y := by
  have hget : zoneGet (zonePut s z y) z = y := by rw [zoneGet_zonePut, if_pos rfl]
  unfold arSettled
  rw [hget]
  rfl

/-- The settled zone is that with its dataset. -/
theorem settledZone_zonePut (s : State) (z : Nat) (y : Zone) :
    settledZone (zonePut s z y) z = { (arWaited s z y).1 with ds := datasetOf (zoneCtx (zonePut s z y) z (arWaited s z y).1) } := by
  rw [← arSettled_zonePut]
  rfl

section
variable {s : State} {z : Nat} {y : Zone}

/-- Trip command and 50BF of the zone are those of its trip step. -/
theorem arWaited_trip : (arWaited s z y).1.trip = (tripStep (waitCtx s z y) 0).1.trip := by
  unfold arWaited
  split
  · exact arStep_trip _ _ _ _ _ _
  · rfl

theorem arWaited_bf : (arWaited s z y).1.bf = (tripStep (waitCtx s z y) 0).1.bf := by
  unfold arWaited
  split
  · exact arStep_bf _ _ _ _ _ _
  · rfl

/-- 50BF that operates locks 79 out. -/
theorem arWaited_entered {rose : Bool} (hon : z79On (rods s) z = true) (hentered : (tripStep (waitCtx s z y) 0).2 = (rose, true)) :
    (arWaited s z y).1.ar = .lockout := by
  rw [arWaited, if_pos hon, hentered]
  exact arStep_entered 0 rose

/-- Where nothing rises and 50BF does not enter Operated, 79 takes its row of Table 12.5 on the zone as the wait left it. -/
theorem arWaited_quiet (hon : z79On (rods s) z = true) (hstands : tripVerdict (rods s) z y = true → y.trip = true) (hbf : y.bf ≠ .timing) :
    ∃ x, x.sansTrip = y.sansTrip ∧ arWaited s z y = arStep (zonePut s z y) z 0 false false x := by
  have hquiet : (tripStep (waitCtx s z y) 0).2 = (false, false) := tripStep_quiet hstands hbf
  refine ⟨(tripStep (waitCtx s z y) 0).1, tripStep_sansTrip _ _, ?_⟩
  rw [arWaited, if_pos hon, hquiet]

end

/-- The wait of a zone that serves ends: its zone stands settled, and a close that has failed has its fault; other zones, elements,
decisions, streams and inputs stay. -/
theorem answers_wait {c : Instr} {s : State} {z : Nat} {f : State → Zone → Zone} {p : State → Prop} (he : exec c s = run (zoneEvent z f) s)
    (hserving : serving s = true) (henabled : zEnabled s z = true) {y : Zone} (hy : f { s with out := [] } (zoneGet s z) = y)
    (hel : y.el = (zoneGet s z).el) (hdir : y.dir = (zoneGet s z).dir)
    (h : ∀ t, zoneGet t z = { (arWaited { s with out := [] } z y).1 with ds := (zoneGet t z).ds } →
      (zoneGet t z).ds.bf = ((zoneGet t z).bf == .operated) →
      ((arWaited { s with out := [] } z y).2 = true → z < 256 → faultGet s (keyZ 0x3680 z) = none → Reacts t (keyZ 0x3680 z) 2) →
      (∀ k, k ≠ z → zoneGet t k = zoneGet s k) ∧ (zoneGet t z).el = (zoneGet s z).el ∧ (zoneGet t z).dir = (zoneGet s z).dir
        ∧ t.streams = s.streams ∧ t.field = s.field → p t) : Answers c s p := by
  have hended := zoneEvent_waitEnded (s := { s with out := [] }) hserving henabled f
  have hzone : zoneGet (zoneEvent z f { s with out := [] }) z = settledZone (zonePut { s with out := [] } z y) z :=
    (zoneEvent_settled (s := { s with out := [] }) hserving henabled f).trans
      (congrArg (fun y => settledZone (zonePut { s with out := [] } z y) z) hy)
  rw [settledZone_zonePut] at hzone
  refine answers_of_run he (h _ ?_ ?_ (fun hfails hz hclear => ?_) ⟨hended.zones, ?_, ?_, hended.streams, hended.field⟩)
  · show zoneGet (zoneEvent z f { s with out := [] }) z = { (arWaited { s with out := [] } z y).1 with ds := (zoneGet (zoneEvent z f { s with out := [] }) z).ds }
    rw [hzone]
  · show (zoneGet (zoneEvent z f { s with out := [] }) z).ds.bf = ((zoneGet (zoneEvent z f { s with out := [] }) z).bf == .operated)
    rw [hzone]
    rfl
  · have hrow : plainRow (keyZ 0x3680 z) 2 = true := plainRow_of_inst (by decide) (by omega)
    have hsettled := settle_closeFails (s := zonePut { s with out := [] } z y) hz (zoneIdx { s with out := [] } z) false
      ((congrArg Prod.snd (arSettled_zonePut _ _ _)).trans hfails) hclear
    show Reacts (zoneEvent z f { s with out := [] }) _ _
    rw [zoneEvent_eq (s := { s with out := [] }) hserving henabled]
    exact reacts_judgeSummary (bookkept_of_plainRow hrow) (hy ▸ hsettled)
  · exact hended.els.trans ((congrArg Zone.el hy).trans hel)
  · exact hended.dirs.trans ((congrArg Zone.dir hy).trans hdir)

/-- A wait of 79, where nothing rises and 50BF does not enter Operated: 79 takes its row of Table 12.5 at its timer. -/
theorem answers_arWait {c : Instr} {s : State} {z : Nat} {f : State → Zone → Zone} {p : State → Prop} (he : exec c s = run (zoneEvent z f) s)
    (hserving : serving s = true) (henabled : zEnabled s z = true) {n : Nat}
    (hy : f { s with out := [] } (zoneGet s z) = { zoneGet s z with arTimer := n }) (hon : z79On (rods s) z = true)
    (hstands : tripVerdict (rods s) z (zoneGet s z) = true → (zoneGet s z).trip = true) (hbf : (zoneGet s z).bf ≠ .timing)
    (h : ∀ t x, (x.ar = (zoneGet s z).ar ∧ x.arK = (zoneGet s z).arK ∧ x.arTimer = n ∧ x.brk = (zoneGet s z).brk ∧ x.block = (zoneGet s z).block) →
      let a := arStep (zonePut { s with out := [] } z { zoneGet s z with arTimer := n }) z 0 false false x
      ((zoneGet t z).ar = a.1.ar ∧ (zoneGet t z).arK = a.1.arK ∧ (zoneGet t z).arTimer = a.1.arTimer ∧ (zoneGet t z).close = a.1.close) →
      (a.2 = true → z < 256 → faultGet s (keyZ 0x3680 z) = none → Reacts t (keyZ 0x3680 z) 2) →
      (∀ k, k ≠ z → zoneGet t k = zoneGet s k) ∧ (zoneGet t z).el = (zoneGet s z).el ∧ (zoneGet t z).dir = (zoneGet s z).dir
        ∧ t.streams = s.streams ∧ t.field = s.field → p t) : Answers c s p := by
  refine answers_wait he hserving henabled hy rfl rfl (fun t hzone _ hfails hrest => ?_)
  obtain ⟨x, hx, hrow⟩ := arWaited_quiet (s := { s with out := [] }) (y := { zoneGet s z with arTimer := n }) hon hstands hbf
  refine h t x ⟨?_, ?_, ?_, ?_, ?_⟩ ⟨?_, ?_, ?_, ?_⟩ (hrow ▸ hfails) hrest
  · have e := congrArg Zone.ar hx; exact e
  · have e := congrArg Zone.arK hx; exact e
  · have e := congrArg Zone.arTimer hx; exact e
  · have e := congrArg Zone.brk hx; exact e
  · have e := congrArg Zone.block hx; exact e
  all_goals rw [hzone, hrow]

theorem expireAr_due {a : ArState} {x : Zone} (h : x.ar = a) (limit : Nat) : expireAr a limit x = { x with arTimer := max x.arTimer limit } := if_pos h

/-- Settles O32: each command puts its wait's end into the zone, and the zone settles by Tables 12.4 and 12.5. -/
theorem commandWaitsEnd : Obligations.CommandWaitsEnd := by
  unfold Obligations.CommandWaitsEnd
  intro s z hserving henabled x others
  obtain ⟨htenth, hpositive⟩ := pipeRate_divides s
  refine ⟨fun htrip hbf hverdict => ?_, fun hon hbf htrip hverdict hcrit => ?_, fun hon hstands hbf hbad => ⟨fun har hbrk hblock => ?_,
    fun har hbrk => ?_, fun har hbrk => ?_, fun har hbrk hblock htimer => ?_, fun har hbrk hblock hclear => ?_⟩⟩
  · refine answers_wait (execTripMinimumExpiry.eq_def z s) hserving henabled (if_pos htrip) rfl rfl (fun t hzone _ _ hrest => ⟨?_, hrest⟩)
    rw [hzone]
    refine arWaited_trip.trans (tripStep_drops htrip hbf hverdict ?_)
    show pipeRate s ≤ 10 * max x.tripFor (pipeRate s / 10)
    omega
  · refine answers_wait (execBfTimerExpiry.eq_def z s) hserving henabled (if_pos hbf) rfl rfl (fun t hzone hds _ hrest => ?_)
    obtain ⟨htrips, hoperates, hentered⟩ := tripStep_operates (c := waitCtx { s with out := [] } z { x with bfC := max x.bfC (bfDelay s z) })
      hon hbf htrip hverdict hcrit (le_max_right _ _)
    have hbfEnd : (zoneGet t z).bf = .operated := (congrArg Zone.bf hzone).trans (arWaited_bf.trans hoperates)
    refine ⟨hbfEnd, (congrArg Zone.trip hzone).trans (arWaited_trip.trans htrips), ?_,
      fun h79 => (congrArg Zone.ar hzone).trans (arWaited_entered h79 hentered), hrest⟩
    rw [hds, hbfEnd]
    rfl
  · refine answers_arWait (execDeadTimeExpiry.eq_def z s) hserving henabled (expireAr_due har _) hon hstands hbf (fun t y hy ht _ hrest => ?_)
    obtain ⟨hyar, hyk, hytimer, hybrk, hyblock⟩ := hy
    obtain ⟨htar, -, httimer, htclose⟩ := ht
    obtain ⟨hclose, hcommand, htimer⟩ := arStep_deadEnd (s := zonePut { s with out := [] } z _) (z := z) (x := y) (hyar.trans har) (hybrk ▸ hbrk)
      (hyblock.trans hblock) (hybrk ▸ hbad) (by rw [hyk, hytimer]; exact le_max_right _ _)
    exact ⟨htar.trans hclose, htclose.trans hcommand, httimer.trans htimer, hrest⟩
  · refine answers_arWait (execReclaimExpiry.eq_def z s) hserving henabled (n := max x.arTimer (reclaimTime s z)) ?_ hon hstands hbf
      (fun t y hy ht _ hrest => ?_)
    · show expireReclaim _ _ x = _
      rw [expireReclaim, if_neg (by rw [har]; simp)]
      exact expireAr_due har _
    · obtain ⟨hyar, -, hytimer, hybrk, -⟩ := hy
      obtain ⟨htar, htk, -, -⟩ := ht
      obtain ⟨hready, hk⟩ := arStep_reclaimEnd (s := zonePut { s with out := [] } z _) (z := z) (x := y) (hyar.trans har) (hybrk ▸ hbrk)
        (hybrk ▸ hbad) (by rw [hytimer]; exact le_max_right _ _)
      exact ⟨htar.trans hready, htk.trans hk, hrest⟩
  · refine answers_arWait (execOpenTimerExpiry.eq_def z s) hserving henabled (expireAr_due har _) hon hstands hbf (fun t y hy ht _ hrest => ?_)
    obtain ⟨hyar, -, hytimer, hybrk, -⟩ := hy
    obtain ⟨htar, -, -, htclose⟩ := ht
    obtain ⟨hlockout, hcommand⟩ := arStep_openEnd (s := zonePut { s with out := [] } z _) (z := z) (x := y) (hyar.trans har) (hybrk ▸ hbrk)
      (by rw [hytimer]; exact le_max_right _ _)
    exact ⟨htar.trans hlockout, htclose.trans hcommand, hrest⟩
  · refine answers_arWait (execClosePulseEnd.eq_def z s) hserving henabled (expireAr_due har _) hon hstands hbf (fun t y hy ht _ hrest => ?_)
    obtain ⟨hyar, -, hytimer, hybrk, hyblock⟩ := hy
    obtain ⟨htar, -, -, htclose⟩ := ht
    have hrate : pipeRate (zonePut { s with out := [] } z { zoneGet s z with arTimer := max (zoneGet s z).arTimer (pipeRate s / 5) }) = pipeRate s := rfl
    obtain ⟨hclose, hcommand⟩ := arStep_pulseEnd
      (s := zonePut { s with out := [] } z { zoneGet s z with arTimer := max (zoneGet s z).arTimer (pipeRate s / 5) }) (z := z) (x := y)
      (hyar.trans har) (hybrk ▸ hbrk) (hyblock.trans hblock) (hybrk ▸ hbad)
      (by rw [hrate, hytimer]; show ¬ pipeRate s ≤ 2 * max x.arTimer (pipeRate s / 5); omega)
      (by rw [hrate, hytimer]; show pipeRate s ≤ 5 * max x.arTimer (pipeRate s / 5); omega)
    exact ⟨htar.trans hclose, htclose.trans hcommand, hrest⟩
  · refine answers_arWait (execCloseFailure.eq_def z s) hserving henabled (expireAr_due har _) hon hstands hbf (fun t y hy ht hfails hrest => ?_)
    obtain ⟨hyar, -, hytimer, hybrk, hyblock⟩ := hy
    obtain ⟨htar, -, -, htclose⟩ := ht
    have hrate : pipeRate (zonePut { s with out := [] } z { zoneGet s z with arTimer := max (zoneGet s z).arTimer (pipeRate s / 2) }) = pipeRate s := rfl
    obtain ⟨hlockout, hcommand, hfailed⟩ := arStep_closeFails
      (s := zonePut { s with out := [] } z { zoneGet s z with arTimer := max (zoneGet s z).arTimer (pipeRate s / 2) }) (z := z) (x := y)
      (hyar.trans har) (hybrk ▸ hbrk) (hyblock.trans hblock) (hybrk ▸ hbad)
      (by rw [hrate, hytimer]; show pipeRate s ≤ 2 * max x.arTimer (pipeRate s / 2); omega)
    exact ⟨htar.trans hlockout, htclose.trans hcommand, hfails hfailed z.isLt hclear, hrest⟩

end Sys2Proof.Machine
end

section
/-! Test mode and the persistence of thermal images (R467, R481, R482, R498, R792). -/
namespace Sys2Proof.Machine

/-- The status in effect and its runs are all that a status step writes. -/
theorem statusNow_theta (s : State) (z : Nat) (x : Zone) : (statusNow s z x).theta = x.theta := rfl

/-- The unit without COIL slots, faults, entries and tallies. -/
def State.sansCoils (s : State) : State := { s.sansRecords with reck := {} }

theorem sansCoils_of {s t : State} (h : t.sansRecords = s.sansRecords) : t.sansCoils = s.sansCoils := by
  unfold State.sansCoils
  rw [h]

theorem coilsFollow_sansCoils (l : List Nat) (s : State) : (coilsFollow l s).sansCoils = s.sansCoils := by
  have hcommand (u : State) (cc : Nat) (on : Bool) : (coilCommand u cc on).sansCoils = u.sansCoils := by
    unfold coilCommand
    split
    · exact (sansCoils_of (causeGone_sansRecords _ _)).trans rfl
    · split
      · rfl
      · rfl
  unfold coilsFollow
  refine foldl_keeps State.sansCoils _ (fun u cc => ?_) _ s
  split
  · rfl
  · exact hcommand _ _ _

/-- A restarted zone stands fresh; other zones, publications and pipelines stay. -/
theorem zoneRestart_leaves (s : State) (z : Nat) (x : Zone) :
    zoneGet (zoneRestart s z x) z = zoneFresh (rods s) z (statusNow s z x) ∧ (∀ y, y ≠ z → zoneGet (zoneRestart s z x) y = zoneGet s y)
      ∧ (zoneRestart s z x).pub = s.pub ∧ (zoneRestart s z x).pipes = s.pipes ∧ lasted (zoneRestart s z x) = lasted s := by
  have hframe := coilsFollow_sansCoils (commanded s) (zonePut s z (zoneFresh (rods s) z (statusNow s z x)))
  have hzone (k : Nat) := congrArg (zoneGet · k) hframe
  refine ⟨(hzone z).trans ?_, fun y hy => (hzone y).trans ?_, (congrArg State.pub hframe :), (congrArg State.pipes hframe :), ?_⟩
  · exact (zoneGet_zonePut _ _ _ _).trans (if_pos rfl)
  · exact (zoneGet_zonePut _ _ _ _).trans (if_neg hy)
  · exact (coilsFollow_lasted _ _).trans (lasted_congr rfl)

theorem testFault_row (z : Fin 256) : plainRow (keyZ 0x3700 z) 2 = true := plainRow_of_inst (by decide) (by omega)

theorem testFault_lasting (z : Fin 256) : lasting (keyZ 0x3700 z) = true := by
  have hb := bookkept_of_plainRow (testFault_row z)
  unfold keyZ at hb
  simp [lasting, keyZ, hb]

/-- Settles O33: the zone restarts into or out of test mode with its fault; thermal images are persisted behind the MRAM port's claims. -/
theorem testModeAndThermal : Obligations.TestModeAndThermal := by
  unfold Obligations.TestModeAndThermal
  refine ⟨fun s z hserving henabled htest hclear => ?_, fun s z hserving henabled htest hlevel => ?_, fun s hwaits => ?_,
    fun s hserving hstore hwaits => ?_⟩
  · refine answers_of_guard (b := fun u => serving u && zEnabled u z && !(zoneGet u z).test) (execTestModeEntry.eq_def z s)
      (Bool.and_eq_true_iff.mpr ⟨Bool.and_eq_true_iff.mpr ⟨hserving, henabled⟩, congrArg (! ·) htest⟩) ?_
    obtain ⟨hzone, hzones, hpub, hpipes, hlasted⟩ :=
      zoneRestart_leaves { s with out := [] } z { zoneGet s z with test := true, thetaCopy := (zoneGet s z).theta }
    have hframe : (enterTest { s with out := [] } z).sansRecords = _ := arise_sansRecords _ (keyZ 0x3700 z) 0 none16 [] (by dsimp only [keyZ]; decide)
    have hget (k : Nat) := congrArg (zoneGet · k) hframe
    refine ⟨(hget z).trans hzone, (congrArg Zone.theta ((hget z).trans hzone)).trans rfl, fun y hy => (hget y).trans (hzones y hy),
      reacts_arise_row ((faultGet_of_lasted hlasted (testFault_lasting z)).trans hclear) (testFault_row z) _ _ _,
      (congrArg State.pub hframe).trans hpub, (congrArg State.pipes hframe).trans hpipes⟩
  · refine answers_of_guard (b := fun u => serving u && zEnabled u z && (zoneGet u z).test) (execTestModeExit.eq_def z s)
      (Bool.and_eq_true_iff.mpr ⟨Bool.and_eq_true_iff.mpr ⟨hserving, henabled⟩, htest⟩) ?_
    obtain ⟨hzone, hzones, hpub, hpipes, hlasted⟩ := zoneRestart_leaves { s with out := [] } z { zoneGet s z with test := false, thetaCopy := 0 }
    have hframe : (leaveTest { s with out := [] } z).sansRecords = _ := causeGone_sansRecords _ (keyZ 0x3700 z)
    have hget (k : Nat) := congrArg (zoneGet · k) hframe
    refine ⟨(hget z).trans hzone, fun y hy => (hget y).trans (hzones y hy), faultStands_causeGone _ _ (fun r hr => ?_),
      (congrArg State.pub hframe).trans hpub, (congrArg State.pipes hframe).trans hpipes⟩
    exact hlevel r ((faultGet_of_lasted hlasted (testFault_lasting z)).symm.trans hr)
  · refine answers_of_run (execThermalPersist.eq_def s) ?_
    have hguard : (serving s && storeOn s && !mramWaits s) = false := by rw [hwaits]; exact Bool.and_false _
    exact congrArg (fun u : State => { u with pending := s.pending }) (if_neg (by show ¬ (serving s && storeOn s && !mramWaits s) = true; simp [hguard]))
  · exact answers_of_guard (b := fun u => serving u && storeOn u && !mramWaits u) (execThermalPersist.eq_def s)
      (Bool.and_eq_true_iff.mpr ⟨Bool.and_eq_true_iff.mpr ⟨hserving, hstore⟩, congrArg (! ·) hwaits⟩) ⟨rfl, rfl, rfl⟩

end Sys2Proof.Machine
end

section
/-! The local analogue section: one trigger's results, urgent checks and the reference monitor (R504, R512 to R522). -/
namespace Sys2Proof.Machine

/-! What conversions and comparisons leave -/

/-- The unit without what comparisons and converter faults change: an input's counts, requested checks, failed converters, records and tallies. -/
def State.sansChecks (s : State) : State :=
  { s.sansRecords with adc := { s.adc with inputs := [], urgent := [], asked := [], convFault := [] } }

theorem sansChecks_of {s t : State} (h : t.sansRecords = s.sansRecords) : t.sansChecks = s.sansChecks := by
  have e (u : State) : u.sansChecks = { u.sansRecords with
      adc := { u.sansRecords.adc with inputs := [], urgent := [], asked := [], convFault := [] } } := rfl
  rw [e, e, h]

theorem converterFault_sansRecords (s : State) (c : Nat) : (arise s (keyC 0x4180 c) 0 none16 []).sansRecords = s.sansRecords :=
  arise_sansRecords s _ _ _ _ (by dsimp only [keyC]; decide)

theorem noteConverter_sansChecks (s : State) (c : Nat) (x : ConvSet) : (noteConverter s c x).sansChecks = s.sansChecks := by
  unfold noteConverter
  split
  · rfl
  · exact (sansChecks_of (converterFault_sansRecords _ c)).trans rfl

theorem requestCheck_sansChecks (s : State) (i : Nat) : (requestCheck s i).sansChecks = s.sansChecks := by
  unfold requestCheck
  split <;> rfl

theorem countCompare_sansChecks (s : State) (i : Nat) (yK yP : Int) : (countCompare s i yK yP).sansChecks = s.sansChecks := by
  have hgone (u : State) : (causeGone u (keyA 0x4140 i)).sansChecks = u.sansChecks := sansChecks_of (causeGone_sansRecords u _)
  have harisen (u : State) (l : List Byte) : (arise u (keyA 0x4140 i) 0 none16 l).sansChecks = u.sansChecks :=
    sansChecks_of (arise_sansRecords u _ _ _ _ (by dsimp only [keyA]; decide))
  unfold countCompare
  split
  · dsimp only
    split
    · exact (hgone _).trans rfl
    · rfl
  · dsimp only
    split
    · exact (harisen _ _).trans rfl
    · split
      · rfl
      · exact (requestCheck_sansChecks _ i).trans rfl

theorem compareSets_sansChecks (s : State) (i k : Nat) (chk prim : Nat × ConvSet) : (compareSets s i k chk prim).sansChecks = s.sansChecks := by
  unfold compareSets
  split
  · split
    · rfl
    · exact countCompare_sansChecks s i _ _
  · rfl

/-! The result registers of a trigger -/

/-- Registers written one after another hold what was written. -/
theorem get_putRange {α : Type} [DecidableEq α] (d : α) (f : Nat → α) (t : Tab α) (e : Nat) : ∀ n, e < n →
    Tab.get d ((List.range n).foldl (fun t e => Tab.put d t e (f e)) t) e = f e
  | n + 1, h => by
    rw [List.range_succ, List.foldl_append, List.foldl_cons, List.foldl_nil, Tab.get_put]
    split
    next he => rw [he]
    next he => exact get_putRange d f t e n (by omega)

/-- The trigger's registers, and what the trigger leaves of the rest. -/
theorem adcConvert_eq (s : State) (idx : SIndex) (prim : List ConvSet) (k0 k1 : ConvSet) : ∃ v : State, v.sansChecks = s.sansChecks
    ∧ adcConvert s idx prim k0 k1 = { v with
        free := v.free + 32
        adc := { v.adc with
          sqr := (List.range 32).foldl (fun t e => Tab.put 0 t e (if seqSet (rods v) e then sqrWord v idx e prim k0 k1 else 0)) v.adc.sqr } } := by
  have htally (p : Nat) (u : State) : (tallyAdd u 2 p 1).sansChecks = u.sansChecks := rfl
  refine ⟨_, ?_, rfl⟩
  dsimp only
  rw [compareSets_sansChecks, compareSets_sansChecks]
  refine (foldl_keeps State.sansChecks _ (fun u p => ?_) _ _).trans ?_
  · split
    · split
      · rfl
      · rfl
    · rfl
  · rw [noteConverter_sansChecks, noteConverter_sansChecks]
    exact foldl_keeps State.sansChecks _ (fun u p => noteConverter_sansChecks u p _) _ s

/-- REFBAD and the mark of a skipped entry in a result register (Table 13.2). -/
theorem sqrWord_flags (s : State) (idx : SIndex) (e : Nat) (prim : List ConvSet) (k0 k1 : ConvSet) :
    sqrBit (sqrWord s idx e prim k0 k1) 25 = !s.adc.refOk
      ∧ sqrBit (sqrWord s idx e prim k0 k1) 26 = seqSkipped (adcInputs s) (rods s) e := by
  have hflag (b : Bool) (n : Nat) : (if b = true then n else 0) = b.toNat * n := by cases b <;> simp
  have hbit (a b27 b28 b29 b30 : Nat) (b24 b25 b26 : Bool) (ha : a < 2 ^ 24) :
      let w := BitVec.ofNat 32
        (a + b24.toNat * 2 ^ 24 + b25.toNat * 2 ^ 25 + b26.toNat * 2 ^ 26 + b27 * 2 ^ 27 + b28 * 2 ^ 28 + b29 * 2 ^ 29 + b30 * 2 ^ 30)
      sqrBit w 25 = b25 ∧ sqrBit w 26 = b26 := by
    have h24 : b24.toNat ≤ 1 := Bool.toNat_le b24
    have h25 : b25.toNat ≤ 1 := Bool.toNat_le b25
    have h26 : b26.toNat ≤ 1 := Bool.toNat_le b26
    have decided (b : Bool) : b = decide (b.toNat = 1) := by cases b <;> rfl
    refine ⟨.trans ?_ (decided b25).symm, .trans ?_ (decided b26).symm⟩
    all_goals
      simp only [sqrBit, BitVec.getLsbD_ofNat, Nat.testBit_eq_decide_div_mod_eq, Nat.reduceLT, decide_true, Bool.true_and, decide_eq_decide]
      omega
  unfold sqrWord
  dsimp only
  simp only [hflag]
  refine hbit _ _ _ _ _ _ _ _ ?_
  omega

/-- A trigger outside a commit, of a unit that does not serve: its conversions, one more index produced, and the new g_ref in force. -/
theorem adcTrigger_alone {s : State} {idx : SIndex} (hserving : serving s = false) (hdecided : decidedRow s = none) (hearlier : s.plug.earlier = none)
    (prim : List ConvSet) (k0 k1 : ConvSet) :
    let u : State := { s with adc := { s.adc with gRef := s.adc.gRefNext } }
    let t := adcConvert u idx prim k0 k1
    adcTrigger s idx prim k0 k1 = { t with
      plug := s.plug
      adc := { t.adc with produced := addProduced t idx, stepped := false, flight := [], change := changeAfter t idx } } := by
  intro u t
  have hrow : rowAtTrigger u idx = u := by
    have hu : decidedRow u = none := hdecided
    simp only [rowAtTrigger, hu]
  have himage : withImageAt u idx (fun s => adcConvert s idx prim k0 k1) = t := by
    have hu : decidedRow u = none := hdecided
    have he : u.plug.earlier = none := hearlier
    simp only [withImageAt, hu, he, t]
  obtain ⟨v, hv, ht⟩ := adcConvert_eq u idx prim k0 k1
  have hpower : t.power = s.power := by
    have e := congrArg State.power hv
    show (adcConvert u idx prim k0 k1).power = _
    rw [ht]
    exact e
  unfold adcTrigger
  dsimp only
  rw [hrow, himage]
  have hquiet : serving t = false := by rw [serving, hpower]; exact hserving
  exact if_neg (Bool.eq_false_iff.mp hquiet)

/-- Where the summary's judgement follows a trigger, the section stands as the trigger left it. -/
theorem trigger_leaves {s : State} {idx : SIndex} (hserving : serving s = false) (hdecided : decidedRow s = none) (hearlier : s.plug.earlier = none)
    (prim : List ConvSet) (k0 k1 : ConvSet) :
    let t := judgeSummary (adcTrigger s idx prim k0 k1)
    t.adc.produced = addProduced s idx ∧ t.adc.gRef = s.adc.gRefNext ∧ t.adc.refOk = s.adc.refOk ∧ t.free = s.free + 32 ∧ t.plug = s.plug ∧ t.zones = s.zones
      ∧ (∀ e < 32, seqSet (rods s) e = false → Tab.get 0 t.adc.sqr e = 0)
      ∧ (∀ e < 32, seqSet (rods s) e = true → sqrBit (Tab.get 0 t.adc.sqr e) 25 = !s.adc.refOk
        ∧ sqrBit (Tab.get 0 t.adc.sqr e) 26 = seqSkipped (adcInputs s) (rods s) e) := by
  intro t
  obtain ⟨v, hv, hconvert⟩ := adcConvert_eq { s with adc := { s.adc with gRef := s.adc.gRefNext } } idx prim k0 k1
  have hident : v.ident = s.ident := (congrArg State.ident hv :)
  have hplug : v.plug = s.plug := (congrArg State.plug hv :)
  have hrefOk : v.adc.refOk = s.adc.refOk := (congrArg (fun u : State => u.adc.refOk) hv :)
  have hrods : rods v = rods s := by rw [rods, hplug]; rfl
  have hinputs : adcInputs v = adcInputs s := by rw [adcInputs, strap, hident]; rfl
  have halone := adcTrigger_alone (idx := idx) hserving hdecided hearlier prim k0 k1
  dsimp only at halone
  rw [hconvert] at halone
  have hadc : t.adc = (adcTrigger s idx prim k0 k1).adc := judgeSummary_adc _
  have hframe : t.sansReports = (adcTrigger s idx prim k0 k1).sansReports := judgeSummary_sansReports _
  have hregister (e : Nat) (he : e < 32) : Tab.get 0 t.adc.sqr e = if seqSet (rods s) e then sqrWord v idx e prim k0 k1 else 0 := by
    rw [hadc, halone, ← hrods]
    exact get_putRange (0 : BitVec 32) (fun e => if seqSet (rods v) e then sqrWord v idx e prim k0 k1 else 0) _ e 32 he
  have hproduced : t.adc.produced = addProduced s idx := by
    have hruns : v.adc.produced = s.adc.produced := (congrArg (fun u : State => u.adc.produced) hv :)
    rw [hadc, halone]
    show addProduced v idx = addProduced s idx
    unfold addProduced
    rw [hruns, succIndex_congr hident]
  refine ⟨hproduced, ?_, ?_, ?_, ?_, ?_, fun e he hset => ?_, fun e he hset => ?_⟩
  · rw [hadc, halone]
    exact (congrArg (fun u : State => u.adc.gRef) hv :)
  · rw [hadc, halone]
    exact hrefOk
  · refine (congrArg State.free hframe :).trans ?_
    rw [halone]
    exact (congrArg (fun u : State => u.free + 32) hv :)
  · refine (congrArg State.plug hframe :).trans ?_
    rw [halone]
    rfl
  · refine (congrArg State.zones hframe :).trans ?_
    rw [halone]
    exact (congrArg State.zones hv :)
  · rw [hregister e he, if_neg (by rw [hset]; decide)]
  · rw [hregister e he, if_pos hset, ← hrefOk, ← hinputs, ← hrods]
    exact sqrWord_flags v idx e prim k0 k1

/-! Urgent checks (R520 to R522, R525) -/

/-- The request of an urgent check is taken. -/
def checkTaken (s : State) (i : Nat) : State := { s with adc := { s.adc with urgent := s.adc.urgent.filter (fun x => x.1 != i) } }

/-- The check has started on its primary and its checker. -/
def checkStarted (s : State) (i k start : Nat) : State :=
  { checkTaken s i with adc := { (checkTaken s i).adc with flight := s.adc.flight ++ [(i, start), (16 + k, start)] } }

/-- A check is dropped where another goes before it or its checker is busy, and runs where both converters are idle in time. -/
theorem urgentCheck_cases (s : State) (i start at_ : Nat) (prim chk : ConvSet) (hasked : s.adc.urgent.find? (fun x => x.1 == i) = some (i, at_)) :
    let k := coveringChecker (adcInputs s) (rods s) i
    (yieldsCheck s i k at_ = true ∨ converterBusy s (16 + k) (checkerOver s k) start = true →
      urgentCheck s i start prim chk = urgentDrop (checkTaken s i) (16 + k))
    ∧ (yieldsCheck s i k at_ = false → converterBusy s (16 + k) (checkerOver s k) start = false → converterBusy s i (primaryOver s i) start = false →
      endsInTime s start = true → urgentCheck s i start prim chk =
        let u := noteConverter (noteConverter (checkStarted s i k start) i prim) (16 + k) chk
        compareSets (if prim.any overRange then tallyAdd u 2 (32 + i) 1 else u) i k (0, chk) (0, prim)) := by
  intro k
  have hk : k = coveringChecker (adcInputs s) (rods s) i := rfl
  clear_value k
  have htime : endsInTime (checkTaken s i) start = endsInTime s start := rfl
  constructor
  · intro h
    unfold urgentCheck
    dsimp only
    rw [← hk, hasked]
    exact if_pos (Bool.or_eq_true_iff.mpr h)
  · intro hyields hchecker hprimary hends
    unfold urgentCheck
    dsimp only
    rw [← hk, hasked]
    refine (if_neg ?_).trans ((if_neg ?_).trans ((if_neg ?_).trans rfl))
    · show ¬ (yieldsCheck s i k at_ || converterBusy s (16 + k) (checkerOver s k) start) = true
      rw [hyields, hchecker]
      decide
    · show ¬ converterBusy s i (primaryOver s i) start = true
      rw [hprimary]
      decide
    · show ¬ (!endsInTime s start) = true
      rw [hends]
      decide

/-- A comparison that passes ends the run of failures and counts (R518). -/
theorem countCompare_passes {s : State} {i : Nat} {yK yP : Int} (h : comparePasses yK yP = true) :
    ∃ b, (countCompare s i yK yP).adc = (adcInPut s i { fails := 0, passes := (adcIn s i).passes + 1, invalid := b }).adc := by
  have hgone (u : State) : (causeGone u (keyA 0x4140 i)).adc = u.adc := (congrArg State.adc (causeGone_sansRecords u (keyA 0x4140 i)) :)
  unfold countCompare
  dsimp only
  rw [if_pos h]
  split
  · exact ⟨_, hgone _⟩
  · exact ⟨_, rfl⟩

/-- Two complete sets in range are compared while the reference stands (R517). -/
theorem compareSets_complete {s : State} {i k oc op : Nat} {lk lp : List Int} {c : Calib} (hcal : calib s = some c) (href : s.adc.refOk = true)
    (hk : overRange lk = false) (hp : overRange lp = false) : compareSets s i k (oc, some lk) (op, some lp)
      = countCompare s i (corrected s c (16 + k) i true (rawSum oc lk)) (corrected s c i i true (rawSum op lp)) := by
  simp [compareSets, hcal, href, hk, hp]

/-- A conversion that does not complete is a fault of its converter, where it has none yet (Table 13.6). -/
theorem noteConverter_fails {s : State} {c : Nat} (h : c ∉ s.adc.convFault) :
    noteConverter s c none = arise { s with adc := { s.adc with convFault := s.adc.convFault ++ [c] } } (keyC 0x4180 c) 0 none16 [] :=
  if_neg (by simpa using h)

theorem converterFault_row {c : Nat} (hc : c < 32) : plainRow (keyC 0x4180 c) 3 = true := plainRow_of_inst (by decide) (by omega)

theorem coveringChecker_le (adc : Nat) (r : Rods) (i : Nat) : coveringChecker adc r i ≤ 2 := by
  have hconv (e : Nat) : seqConv r e ≤ 3 := by
    have hcode : rodCode r (641 + 3 * e) < 32 := Nat.mod_lt _ (by decide)
    have hbeads : beads r (641 + 3 * e) 1 = rodCode r (641 + 3 * e) := by simp [beads]
    unfold seqConv gSeqConv beadsOr
    rw [hbeads]
    split <;> omega
  unfold coveringChecker namedChecker
  cases h : (List.range 32).find? (fun e => seqUsed adc r e && seqConv r e != 0) with
  | none => dsimp only [Option.map]; split <;> decide
  | some e =>
    have := hconv e
    dsimp only [Option.map]
    split <;> omega

/-- A failed primary has its fault, whatever becomes of the checker. -/
theorem noteConverter_reacts {s : State} {i c : Nat} (hi : i < 32) (hne : i ≠ c) (hnone : s.adc.convFault = [])
    (hclear : faultGet s (keyC 0x4180 i) = none) (chk : ConvSet) :
    Reacts (noteConverter (noteConverter s i none) c chk) (keyC 0x4180 i) 3 ∧ i ∈ (noteConverter (noteConverter s i none) c chk).adc.convFault
      ∧ ∀ u, u = noteConverter (noteConverter s i none) c chk → u.adc.urgent = s.adc.urgent ∧ u.adc.inputs = s.adc.inputs := by
  have hadc (u : State) (k : Nat) : (arise u (keyC 0x4180 k) 0 none16 []).adc = u.adc :=
    (congrArg State.adc (converterFault_sansRecords u k) :)
  have hlasting : lasting (keyC 0x4180 i) = true := by
    have hb := bookkept_of_plainRow (converterFault_row hi)
    unfold keyC at hb
    simp [lasting, keyC, hb]
  have hfirst := noteConverter_fails (s := s) (c := i) (by rw [hnone]; simp)
  have hreacts : Reacts (noteConverter s i none) (keyC 0x4180 i) 3 := by
    rw [hfirst]
    exact reacts_arise_row (s := { s with adc := { s.adc with convFault := s.adc.convFault ++ [i] } }) hclear (converterFault_row hi) 0 none16 []
  have hstate : (noteConverter s i none).adc = { s.adc with convFault := s.adc.convFault ++ [i] } := by
    rw [hfirst, hadc]
  generalize noteConverter s i none = u at hreacts hstate ⊢
  unfold noteConverter
  split
  · refine ⟨hreacts, by rw [hstate]; simp, ?_⟩
    rintro _ rfl
    exact ⟨by rw [hstate], by rw [hstate]⟩
  · refine ⟨reacts_congr (arise_lasting _ _ _ _ _ hlasting ?_) hreacts, by rw [hadc, hstate]; simp, ?_⟩
    · unfold keyNum keyC
      dsimp only
      omega
    · rintro _ rfl
      exact ⟨by rw [hadc, hstate], by rw [hadc, hstate]⟩

/-- One monitor reading (R513, R514): what it leaves of the section. -/
theorem referenceMonitor_adc (s : State) (v : Nat) : (referenceMonitor s v).adc = { s.adc with
    refOk := refOkNext s v, refAt := (if refOkNext s v == s.adc.refOk then s.adc.refAt else s.now), refReads := (v :: s.adc.refReads).take 9
    gRefNext := (if refMode s == 1 || refMode s == 2 then v else 2 ^ 24) } := by
  have hgone (u : State) : (causeGoneU u 0x4100).adc = u.adc := (congrArg State.adc (causeGone_sansRecords u _) :)
  have harisen (u : State) : (ariseU u 0x4100 0).adc = u.adc := (congrArg State.adc (arise_sansRecords u (keyU 0x4100) 0 none16 [] (by decide)) :)
  have hjudged (u : State) : (judgeReference u).adc = u.adc := by
    have hequal (b c d e : Bool) : (if b then (if c then causeGoneU u 0x4100 else u) else if d then u else if e then ariseU u 0x4100 0 else u).adc
        = u.adc := by
      split
      · split
        · exact hgone u
        · rfl
      · split
        · rfl
        · split
          · exact harisen u
          · rfl
    exact hequal _ _ _ _
  exact hjudged _

/-- A command with well-formed operands whose guard holds completes with the effect behind it; -/
theorem answers_of_runIf_guard {c : Instr} {s : State} {w : Bool} {b : State → Bool} {f g : State → State} {p : State → Prop}
    (he : exec c s = runIf w (fun u => if b u then f u else g u) s) (hw : w = true) (hb : b { s with out := [] } = true)
    (h : p { f { s with out := [] } with pending := s.pending }) : Answers c s p :=
  answers_of_runIf he hw (by rw [if_pos hb]; exact h)

/-- and one whose guard fails with the other. -/
theorem answers_of_runIf_else {c : Instr} {s : State} {w : Bool} {b : State → Bool} {f g : State → State} {p : State → Prop}
    (he : exec c s = runIf w (fun u => if b u then f u else g u) s) (hw : w = true) (hb : b { s with out := [] } = false)
    (h : p { g { s with out := [] } with pending := s.pending }) : Answers c s p :=
  answers_of_runIf he hw (by rw [if_neg (by rw [hb]; decide)]; exact h)

/-- Settles O28: a trigger's registers, an urgent check's three ways, and a monitor reading. -/
theorem localAnalogue : Obligations.LocalAnalogue := by
  unfold Obligations.LocalAnalogue
  refine ⟨fun s idx prim k0 k1 hwell hruns hserving hearlier hdecided hindex hdue => ?_, fun s i at_ start p c hwell hruns hasked => ?_,
    fun s v hrun hgood => ?_⟩
  · refine answers_of_runIf_else (b := fun u => !adcRuns u || decide (strapRate u ≤ idx.cnt) || !triggerDue u idx)
      (execAdcTrigger.eq_def idx prim k0 k1 s) hwell ?_ (trigger_leaves (s := { s with out := [] }) hserving hdecided hearlier prim k0 k1)
    have hlate : decide (strapRate s ≤ idx.cnt) = false := decide_eq_false (by omega)
    show (!adcRuns s || decide (strapRate s ≤ idx.cnt) || !triggerDue s idx) = false
    rw [hruns, hlate, hdue]
    rfl
  · intro k left
    have hsome : s.adc.urgent.any (·.1 == i.val) = true := by
      have hfound := List.find?_some hasked
      exact List.any_eq_true.mpr ⟨_, List.mem_of_find?_eq_some hasked, hfound⟩
    have hguard : (adcRuns s && s.adc.urgent.any (·.1 == i.val)) = true := Bool.and_eq_true_iff.mpr ⟨hruns, hsome⟩
    have act (pd cd : Bool) {q : State → Prop}
        (h : q { judgeSummary (urgentCheck { s with out := [] } i start (if pd then some [p] else none) (if cd then some [c] else none)) with
          pending := s.pending }) :
        Answers (.urgentCheck i start pd cd p c) s q :=
      answers_of_runIf_guard (b := fun u => adcRuns u && u.adc.urgent.any (·.1 == i.val)) (execUrgentCheck.eq_def i start pd cd p c s) hwell hguard h
    have hcases (prim chk : ConvSet) := urgentCheck_cases { s with out := [] } i start at_ prim chk hasked
    refine ⟨fun pd cd hdropped => act pd cd ?_, fun cal hyields hchecker hprimary hends hcal href hp hc hpasses => act true true ?_,
      fun cd hyields hchecker hprimary hends hnone hclear => act false cd ?_⟩
    · rw [(hcases _ _).1 hdropped]
      refine ⟨judgeSummary_adc _, ?_⟩
      have hk : k ≤ 2 := coveringChecker_le _ _ _
      have hword := congrFun (judgeSummary_catcherTally (urgentDrop (checkTaken { s with out := [] } i) (16 + k))) ⟨25 + k, by omega⟩
      have hget : tallyGet (judgeSummary (urgentDrop (checkTaken { s with out := [] } i) (16 + k))) 1 (25 + k)
          = tallyGet (urgentDrop (checkTaken { s with out := [] } i) (16 + k)) 1 (25 + k) := congrArg BitVec.toNat hword
      refine hget.trans ((tallyGet_tallyAdd _ _ _ _ _ _).trans ((if_pos (by omega)).trans ?_))
      have hindex : 9 + (16 + k) = 25 + k := by omega
      rw [hindex]
      rfl
    · rw [(hcases _ _).2 hyields hchecker hprimary hends]
      have hpair (u : State) : (compareSets (if (some [p] : ConvSet).any overRange then tallyAdd u 2 (32 + i) 1 else u) i k (0, some [c]) (0, some [p]))
          = compareSets u i k (0, some [c]) (0, some [p]) := by
        rw [if_neg (by show ¬ overRange [p] = true; rw [hp]; decide)]
      obtain ⟨b, hadc⟩ := countCompare_passes (s := checkStarted { s with out := [] } i k start) (i := i) hpasses
      have hleft := (judgeSummary_adc _).trans ((congrArg State.adc ((hpair (checkStarted { s with out := [] } i k start)).trans
        (compareSets_complete (k := k) hcal href hc hp))).trans hadc)
      have hinput (j : Nat) := (congrArg (fun a : Adc => Tab.get {} a.inputs j) hleft).trans (Tab.get_put _ _ _ _ _)
      exact ⟨(congrArg Adc.urgent hleft :), (congrArg Adc.flight hleft :), congrArg AdcIn.fails ((hinput i).trans (if_pos rfl)),
        congrArg AdcIn.passes ((hinput i).trans (if_pos rfl)), fun j hj => (hinput j).trans (if_neg hj)⟩
    · rw [(hcases _ _).2 hyields hchecker hprimary hends]
      obtain ⟨hreacts, hfailed, hadc⟩ := noteConverter_reacts (s := checkStarted { s with out := [] } i k start) (i := i) (c := 16 + k)
        (by omega) (by omega) hnone hclear (if cd then some [c] else none)
      have hnoPrimary (u : State) (chk : Nat × ConvSet) :
          (compareSets (if (none : ConvSet).any overRange then tallyAdd u 2 (32 + i) 1 else u) i k chk (0, none)) = u := by
        unfold compareSets
        split
        next h => cases h
        · rfl
      have hstate := congrArg judgeSummary (hnoPrimary (noteConverter (noteConverter (checkStarted { s with out := [] } i k start) i none) (16 + k)
        (if cd then some [c] else none)) (0, if cd then some [c] else none))
      have hend := (congrArg State.adc hstate).trans (judgeSummary_adc _)
      obtain ⟨hurgent, hinputs⟩ := hadc _ rfl
      refine ⟨(congrArg Adc.urgent hend).trans hurgent, ?_, ?_, (congrArg Adc.inputs hend).trans hinputs⟩
      · exact (congrArg (fun a : Adc => i.val ∈ a.convFault) hend).mpr hfailed
      · exact reacts_congr (congrArg (faultGet · (keyC 0x4180 i)) hstate :) (reacts_judgeSummary (bookkept_of_plainRow (converterFault_row (by omega))) hreacts)
  · refine answers_of_guard (b := fun u => coreRuns u && domainGood u 7) (execReferenceMonitor.eq_def v s)
      (Bool.and_eq_true_iff.mpr ⟨hrun, hgood⟩) ?_
    have hadc : (judgeSummary (referenceMonitor { s with out := [] } v)).adc = _ := (judgeSummary_adc _).trans (referenceMonitor_adc _ v)
    have hnext : (judgeSummary (referenceMonitor { s with out := [] } v)).adc.refOk = refOkNext s v := (congrArg Adc.refOk hadc :)
    refine ⟨hnext, fun hout => hnext.trans ?_, (congrArg Adc.refReads hadc :), fun hdecided => (congrArg Adc.gRefNext hadc).trans ?_,
      (congrArg Adc.gRef hadc :), (congrArg Adc.inputs hadc :), (congrArg Adc.sqr hadc :)⟩
    · unfold refOkNext
      dsimp only
      rw [hout]
      rfl
    · have hmode : refMode s = strap s 6 := if_pos hdecided
      show (if refMode s == 1 || refMode s == 2 then v else 2 ^ 24) = _
      rw [hmode]
      simp

end Sys2Proof.Machine
end

section
/-! What judging the summary leaves of the links and of the status counters (R220, R597 to R601). -/
namespace Sys2Proof.Machine

open Transmits

/-! Links -/

theorem sendStation_transmits (s : State) (l : List Byte) : Transmits s (sendStation s l) := by
  have numbered (n : BitVec 16) : Transmits s { s with ports := { s.ports with seqStation := n } } := of_get rfl (fun p => by cases p <;> rfl)
  exact ((numbered _).trans (sendUnit_transmits _ _ _)).trans (sendUnit_transmits _ _ _)

theorem sendSummary_transmits (s : State) (l : List Byte) : Transmits s (sendSummary s l) := by
  unfold sendSummary
  dsimp only
  split
  · exact (gooseKey_transmits s false).trans (sendStation_transmits _ _)
  · exact gooseKey_transmits s false

theorem pub_transmits (s : State) (p : Publisher) : Transmits s { s with pub := p } := of_reports rfl rfl

theorem releaseSummary_transmits (s : State) : Transmits s (releaseSummary s) := by
  unfold releaseSummary
  dsimp only
  refine (pub_transmits s _).trans (foldl (fun u f => ?_) _ _)
  split
  · exact sendSummary_transmits u _
  · exact refl u

theorem judgeSummary_transmits (s : State) : Transmits s (judgeSummary s) := by
  have handed (u : State) (st : Nat) (c : Bool) (l : List Byte) : Transmits u (handGoose u 256 st c l) := by
    rw [handGoose, if_neg (by decide)]
    exact (pub_transmits u _).trans (releaseSummary_transmits _)
  have changed (u : State) (i : SIndex) (t : Nat × Nat) (q : Nat) (l : List Byte) (r e : Nat) (d : List Byte) (b : Bool) :
      Transmits u (pubSet u 256 i t q l r e d b) := by
    rw [pubSet, if_neg (by decide)]
    exact of_reports rfl rfl
  unfold judgeSummary
  split
  · exact ((pub_transmits s _).trans (changed _ _ _ _ _ _ _ _ _)).trans (handed _ _ _ _)
  · exact refl s

/-! Status counters -/

/-- SSEQ and the next page of the status frames (R599). -/
def State.statusCount (s : State) : BitVec 32 × Nat := (s.pub.sseq, s.pub.page)

theorem statusCount_of_pub {s t : State} (h : t.pub = s.pub) : t.statusCount = s.statusCount := by
  unfold State.statusCount
  rw [h]

theorem sendStation_pub (s : State) (l : List Byte) : (sendStation s l).pub = s.pub := by
  have hunit (u : State) (p : Port) (o : Output) : (sendUnit u p o).pub = u.pub := by
    unfold sendUnit
    dsimp only
    split
    · rfl
    · split <;> cases p <;> rfl
  unfold sendStation sendCopy
  dsimp only
  rw [hunit, hunit]

theorem readKey_pub (s : State) (n : Nat) : (readKey s n).1.pub = s.pub := by
  unfold readKey
  split
  · rfl
  · split
    · rfl
    · dsimp only
      rw [keeps_pub (judgeKeys_sansRecords _), keeps_pub (journalEntry_sansRecords _ _)]
      rfl

theorem gooseKey_pub (s : State) (z : Bool) : (gooseKey s z).1.pub = s.pub := by
  unfold gooseKey
  split
  · rfl
  next n _ =>
    dsimp only
    split <;> exact readKey_pub s n

theorem releaseSummary_statusCount (s : State) : (releaseSummary s).statusCount = s.statusCount := by
  have hsummary (u : State) (l : List Byte) : (sendSummary u l).statusCount = u.statusCount := by
    refine statusCount_of_pub ?_
    unfold sendSummary
    dsimp only
    split
    · rw [sendStation_pub, gooseKey_pub]
    · exact gooseKey_pub u false
  unfold releaseSummary
  dsimp only
  refine (foldl_keeps State.statusCount _ (fun u f => ?_) _ _).trans rfl
  split
  · exact hsummary u _
  · rfl

theorem judgeSummary_statusCount (s : State) : (judgeSummary s).statusCount = s.statusCount := by
  have handed (u : State) (st : Nat) (c : Bool) (l : List Byte) : (handGoose u 256 st c l).statusCount = u.statusCount := by
    rw [handGoose, if_neg (by decide), releaseSummary_statusCount]
    rfl
  have changed (u : State) (i : SIndex) (t : Nat × Nat) (q : Nat) (l : List Byte) (r e : Nat) (d : List Byte) (b : Bool) :
      (pubSet u 256 i t q l r e d b).statusCount = u.statusCount := by
    rw [pubSet, if_neg (by decide)]
    rfl
  unfold judgeSummary summaryChange handChange
  dsimp only
  split
  · rw [handed, changed]
    rfl
  · rfl

end Sys2Proof.Machine
end

section
/-! Status frames each period and on a change of a key field (R597 to R599, R611). -/
namespace Sys2Proof.Machine

/-- A station frame leaves on S0 where S0 can send, no parity error waiting there. -/
theorem sendStation_out {s : State} (hcan : canSend s .s0 = true) (hgood : s.ports.s0.txBad = false) (l : List Byte) :
    .frame .s0 (withRct 0xA s.ports.seqStation l) ∈ (sendStation s l).out :=
  (sendUnit_sends _ _ _).out _ (sendUnit_out (s := { s with ports := { s.ports with seqStation := s.ports.seqStation + 1 } }) (p := .s0) hcan hgood _)

/-- The octets of a status frame before its body (Table 15.6). -/
def statusHead (s : State) : List Byte :=
  let oui := ((fuse s).map (fun f => f.oui.toNat)).getD 0
  octets 3 (Nat.lor oui 0x010000) ++ [0x0C#8, 0x41#8] ++ octets 1 (uid s) ++ octets 6 (stationMac s) ++ octets 2 0x88B7 ++ octets 3 oui ++ octets 2 0x0C41

theorem statusHead_length (s : State) : (statusHead s).length = 19 := by
  simp [statusHead, octets]

/-- SSEQ counts, the key fields are noted, and the next page follows. -/
def statusCounted (s : State) : State :=
  { s with pub := { s.pub with sseq := s.pub.sseq + 1, lastKey := keyFields s, page := (s.pub.page + 1) % pageCount s } }

theorem sendStatus_eq (s : State) : sendStatus s = sendStation (statusCounted s) (statusHead s ++ statusBody s) := rfl

/-- What a status frame leaves, where the summary has been judged before it. -/
theorem sendStatus_leaves (s : State) :
    let t := sendStatus (judgeSummary s)
    t.pub.sseq = s.pub.sseq + 1 ∧ t.pub.page = (s.pub.page + 1) % pageCount s ∧ t.sansReports = s.sansReports
      ∧ (canSend s .s0 = true → s.ports.s0.txBad = false → ∃ u head, u.sansReports = s.sansReports ∧ head.length = 19
        ∧ .frame .s0 (withRct 0xA u.ports.seqStation (head ++ statusBody u)) ∈ t.out) := by
  intro t
  have hcount := judgeSummary_statusCount s
  have hlinks := judgeSummary_transmits s
  have hreports := judgeSummary_sansReports s
  have hpub : t.pub = (statusCounted (judgeSummary s)).pub := sendStation_pub _ _
  have hpages : pageCount (judgeSummary s) = pageCount s := (congrArg pageCount hreports :)
  refine ⟨?_, ?_, (sendStation_sansReports _ _).trans hreports, fun hcan hgood => ⟨judgeSummary s, statusHead (judgeSummary s), hreports,
    statusHead_length _, ?_⟩⟩
  · rw [hpub]
    exact congrArg (fun c : BitVec 32 × Nat => c.1 + 1) hcount
  · rw [hpub]
    show ((judgeSummary s).pub.page + 1) % pageCount (judgeSummary s) = _
    rw [hpages]
    exact congrArg (fun c : BitVec 32 × Nat => (c.2 + 1) % pageCount s) hcount
  · exact sendStation_out (s := statusCounted (judgeSummary s)) ((canSend_transmits hlinks .s0).trans hcan) (hlinks.parity .s0 hgood) _

/-- Settles O35: the summary is judged, and the frame leaves with the next page; SSEQ counts. -/
theorem statusFrames : Obligations.StatusFrames := by
  unfold Obligations.StatusFrames
  have hsent (s : State) : let t := sendStatus (judgeSummary (readAckIn { s with out := [] }))
      t.pub.sseq = s.pub.sseq + 1 ∧ t.pub.page = (s.pub.page + 1) % pageCount s ∧ t.free = s.free + 1 ∧ t.zones = s.zones ∧ t.power = s.power
        ∧ (canSend s .s0 = true → s.ports.s0.txBad = false → ∃ u head, u.sansReports = { s with free := s.free + 1 }.sansReports
          ∧ head.length = 19 ∧ .frame .s0 (withRct 0xA u.ports.seqStation (head ++ statusBody u)) ∈ t.out) := by
    obtain ⟨hsseq, hpage, hreports, hframe⟩ := sendStatus_leaves (readAckIn { s with out := [] })
    exact ⟨hsseq, hpage, (congrArg State.free hreports :), (congrArg State.zones hreports :), (congrArg State.power hreports :), hframe⟩
  refine ⟨fun s hruns => ?_, fun s hruns hkey => ?_, fun s hruns hkey => ?_⟩
  · exact answers_of_guard (b := statusRuns) (execStatusFramePeriodic.eq_def s) hruns (hsent s)
  · refine answers_of_guard (b := statusRuns) (execStatusFrameOnChange.eq_def s) hruns ?_
    have hchange : statusOnChange { s with out := [] } = sendStatus (judgeSummary (readAckIn { s with out := [] })) :=
      if_pos (bne_iff_ne.mpr hkey)
    rw [hchange]
    exact hsent s
  · refine answers_of_guard (b := statusRuns) (execStatusFrameOnChange.eq_def s) hruns ?_
    have hsame : statusOnChange { s with out := [] } = readAckIn { s with out := [] } := if_neg (by
      rw [bne_iff_ne]
      exact not_not.mpr hkey)
    rw [hsame]
    rfl

end Sys2Proof.Machine
end

section
/-! A lane goes down in a state whose link counts as lost (R617, R621). -/
namespace Sys2Proof.Machine

/-- What a lane leaves behind on the other does not tell whether the link counts as lost. -/
theorem laneDown_carryLost (s : State) (n : Fin 2) : (laneDown s n).pair.carryLost = s.pair.carryLost := by
  have hput (u : State) (x : Lane) : (lanePut u n x).pair.carryLost = u.pair.carryLost := by unfold lanePut; split <;> rfl
  have hsent (l : List CarryMsg) (u : State) : (l.foldl (fun s m => carrySend s (1 - n) m) u).pair.carryLost = u.pair.carryLost :=
    foldl_keeps (fun u => u.pair.carryLost) (fun u m => carrySend u (1 - n) m) (fun u m => (congrArg (fun v : State => v.pair.carryLost) (carrySend_sansRecords u (1 - n) m) :)) l u
  unfold laneDown
  dsimp only
  split
  · exact (hsent _ _).trans (hput _ _)
  · exact hput _ _

theorem settled_carryLost (f : State → State) (s : State) : (settled f s).pair.carryLost = (f s).pair.carryLost := by
  have e := congrArg (fun u : State => u.pair.carryLost) (settled_frame f s); exact e

/-- A twin in Pairing with both lanes up, whose link still counts as lost. -/
def staleLoss : State := { sTwo .pairing with pair := { (sTwo .pairing).pair with carryLost := true } }

/-- A lane that goes down leaves the link counted as it was. -/
theorem carryLaneDown_carryLost {s : State} {n : Fin 2} (hon : carryOn s = true) (hup : (laneGet s n).up = true) :
    Answers (.carryLaneDown n) s (fun t => t.pair.carryLost = s.pair.carryLost) :=
  answers_of_guard (b := fun u => carryOn u && (laneGet u n).up) (execCarryLaneDown.eq_def n s) (Bool.and_eq_true_iff.mpr ⟨hon, hup⟩)
    ((settled_carryLost (fun u => laneDown u n) { s with out := [] }).trans (laneDown_carryLost _ n))

/-- Refutes O36: its clause on a lane that goes down says that the link runs on, whatever the state; in `staleLoss` both lanes are up and the link
counts as lost, which only a lane that comes up ends (R617), so with the lane that remains it does not run. -/
theorem not_carryLanes : ¬ Obligations.CarryLanes := by
  unfold Obligations.CarryLanes
  rintro ⟨-, -, -, hdown, -, -⟩
  have hon : carryOn staleLoss = true := by decide
  have hup : (laneGet staleLoss 0).up = true := by decide
  obtain ⟨t, -, ⟨-, -, hruns, -, -⟩, hlost⟩ := (hdown staleLoss 0 hon hup (by decide)).and (carryLaneDown_carryLost hon hup)
  have hstale : t.pair.carryLost = true := hlost.trans rfl
  unfold carryRuns at hruns
  rw [hstale] at hruns
  cases hruns

end Sys2Proof.Machine
end

section
/-! The carry heartbeat of a Standby whose lane 1 is down: the entry of a fault that it judges first takes the last place on lane 0. -/
namespace Sys2Proof.Machine

/-! The heartbeats among the frames that leave -/

/-- A carry frame that leaves with a heartbeat. -/
def isBeat : Output → Bool
  | .carry _ _ (.heartbeat _) _ => true
  | _ => false

/-- The message is a heartbeat. -/
def isHeartbeat : CarryMsg → Bool
  | .heartbeat _ => true
  | _ => false

/-- A message leaves whole, or in one segment and more (R618, R621). -/
theorem carryParts_cases (one : Bool) (m : CarryMsg) : carryParts one m = [m] ∨
    ∃ n k, n ≠ 0 ∧ carryParts one m = (List.range n).map (fun i => .part (carryType m) (((carryPayload m).drop (k * i)).take k)) := by
  generalize hk : (if one then 256 else 1024) = k
  have hpos : 0 < k := by rw [← hk]; cases one <;> decide
  have heq : carryParts one m = if carryLane m = 0 || (carryPayload m).length ≤ k then [m]
      else (List.range (ceilDiv (carryPayload m).length k)).map (fun i => .part (carryType m) (((carryPayload m).drop (k * i)).take k)) := by
    rw [← hk]; rfl
  rw [heq]
  split
  · exact Or.inl rfl
  next h =>
    simp only [Bool.or_eq_true, decide_eq_true_eq, not_or, not_le] at h
    exact Or.inr ⟨_, k, (Nat.div_pos (by omega) hpos).ne', rfl⟩

theorem carryParts_ne_nil (one : Bool) (m : CarryMsg) : carryParts one m ≠ [] := by
  rcases carryParts_cases one m with h | ⟨n, k, hn, h⟩ <;> rw [h]
  · simp
  · simpa using hn

theorem isHeartbeat_of_part {one : Bool} {m x : CarryMsg} (hm : isHeartbeat m = false) (hx : x ∈ carryParts one m) : isHeartbeat x = false := by
  rcases carryParts_cases one m with h | ⟨n, k, -, h⟩ <;> rw [h] at hx
  · rw [List.mem_singleton.mp hx]
    exact hm
  · obtain ⟨i, -, rfl⟩ := List.mem_map.mp hx
    rfl

/-- Lane 0 is up with no place for a frame, lane 1 is down, and no heartbeat has left. -/
def NoPlace (s : State) : Prop := s.pair.lane0.up = true ∧ s.pair.lane1.up = false ∧ s.pair.lane0.unacked.length = 64 ∧ s.out.filter isBeat = []

theorem carryPut_noPlace {s : State} (l : Fin 2) (m : CarryMsg) (h : NoPlace s) : NoPlace (carryPut s l m) := by
  obtain ⟨hup, hdown, hfull, hout⟩ := h
  have hput : carryPut s l m = { s with pair := { s.pair with lane0 := { s.pair.lane0 with waiting := waitBehind s.pair.lane0.waiting m } } } := by
    simp [carryPut, hup, hdown, hfull]
  rw [hput]
  exact ⟨hup, hdown, hfull, hout⟩

/-- The last place is taken. -/
theorem carryPut_last {s : State} (l : Fin 2) {m : CarryMsg} (hm : isHeartbeat m = false) (hup : s.pair.lane0.up = true)
    (hdown : s.pair.lane1.up = false) (hplaces : s.pair.lane0.unacked.length = 63) (hout : s.out = []) : NoPlace (carryPut s l m) := by
  have hbeat (h : CarryTx) : isBeat (carryOut 0 h m) = false := by
    cases m <;> simp_all [isBeat, carryOut, isHeartbeat]
  have hput : carryPut s l m = emit { s with pair := { s.pair with lane0 := { s.pair.lane0 with
      txSeq := s.pair.lane0.txSeq + 1, unacked := s.pair.lane0.unacked ++ [(s.pair.lane0.txSeq, m)] } } }
        (carryOut 0 (carryTx s 0 s.pair.lane0.txSeq false) m) := by
    simp [carryPut, hup, hdown, hplaces]
  rw [hput]
  refine ⟨hup, hdown, by simp [emit, hplaces], ?_⟩
  simp [emit, hout, hbeat]

theorem foldl_noPlace (l : Fin 2) : ∀ (parts : List CarryMsg) (s : State), NoPlace s → NoPlace (parts.foldl (fun u x => carryPut u l x) s)
  | [], _, h => h
  | x :: rest, _, h => foldl_noPlace l rest _ (carryPut_noPlace l x h)

theorem carrySend_noPlace {s : State} (l : Fin 2) (m : CarryMsg) (h : NoPlace s) : NoPlace (carrySend s l m) := foldl_noPlace l _ s h

theorem carrySend_last {s : State} (l : Fin 2) {m : CarryMsg} (hm : isHeartbeat m = false) (hup : s.pair.lane0.up = true)
    (hdown : s.pair.lane1.up = false) (hplaces : s.pair.lane0.unacked.length = 63) (hout : s.out = []) : NoPlace (carrySend s l m) := by
  unfold carrySend
  generalize hparts : carryParts (!(s.pair.lane0.up && s.pair.lane1.up)) m = parts
  cases parts with
  | nil => exact absurd hparts (carryParts_ne_nil _ m)
  | cons x rest =>
    have hx : isHeartbeat x = false := isHeartbeat_of_part hm (hparts ▸ List.mem_cons_self)
    exact foldl_noPlace l rest _ (carryPut_last l hx hup hdown hplaces hout)

/-! A Standby with a swap overdue -/

/-- A Standby on lane 0 alone, one place left there, with a swap due for an hour and no station port up. -/
def sOverdue : State :=
  { sTwo .standby with
    now := 3600 * ticksPerSec
    ports := {}
    pair := { (sTwo .standby).pair with
      lane0 := { up := true, unacked := List.replicate 63 (0, .idle) }, lane1 := {}, swapDue := some 0, bothUpAt := 3600 * ticksPerSec } }

/-- The entry of the swap's fault is sent for its number (R661, Table 16.13). -/
theorem sOverdue_judges : ∃ u c, judgeSwap (judgeLanes { sOverdue with out := [] }) = carrySend u 1 (.jentry c) ∧ u.pair.lane0 = sOverdue.pair.lane0
    ∧ u.pair.lane1.up = false ∧ u.out = [] ∧ summaryRuns u = false := ⟨_, _, rfl, rfl, rfl, rfl, rfl⟩

/-- A heartbeat that finds no place does not leave. -/
theorem quietSend_out {v : State} (b : HeartbeatBody) (hplaces : NoPlace v) (hsilent : summaryRuns v = false) :
    (judgeSummary (carrySend { v with pair := { v.pair with hbCarry := v.pair.hbCarry + 1, unagreed := false } } 0 (.heartbeat b))).out.filter isBeat = [] := by
  generalize hw : ({ v with pair := { v.pair with hbCarry := v.pair.hbCarry + 1, unagreed := false } } : State) = w
  have hsame : NoPlace w ∧ summaryRuns w = false := hw ▸ ⟨hplaces, hsilent⟩
  obtain ⟨-, -, -, hout⟩ := carrySend_noPlace 0 (.heartbeat b) hsame.1
  have hsummary : summaryRuns (carrySend w 0 (.heartbeat b)) = false := (congrArg summaryRuns (carrySend_sansRecords w 0 _) :).trans hsame.2
  unfold judgeSummary
  rw [hsummary]
  exact hout

/-- Behind the entry the heartbeat waits for a place (R620). -/
theorem sOverdue_waits : Answers .carryHeartbeatSend sOverdue (fun t => t.out.filter isBeat = []) := by
  refine answers_of_guard (b := carryOn) (execCarryHeartbeatSend.eq_def sOverdue) (by decide) ?_
  obtain ⟨u, c, hjudged, hlane0, hdown, hout, hquiet⟩ := sOverdue_judges
  have hplaces : NoPlace (judgeSwap (judgeLanes { sOverdue with out := [] })) := by
    rw [hjudged]
    exact carrySend_last 1 rfl (by rw [hlane0]; rfl) hdown (by rw [hlane0]; rfl) hout
  have hsilent : summaryRuns (judgeSwap (judgeLanes { sOverdue with out := [] })) = false := by
    rw [hjudged]
    exact (congrArg summaryRuns (carrySend_sansRecords u 1 _) :).trans hquiet
  exact quietSend_out (v := judgeSwap (judgeLanes { sOverdue with out := [] })) _ hplaces hsilent

/-- Refutes O38: its clause on the carry heartbeat says that it leaves under the next number of lane 0, whatever the state; in `sOverdue` an entry that
the send itself makes, of the swap's fault, takes the lane's last place. -/
theorem not_heartbeats : ¬ Obligations.Heartbeats := by
  unfold Obligations.Heartbeats
  rintro ⟨hcarry, -⟩
  obtain ⟨t, -, ⟨-, -, hleaves⟩, hwaits⟩ := (hcarry sOverdue (by decide) (by decide) rfl (by decide)).and sOverdue_waits
  exact absurd (List.mem_filter.mpr ⟨hleaves, rfl⟩) (by rw [hwaits]; simp)

end Sys2Proof.Machine
end

section
/-! What the pair's settling leaves of the carry lanes' receiving ends (R618, R619): which are up, and the SEQ each expects next. -/
namespace Sys2Proof.Machine

/-- What a carry frame that leaves tells of the receiving ends. -/
def State.receiving (s : State) : (Bool × BitVec 16) × Bool × BitVec 16 :=
  ((s.pair.lane0.up, s.pair.lane0.rxSeq), s.pair.lane1.up, s.pair.lane1.rxSeq)

theorem receiving_of_pair {s t : State} (h : t.pair = s.pair) : t.receiving = s.receiving := by
  unfold State.receiving
  rw [h]

/-- The header of a frame tells the receiving ends alone. -/
theorem carryTx_of_receiving {s t : State} (h : t.receiving = s.receiving) (n : Fin 2) (seq : BitVec 16) (retx : Bool) :
    carryTx t n seq retx = carryTx s n seq retx := by
  simp only [State.receiving, Prod.mk.injEq] at h
  obtain ⟨⟨hup0, hrx0⟩, hup1, hrx1⟩ := h
  simp only [carryTx, hup0, hrx0, hup1, hrx1]

/-! Frames and entries -/

theorem carryPut_receiving (s : State) (l : Fin 2) (m : CarryMsg) : (carryPut s l m).receiving = s.receiving := by
  unfold carryPut
  dsimp only
  generalize (if l = 0 then (s.pair.lane0.up || !s.pair.lane1.up) else (s.pair.lane0.up && !s.pair.lane1.up)) = zero
  cases zero
  · simp only [Bool.false_eq_true, if_false]
    split_ifs <;> rfl
  · simp only [if_true]
    split_ifs <;> rfl

@[simp] theorem carrySend_receiving (s : State) (l : Fin 2) (m : CarryMsg) : (carrySend s l m).receiving = s.receiving :=
  foldl_keeps State.receiving _ (fun u x => carryPut_receiving u l x) _ s

@[simp] theorem submitEntry_receiving (s : State) (e : Entry) : (submitEntry s e).receiving = s.receiving := by
  have placed (u : State) (e : Entry) : (placeEntry u e).receiving = u.receiving := by
    unfold placeEntry
    split
    · exact (carrySend_receiving _ _ _).trans rfl
    · rfl
  have queued (u : State) (e : Entry) : (queueEntry u e).receiving = u.receiving := by
    unfold queueEntry
    dsimp only
    split_ifs
    · rfl
    · exact placed u e
    · rfl
    · rfl
    · exact placed u e
  have limited : (limitEntry s e).receiving = s.receiving := by
    unfold limitEntry
    dsimp only
    split_ifs
    · exact queued s e
    · rfl
    · rfl
    · exact (queued _ e).trans rfl
    · exact (queued _ e).trans ((queued _ _).trans rfl)
  unfold submitEntry
  split_ifs
  · rfl
  · rfl
  · exact limited

/-! Faults -/

theorem reactPlain_receiving (s : State) (k : FaultKey) (r : FaultRec) (n : Nat) (d : List Byte) : (reactPlain s k r n d).receiving = s.receiving :=
  (submitEntry_receiving _ _).trans rfl

/-- An arising keeps what its reaction, below Withdraw, keeps. -/
theorem ariseWith_receiving (re : State → FaultKey → FaultRec → Nat → List Byte → State)
    (h : ∀ s k r n d, r.level ≠ 4 → (re s k r n d).receiving = s.receiving) (s : State) (k : FaultKey) (det hdl : Nat) (d : List Byte)
    (hl : max (faultRow k.code).2.1 (raiseLevel s k.code) < 4) : (ariseWith re s k det hdl d).receiving = s.receiving := by
  unfold ariseWith
  split
  · exact h _ _ _ _ _ (by dsimp only; omega)
  next r _ =>
    dsimp only
    split_ifs with hlevel hacked hceiling <;> (try rfl) <;> split <;> (try rfl) <;> exact h _ _ _ _ _ (by dsimp only; omega)

theorem journalEntry_receiving (s : State) (e : Entry) : (journalEntry s e).receiving = s.receiving := by
  have lost (u : State) : (raiseLost u e).receiving = u.receiving := by
    unfold raiseLost
    refine ariseWith_receiving reactPlain (fun u k r n d _ => reactPlain_receiving u k r n d) u _ _ _ _ (ceiling_lt u _ ?_)
    split
    · dsimp only
      decide
    · decide
  unfold journalEntry
  dsimp only
  split
  · rw [lost, submitEntry_receiving]
  · exact submitEntry_receiving s e

theorem causeGone_receiving (s : State) (k : FaultKey) : (causeGone s k).receiving = s.receiving := by
  unfold causeGone
  split
  · rfl
  · split
    · rfl
    · split
      · rfl
      · split
        · exact (submitEntry_receiving _ _).trans rfl
        · exact reactPlain_receiving s _ _ _ _
      · rfl

theorem judgeFault_receiving (s : State) (k : FaultKey) (det hdl : Nat) (b : Bool) (h : max (faultRow k.code).2.1 (faultRow k.code).1 < 4) :
    (judgeFault s k det hdl b).receiving = s.receiving := by
  have arisen : (arise s k det hdl []).receiving = s.receiving :=
    ariseWith_receiving react (fun u k r n d hr => by rw [react, if_neg hr]; exact reactPlain_receiving u k r n d) s k det hdl []
      (ceiling_lt s k.code h)
  unfold judgeFault
  split_ifs
  · rfl
  · exact arisen
  · exact causeGone_receiving s k
  · rfl

/-! Keys and publications -/

theorem judgeKeys_receiving (s : State) : (judgeKeys s).receiving = s.receiving := by
  unfold judgeKeys
  dsimp only
  rw [judgeFault_receiving _ (keyU 0x5140) _ _ _ (by decide), judgeFault_receiving _ (keyU 0x5100) _ _ _ (by decide)]
  exact foldl_keeps State.receiving judgeKey (fun u n => judgeFault_receiving u _ _ _ _ (by dsimp only; decide)) _ s

theorem gooseKey_receiving (s : State) (z : Bool) : (gooseKey s z).1.receiving = s.receiving := by
  have read (n : Nat) : (readKey s n).1.receiving = s.receiving := by
    unfold readKey
    split
    · rfl
    · split
      · rfl
      · rw [judgeKeys_receiving, journalEntry_receiving]
        rfl
  unfold gooseKey
  split
  · rfl
  next n _ =>
    dsimp only
    split <;> exact read n

theorem releaseSummary_receiving (s : State) : (releaseSummary s).receiving = s.receiving := by
  have unit (u : State) (p : Port) (o : Output) : (sendUnit u p o).receiving = u.receiving := by
    refine receiving_of_pair ?_
    unfold sendUnit
    dsimp only
    split
    · rfl
    · split <;> cases p <;> rfl
  have station (u : State) (l : List Byte) : (sendStation u l).receiving = u.receiving := by
    have copy (v : State) (p : Port) (l : List Byte) : (sendCopy v p l).receiving = v.receiving := unit v p _
    unfold sendStation
    dsimp only
    rw [copy, copy]
    rfl
  have summary (u : State) (l : List Byte) : (sendSummary u l).receiving = u.receiving := by
    unfold sendSummary
    dsimp only
    split
    · rw [station, gooseKey_receiving]
    · exact gooseKey_receiving u false
  unfold releaseSummary
  dsimp only
  refine (foldl_keeps State.receiving _ (fun u f => ?_) _ _).trans rfl
  split
  · exact summary u _
  · rfl

theorem handGoose_receiving (s : State) (p st : Nat) (c : Bool) (l : List Byte) : (handGoose s p st c l).receiving = s.receiving := by
  have number (u : State) (f : TxFrame) : (numbered u f).1.receiving = u.receiving := by
    unfold numbered
    split
    · dsimp only
      split <;> rfl
    · rfl
  have queued (f : TxFrame) : (enqueue s f).receiving = s.receiving := by
    unfold enqueue
    split
    · exact number s f
    · split
      · split
        · exact number s _
        · rfl
      · rfl
  unfold handGoose
  split
  · split
    · exact queued _
    · split <;> rfl
  · exact (releaseSummary_receiving _).trans rfl

theorem pubSet_receiving (s : State) (p : Nat) (i : SIndex) (t : Nat × Nat) (q : Nat) (l : List Byte) (r e : Nat) (d : List Byte) (b : Bool) :
    (pubSet s p i t q l r e d b).receiving = s.receiving := by
  unfold pubSet
  dsimp only
  split <;> rfl

theorem summaryChange_receiving (s : State) : (summaryChange s).receiving = s.receiving :=
  (handGoose_receiving _ _ _ _ _).trans ((pubSet_receiving _ _ _ _ _ _ _ _ _ _).trans rfl)

theorem judgeSummary_receiving (s : State) : (judgeSummary s).receiving = s.receiving := by
  unfold judgeSummary
  split
  · exact summaryChange_receiving s
  · rfl

theorem authChanged_receiving (s : State) : (authChanged s).receiving = s.receiving := by
  have zone (u : State) (z : Nat) : (zoneChangeNow u z).receiving = u.receiving := by
    unfold zoneChangeNow zoneChangeAt handChange
    dsimp only
    split
    · exact pubSet_receiving _ _ _ _ _ _ _ _ _ _
    · exact (handGoose_receiving _ _ _ _ _).trans (pubSet_receiving _ _ _ _ _ _ _ _ _ _)
  have published (u : State) (p : Publisher) : ({ u with pub := p } : State).receiving = u.receiving := rfl
  unfold authChanged
  dsimp only
  split_ifs <;>
    simp [published, judgeKeys_receiving, summaryChange_receiving, foldl_keeps State.receiving zoneChangeNow zone]

/-! The pair's settling -/

theorem syncGuarantee_receiving (s : State) : (syncGuarantee s).receiving = s.receiving := by
  have condition (u : State) (c : Nat) : (syncCondition u c).receiving = u.receiving := by
    unfold syncCondition
    dsimp only
    split_ifs
    · rfl
    · exact (submitEntry_receiving _ _).trans rfl
    · exact (submitEntry_receiving _ _).trans rfl
    · rfl
  unfold syncGuarantee
  split
  · exact foldl_keeps State.receiving syncCondition condition _ s
  · rfl

theorem roleSessions_receiving (s : State) : (roleSessions s).receiving = s.receiving := by
  have closed (u : State) (i c : Nat) : (closeSession u i c).receiving = u.receiving := by
    unfold closeSession
    dsimp only
    split
    · rfl
    · exact (journalEntry_receiving _ _).trans rfl
  unfold roleSessions closeSessions
  split
  · refine foldl_keeps State.receiving _ (fun u i => ?_) _ s
    split
    · exact closed u i 2
    · rfl
  · rfl

theorem settled_receiving (f : State → State) (s : State) : (settled f s).receiving = (f s).receiving := by
  have twin : (withTwin f s).receiving = (f s).receiving := by
    unfold withTwin
    dsimp only
    split
    · exact (causeGone_receiving _ _).trans rfl
    · rfl
  have auth (u : State) : (if coreRuns u && u.plug.image.isSome then authChanged u else u).receiving = u.receiving := by
    split
    · exact authChanged_receiving u
    · rfl
  unfold settled settlePair
  rw [judgeSummary_receiving, syncGuarantee_receiving, roleSessions_receiving, auth, twin]

end Sys2Proof.Machine
end

section
/-! A frame of lane 0 leaves at once; a carry frame that is taken, and the settling of what it brings (R618 to R620). -/
namespace Sys2Proof.Machine

/-! A frame of lane 0 leaves at once (R618, R620) -/

/-- The state with a frame sent on lane 0. -/
def sentLane0 (s : State) (m : CarryMsg) : State :=
  { s with
    out := s.out ++ [carryOut 0 (carryTx s 0 s.pair.lane0.txSeq false) m]
    pair := { s.pair with lane0 := { s.pair.lane0 with txSeq := s.pair.lane0.txSeq + 1, unacked := s.pair.lane0.unacked ++ [(s.pair.lane0.txSeq, m)] } } }

theorem carrySend_ready {s : State} {m : CarryMsg} (hready : lane0Ready s = true) (hm : carryLane m = 0) : carrySend s 0 m = sentLane0 s m := by
  simp only [lane0Ready, Bool.and_eq_true, decide_eq_true_eq] at hready
  obtain ⟨⟨hup, hplaces⟩, -⟩ := hready
  have hfull : ¬ 64 ≤ s.pair.lane0.unacked.length := by omega
  simp [carrySend, carryParts, hm, carryPut, hup, hfull, sentLane0, emit]

/-- Lane 0 sends at once under the number that it had. -/
def ReadyAt (s : State) (seq : BitVec 16) : Prop := lane0Ready s = true ∧ s.pair.lane0.txSeq = seq

theorem ackDrop_length (a : BitVec 16) (l : List (BitVec 16 × CarryMsg)) : (ackDrop a l).length ≤ l.length := by
  unfold ackDrop
  split
  · exact (by simp : _ ≤ (l.dropWhile (fun f => f.1 != a)).length).trans (List.length_dropWhile_le _ _)
  · exact le_rfl

theorem pumpLane_lane0 : ∀ (fuel : Nat) (s : State), (pumpLane fuel s 1).pair.lane0 = s.pair.lane0
  | 0, _ => rfl
  | fuel + 1, s => by
    unfold pumpLane
    dsimp only
    split
    · rfl
    · split
      · rfl
      · exact (pumpLane_lane0 fuel _).trans rfl

/-- A taken frame moves its lane on, and what waits there leaves (R619, R620). -/
theorem carryTake_state {s : State} {h : CarryHdr} (htakes : takes s h = true) :
    (carryTake s h).1 = pumpLane (laneGet s h.lane).waiting.length (lanePut s h.lane { laneGet s h.lane with
      rxSeq := (laneGet s h.lane).rxSeq + 1, unacked := ackDrop h.ackn (laneGet s h.lane).unacked }) h.lane := by
  simp only [takes, Bool.and_eq_true, beq_iff_eq] at htakes
  obtain ⟨⟨⟨-, hup⟩, hvalid⟩, hseq⟩ := htakes
  simp only [carryTake, hup, hvalid, hseq, Bool.not_true, bne_self_eq_false, Bool.or_self, Bool.false_eq_true, if_false]

/-- A frame that is taken leaves lane 0 ready. -/
theorem carryTake_ready {s : State} {h : CarryHdr} (htakes : takes s h = true) (hready : lane0Ready s = true) :
    ReadyAt (carryTake s h).1 s.pair.lane0.txSeq := by
  rw [carryTake_state htakes]
  have hlane := hready
  simp only [lane0Ready, Bool.and_eq_true, decide_eq_true_eq, beq_iff_eq] at hlane
  obtain ⟨⟨hup0, hplaces⟩, hwaits⟩ := hlane
  obtain hl | hl : h.lane = 0 ∨ h.lane = 1 := by omega
  · rw [hl]
    have hnone : (laneGet s 0).waiting.length = 0 := by rw [show laneGet s 0 = s.pair.lane0 from rfl, hwaits]; rfl
    rw [hnone]
    refine ⟨?_, rfl⟩
    have hdrop := ackDrop_length h.ackn s.pair.lane0.unacked
    simp only [lane0Ready, Bool.and_eq_true, decide_eq_true_eq, beq_iff_eq]
    exact ⟨⟨hup0, hdrop.trans_lt hplaces⟩, hwaits⟩
  · rw [hl]
    have hsame := pumpLane_lane0 (laneGet s 1).waiting.length (lanePut s 1 { laneGet s 1 with
      rxSeq := (laneGet s 1).rxSeq + 1, unacked := ackDrop h.ackn (laneGet s 1).unacked })
    generalize pumpLane _ _ 1 = u at hsame ⊢
    have hsame : u.pair.lane0 = s.pair.lane0 := hsame
    exact ⟨by rw [lane0Ready, hsame]; exact hready, by rw [hsame]⟩

/-! A taken frame's command -/

/-- The state with its lanes, and what leaves, replaced. -/
def State.withLanes (s : State) (o : List Output) (l0 l1 : Lane) : State := { s with out := o, pair := { s.pair with lane0 := l0, lane1 := l1 } }

theorem lanePut_withLanes (s : State) (n : Fin 2) (x : Lane) : ∃ l0 l1, lanePut s n x = s.withLanes s.out l0 l1 := by
  unfold lanePut
  split <;> exact ⟨_, _, rfl⟩

theorem pumpLane_withLanes : ∀ (fuel : Nat) (s : State) (n : Fin 2), ∃ o l0 l1, pumpLane fuel s n = s.withLanes o l0 l1
  | 0, s, _ => ⟨s.out, s.pair.lane0, s.pair.lane1, rfl⟩
  | fuel + 1, s, n => by
    unfold pumpLane
    dsimp only
    split
    · exact ⟨s.out, s.pair.lane0, s.pair.lane1, rfl⟩
    · split
      · exact ⟨s.out, s.pair.lane0, s.pair.lane1, rfl⟩
      next m rest _ _ =>
        obtain ⟨l0, l1, hput⟩ := lanePut_withLanes s n { laneGet s n with
          txSeq := (laneGet s n).txSeq + 1, unacked := (laneGet s n).unacked ++ [((laneGet s n).txSeq, m)], waiting := rest }
        obtain ⟨o, m0, m1, hpump⟩ := pumpLane_withLanes fuel (emit (s.withLanes s.out l0 l1) (carryOut n (carryTx s n (laneGet s n).txSeq false) m)) n
        rw [hput, hpump]
        exact ⟨o, m0, m1, rfl⟩

/-- A frame's taking changes the lanes alone. -/
theorem carryTake_withLanes {s : State} {h : CarryHdr} (htakes : takes s h = true) : ∃ o l0 l1, (carryTake s h).1 = s.withLanes o l0 l1 := by
  rw [carryTake_state htakes]
  obtain ⟨l0, l1, hput⟩ := lanePut_withLanes s h.lane { laneGet s h.lane with
    rxSeq := (laneGet s h.lane).rxSeq + 1, unacked := ackDrop h.ackn (laneGet s h.lane).unacked }
  rw [hput]
  obtain ⟨o, m0, m1, hpump⟩ := pumpLane_withLanes (laneGet s h.lane).waiting.length (s.withLanes s.out l0 l1) h.lane
  rw [hpump]
  exact ⟨o, m0, m1, rfl⟩

/-- The command of a taken frame: its effect on the state with other lanes, settled. -/
theorem answers_taken {c : Instr} {s : State} {h : CarryHdr} {f : State → State} {p : State → Prop} (he : exec c s = run (onCarry h f) s)
    (htakes : takes s h = true)
    (hp : ∀ o l0 l1, (lane0Ready s = true → ReadyAt (s.withLanes o l0 l1) s.pair.lane0.txSeq) →
      p { settled f (s.withLanes o l0 l1) with pending := s.pending }) : Answers c s p := by
  have htakes' : takes { s with out := [] } h = true := htakes
  refine answers_of_run he ?_
  rw [onCarry_taken htakes']
  obtain ⟨o, l0, l1, htaken⟩ := carryTake_withLanes htakes'
  have hready : lane0Ready s = true → ReadyAt (carryTake { s with out := [] } h).1 s.pair.lane0.txSeq := fun hr => carryTake_ready htakes' hr
  rw [htaken] at hready ⊢
  exact hp o l0 l1 hready

end Sys2Proof.Machine
end

section
/-! HELLO, ACCEPT and REFUSE, and the roles at a fresh formation (R622 to R624, Tables 16.2, 16.5). -/
namespace Sys2Proof.Machine

/-! HELLO (R622) -/

/-- The answer to a HELLO leaves on lane 0, whatever the settling sends besides. -/
theorem settled_answer {f : State → State} {u v : State} {m : CarryMsg} {seq : BitVec 16} (hf : f u = carrySend v 0 m) (hm : carryLane m = 0)
    (hready : ReadyAt v seq) (pending : List Instr) :
    carryOut 0 (carryTx { settled f u with pending := pending } 0 seq false) m ∈ ({ settled f u with pending := pending } : State).out := by
  obtain ⟨hready, hseq⟩ := hready
  have hsent : f u = sentLane0 v m := hf.trans (carrySend_ready hready hm)
  have hends : ({ settled f u with pending := pending } : State).receiving = v.receiving := by
    refine (settled_receiving f u).trans ?_
    rw [hf]
    exact carrySend_receiving v 0 m
  rw [carryTx_of_receiving hends]
  refine (settled_sends f u).out _ ?_
  rw [hsent, ← hseq]
  exact List.mem_append_right _ (List.mem_singleton_self _)

/-- What a HELLO tells. -/
def helloTold (s : State) (b : HelloBody) : State :=
  { s with pair := { s.pair with
    hello := some b, heard := true, absent := false
    told := { engine := b.engine.toNat, pair := b.pair.toNat, restarted := b.restarted, jseq := b.jseq } } }

theorem helloArrived_refused {s : State} {b : HelloBody} (h : pairingCode s b ≠ 0) :
    helloArrived s b = carrySend (helloTold s b) 0 (.refuse (pairingCode s b)) := by
  have hcode : (pairingCode s b != 0) = true := bne_iff_ne.mpr h
  exact if_pos hcode

/-- The answering unit is to be Active: its journal is the newer, or it is side A of two equal ones (Table 16.2). -/
def becomesActive (s : State) (jseq : Nat) : Bool := decide (jseq < s.journal.jseq) || (decide (jseq = s.journal.jseq) && side s == 1)

theorem helloArrived_accepted {s : State} {b : HelloBody} (hwithdrawn : s.power.engine ≠ .withdrawn) (hcode : pairingCode s b = 0)
    (hstate : s.pair.state = .pairing) (hother : b.pair.toNat ≠ 2) :
    helloArrived s b = carrySend (helloTold s b) 0 (.accept (becomesActive s b.jseq) (!becomesActive s b.jseq)) := by
  have hcode' : (pairingCode (helloTold s b) b != 0) = false := by
    rw [show pairingCode (helloTold s b) b = pairingCode s b from rfl, hcode]
    rfl
  have hengine : (s.power.engine == .withdrawn) = false := beq_eq_false_iff_ne.mpr hwithdrawn
  have hpairing : ((helloTold s b).pair.state == .active) = false := by
    rw [show (helloTold s b).pair.state = s.pair.state from rfl, hstate]
    rfl
  have hother' : (b.pair.toNat != 2) = true := bne_iff_ne.mpr hother
  have he : helloArrived s b = if (pairingCode (helloTold s b) b != 0) = true then carrySend (helloTold s b) 0 (.refuse (pairingCode (helloTold s b) b))
      else if (s.power.engine == .withdrawn) = true then helloTold s b
      else if ((helloTold s b).pair.state == .active && decide (b.pair.toNat = 2)) = true then
        carrySend (resolveDual (helloTold s b) b.restarted b.jseq) 0
          (.accept (keepsActive (helloTold s b) b.restarted b.jseq) (!keepsActive (helloTold s b) b.restarted b.jseq))
      else carrySend (helloTold s b) 0 (.accept ((helloTold s b).pair.state == .active || (b.pair.toNat != 2 && becomesActive s b.jseq))
        (!((helloTold s b).pair.state == .active || (b.pair.toNat != 2 && becomesActive s b.jseq)))) := rfl
  rw [he, hcode', hengine, hpairing, hother']
  rfl

theorem carrySend_settled_pair {s v : State} {f : State → State} {m : CarryMsg} (hf : f s = carrySend v 0 m) :
    (settled f s).pair.hello = v.pair.hello ∧ (settled f s).pair.absent = v.pair.absent ∧ (settled f s).pair.state = v.pair.state := by
  have hframe := settled_frame f s
  have hsent := carrySend_sansRecords v 0 m
  rw [hf] at hframe
  have hwhole : ({ settled f s with reck := {} } : State).sansSettled = ({ v with reck := {} } : State).sansSettled :=
    hframe.trans (sansSettled_records (congrArg (fun u : State => { u with reck := {} }) hsent :))
  exact ⟨(congrArg (fun u : State => u.pair.hello) hwhole :), (congrArg (fun u : State => u.pair.absent) hwhole :),
    (congrArg (fun u : State => u.pair.state) hwhole :)⟩

theorem answers_helloRefused {s : State} {h : CarryHdr} {b : HelloBody} (htakes : takes s h = true) (hready : lane0Ready s = true)
    (hcode : pairingCode s b ≠ 0) : Answers (.hello h b) s (fun t => t.pair.hello = some b ∧ t.pair.absent = false ∧ t.pair.state = s.pair.state
      ∧ carryOut 0 (carryTx t 0 s.pair.lane0.txSeq false) (.refuse (pairingCode s b)) ∈ t.out) := by
  refine answers_taken (execHello.eq_def h b s) htakes fun o l0 l1 hlane => ?_
  have hf := helloArrived_refused (s := s.withLanes o l0 l1) (b := b) hcode
  obtain ⟨hhello, habsent, hstate⟩ := carrySend_settled_pair (f := fun u => helloArrived u b) hf
  exact ⟨hhello, habsent, hstate, settled_answer (f := fun u => helloArrived u b) hf rfl (hlane hready) _⟩

theorem answers_helloAccepted {s : State} {h : CarryHdr} {b : HelloBody} (htakes : takes s h = true) (hwithdrawn : s.power.engine ≠ .withdrawn)
    (hready : lane0Ready s = true) (hcode : pairingCode s b = 0) (hpairing : s.pair.state = .pairing) (hother : b.pair.toNat ≠ 2) :
    Answers (.hello h b) s (fun t => t.pair.hello = some b ∧ t.pair.state = .pairing
      ∧ ∃ a, (a = true ↔ b.jseq < s.journal.jseq ∨ b.jseq = s.journal.jseq ∧ side s = 1)
        ∧ carryOut 0 (carryTx t 0 s.pair.lane0.txSeq false) (.accept a (!a)) ∈ t.out) := by
  refine answers_taken (execHello.eq_def h b s) htakes fun o l0 l1 hlane => ?_
  have hf := helloArrived_accepted (s := s.withLanes o l0 l1) (b := b) hwithdrawn hcode hpairing hother
  obtain ⟨hhello, -, hstate⟩ := carrySend_settled_pair (f := fun u => helloArrived u b) hf
  refine ⟨hhello, hstate.trans hpairing, becomesActive s b.jseq, ?_, settled_answer (f := fun u => helloArrived u b) hf rfl (hlane hready) _⟩
  simp [becomesActive]

/-! REFUSE (R624) -/

/-- The unit that is refused: the fault judged, its partner not accepted. -/
def refusedState (s : State) (code : Nat) : State :=
  let t := judgeFault s (keyU 0x5640) code none16 true
  { t with pair := { t.pair with absent := false, accepted := false, heard := true } }

theorem pairingRefused_eq (s : State) (code : Nat) : pairingRefused s code =
    if serving (refusedState s code) then refusedState s code
    else if !(s.pair.told.engine == 3) && code != 1 && side (refusedState s code) == 1 && canBeAdmitted (refusedState s code) then
      enterServing { refusedState s code with pair := { (refusedState s code).pair with state := .active, partnerState := 1 } }
    else if (refusedState s code).power.engine == .starting then
      enterWithheld (refusedState s code) ((refusedState s code).power.withheldBy.getD .pairing)
    else refusedState s code := rfl

theorem refusedState_frame (s : State) (code : Nat) : (refusedState s code).sansRecords =
    ({ s with pair := { s.pair with absent := false, accepted := false, heard := true } } : State).sansRecords := by
  have hjudged := judgeFault_sansRecords s (keyU 0x5640) code none16 true (by decide)
  exact (congrArg (fun u : State => { u with pair := { u.pair with absent := false, accepted := false, heard := true } }) hjudged :)

theorem refusedState_reacts {s : State} {code : Nat} (hclear : faultGet s (keyU 0x5640) = none) : Reacts (refusedState s code) (keyU 0x5640) 2 := by
  have hraised : Reacts (judgeFault s (keyU 0x5640) code none16 true) (keyU 0x5640) 2 := by
    rw [judgeFault_clear hclear]
    exact reacts_arise_row hclear (by decide) code none16 []
  exact hraised

theorem refusedState_power (s : State) (code : Nat) : (refusedState s code).power = s.power := (congrArg State.power (refusedState_frame s code) :)

theorem refusedState_side (s : State) (code : Nat) : side (refusedState s code) = side s := (congrArg side (refusedState_frame s code) :)

theorem refusedState_accepted (s : State) (code : Nat) : (refusedState s code).pair.accepted = false :=
  (congrArg (fun u : State => u.pair.accepted) (refusedState_frame s code) :)

/-- Side B in Starting is Withheld (Table 1.7). -/
theorem pairingRefused_withheld {s : State} {code : Nat} (hengine : s.power.engine = .starting) (hside : side s = 2) :
    pairingRefused s code = enterWithheld (refusedState s code) (s.power.withheldBy.getD .pairing) := by
  have hpower := refusedState_power s code
  have hserves : serving (refusedState s code) = false := by rw [serving, hpower, hengine]; rfl
  have hsideB : (side (refusedState s code) == 1) = false := by rw [refusedState_side, hside]; rfl
  have hstarting : ((refusedState s code).power.engine == .starting) = true := by rw [hpower, hengine]; rfl
  rw [pairingRefused_eq, hserves, hsideB, hstarting, hpower]
  simp

/-- Side A whose partner does not serve is admitted alone (R624). -/
theorem pairingRefused_serves {s : State} {code : Nat} (hcode : code ≠ 1) (hserves : serving s = false) (hside : side s = 1)
    (hadmitted : canBeAdmitted s = true) (hpartner : s.pair.told.engine ≠ 3) : pairingRefused s code =
      enterServing { refusedState s code with pair := { (refusedState s code).pair with state := .active, partnerState := 1 } } := by
  have hserves' : serving (refusedState s code) = false := (congrArg serving (refusedState_frame s code) :).trans hserves
  have hsideA : (side (refusedState s code) == 1) = true := by rw [refusedState_side, hside]; rfl
  have hadmitted' : canBeAdmitted (refusedState s code) = true := (congrArg canBeAdmitted (refusedState_frame s code) :).trans hadmitted
  have hpartner' : (s.pair.told.engine == 3) = false := beq_eq_false_iff_ne.mpr hpartner
  have hcode' : (code != 1) = true := bne_iff_ne.mpr hcode
  rw [pairingRefused_eq, hserves', hsideA, hadmitted', hpartner', hcode']
  rfl

theorem enterWithheld_leaves (s : State) (c : WithheldCause) :
    (enterWithheld s c).power = { s.power with engine := .withheld, withheldBy := some c, recommitted := false }
      ∧ (enterWithheld s c).pair = s.pair ∧ (enterWithheld s c).faults = s.faults := by
  obtain ⟨h, he⟩ := holdAfterStarting_eq { s with power := { s.power with engine := .withheld, withheldBy := some c, recommitted := false } }
  rw [enterWithheld, he]
  exact ⟨rfl, rfl, rfl⟩

theorem settled_accepted (f : State → State) (s : State) : (settled f s).pair.accepted = (f s).pair.accepted :=
  (congrArg (fun u : State => u.pair.accepted) (settled_frame f s) :)

/-- What a REFUSE does (R624). -/
def refuseTaken (code : Fin 6) (s : State) : State := if code.val != 0 && s.power.engine != .withdrawn then pairingRefused s code.val else s

theorem refuseTaken_eq {s : State} {code : Fin 6} (hcode : code.val ≠ 0) (hengine : s.power.engine ≠ .withdrawn) :
    refuseTaken code s = pairingRefused s code.val := by
  have htakes : (code.val != 0 && s.power.engine != .withdrawn) = true := Bool.and_eq_true_iff.mpr ⟨bne_iff_ne.mpr hcode, bne_iff_ne.mpr hengine⟩
  exact if_pos htakes

theorem answers_refuseWithheld {s : State} {h : CarryHdr} {code : Fin 6} (htakes : takes s h = true) (hcode : code.val ≠ 0)
    (hengine : s.power.engine = .starting) (hside : side s = 2) (hclear : faultGet s (keyU 0x5640) = none) :
    Answers (.refuse { hdr := h, code := code }) s (fun t =>
      t.power.engine = .withheld ∧ t.power.withheldBy = some (s.power.withheldBy.getD .pairing) ∧ t.pair.accepted = false
        ∧ Reacts t (keyU 0x5640) 2) := by
  refine answers_taken (f := refuseTaken code) (execRefuse.eq_def { hdr := h, code := code } s) htakes fun o l0 l1 _ => ?_
  have hf : refuseTaken code (s.withLanes o l0 l1) = enterWithheld (refusedState (s.withLanes o l0 l1) code.val) (s.power.withheldBy.getD .pairing) :=
    (refuseTaken_eq (s := s.withLanes o l0 l1) hcode (by rw [show (s.withLanes o l0 l1).power = s.power from rfl, hengine]; nofun)).trans
      (pairingRefused_withheld hengine hside)
  obtain ⟨hpower, hpair, hfaults⟩ := enterWithheld_leaves (refusedState (s.withLanes o l0 l1) code.val) (s.power.withheldBy.getD .pairing)
  rw [← hf] at hpower hpair hfaults
  have hpower' := (settled_power (refuseTaken code) (s.withLanes o l0 l1)).trans hpower
  have hraised : Reacts (refuseTaken code (s.withLanes o l0 l1)) (keyU 0x5640) 2 :=
    reacts_congr (faultGet_congr (congrArg Faults.recs hfaults) _) (refusedState_reacts (s := s.withLanes o l0 l1) hclear)
  exact ⟨(congrArg Power.engine hpower' :), (congrArg Power.withheldBy hpower' :),
    (settled_accepted _ _).trans ((congrArg Pair.accepted hpair).trans (refusedState_accepted _ _)), reacts_settled (by decide) hraised⟩

theorem answers_refuseServes {s : State} {h : CarryHdr} {code : Fin 6} (htakes : takes s h = true) (hcode : 2 ≤ code.val)
    (hserves : serving s = false) (hengine : s.power.engine ≠ .withdrawn) (hside : side s = 1) (hadmitted : canBeAdmitted s = true)
    (hpartner : s.pair.told.engine ≠ 3) : Answers (.refuse { hdr := h, code := code }) s (fun t =>
      t.power.engine = .serving ∧ t.pair.state = .active ∧ t.pair.partnerState = 1 ∧ t.pair.accepted = false) := by
  refine answers_taken (f := refuseTaken code) (execRefuse.eq_def { hdr := h, code := code } s) htakes fun o l0 l1 _ => ?_
  let r := refusedState (s.withLanes o l0 l1) code.val
  let a : State := { r with pair := { r.pair with state := .active, partnerState := 1 } }
  have hf : refuseTaken code (s.withLanes o l0 l1) = enterServing a := (refuseTaken_eq (s := s.withLanes o l0 l1) (by omega) hengine).trans
    (pairingRefused_serves (s := s.withLanes o l0 l1) (by omega) hserves hside hadmitted hpartner)
  have hframe := settled_frame (refuseTaken code) (s.withLanes o l0 l1)
  rw [hf] at hframe
  obtain ⟨hold, hserving⟩ := enterServing_unit a
  have haccepted : a.pair.accepted = false := refusedState_accepted (s.withLanes o l0 l1) code.val
  refine ⟨(congrArg (fun u : State => u.power.engine) hframe :).trans (congrArg (fun u : State => u.power.engine) hserving :),
    (congrArg (fun u : State => u.pair.state) hframe :).trans (congrArg (fun u : State => u.pair.state) hserving :),
    (congrArg (fun u : State => u.pair.partnerState) hframe :).trans (congrArg (fun u : State => u.pair.partnerState) hserving :),
    (congrArg (fun u : State => u.pair.accepted) hframe :).trans ((congrArg (fun u : State => u.pair.accepted) hserving :).trans haccepted)⟩

/-! ACCEPT (R623) -/

/-- The unit has heard its partner. -/
def heardState (s : State) : State := { s with pair := { s.pair with heard := true } }

/-- The fingerprint that a HELLO brings, as a heartbeat would. -/
def helloPrint (b : HelloBody) : BitVec 64 :=
  let fp := (b.fingerprint.map (fun f => f.toNat / 2 ^ 192)).getD 0
  BitVec.ofNat 64 fp

/-- A partner is accepted on its HELLO. -/
def acceptedState (s : State) (b : HelloBody) : State :=
  let t := causeGoneU (heardState s) 0x5640
  { t with pair := { t.pair with accepted := true, absent := false, partnerFp := helloPrint b } }

/-- The roles of Table 16.2, and the entry to Serving. -/
def rolesTaken (jseq : Nat) (s : State) (last : Nat) (journal : List CarriedEntry) : State :=
  if becomesActive s jseq then
    formedNow (ensureServing (takeBranch { s with pair := { s.pair with state := .active, partnerState := 3 } } last journal))
  else formedNow (ensureServing (takeJournal { s with pair := { s.pair with state := .standby, partnerState := 2 } } last journal))

/-- What an accepted unit does by its pair state (Table 16.2). -/
def acceptedCourse (s : State) (f : AcceptFrame) (journal : List CarriedEntry) (stnums : List (Nat × Nat)) : State :=
  match s.pair.state with
  | .solo | .standby | .rejoining => s
  | .active => if s.pair.told.pair = 2 then resolveDual s s.pair.told.restarted s.pair.told.jseq else rejoinPartner s
  | .shadow => if (s.pair.told.pair = 2 || f.active) && s.pair.carryUp then toRejoining s else s
  | .pairing => if s.pair.told.pair = 2 then ensureServing (toRejoining s) else rolesTaken s.pair.told.jseq (takeStnums s stnums) f.last journal

theorem pairingAccepted_eq (s : State) (f : AcceptFrame) (journal : List CarriedEntry) (stnums : List (Nat × Nat)) {b : HelloBody}
    (h : s.pair.hello = some b) : pairingAccepted s f journal stnums =
      if pairingCode (heardState s) b != 0 || !canServe (heardState s) then heardState s
      else acceptedCourse (acceptedState s b) f journal stnums := by
  have he : pairingAccepted s f journal stnums = match s.pair.hello with
    | none => heardState s
    | some b => if pairingCode (heardState s) b != 0 || !canServe (heardState s) then heardState s
      else acceptedCourse (acceptedState s b) f journal stnums := rfl
  rw [he, h]

theorem acceptedState_frame (s : State) (b : HelloBody) : (acceptedState s b).sansRecords =
    ({ heardState s with pair := { (heardState s).pair with accepted := true, absent := false, partnerFp := helloPrint b } } : State).sansRecords := by
  have hgone := causeGoneU_sansRecords (heardState s) 0x5640
  exact (congrArg (fun u : State => { u with pair := { u.pair with accepted := true, absent := false, partnerFp := helloPrint b } }) hgone :)

/-- At a fresh formation the unit takes the partner's stNum values, and its role. -/
theorem pairingAccepted_fresh {s : State} {f : AcceptFrame} {journal : List CarriedEntry} {stnums : List (Nat × Nat)} {b : HelloBody}
    (hhello : s.pair.hello = some b) (hstate : s.pair.state = .pairing) (hcode : pairingCode s b = 0) (hserve : canServe s = true)
    (hother : s.pair.told.pair ≠ 2) :
    pairingAccepted s f journal stnums = rolesTaken s.pair.told.jseq (takeStnums (acceptedState s b) stnums) f.last journal := by
  have htold : (acceptedState s b).pair.told = s.pair.told := (congrArg (fun u : State => u.pair.told) (acceptedState_frame s b) :)
  have hpairing : (acceptedState s b).pair.state = .pairing := (congrArg (fun u : State => u.pair.state) (acceptedState_frame s b) :).trans hstate
  have hrefused : (pairingCode (heardState s) b != 0 || !canServe (heardState s)) = false := by
    rw [show pairingCode (heardState s) b = pairingCode s b from rfl, show canServe (heardState s) = canServe s from rfl, hcode, hserve]
    rfl
  rw [pairingAccepted_eq s f journal stnums hhello, hrefused]
  simp only [Bool.false_eq_true, if_false, acceptedCourse, hpairing, htold, hother]

/-! What the roles leave -/

/-- The engine, and where the pair stands (Tables 1.7, 16.2). -/
def State.standing (s : State) : Power × PairState × Nat × Bool × Nat := (s.power, s.pair.state, s.pair.partnerState, s.pair.accepted, s.now)

theorem standing_of_unit {s t : State} (h : t.unitOnly = s.unitOnly) : t.standing = s.standing := by have e := congrArg State.standing h; exact e
theorem standing_of_journal {s t : State} (h : t.sansJournal = s.sansJournal) : t.standing = s.standing := by have e := congrArg State.standing h; exact e
theorem standing_of_records {s t : State} (h : t.sansRecords = s.sansRecords) : t.standing = s.standing := standing_of_journal (sansJournal_of h)

theorem takeStnums_frame (s : State) (l : List (Nat × Nat)) : (takeStnums s l).standing = s.standing ∧ (takeStnums s l).journal.jseq = s.journal.jseq
    ∧ (takeStnums s l).ident = s.ident := by
  have hkeeps : (fun u : State => (u.standing, u.journal.jseq, u.ident)) (takeStnums s l) = (fun u : State => (u.standing, u.journal.jseq, u.ident)) s := by
    refine foldl_keeps (fun u : State => (u.standing, u.journal.jseq, u.ident)) _ (fun u x => ?_) l s
    split <;> rfl
  simp only [Prod.mk.injEq] at hkeeps
  exact hkeeps

theorem takeBranch_standing (s : State) (before : Nat) (journal : List CarriedEntry) : (takeBranch s before journal).standing = s.standing := by
  unfold takeBranch partnerBranch
  split
  · rfl
  · exact standing_of_journal ((storeBody_sansJournal _ _ _ _ _).trans rfl)

theorem splitBranch_sansJournal (s : State) (common : Nat) : (splitBranch s common).sansJournal = s.sansJournal := by
  have hlost (u : State) : (bodyLost u 0).sansJournal = u.sansJournal := by
    have hjudged := sansJournal_of (judgeFault_sansRecords u (keyU 0x4940) 0 none16 true (by decide))
    unfold bodyLost
    dsimp only
    exact (sansJournal_of (arise_sansRecords _ (keyU 0x4900) 0 none16 [] (by decide))).trans ((sansJournal_journal _ _).trans hjudged)
  unfold splitBranch
  dsimp only
  split
  · rfl
  · split
    · exact (hlost _).trans rfl
    next h => exact (writeBody_sansJournal h).trans rfl

theorem takeJournal_standing (s : State) (before : Nat) (journal : List CarriedEntry) : (takeJournal s before journal).standing = s.standing := by
  have hforward (u : State) : (forwardQueue u).standing = u.standing :=
    (foldl_keeps State.standing placeEntry (fun v e => standing_of_records (placeEntry_sansRecords v e)) _ _).trans rfl
  exact (hforward _).trans (standing_of_journal (splitBranch_sansJournal s _))

theorem ensureServing_standing (s : State) : (ensureServing s).power.engine = .serving ∧ (ensureServing s).pair.state = s.pair.state
    ∧ (ensureServing s).pair.partnerState = s.pair.partnerState ∧ (ensureServing s).pair.accepted = s.pair.accepted ∧ (ensureServing s).now = s.now := by
  unfold ensureServing
  split
  next h => exact ⟨eq_of_beq h, rfl, rfl, rfl, rfl⟩
  · obtain ⟨hold, hserving⟩ := enterServing_unit s
    exact ⟨(congrArg (fun u : State => u.power.engine) hserving :), (congrArg (fun u : State => u.pair.state) hserving :),
      (congrArg (fun u : State => u.pair.partnerState) hserving :), (congrArg (fun u : State => u.pair.accepted) hserving :),
      (congrArg State.now hserving :)⟩

/-- What formation sets. -/
def formedState (s : State) : State := { s with pair := { s.pair with
  absent := false, restarted := false, unagreed := false, bothLans := false, split := false, rejoin := .none, rejoinRuns := 0
  snapDue := none, swapFrom := s.now, swap := .none, swapDue := none } }

theorem formedNow_sansRecords (s : State) : (formedNow s).sansRecords = (formedState s).sansRecords := by
  have hgone := foldl_keeps State.sansRecords causeGoneU causeGoneU_sansRecords [0x5580, 0x55C0, 0x5640, 0x5680, 0x56C0, 0x5740, 0x5780] (formedState s)
  have he : formedNow s = if ([0x5580, 0x55C0, 0x5640, 0x5680, 0x56C0, 0x5740, 0x5780].foldl causeGoneU (formedState s)).pair.state == .active then
      sendInputs ([0x5580, 0x55C0, 0x5640, 0x5680, 0x56C0, 0x5740, 0x5780].foldl causeGoneU (formedState s))
    else [0x5580, 0x55C0, 0x5640, 0x5680, 0x56C0, 0x5740, 0x5780].foldl causeGoneU (formedState s) := rfl
  rw [he]
  generalize [0x5580, 0x55C0, 0x5640, 0x5680, 0x56C0, 0x5740, 0x5780].foldl causeGoneU (formedState s) = u at hgone ⊢
  split
  · exact (carrySend_sansRecords u 0 _).trans hgone
  · exact hgone

/-- The standing that formation leaves, and the time from which a swap counts. -/
theorem formedNow_leaves (s : State) : (formedNow s).standing = s.standing ∧ (formedNow s).pair.absent = false ∧ (formedNow s).pair.swapFrom = s.now := by
  have hframe := formedNow_sansRecords s
  generalize formedNow s = v at hframe ⊢
  have habsent := congrArg (fun u : State => u.pair.absent) hframe
  have hfrom := congrArg (fun u : State => u.pair.swapFrom) hframe
  exact ⟨(standing_of_records hframe).trans rfl, habsent, hfrom⟩

/-- A unit that takes its role serves, in the pair state of the role. -/
theorem rolesTaken_leaves (s : State) (jseq last : Nat) (journal : List CarriedEntry) : (rolesTaken jseq s last journal).power.engine = .serving
    ∧ (rolesTaken jseq s last journal).pair.accepted = s.pair.accepted ∧ (rolesTaken jseq s last journal).pair.absent = false
    ∧ (rolesTaken jseq s last journal).pair.swapFrom = s.now
    ∧ (if becomesActive s jseq then (rolesTaken jseq s last journal).pair.state = .active ∧ (rolesTaken jseq s last journal).pair.partnerState = 3
      else (rolesTaken jseq s last journal).pair.state = .standby ∧ (rolesTaken jseq s last journal).pair.partnerState = 2) := by
  have formed {v : State} (role : PairState) (partner : Nat) (h : v.standing = (s.power, role, partner, s.pair.accepted, s.now)) :
      (formedNow (ensureServing v)).power.engine = .serving ∧ (formedNow (ensureServing v)).pair.accepted = s.pair.accepted
        ∧ (formedNow (ensureServing v)).pair.absent = false ∧ (formedNow (ensureServing v)).pair.swapFrom = s.now
        ∧ (formedNow (ensureServing v)).pair.state = role ∧ (formedNow (ensureServing v)).pair.partnerState = partner := by
    obtain ⟨hstands, habsent, hfrom⟩ := formedNow_leaves (ensureServing v)
    obtain ⟨hengine, hstate, hpartner, haccepted, hnow⟩ := ensureServing_standing v
    simp only [State.standing, Prod.mk.injEq] at h hstands
    obtain ⟨-, hrole, hpartnerV, hacceptedV, hnowV⟩ := h
    obtain ⟨hpowerF, hstateF, hpartnerF, hacceptedF, -⟩ := hstands
    exact ⟨by rw [hpowerF, hengine], by rw [hacceptedF, haccepted, hacceptedV], habsent, by rw [hfrom, hnow, hnowV],
      by rw [hstateF, hstate, hrole], by rw [hpartnerF, hpartner, hpartnerV]⟩
  cases hactive : becomesActive s jseq with
  | true =>
    have he : rolesTaken jseq s last journal =
        formedNow (ensureServing (takeBranch { s with pair := { s.pair with state := .active, partnerState := 3 } } last journal)) := if_pos hactive
    rw [he]
    exact formed .active 3 (takeBranch_standing _ _ _)
  | false =>
    have he : rolesTaken jseq s last journal =
        formedNow (ensureServing (takeJournal { s with pair := { s.pair with state := .standby, partnerState := 2 } } last journal)) :=
      if_neg (by rw [hactive]; nofun)
    rw [he]
    exact formed .standby 2 (takeJournal_standing _ _ _)

theorem answers_accept {s : State} {f : AcceptFrame} {journal : List CarriedEntry} {stnums : List (Nat × Nat)} {b : HelloBody}
    (htakes : takes s f.hdr = true) (hhello : s.pair.hello = some b) (hstate : s.pair.state = .pairing) (hcode : pairingCode s b = 0)
    (hserve : canServe s = true) (hother : s.pair.told.pair ≠ 2) : Answers (.accept f journal stnums) s (fun t =>
      t.power.engine = .serving ∧ t.pair.accepted = true ∧ t.pair.absent = false ∧ t.pair.swapFrom = s.now ∧
      (if s.pair.told.jseq < s.journal.jseq ∨ s.pair.told.jseq = s.journal.jseq ∧ side s = 1 then t.pair.state = .active ∧ t.pair.partnerState = 3
        else t.pair.state = .standby ∧ t.pair.partnerState = 2)) := by
  refine answers_taken (execAccept.eq_def f journal stnums s) htakes fun o l0 l1 _ => ?_
  let u := s.withLanes o l0 l1
  let v := takeStnums (acceptedState u b) stnums
  have hfresh : pairingAccepted u f journal stnums = rolesTaken s.pair.told.jseq v f.last journal :=
    pairingAccepted_fresh (s := u) hhello hstate hcode hserve hother
  have hjseqAccepted : (acceptedState u b).journal.jseq = s.journal.jseq := (congrArg (fun w : State => w.journal.jseq) (acceptedState_frame u b) :)
  have hstandsAccepted : (acceptedState u b).standing = (s.power, s.pair.state, s.pair.partnerState, true, s.now) :=
    (standing_of_records (acceptedState_frame u b)).trans rfl
  have hidentAccepted : (acceptedState u b).ident = s.ident := (congrArg State.ident (acceptedState_frame u b) :)
  obtain ⟨hstands, hjseq, hident⟩ := takeStnums_frame (acceptedState u b) stnums
  obtain ⟨hengine, haccepted, habsent, hfrom, hrole⟩ := rolesTaken_leaves v s.pair.told.jseq f.last journal
  have hactive : becomesActive v s.pair.told.jseq = becomesActive s s.pair.told.jseq := by
    have hside : side v = side s := (congrArg (fun i : Ident => side { s with ident := i }) (hident.trans hidentAccepted) :)
    unfold becomesActive
    rw [hside, hjseq, hjseqAccepted]
  have hframe := settled_frame (fun w => pairingAccepted w f journal stnums) u
  dsimp only at hframe
  rw [hfresh] at hframe
  have htold : (if becomesActive s s.pair.told.jseq then (rolesTaken s.pair.told.jseq v f.last journal).pair.state = .active
      ∧ (rolesTaken s.pair.told.jseq v f.last journal).pair.partnerState = 3
      else (rolesTaken s.pair.told.jseq v f.last journal).pair.state = .standby ∧ (rolesTaken s.pair.told.jseq v f.last journal).pair.partnerState = 2) := by
    rw [← hactive]
    exact hrole
  have hstandsV : v.standing = (s.power, s.pair.state, s.pair.partnerState, true, s.now) := hstands.trans hstandsAccepted
  simp only [State.standing, Prod.mk.injEq] at hstandsV
  obtain ⟨-, -, -, hacceptedV, hnowV⟩ := hstandsV
  generalize rolesTaken s.pair.told.jseq v f.last journal = w at hframe hengine haccepted habsent hfrom htold
  generalize settled (fun w => pairingAccepted w f journal stnums) u = t at hframe ⊢
  have hactiveIff : becomesActive s s.pair.told.jseq = true ↔ s.pair.told.jseq < s.journal.jseq ∨ s.pair.told.jseq = s.journal.jseq ∧ side s = 1 := by
    simp [becomesActive]
  have hstateT : t.pair.state = w.pair.state := (congrArg (fun x : State => x.pair.state) hframe :)
  have hpartnerT : t.pair.partnerState = w.pair.partnerState := (congrArg (fun x : State => x.pair.partnerState) hframe :)
  simp only [hactiveIff, ← hstateT, ← hpartnerT] at htold
  exact ⟨(congrArg (fun x : State => x.power.engine) hframe :).trans hengine,
    (congrArg (fun x : State => x.pair.accepted) hframe :).trans (haccepted.trans hacceptedV),
    (congrArg (fun x : State => x.pair.absent) hframe :).trans habsent,
    (congrArg (fun x : State => x.pair.swapFrom) hframe :).trans (hfrom.trans hnowV), htold⟩

/-- Settles O37: HELLO leaves on lane 0; its answer names the first condition that fails, or the roles by journal and side; a refusal leaves side B Withheld
and lets side A serve alone; an ACCEPT gives both their roles. -/
theorem pairingExchange : Obligations.PairingExchange := by
  unfold Obligations.PairingExchange
  refine ⟨fun s hon hup himage hstate hready => ?_, fun s h b => answers_helloRefused, fun s h b => answers_helloAccepted,
    fun s h code => answers_refuseWithheld, fun s h code => answers_refuseServes, fun s f journal stnums b => answers_accept⟩
  have hsends : (carryOn s && s.pair.carryUp && s.plug.image.isSome
      && (s.pair.state == .pairing || s.pair.state == .shadow || (s.pair.state == .active && s.pair.absent))) = true := by
    have hstates : (s.pair.state == .pairing || s.pair.state == .shadow || (s.pair.state == .active && s.pair.absent)) = true := by
      rcases hstate with h | h | ⟨h, habsent⟩ <;> simp [*]
    rw [hon, hup, himage, hstates]
    rfl
  refine answers_of_guard (b := fun u => carryOn u && u.pair.carryUp && u.plug.image.isSome
      && (u.pair.state == .pairing || u.pair.state == .shadow || (u.pair.state == .active && u.pair.absent))) (execHelloSend.eq_def s) hsends ?_
  have hsent : carrySend { s with out := [] } 0 (.hello (helloBody s)) = sentLane0 { s with out := [] } (.hello (helloBody s)) :=
    carrySend_ready (s := { s with out := [] }) hready rfl
  exact (congrArg (fun u : State => { u with pending := s.pending }) hsent :)

end Sys2Proof.Machine
end

section
/-! A receipt that meets a candidate's sample at a Standby (R629). -/
namespace Sys2Proof.Machine

/-- A Standby with a candidate's sample of index 0 of second 1 on slot 0. -/
def sCandidate : State := { sTwo .standby with pair := { (sTwo .standby).pair with candidates := [aHeld] } }

theorem sCandidate_bits (o : List Output) (l0 l1 : Lane) : receiptBits (sCandidate.withLanes o l0 l1) aReceipt = [aReceipt] := by
  have hrate : receiptBits (sCandidate.withLanes o l0 l1) aReceipt = receiptBits sCandidate aReceipt := rfl
  rw [hrate]
  decide

/-- The receipt of that index confirms the candidate's sample, and is not kept. -/
theorem receiptArrived_candidate (o : List Output) (l0 l1 : Lane) : (receiptArrived (sCandidate.withLanes o l0 l1) [aReceipt]).pair.receipts = [] := by
  have hnames : receiptNames (sCandidate.withLanes o l0 l1) aReceipt aHeld = true := by
    have hsame : receiptNames (sCandidate.withLanes o l0 l1) aReceipt aHeld = receiptNames sCandidate aReceipt aHeld := rfl
    rw [hsame]
    decide
  have hcandidates : (sCandidate.withLanes o l0 l1).pair.candidates = [aHeld] := rfl
  have hkind : ¬ 2 ≤ aReceipt.kind.val := by decide
  have hheld : (sCandidate.withLanes o l0 l1).pair.held = [] := rfl
  simp only [receiptArrived, List.foldl_cons, List.foldl_nil, hkind, if_false, sCandidate_bits, takeReceipt, hheld, List.find?_nil, hcandidates,
    List.any_cons, hnames, Bool.true_or, if_true]
  rfl

theorem sCandidate_receipt : Answers (.receipt aHdr [aReceipt]) sCandidate (fun t => t.pair.receipts = []) := by
  refine answers_taken (execReceipt.eq_def aHdr [aReceipt] sCandidate) (by decide) fun o l0 l1 _ => ?_
  have hframe := settled_frame (fun u => if serving u && inAgreement u then receiptArrived u [aReceipt] else u) (sCandidate.withLanes o l0 l1)
  exact (congrArg (fun u : State => u.pair.receipts) hframe :).trans (receiptArrived_candidate o l0 l1)

/-- Refutes O39: its clause on a receipt says that a Standby that holds nothing keeps it, whatever the state; in `sCandidate` it meets the sample of a
candidate slot, which it confirms (R629). -/
theorem not_inputAgreement : ¬ Obligations.InputAgreement := by
  unfold Obligations.InputAgreement
  rintro ⟨hreceipt, -⟩
  obtain ⟨t, -, ⟨hkept, -, -⟩, hmet⟩ := (hreceipt sCandidate aHdr aReceipt (by decide) (by decide) rfl rfl (by decide) rfl (by decide) (by decide)
    (by decide)).and sCandidate_receipt
  rw [hmet] at hkept
  cases hkept

end Sys2Proof.Machine
end

section
/-! What a decision on breaker messages, and the start of deciding or following, leave beside the streams and what agreement holds (R632, R639). -/
namespace Sys2Proof.Machine

/-- The state without the streams, the samples and messages that agreement holds, and records. -/
def State.sansHeld (s : State) : State :=
  { s.sansRecords with streams := {}, free := 0, pair := { s.sansRecords.pair with held := [], heldBrk := [], brkDue := [] } }

theorem sansHeld_records {s t : State} (h : t.sansRecords = s.sansRecords) : t.sansHeld = s.sansHeld := by
  unfold State.sansHeld
  rw [h]

theorem journalEntry_sansHeld (s : State) (e : Entry) : (journalEntry s e).sansHeld = s.sansHeld := sansHeld_records (journalEntry_sansRecords s e)

theorem brkHeard_sansHeld (s : State) (n : Nat) : (if faultStands s (keyB 0x2D40 n) then causeGone s (keyB 0x2D40 n) else s).sansHeld = s.sansHeld := by
  split
  · exact sansHeld_records (causeGone_sansRecords s _)
  · rfl

theorem brkApply_sansHeld (s : State) (n : Nat) (m : BrkMsg) (tick : Nat) (i : SIndex) : (brkApply s n m tick i).sansHeld = s.sansHeld := by
  have put (u : State) (x : BrkSlot) : (brkPut u n x).sansHeld = u.sansHeld := rfl
  have admitted : (brkAdmit s n m i).sansHeld = s.sansHeld := by simp [brkAdmit, brkHeard_sansHeld, brkEntry, journalEntry_sansHeld, put]
  have used : (brkUse s n m).sansHeld = s.sansHeld := by
    unfold brkUse
    dsimp only
    split
    · rfl
    · rw [brkHeard_sansHeld, put]
  unfold brkApply
  dsimp only
  split <;> simp [apply_ite State.sansHeld, admitted, used, put]

theorem decide_sansHeld (s : State) (ds : List DecisionRec) : (decide_ s ds).sansHeld = s.sansHeld := by
  have ordered (u : State) (n : Fin 2) : (orderLane u n).sansHeld = u.sansHeld := by
    unfold orderLane lanePut
    dsimp only
    split <;> rfl
  unfold decide_ sendOrdered
  split
  · rw [ordered, sansHeld_records (carrySend_sansRecords _ _ _)]
  · rfl

theorem brkDecide_sansHeld (s : State) (n : Nat) (m : BrkMsg) (tick : Nat) : (brkDecide s n (.message m tick)).sansHeld = s.sansHeld := by
  unfold brkDecide
  dsimp only
  split
  · rfl
  · split
    · exact (decide_sansHeld _ _).trans rfl
    · exact brkApply_sansHeld s n m tick _

theorem brkAdvance_sansHeld (s : State) : (brkAdvance s).sansHeld = s.sansHeld := by
  unfold brkAdvance
  split
  · rfl
  · dsimp only
    rw [foldl_keeps State.sansHeld _ (fun u (h : HeldBrk) => brkDecide_sansHeld u h.slot h.msg h.tick)]
    rfl

theorem startDeciding_sansHeld (s : State) : (startDeciding s).sansHeld = s.sansHeld := by
  unfold startDeciding
  dsimp only
  rw [foldl_keeps State.sansHeld _ (fun u p => by split <;> rfl)]
  rfl

theorem startFollowing_sansHeld (s : State) : (startFollowing s).sansHeld = s.sansHeld := by
  unfold startFollowing
  exact foldl_keeps State.sansHeld _ (fun u p => by split <;> rfl) _ s

end Sys2Proof.Machine
end

section
/-! The course of a role swap (R639, R644, Table 16.10). -/
namespace Sys2Proof.Machine

/-- The fields of a swap. -/
def State.swapping (s : State) : PairState × Nat × Swap × Option Nat × Nat :=
  (s.pair.state, s.pair.partnerState, s.pair.swap, s.pair.swapDue, s.pair.swapFrom)

theorem swapping_records {s t : State} (h : t.sansRecords = s.sansRecords) : t.swapping = s.swapping := by have e := congrArg State.swapping h; exact e

theorem settled_swapping (f : State → State) (s : State) : (settled f s).swapping = (f s).swapping := by
  have e := congrArg State.swapping (settled_frame f s); exact e

theorem settlePair_swapping (s : State) : (settlePair s).swapping = s.swapping := by
  have e := congrArg State.swapping (settlePair_sansSettled s); exact e

theorem judgeSwap_sansRecords (s : State) : (judgeSwap s).sansRecords = s.sansRecords := by
  unfold judgeSwap
  split
  · split
    · exact judgeFault_sansRecords s _ _ _ _ (by decide)
    · rfl
  · rfl

/-! The proposal -/

/-- A swap is due now. -/
def swapDueNow (s : State) : State := { s with pair := { s.pair with swapDue := some s.now } }

/-- A swap that falls due is proposed when it is possible (Table 16.10, step 2). -/
theorem trySwap_due {s : State} (hstate : s.pair.state = .active) (hswap : s.pair.swap = .none) :
    (trySwap (swapDueNow s)).swapping = (.active, s.pair.partnerState,
      (if swapPossible s then .proposed (addIndex (strapRate s) s.journal.latest (48 * decim s)) else .none), some s.now, s.pair.swapFrom) := by
  have hjudged : judgeSwap (swapDueNow s) = swapDueNow s := if_neg (by simp [swapDueNow, ticksPerSec])
  have htry : trySwap (swapDueNow s) = if swapPossible s then proposeSwap (swapDueNow s) s.journal.latest else swapDueNow s := by
    have hguard : ((swapDueNow s).pair.state == .active && (swapDueNow s).pair.swapDue.isSome && (swapDueNow s).pair.swap == .none
        && swapPossible (swapDueNow s)) = swapPossible s := by
      rw [show (swapDueNow s).pair.state = s.pair.state from rfl, show (swapDueNow s).pair.swap = s.pair.swap from rfl, hstate, hswap]
      exact Bool.true_and _
    unfold trySwap
    dsimp only
    rw [hjudged, hguard]
    rfl
  rw [htry]
  split
  · refine (swapping_records (carrySend_sansRecords _ _ _)).trans ?_
    simp [State.swapping, swapDueNow, hstate]
    rfl
  · simp [State.swapping, swapDueNow, hstate, hswap]

theorem answers_swapTimer {s : State} (hserving : serving s = true) (hstate : s.pair.state = .active) (hdue : s.pair.swapDue = none)
    (hswap : s.pair.swap = .none) : Answers .swapTimer s (fun t => t.pair.swapDue = some s.now ∧ t.pair.state = .active
      ∧ t.pair.swap = (if swapPossible s then .proposed (addIndex (strapRate s) s.journal.latest (48 * decim s)) else .none)) := by
  refine answers_of_guard (b := fun u => serving u && u.pair.state == .active) (execSwapTimer.eq_def s) (Bool.and_eq_true_iff.mpr ⟨hserving, beq_iff_eq.mpr hstate⟩) ?_
  have hnow : ({ s with out := [], pair := { s.pair with swapDue := some (s.pair.swapDue.getD s.now) } } : State) = swapDueNow { s with out := [] } := by
    rw [hdue]
    rfl
  have hswapping := (settlePair_swapping _).trans (trySwap_due (s := { s with out := [] }) hstate hswap)
  rw [← hnow] at hswapping
  simp only [State.swapping, Prod.mk.injEq] at hswapping
  obtain ⟨hactive, -, hproposed, hdueNow, -⟩ := hswapping
  exact ⟨hdueNow, hactive, hproposed⟩

/-! Agreed, declined, tried again -/

theorem swapping_lanes {s : State} {o : List Output} {l0 l1 : Lane} : (s.withLanes o l0 l1).swapping = s.swapping := rfl

theorem answers_swapPropose {s : State} {h : CarryHdr} {ns : SIndex} (htakes : takes s h = true) (hserving : serving s = true)
    (hstate : s.pair.state = .standby) : Answers (.swapPropose h ns) s (fun t =>
      t.pair.swap = (if swapPossible s then .agreed ns else s.pair.swap) ∧ t.pair.state = .standby) := by
  refine answers_taken (execSwapPropose.eq_def h ns s) htakes fun o l0 l1 _ => ?_
  have hswapping := settled_swapping (fun u => if serving u then swapProposed u ns else u) (s.withLanes o l0 l1)
  have hproposed : (if serving (s.withLanes o l0 l1) then swapProposed (s.withLanes o l0 l1) ns else s.withLanes o l0 l1).swapping
      = (.standby, s.pair.partnerState, (if swapPossible s then .agreed ns else s.pair.swap), s.pair.swapDue, s.pair.swapFrom) := by
    have hserving' : serving (s.withLanes o l0 l1) = true := hserving
    have hstandby : ((s.withLanes o l0 l1).pair.state != .standby) = false := by
      rw [show (s.withLanes o l0 l1).pair.state = s.pair.state from rfl, hstate]
      rfl
    rw [if_pos hserving', swapProposed, hstandby, show swapPossible (s.withLanes o l0 l1) = swapPossible s from rfl]
    simp only [Bool.false_eq_true, if_false]
    split
    · refine (swapping_records (carrySend_sansRecords _ _ _)).trans ?_
      rw [← hstate]
      rfl
    · refine (swapping_records (carrySend_sansRecords _ _ _)).trans ?_
      rw [← hstate]
      rfl
  replace hswapping := hswapping.trans hproposed
  simp only [State.swapping, Prod.mk.injEq] at hswapping
  obtain ⟨hstandby, -, hagreed, -⟩ := hswapping
  exact ⟨hagreed, hstandby⟩

theorem answers_swapAgree {s : State} {h : CarryHdr} {ns : SIndex} (htakes : takes s h = true) (hswap : s.pair.swap = .proposed ns) :
    Answers (.swapAgree h ns) s (fun t => t.pair.swap = .agreed ns ∧ t.pair.state = s.pair.state) := by
  refine answers_taken (execSwapAgree.eq_def h ns s) htakes fun o l0 l1 _ => ?_
  have hswapping := settled_swapping (fun u => if u.pair.swap == .proposed ns then { u with pair := { u.pair with swap := .agreed ns } } else u)
    (s.withLanes o l0 l1)
  have hsame : ((s.withLanes o l0 l1).pair.swap == .proposed ns) = true := beq_iff_eq.mpr hswap
  dsimp only at hswapping
  rw [if_pos hsame] at hswapping
  simp only [State.swapping, Prod.mk.injEq] at hswapping
  obtain ⟨hstate, -, hagreed, -⟩ := hswapping
  exact ⟨hagreed, hstate⟩

theorem abandonSwap_active {s : State} {ns : SIndex} (hstate : s.pair.state = .active) (hswap : s.pair.swap = .proposed ns) :
    (abandonSwap s).swapping = (.active, s.pair.partnerState, .retry, s.pair.swapDue, s.pair.swapFrom) := by
  unfold abandonSwap
  simp [hswap, hstate, State.swapping]

theorem answers_swapDecline {s : State} {h : CarryHdr} {ns : SIndex} (htakes : takes s h = true) (hstate : s.pair.state = .active)
    (hswap : s.pair.swap = .proposed ns) : Answers (.swapDecline h) s (fun t => t.pair.swap = .retry ∧ t.pair.state = .active) := by
  refine answers_taken (execSwapDecline.eq_def h s) htakes fun o l0 l1 _ => ?_
  have hswapping := (settled_swapping (fun u => judgeSwap (abandonSwap u)) (s.withLanes o l0 l1)).trans
    ((swapping_records (judgeSwap_sansRecords _)).trans (abandonSwap_active (s := s.withLanes o l0 l1) hstate hswap))
  simp only [State.swapping, Prod.mk.injEq] at hswapping
  obtain ⟨hactive, -, hretry, -⟩ := hswapping
  exact ⟨hretry, hactive⟩

/-- With no swap due there is none to propose. -/
theorem trySwap_idle {s : State} (hdue : s.pair.swapDue = none) : trySwap s = s := by
  have hjudged : judgeSwap s = s := by
    unfold judgeSwap
    rw [hdue]
  unfold trySwap
  dsimp only
  rw [hjudged, hdue]
  simp

theorem answers_swapRetry {s : State} (hserving : serving s = true) (hswap : s.pair.swap = .retry) (hdue : s.pair.swapDue = none) :
    Answers .swapRetry s (fun t => t.pair.swap = .none ∧ t.pair.state = s.pair.state) := by
  refine answers_of_guard (b := fun u => serving u && u.pair.swap == .retry) (execSwapRetry.eq_def s)
    (Bool.and_eq_true_iff.mpr ⟨hserving, beq_iff_eq.mpr hswap⟩) ?_
  have hidle := trySwap_idle (s := { s with out := [], pair := { s.pair with swap := .none } }) hdue
  have hswapping := (settlePair_swapping _).trans (congrArg State.swapping hidle)
  simp only [State.swapping, Prod.mk.injEq] at hswapping
  obtain ⟨hstate, -, hnone, -⟩ := hswapping
  exact ⟨hnone, hstate⟩

/-! The swap at its index -/

/-- The roles are exchanged. -/
def rolesSwapped (s : State) : State := { s with pair := { s.pair with swap := .none, swapDue := none, swapFrom := s.now } }

/-- The state that a unit takes at the index of a swap. -/
def swapTo (s : State) (ns : SIndex) : State := if s.pair.state == .active then swapToStandby s ns else swapToActive s ns

theorem swapRoles_sansRecords (s : State) (ns : SIndex) : (swapRoles s ns).sansRecords = (rolesSwapped (swapTo s ns)).sansRecords :=
  (journalEntry_sansRecords _ _).trans (causeGoneU_sansRecords (rolesSwapped (swapTo s ns)) 0x57C0)

/-- What a unit's pair state, its partner's, and the time come to at a swap. -/
theorem swapRoles_swapping {s : State} {ns : SIndex} {role : PairState} {partner : Nat} (hstate : (swapTo s ns).pair.state = role)
    (hpartner : (swapTo s ns).pair.partnerState = partner) (hnow : (swapTo s ns).now = s.now) :
    (swapRoles s ns).swapping = (role, partner, .none, none, s.now) := by
  refine (swapping_records (swapRoles_sansRecords s ns)).trans ?_
  simp only [State.swapping, rolesSwapped, hstate, hpartner, hnow]

theorem answers_swapAtIndex {s : State} {ns : SIndex} {role : PairState} {partner : Nat} (hserving : serving s = true)
    (hswap : s.pair.swap = .agreed ns) (hstate : (swapTo { s with out := [] } ns).pair.state = role)
    (hpartner : (swapTo { s with out := [] } ns).pair.partnerState = partner) (hnow : (swapTo { s with out := [] } ns).now = s.now) :
    Answers .swapAtIndex s (fun t =>
      t.pair.state = role ∧ t.pair.partnerState = partner ∧ t.pair.swap = .none ∧ t.pair.swapDue = none ∧ t.pair.swapFrom = s.now) := by
  refine answers_of_run (execSwapAtIndex.eq_def s) ?_
  have hserving' : (!serving { s with out := [] }) = false := by
    rw [show serving { s with out := [] } = serving s from rfl, hserving]
    rfl
  have hswapping := (settled_swapping (fun u => swapRoles u ns) { s with out := [] }).trans
    (swapRoles_swapping (s := { s with out := [] }) hstate hpartner hnow)
  simp only [State.swapping, Prod.mk.injEq] at hswapping
  dsimp only
  rw [hserving', hswap]
  exact hswapping

theorem swapToActive_leaves (s : State) (ns : SIndex) : (swapToActive s ns).pair.state = .active ∧ (swapToActive s ns).pair.partnerState = 3
    ∧ (swapToActive s ns).now = s.now := by
  have hframe := brkAdvance_sansHeld { startDeciding s with
    journal := { (startDeciding s).journal with queue := (startDeciding s).journal.queue
      ++ (startDeciding s).pair.pairEntries.filter (fun e => !e.idx.lt ns) ++ (startDeciding s).pair.unitEntries }
    pair := { (startDeciding s).pair with
      state := .active, partnerState := 3, accepted := true, unitEntries := []
      pairEntries := (startDeciding s).pair.pairEntries.filter (fun e => e.idx.lt ns) } }
  have hnow : (startDeciding s).now = s.now := (congrArg State.now (startDeciding_sansHeld s) :)
  exact ⟨(congrArg (fun u : State => u.pair.state) hframe :), (congrArg (fun u : State => u.pair.partnerState) hframe :),
    (congrArg State.now hframe :).trans hnow⟩

/-- An Active with nothing to number becomes Standby. -/
theorem swapToStandby_leaves {s : State} {ns : SIndex} (hqueue : s.journal.queue = []) : (swapToStandby s ns).pair.state = .standby
    ∧ (swapToStandby s ns).pair.partnerState = 2 ∧ (swapToStandby s ns).now = s.now := by
  have hnumbered : numberBefore (s.journal.queue.length + 1) s ns = s := by
    rw [hqueue]
    unfold numberBefore
    rw [hqueue]
    rfl
  let v := startFollowing s
  let u : State := { v with
    journal := { v.journal with queue := [] }
    pair := { v.pair with state := .standby, partnerState := 2, pairEntries := v.pair.pairEntries ++ v.journal.queue.filter (·.pair) } }
  have he : swapToStandby s ns = (v.journal.queue.filter (fun e => !e.pair && e.origin == sideUid v)).foldl placeEntry u := by
    unfold swapToStandby
    rw [hnumbered]
    rfl
  have hframe : (swapToStandby s ns).sansRecords = u.sansRecords := by
    rw [he]
    exact foldl_keeps State.sansRecords placeEntry placeEntry_sansRecords _ u
  have hnow : v.now = s.now := (congrArg State.now (startFollowing_sansHeld s) :)
  exact ⟨(congrArg (fun w : State => w.pair.state) hframe :), (congrArg (fun w : State => w.pair.partnerState) hframe :),
    (congrArg State.now hframe :).trans hnow⟩

/-- Settles O40: a swap is due at the timer and proposed when it is possible; agreed or declined by the Standby; and at its index the roles are
exchanged. -/
theorem swapCourse : Obligations.SwapCourse := by
  unfold Obligations.SwapCourse
  refine ⟨fun s hserving _ => answers_swapTimer hserving, fun s h ns => answers_swapPropose, fun s h ns => answers_swapAgree,
    fun s h ns => answers_swapDecline, fun s => answers_swapRetry, fun s ns hserving hswap hstate hqueue => ?_, fun s ns hserving hswap hstate => ?_⟩
  · have hto : swapTo { s with out := [] } ns = swapToStandby { s with out := [] } ns := if_pos (beq_iff_eq.mpr hstate)
    obtain ⟨hstandby, hpartner, hnow⟩ := swapToStandby_leaves (s := { s with out := [] }) (ns := ns) hqueue
    rw [← hto] at hstandby hpartner hnow
    exact answers_swapAtIndex hserving hswap hstandby hpartner hnow
  · have hto : swapTo { s with out := [] } ns = swapToActive { s with out := [] } ns :=
      if_neg (by rw [show ({ s with out := [] } : State).pair.state = .standby from hstate]; decide)
    obtain ⟨hactive, hpartner, hnow⟩ := swapToActive_leaves { s with out := [] } ns
    rw [← hto] at hactive hpartner hnow
    exact answers_swapAtIndex hserving hswap hactive hpartner hnow

end Sys2Proof.Machine
end

section
/-! What the pair's settling leaves of the commit queue: every entry stays in it (R662, R664). -/
namespace Sys2Proof.Machine

/-- Every entry of the commit queue is still in it. -/
def Queues (s t : State) : Prop := s.journal.queue ⊆ t.journal.queue

namespace Queues

theorem refl (s : State) : Queues s s := List.Subset.refl _
theorem trans {s t u : State} (h : Queues s t) (h' : Queues t u) : Queues s u := List.Subset.trans h h'
theorem of_journal {s t : State} (h : t.journal = s.journal) : Queues s t := by
  unfold Queues
  rw [h]
  exact List.Subset.refl _

/-- The queue that a step starts from is another state's. -/
theorem after {s t u : State} (h : Queues t u) (hq : t.journal.queue = s.journal.queue) : Queues s u := by
  unfold Queues at h ⊢
  rw [← hq]
  exact h

theorem foldl {α : Type} {f : State → α → State} (h : ∀ s x, Queues s (f s x)) : ∀ (l : List α) (s : State), Queues s (l.foldl f s)
  | [], s => refl s
  | x :: l, s => (h s x).trans (foldl h l (f s x))

end Queues
open Queues

/-! Entries -/

theorem carrySend_journal (s : State) (l : Fin 2) (m : CarryMsg) : (carrySend s l m).journal = s.journal := by
  have put (u : State) (m : CarryMsg) : (carryPut u l m).journal = u.journal := by
    unfold carryPut
    dsimp only
    generalize (if l = 0 then (u.pair.lane0.up || !u.pair.lane1.up) else (u.pair.lane0.up && !u.pair.lane1.up)) = zero
    cases zero
    · simp only [Bool.false_eq_true, if_false]
      split_ifs <;> rfl
    · simp only [if_true]
      split_ifs <;> rfl
  exact foldl_keeps State.journal _ (fun u x => put u x) _ s

theorem placeEntry_queues (s : State) (e : Entry) : Queues s (placeEntry s e) := by
  unfold placeEntry
  split
  · exact of_journal (carrySend_journal _ _ _)
  · exact List.subset_append_left _ _

theorem queueEntry_queues (s : State) (e : Entry) : Queues s (queueEntry s e) := by
  unfold queueEntry
  dsimp only
  split_ifs
  · exact refl s
  · exact placeEntry_queues s e
  · exact refl s
  · exact refl s
  · exact placeEntry_queues s e

theorem submitEntry_queues (s : State) (e : Entry) : Queues s (submitEntry s e) := by
  have limited : Queues s (limitEntry s e) := by
    unfold limitEntry
    dsimp only
    split_ifs
    · exact queueEntry_queues s e
    · exact refl s
    · exact refl s
    · exact (queueEntry_queues _ e).after rfl
    · exact ((queueEntry_queues _ _).trans (queueEntry_queues _ e)).after rfl
  unfold submitEntry
  split_ifs
  · exact refl s
  · exact refl s
  · exact limited

/-! Faults -/

theorem reactPlain_queues (s : State) (k : FaultKey) (r : FaultRec) (n : Nat) (d : List Byte) : Queues s (reactPlain s k r n d) :=
  (submitEntry_queues _ _).after rfl

theorem ariseWith_queues (re : State → FaultKey → FaultRec → Nat → List Byte → State) (h : ∀ s k r n d, r.level ≠ 4 → Queues s (re s k r n d))
    (s : State) (k : FaultKey) (det hdl : Nat) (d : List Byte) (hl : max (faultRow k.code).2.1 (raiseLevel s k.code) < 4) :
    Queues s (ariseWith re s k det hdl d) := by
  unfold ariseWith
  split
  · exact h _ _ _ _ _ (by dsimp only; omega)
  next r _ =>
    dsimp only
    split_ifs with hlevel hacked hceiling <;> (try exact refl s) <;> split <;> (try exact refl s) <;> exact h _ _ _ _ _ (by dsimp only; omega)

theorem judgeFault_arisen_queues (s : State) (k : FaultKey) (det hdl : Nat) (h : max (faultRow k.code).2.1 (faultRow k.code).1 < 4) :
    Queues s (arise s k det hdl []) :=
  ariseWith_queues react (fun u k r n d hr => by rw [react, if_neg hr]; exact reactPlain_queues u k r n d) s k det hdl [] (ceiling_lt s k.code h)

theorem journalEntry_queues (s : State) (e : Entry) : Queues s (journalEntry s e) := by
  have lost (u : State) : Queues u (raiseLost u e) := by
    unfold raiseLost
    refine ariseWith_queues reactPlain (fun u k r n d _ => reactPlain_queues u k r n d) u _ _ _ _ (ceiling_lt u _ ?_)
    split
    · dsimp only
      decide
    · decide
  unfold journalEntry
  dsimp only
  split
  · exact (submitEntry_queues s e).trans (lost _)
  · exact submitEntry_queues s e

theorem causeGone_queues (s : State) (k : FaultKey) : Queues s (causeGone s k) := by
  unfold causeGone
  split
  · exact refl s
  · split
    · exact refl s
    · split
      · exact refl s
      · split
        · exact (submitEntry_queues _ _).after rfl
        · exact reactPlain_queues s _ _ _ _
      · exact refl s

theorem judgeFault_queues (s : State) (k : FaultKey) (det hdl : Nat) (b : Bool) (h : max (faultRow k.code).2.1 (faultRow k.code).1 < 4) :
    Queues s (judgeFault s k det hdl b) := by
  unfold judgeFault
  split_ifs
  · exact refl s
  · exact judgeFault_arisen_queues s k det hdl h
  · exact causeGone_queues s k
  · exact refl s

/-! Keys and publications -/

theorem judgeKeys_queues (s : State) : Queues s (judgeKeys s) := by
  unfold judgeKeys
  dsimp only
  exact (Queues.foldl (f := judgeKey) (fun u n => judgeFault_queues u _ _ _ _ (by dsimp only; decide)) _ s).trans
    ((judgeFault_queues _ (keyU 0x5100) _ _ _ (by decide)).trans (judgeFault_queues _ (keyU 0x5140) _ _ _ (by decide)))

theorem gooseKey_queues (s : State) (z : Bool) : Queues s (gooseKey s z).1 := by
  have read (n : Nat) : Queues s (readKey s n).1 := by
    unfold readKey
    split
    · exact refl s
    · split
      · exact refl s
      · dsimp only
        exact ((journalEntry_queues (emptySlot s n) _).after (s := s) rfl).trans (judgeKeys_queues _)
  unfold gooseKey
  split
  · exact refl s
  next n _ =>
    dsimp only
    split <;> exact read n

theorem releaseSummary_queues (s : State) : Queues s (releaseSummary s) := by
  have copy (u : State) (p : Port) (l : List Byte) : (sendCopy u p l).journal = u.journal := by
    unfold sendCopy sendUnit
    dsimp only
    split
    · rfl
    · split <;> cases p <;> rfl
  have station (u : State) (l : List Byte) : (sendStation u l).journal = u.journal := by
    unfold sendStation
    dsimp only
    rw [copy, copy]
  have summary (u : State) (l : List Byte) : Queues u (sendSummary u l) := by
    unfold sendSummary
    dsimp only
    split
    · exact (gooseKey_queues u false).trans (of_journal (station _ _))
    · exact gooseKey_queues u false
  unfold releaseSummary
  dsimp only
  refine (Queues.foldl (fun u f => ?_) _ _).after rfl
  split
  · exact summary u _
  · exact refl u

theorem handGoose_queues (s : State) (p st : Nat) (c : Bool) (l : List Byte) : Queues s (handGoose s p st c l) := by
  have number (u : State) (f : TxFrame) : (numbered u f).1.journal = u.journal := by
    unfold numbered
    split
    · dsimp only
      split <;> rfl
    · rfl
  have queued (f : TxFrame) : (enqueue s f).journal = s.journal := by
    unfold enqueue
    split
    · exact number s f
    · split
      · split
        · exact number s _
        · rfl
      · rfl
  unfold handGoose
  split
  · split
    · exact of_journal (queued _)
    · split <;> exact of_journal rfl
  · exact (releaseSummary_queues _).after rfl

theorem pubSet_journal (s : State) (p : Nat) (i : SIndex) (t : Nat × Nat) (q : Nat) (l : List Byte) (r e : Nat) (d : List Byte) (b : Bool) :
    (pubSet s p i t q l r e d b).journal = s.journal := by
  unfold pubSet
  dsimp only
  split <;> rfl

theorem summaryChange_queues (s : State) : Queues s (summaryChange s) :=
  (handGoose_queues _ _ _ _ _).after (congrArg Journal.queue (pubSet_journal _ _ _ _ _ _ _ _ _ _) :)

theorem judgeSummary_queues (s : State) : Queues s (judgeSummary s) := by
  unfold judgeSummary
  split
  · exact summaryChange_queues s
  · exact refl s

theorem zoneChangeNow_queues (s : State) (z : Nat) : Queues s (zoneChangeNow s z) := by
  have handed (u : State) (hu : u.journal = s.journal) (p st : Nat) (c : Bool) (l : List Byte) : Queues s (handGoose u p st c l) :=
    (handGoose_queues u p st c l).after (congrArg Journal.queue hu)
  unfold zoneChangeNow zoneChangeAt handChange
  dsimp only
  split
  · exact of_journal (pubSet_journal _ _ _ _ _ _ _ _ _ _)
  · exact handed _ (pubSet_journal _ _ _ _ _ _ _ _ _ _) _ _ _ _

theorem authChanged_queues (s : State) : Queues s (authChanged s) := by
  have published (u : State) (p : Publisher) : Queues u { u with pub := p } := of_journal rfl
  have judged : ∀ p : Publisher, Queues s { judgeKeys s with pub := p } := fun p => (judgeKeys_queues s).trans (published _ p)
  unfold authChanged
  dsimp only
  split_ifs
  · exact ((judged _).trans (Queues.foldl zoneChangeNow_queues _ _)).trans (summaryChange_queues _)
  · exact (judged _).trans (Queues.foldl zoneChangeNow_queues _ _)
  · exact (judged _).trans (summaryChange_queues _)
  · exact judged _
  · exact judged _

/-! The pair's settling -/

theorem syncGuarantee_queues (s : State) : Queues s (syncGuarantee s) := by
  have condition (u : State) (c : Nat) : Queues u (syncCondition u c) := by
    unfold syncCondition
    dsimp only
    split_ifs
    · exact refl u
    · exact (submitEntry_queues _ _).after rfl
    · exact (submitEntry_queues _ _).after rfl
    · exact refl u
  unfold syncGuarantee
  split
  · exact Queues.foldl condition _ s
  · exact refl s

theorem roleSessions_queues (s : State) : Queues s (roleSessions s) := by
  have closed (u : State) (i c : Nat) : Queues u (closeSession u i c) := by
    unfold closeSession
    dsimp only
    split
    · exact refl u
    · exact (journalEntry_queues _ _).after rfl
  unfold roleSessions closeSessions
  split
  · refine Queues.foldl (fun u i => ?_) _ s
    split
    · exact closed u i 2
    · exact refl u
  · exact refl s

theorem settled_queues (f : State → State) (s : State) : Queues (f s) (settled f s) := by
  have twin : Queues (f s) (withTwin f s) := by
    unfold withTwin
    dsimp only
    split
    · exact (causeGone_queues _ _).after rfl
    · exact refl _
  have auth (u : State) : Queues u (if coreRuns u && u.plug.image.isSome then authChanged u else u) := by
    split
    · exact authChanged_queues u
    · exact refl u
  exact twin.trans ((auth _).trans ((roleSessions_queues _).trans ((syncGuarantee_queues _).trans (judgeSummary_queues _))))

end Sys2Proof.Machine
end

section
/-! Entries of a pair, and the course of a rejoin (R641, R642, R649, R661, Table 16.12). -/
namespace Sys2Proof.Machine

theorem settled_sansSettled_pair (f : State → State) (s : State) {α : Type} (g : Pair → α)
    (hg : ∀ p : Pair, g { p with lane0 := {}, lane1 := {}, unitEntries := [], pairEntries := [] } = g p) : g (settled f s).pair = g (f s).pair := by
  have e := congrArg (fun u : State => g u.pair) (settled_frame f s)
  exact (hg _).symm.trans (Eq.trans e (hg _))

/-! Entries and their numbers (R661) -/

theorem answers_jentryUnnumbered {s : State} {h : CarryHdr} {e : CarriedEntry} (htakes : takes s h = true) (hstate : s.pair.state = .active)
    (hformed : formed s = true) (hjseq : e.jseq = 0) : Answers (.jentry h e) s (fun t =>
      entryOf e ∈ t.journal.queue ∧ t.journal.jseq = s.journal.jseq) := by
  refine answers_taken (execJentry.eq_def h e s) htakes fun o l0 l1 _ => ?_
  let u := s.withLanes o l0 l1
  have harrived : jentryArrived u e = { u with journal := { u.journal with queue := u.journal.queue ++ [entryOf e] } } := by
    have hguard : (u.pair.state == .active && sharesJournal u) = true := by
      have hshares : sharesJournal u = true := by rw [sharesJournal, show formed u = formed s from rfl, hformed]; rfl
      rw [hshares, show u.pair.state = s.pair.state from rfl, hstate]
      rfl
    rw [jentryArrived, if_pos hjseq, if_pos hguard]
  have hqueues := settled_queues (fun w => jentryArrived w e) u
  have hframe := settled_frame (fun w => jentryArrived w e) u
  dsimp only at hqueues hframe
  rw [harrived] at hqueues hframe
  exact ⟨hqueues (List.mem_append_right _ (List.mem_singleton_self _)), (congrArg (fun w : State => w.journal.jseq) hframe :)⟩

theorem drainHolds_numbered : ∀ (n : Nat) (s : State), (drainHolds n s).pair.numbered = s.pair.numbered ∧ (drainHolds n s).journal.jseq = s.journal.jseq
  | 0, _ => ⟨rfl, rfl⟩
  | n + 1, s => by
    unfold drainHolds
    split
    · exact ⟨rfl, rfl⟩
    · split
      · exact ⟨rfl, rfl⟩
      · split
        · exact ⟨rfl, rfl⟩
        next e _ _ h _ =>
          have hplaced := placeEntry_sansRecords { s with journal := { s.journal with holds := s.journal.holds.erase h } } e
          obtain ⟨hnumbered, hjseq⟩ := drainHolds_numbered n (placeEntry { s with journal := { s.journal with holds := s.journal.holds.erase h } } e)
          exact ⟨hnumbered.trans (congrArg (fun w : State => w.pair.numbered) hplaced :),
            hjseq.trans (congrArg (fun w : State => w.journal.jseq) hplaced :)⟩

/-- A numbered entry joins those that have their number. -/
theorem joinNumbered_numbered (s : State) (j : Nat) (e : Entry) (b : Bool) : (joinNumbered s j e b).pair.numbered = s.pair.numbered ++ [(j, e, b)]
    ∧ (joinNumbered s j e b).journal.jseq = s.journal.jseq := by
  unfold joinNumbered
  dsimp only
  split
  · have hsent := carrySend_sansRecords { s with pair := { s.pair with numbered := s.pair.numbered ++ [(j, e, b)] } } 1
      (.jcheck j (BitVec.ofNat 32 (chainCrc { s with pair := { s.pair with numbered := s.pair.numbered ++ [(j, e, b)] } })))
    exact ⟨(congrArg (fun w : State => w.pair.numbered) hsent :), (congrArg (fun w : State => w.journal.jseq) hsent :)⟩
  · exact ⟨rfl, rfl⟩

theorem nextNumber_append {s t : State} {j : Nat} {e : Entry} {b : Bool} (h : t.pair.numbered = s.pair.numbered ++ [(j, e, b)]) :
    nextNumber t = j + 1 := by
  simp [nextNumber, h]

theorem answers_jentryNumbered {s : State} {h : CarryHdr} {e : CarriedEntry} (htakes : takes s h = true) (hstate : s.pair.state = .standby)
    (hjseq : e.jseq ≠ 0) (hnext : e.jseq = nextNumber s) (hunit : (entryOf e).pair = false) : Answers (.jentry h e) s (fun t =>
      t.pair.numbered.length = s.pair.numbered.length + 1 ∧ nextNumber t = nextNumber s + 1) := by
  refine answers_taken (execJentry.eq_def h e s) htakes fun o l0 l1 _ => ?_
  let u := s.withLanes o l0 l1
  have harrived : ∃ x, (jentryArrived u e).pair.numbered = u.pair.numbered ++ [(e.jseq, x, true)] := by
    have hnumbers : (numberedByPartner u || (u.pair.state == .active && u.pair.pairEntries ≠ [])) = true := by
      rw [numberedByPartner, show u.pair.state = .standby from hstate]
      rfl
    have hnext' : nextNumber u = e.jseq := hnext.symm
    rw [jentryArrived, if_neg hjseq, if_pos hnumbers, numberedArrived]
    dsimp only
    rw [hnext', if_neg (lt_irrefl _), if_neg (lt_irrefl _), hunit]
    simp only [Bool.not_false, if_true]
    exact ⟨_, (drainHolds_numbered 64 _).1.trans (joinNumbered_numbered _ _ _ _).1⟩
  obtain ⟨x, hnumbered⟩ := harrived
  have hkept := settled_sansSettled_pair (fun w => jentryArrived w e) u (·.numbered) (fun _ => rfl)
  rw [hnumbered] at hkept
  refine ⟨?_, ?_⟩
  · show (settled (fun w => jentryArrived w e) u).pair.numbered.length = _
    rw [hkept, List.length_append]
    rfl
  · rw [← hnext]
    exact nextNumber_append (s := u) hkept

theorem answers_jcheck {s : State} {h : CarryHdr} {j : Nat} {x : BitVec 32} {c : Committed} (htakes : takes s h = true)
    (hstate : s.pair.state = .active) (hfind : (allCommitted s).find? (fun c => c.jseq == j) = some c) (hdiffers : c.ecrc ≠ x)
    (hclear : faultGet s (keyU 0x5740) = none) : Answers (.jcheck h j x) s (fun t => Reacts t (keyU 0x5740) 2 ∧ t.pair.state = .active) := by
  refine answers_taken (execJcheck.eq_def h j x s) htakes fun o l0 l1 _ => ?_
  let u := s.withLanes o l0 l1
  have harrived : jcheckArrived u j x = judgeFault u (keyU 0x5740) 0 none16 true := by
    have hguard : (u.pair.state == .active && c.ecrc != x) = true := by
      rw [show u.pair.state = .active from hstate, bne_iff_ne.mpr hdiffers]
      rfl
    unfold jcheckArrived
    rw [show (allCommitted u).find? (fun c => c.jseq == j) = some c from hfind]
    exact if_pos hguard
  have hraised : Reacts (jcheckArrived u j x) (keyU 0x5740) 2 := by
    rw [harrived]
    exact reacts_judgeFault (s := u) hclear (by decide) 0 none16
  have hkept := settled_sansSettled_pair (fun w => jcheckArrived w j x) u (·.state) (fun _ => rfl)
  rw [harrived] at hkept
  exact ⟨reacts_settled (by decide) hraised, hkept.trans ((congrArg (fun w : State => w.pair.state)
    (judgeFault_sansRecords u (keyU 0x5740) 0 none16 true (by decide)) :).trans hstate)⟩

/-! The course of a rejoin (Table 16.12) -/

theorem answers_resync {s : State} {h : CarryHdr} {last : Nat} {slots : List (Nat × Nat × StreamIdent × SIndex)} {brks : List (Nat × BrkSlot)}
    {stnums : List (Nat × Nat)} {n0 : SIndex} (htakes : takes s h = true) (hstate : s.pair.state = .active) (hrejoin : s.pair.rejoin = .journals) :
    Answers (.resync h last [] slots brks stnums n0) s (fun t => t.pair.rejoin = .agreeing n0 ∧ t.pair.state = .active) := by
  refine answers_taken (execResync.eq_def h last [] slots brks stnums n0 s) htakes fun o l0 l1 _ => ?_
  let u := s.withLanes o l0 l1
  let a : State := { u with pair := { u.pair with rejoin := .agreeing n0 } }
  have harrived : resyncArrived u last [] slots brks stnums n0 = sendState a (lastCommon u last []) n0 := by
    have he : resyncArrived u last [] slots brks stnums n0 = match u.pair.state, u.pair.rejoin with
      | .rejoining, .journals => takeTable (takeStnums (takeJournal a last []) stnums) slots brks
      | .active, .journals => sendState (takeBranch a last []) (lastCommon u last []) n0
      | _, _ => u := rfl
    rw [he, show u.pair.state = .active from hstate, show u.pair.rejoin = .journals from hrejoin]
    rfl
  have hsent : (resyncArrived u last [] slots brks stnums n0).sansRecords = a.sansRecords := by
    rw [harrived]
    exact carrySend_sansRecords a 1 _
  have hkept := settled_sansSettled_pair (fun w => resyncArrived w last [] slots brks stnums n0) u (fun p => (p.rejoin, p.state)) (fun _ => rfl)
  have hfinal := hkept.trans (congrArg (fun w : State => (w.pair.rejoin, w.pair.state)) hsent :)
  simp only [Prod.mk.injEq] at hfinal
  exact ⟨hfinal.1, hfinal.2.trans hstate⟩

theorem answers_snapshotWaits {s : State} {h : CarryHdr} {zones : List (Nat × Zone)} {pubs : List (Nat × Publication)} {n0 n1 : SIndex} {seq : BitVec 16}
    (htakes : takes s h = true) (hstate : s.pair.state = .rejoining) (hrejoin : s.pair.rejoin = .agreeing n0) (hended : indexEnded s n1 = false) :
    Answers (.snapshot h zones pubs seq n1) s (fun t => t.pair.state = .rejoining ∧ t.zones = s.zones
      ∧ t.pair.snapDue = some { n1 := n1, zones := zones, pubs := pubs, pairSeq := seq }) := by
  refine answers_taken (execSnapshot.eq_def h zones pubs seq n1 s) htakes fun o l0 l1 _ => ?_
  let u := s.withLanes o l0 l1
  let b : SnapBody := { n1 := n1, zones := zones, pubs := pubs, pairSeq := seq }
  have harrived : snapshotArrived u b = { u with pair := { u.pair with snapDue := some b } } := by
    unfold snapshotArrived
    rw [show u.pair.state = .rejoining from hstate, show u.pair.rejoin = .agreeing n0 from hrejoin]
    exact if_neg (by rw [show indexEnded u b.n1 = indexEnded s n1 from rfl, hended]; nofun)
  have hframe := settled_frame (fun w => snapshotArrived w b) u
  dsimp only at hframe
  rw [harrived] at hframe
  exact ⟨(congrArg (fun w : State => w.pair.state) hframe :).trans hstate, (congrArg State.zones hframe :),
    (congrArg (fun w : State => w.pair.snapDue) hframe :)⟩

/-- The snapshot of one zone: its state, and the pair formed with the unit Standby. -/
theorem applySnapshot_zone (s : State) {b : SnapBody} {z : Nat} {x : Zone} (hzones : b.zones = [(z, x)]) (hpubs : b.pubs = []) (hz : z < 256) :
    zoneGet (applySnapshot s b) z = x ∧ (applySnapshot s b).standing = (s.power, .standby, 2, s.pair.accepted, s.now)
      ∧ (applySnapshot s b).pair.rejoin = .none ∧ (applySnapshot s b).pair.absent = false := by
  let v : State := { zonePut s z x with
    ports := { s.ports with seqPair := b.pairSeq }, pair := { s.pair with state := .standby, partnerState := 2 } }
  have he : applySnapshot s b = formedNow (coilsFollow (commanded s) v) := by
    unfold applySnapshot
    dsimp only
    rw [hzones, hpubs, List.filter_cons_of_pos (by simpa using hz)]
    rfl
  have hcoils := coilsFollow_sansCoils (commanded s) v
  rw [he]
  generalize coilsFollow (commanded s) v = w at hcoils ⊢
  have hformed := formedNow_sansRecords w
  generalize formedNow w = t at hformed ⊢
  have hzone : t.zones = v.zones := (congrArg State.zones hformed :).trans (congrArg State.zones hcoils :)
  have hstanding : t.standing = w.standing := (standing_of_records hformed).trans rfl
  refine ⟨?_, hstanding.trans (congrArg State.standing hcoils :), (congrArg (fun t : State => t.pair.rejoin) hformed :),
    (congrArg (fun t : State => t.pair.absent) hformed :)⟩
  have hget : zoneGet t z = zoneGet (zonePut s z x) z := (congrArg (fun y : Tab Zone => Tab.get {} y z) hzone :)
  rw [hget]
  simp

theorem answers_snapshot {s : State} {h : CarryHdr} {z : Nat} {x : Zone} {n0 n1 : SIndex} {seq : BitVec 16} (htakes : takes s h = true)
    (hstate : s.pair.state = .rejoining) (hrejoin : s.pair.rejoin = .agreeing n0) (hended : indexEnded s n1 = true) (hz : z < 256) :
    Answers (.snapshot h [(z, x)] [] seq n1) s (fun t =>
      t.pair.state = .standby ∧ t.pair.partnerState = 2 ∧ t.pair.rejoin = .none ∧ t.pair.absent = false ∧ zoneGet t z = x) := by
  refine answers_taken (execSnapshot.eq_def h [(z, x)] [] seq n1 s) htakes fun o l0 l1 _ => ?_
  let u := s.withLanes o l0 l1
  let b : SnapBody := { n1 := n1, zones := [(z, x)], pubs := [], pairSeq := seq }
  have harrived : snapshotArrived u b = applySnapshot u b := by
    unfold snapshotArrived
    rw [show u.pair.state = .rejoining from hstate, show u.pair.rejoin = .agreeing n0 from hrejoin]
    exact if_pos hended
  have hframe := settled_frame (fun w => snapshotArrived w b) u
  dsimp only at hframe
  rw [harrived] at hframe
  obtain ⟨hzone, hstanding, hnone, habsent⟩ := applySnapshot_zone u (b := b) rfl rfl hz
  generalize applySnapshot u b = w at hframe hzone hstanding hnone habsent
  simp only [State.standing, Prod.mk.injEq] at hstanding
  obtain ⟨-, hstandby, hpartner, -⟩ := hstanding
  exact ⟨(congrArg (fun t : State => t.pair.state) hframe :).trans hstandby, (congrArg (fun t : State => t.pair.partnerState) hframe :).trans hpartner,
    (congrArg (fun t : State => t.pair.rejoin) hframe :).trans hnone, (congrArg (fun t : State => t.pair.absent) hframe :).trans habsent,
    (congrArg (fun t : State => zoneGet t z) hframe :).trans hzone⟩

/-! A rejoin that takes too long (R642) -/

theorem dropAwaited_empty {s : State} (h : s.pair.held = []) : dropAwaited s = s := by
  unfold dropAwaited
  rw [h]
  show setHeld s [] = s
  rw [setHeld, ← h]

theorem brkAdvance_empty {s : State} (h : s.pair.heldBrk = []) : brkAdvance s = s := by
  unfold brkAdvance
  split
  · rfl
  · rw [h]
    show ({ s with pair := { s.pair with heldBrk := [] } } : State) = s
    rw [← h]

/-- The end of agreement at a unit that holds nothing. -/
theorem endAgreement_empty {s : State} (hheld : s.pair.held = []) (hbrk : s.pair.heldBrk = []) :
    endAgreement s = { s with pair := { s.pair with receipts := [], candidates := [] } } := by
  unfold endAgreement
  dsimp only
  rw [hheld, hbrk, brkAdvance_empty (by rfl), dropAwaited_empty (by rfl)]
  show ({ s with pair := { s.pair with held := [], heldBrk := [], receipts := [], candidates := [] } } : State) = _
  rw [← hheld, ← hbrk]

/-- The Active starts a rejoin, its swap abandoned. -/
def rejoinStarts (s : State) : State :=
  abandonSwap { s with pair := { s.pair with rejoin := .journals, rejoinAt := s.now, partnerState := 5, accepted := true, absent := false } }

theorem rejoinStarts_pair (s : State) : ∃ w, rejoinStarts s = { s with pair := { s.pair with
    rejoin := .journals, rejoinAt := s.now, partnerState := 5, accepted := true, absent := false, swap := w } } := by
  unfold rejoinStarts abandonSwap
  split <;> exact ⟨_, rfl⟩

theorem rejoinPartner_leaves {s : State} (h : agreementEmpty s) : (rejoinPartner s).faults = s.faults ∧ (rejoinPartner s).pair.rejoin = .journals
    ∧ (rejoinPartner s).pair.rejoinAt = s.now ∧ (rejoinPartner s).pair.state = s.pair.state := by
  obtain ⟨hheld, hbrk, -⟩ := h
  obtain ⟨w, hstarts⟩ := rejoinStarts_pair s
  have hended := endAgreement_empty (s := rejoinStarts s) (by rw [hstarts]; exact hheld) (by rw [hstarts]; exact hbrk)
  have he : rejoinPartner s = carrySend (endAgreement (rejoinStarts s)) 1 (.resync (ownChain (rejoinStarts s))) := rfl
  have hframe := carrySend_sansRecords (endAgreement (rejoinStarts s)) 1 (.resync (ownChain (rejoinStarts s)))
  have hfaults := carrySend_faults (endAgreement (rejoinStarts s)) 1 (.resync (ownChain (rejoinStarts s)))
  rw [← he] at hframe hfaults
  rw [hended, hstarts] at hframe hfaults
  exact ⟨hfaults, (congrArg (fun t : State => t.pair.rejoin) hframe :), (congrArg (fun t : State => t.pair.rejoinAt) hframe :),
    (congrArg (fun t : State => t.pair.state) hframe :)⟩

/-- The rejoin starts again at the Active, and is counted. -/
def rejoinAgain (s : State) : State := { rejoinPartner s with pair := { (rejoinPartner s).pair with rejoinRuns := s.pair.rejoinRuns + 1 } }

theorem rejoinTimeout_active {s : State} (hstate : s.pair.state = .active) (hrejoin : s.pair.rejoin = .journals) :
    rejoinTimeout s = if 3 ≤ s.pair.rejoinRuns + 1 then judgeFault (rejoinAgain s) (keyU 0x5780) 0 none16 true else rejoinAgain s := by
  have hactive : (s.pair.state == .rejoining) = false := by rw [hstate]; rfl
  have he : rejoinTimeout s = match s.pair.rejoin with
    | .none => s
    | _ =>
      let v := if s.pair.state == .rejoining then toRejoining s else rejoinPartner s
      let w : State := { v with pair := { v.pair with rejoinRuns := s.pair.rejoinRuns + 1 } }
      if 3 ≤ s.pair.rejoinRuns + 1 then judgeFault w (keyU 0x5780) 0 none16 true else w := rfl
  rw [he, hrejoin, hactive]
  rfl

theorem answers_rejoinTimeout {s : State} (htwin : isTwin s = true) (hserving : serving s = true) (hstate : s.pair.state = .active)
    (hrejoin : s.pair.rejoin = .journals) (hempty : agreementEmpty s) (hclear : faultGet s (keyU 0x5780) = none) :
    Answers .rejoinTimeout s (fun t => t.pair.rejoin = .journals ∧ t.pair.rejoinAt = s.now
      ∧ t.pair.rejoinRuns = s.pair.rejoinRuns + 1 ∧ t.pair.state = .active ∧ (2 ≤ s.pair.rejoinRuns → Reacts t (keyU 0x5780) 2)) := by
  refine answers_of_guard (b := fun u => isTwin u && serving u) (execRejoinTimeout.eq_def s) (Bool.and_eq_true_iff.mpr ⟨htwin, hserving⟩) ?_
  let u : State := { s with out := [] }
  obtain ⟨hfaults, hjournals, hat, hactive⟩ := rejoinPartner_leaves (s := u) hempty
  have htimeout := rejoinTimeout_active (s := u) hstate hrejoin
  have hclear' : faultGet (rejoinAgain u) (keyU 0x5780) = none := (faultGet_congr (congrArg Faults.recs hfaults) _).trans hclear
  have hframe : (settlePair (rejoinTimeout u)).sansSettled = (rejoinAgain u).sansSettled := by
    rw [settlePair_sansSettled, htimeout]
    split
    · exact sansSettled_records (judgeFault_sansRecords _ _ _ _ _ (by decide))
    · rfl
  have hreacts : 2 ≤ s.pair.rejoinRuns → Reacts (settlePair (rejoinTimeout u)) (keyU 0x5780) 2 := fun hruns => by
    have hcounts : 3 ≤ u.pair.rejoinRuns + 1 := Nat.succ_le_succ hruns
    refine reacts_congr (settlePair_faultGet _ _ (by decide)) ?_
    rw [htimeout, if_pos hcounts]
    exact reacts_judgeFault hclear' (by decide) 0 none16
  exact ⟨(congrArg (fun t : State => t.pair.rejoin) hframe :).trans hjournals, (congrArg (fun t : State => t.pair.rejoinAt) hframe :).trans hat,
    (congrArg (fun t : State => t.pair.rejoinRuns) hframe :), (congrArg (fun t : State => t.pair.state) hframe :).trans (hactive.trans hstate), hreacts⟩

/-- Settles O41: the Active queues what is to be numbered and raises a failed check; the Standby takes numbered entries in turn; a rejoin names its
first common index, takes the snapshot, and starts again when it takes too long. -/
theorem pairJournalAndRejoin : Obligations.PairJournalAndRejoin := by
  unfold Obligations.PairJournalAndRejoin
  exact ⟨fun s h e => answers_jentryUnnumbered, fun s h e => answers_jentryNumbered, fun s h j x c htakes _ => answers_jcheck htakes,
    fun s h last slots brks stnums n0 => answers_resync, fun s h zones pubs n0 seq n1 => answers_snapshotWaits,
    fun s h z x n0 seq n1 htakes hstate hrejoin hended _ => answers_snapshot htakes hstate hrejoin hended,
    fun s htwin hserving _ => answers_rejoinTimeout htwin hserving⟩

end Sys2Proof.Machine
end

section
/-! The commit protocol: number, chain, place; the entry that fails twice; the stopped path (R660, R664, R688, R689, Table 17.5). -/
namespace Sys2Proof.Machine

/-! The chain of the journal: its number, its CRC, whether it stands, and what its pages hold -/

/-- The chain that commits lengthen. -/
def State.chain (s : State) : Nat × BitVec 32 × Bool × List (Nat × Nat × List Committed) :=
  (s.journal.jseq, s.journal.lastCrc, s.journal.stalled, s.journal.pages.map (fun p => (p.1, p.2.used, p.2.entries)))

theorem chain_of_course {s t : State} (h : t.sansCourse = s.sansCourse) : t.chain = s.chain := (congrArg State.chain h :)
theorem chain_of_records {s t : State} (h : t.sansRecords = s.sansRecords) : t.chain = s.chain := (congrArg State.chain h :)
theorem chain_of_reports {s t : State} (h : t.sansReports = s.sansReports) : t.chain = s.chain := (congrArg State.chain h :)

theorem applyMarks_chain : ∀ (n : Nat) (s : State) (l : List Byte), (applyMarks s n l).chain = s.chain
  | 0, _, _ => rfl
  | n + 1, s, l => by
    have marked (h a b : Nat) : ({ s with journal := { s.journal with pages := s.journal.pages.map (fun p =>
        if p.2.entries ≠ [] && p.2.entries.all (fun c => a ≤ c.jseq && c.jseq ≤ b) then (p.1, { p.2 with marks := p.2.marks ||| BitVec.ofNat 8 (2 ^ h) })
        else p) } } : State).chain = s.chain := by
      simp only [State.chain, List.map_map, Prod.mk.injEq, true_and]
      refine List.map_congr_left fun p _ => ?_
      simp only [Function.comp_apply]
      split <;> rfl
    unfold applyMarks
    dsimp only
    split
    · rfl
    · rw [applyMarks_chain n]
      split
      · exact marked _ _ _
      · rfl

theorem noteRaise_chain (s : State) (e : Entry) (j : Nat) : (noteRaise s e j).chain = s.chain := by
  unfold noteRaise
  split
  · rfl
  · split
    · rfl
    · dsimp only
      split
      · split <;> rfl
      · rfl

theorem writeControl_chain (s : State) (page offset jseq : Nat) (crc : BitVec 32) : (writeControl s page offset jseq crc).chain = s.chain := by
  unfold writeControl
  dsimp only
  split <;> rfl

/-- What a page holds once the next entry is written there. -/
def pageWritten (s : State) (n : Nat) (e : Entry) (p : Nat × Page) : Nat × Nat × List Committed :=
  if p.1 = n then (n, p.2.used + entrySize e, p.2.entries ++ [{ jseq := s.journal.jseq + 1, prevCrc := s.journal.lastCrc
                                                                ecrc := BitVec.ofNat 32 (entryCrc (s.journal.jseq + 1) s.journal.lastCrc.toNat e), entry := e }])
  else (p.1, p.2.used, p.2.entries)

theorem writeEntry_chain (s : State) (n : Nat) (e : Entry) : (writeEntry s n e).chain = (s.journal.jseq + 1,
    BitVec.ofNat 32 (entryCrc (s.journal.jseq + 1) s.journal.lastCrc.toNat e), false, s.journal.pages.map (pageWritten s n e)) := by
  have indexed (u : State) (j : Nat) : (noteIndex u e j).chain = u.chain := rfl
  unfold writeEntry
  dsimp only
  rw [apply_ite State.chain, apply_ite State.chain, applyMarks_chain, indexed, ite_self, ite_self, noteRaise_chain, writeControl_chain]
  simp only [State.chain, pageUpd, List.map_map, Prod.mk.injEq, true_and]
  refine List.map_congr_left fun p _ => ?_
  simp only [Function.comp_apply, pageWritten]
  split <;> rfl

theorem drainHolds_sansRecords : ∀ (n : Nat) (s : State), (drainHolds n s).sansRecords = s.sansRecords ∧ (drainHolds n s).faults = s.faults
  | 0, _ => ⟨rfl, rfl⟩
  | n + 1, s => by
    unfold drainHolds
    split
    · exact ⟨rfl, rfl⟩
    · split
      · exact ⟨rfl, rfl⟩
      · split
        · exact ⟨rfl, rfl⟩
        next e _ _ h _ =>
          obtain ⟨hframe, hfaults⟩ := drainHolds_sansRecords n (placeEntry { s with journal := { s.journal with holds := s.journal.holds.erase h } } e)
          exact ⟨hframe.trans (placeEntry_sansRecords _ e), hfaults.trans (placeEntry_faults _ e)⟩

theorem journalFaults_sansRecords (s : State) : (journalFaults s).sansRecords = s.sansRecords := by
  unfold journalFaults
  rw [syncGuarantee_sansRecords, judgeFault_sansRecords _ _ _ _ _ (by decide), judgeFault_sansRecords _ _ _ _ _ (by decide)]

/-! A place for an entry (R668, Table 17.5) -/

/-- An entry fits on the open page of its severity. -/
theorem roomFor_open {s : State} {sev size n : Nat} {p : Page} (hopen : s.journal.opens.getD sev none = some n) (hpage : pageGet s n = some p)
    (hfits : p.used + size ≤ 4096) : roomFor s sev size = some (s, n) := by
  unfold roomFor
  rw [hopen]
  simp [hpage, hfits]

theorem pageGet_skipOffset {s : State} {n size : Nat} {p : Page} (h : pageGet s n = some p) :
    pageGet (skipOffset s n size) n = some { p with used := p.used + size } := by
  unfold pageGet at h ⊢
  obtain ⟨x, hfind, rfl⟩ := Option.map_eq_some_iff.mp h
  have hkey : x.1 = n := by simpa using List.find?_some hfind
  have hmoved (l : List (Nat × Page)) (hl : l.find? (fun p => p.1 == n) = some x) :
      (l.map (fun p => if p.1 = n then (n, { p.2 with used := p.2.used + size }) else p)).find? (fun p => p.1 == n)
        = some (n, { x.2 with used := x.2.used + size }) := by
    induction l with
    | nil => cases hl
    | cons y l ih =>
      by_cases hy : y.1 = n
      · have hyx : y = x := by simpa [List.find?_cons, hy] using hl
        rw [← hyx]
        simp [hy]
      · have hrest : l.find? (fun p => p.1 == n) = some x := by simpa [List.find?_cons, hy] using hl
        simpa [List.find?_cons, hy] using ih hrest
  exact congrArg (Option.map (fun y : Nat × Page => y.2)) (hmoved _ hfind)

/-- The queue without the entry that is placed. -/
def withoutEntry (e : Entry) (t : State) : State := { t with journal := { t.journal with queue := removeEntry t.journal.queue e } }

theorem commitNext_eq {s : State} {e : Entry} (reads : CommitReads) (h : firstEntry (committable s) = some e) : commitNext s reads =
    match placeCommit (withoutEntry e s) e reads with
    | .done t => journalFaults (drainHolds 64 (sendNumbered t s e))
    | .failed t => drainHolds 64 (commitFailed t e)
    | .noPage =>
      if e.sev = 3 then journalFaults { s with journal := { s.journal with stalled := true } }
      else drainHolds 64 (tallyAdd (withoutEntry e s) 1 32 1) := by
  unfold commitNext
  rw [h]
  rfl

theorem answers_commitNext {s : State} {reads : CommitReads} {p : State → Prop} (hopen : journalOpen s = true) (hstore : storeOn s = true)
    (hport : stnumNext s = none) (hnumbered : s.pair.numbered = []) (hactive : s.pair.state = .active → s.pair.pairEntries = [])
    (hp : p { judgeSummary (commitNext { s with out := [] } reads) with pending := s.pending }) : Answers (.journalCommit reads) s p := by
  refine answers_of_guard (b := fun u => journalOpen u && storeOn u && (stnumNext u).isNone) (execJournalCommit.eq_def reads s) ?_ ?_
  · rw [show journalOpen { s with out := [] } = journalOpen s from rfl, show storeOn { s with out := [] } = storeOn s from rfl,
      show stnumNext { s with out := [] } = stnumNext s from rfl, hopen, hstore, hport]
    rfl
  · have hnext : journalCommit { s with out := [] } reads = commitNext { s with out := [] } reads := by
      have hwaits : ¬ (s.pair.state == .active && s.pair.pairEntries ≠ []) = true := by
        intro h
        simp only [Bool.and_eq_true, beq_iff_eq, decide_eq_true_eq] at h
        exact h.2 (hactive h.1)
      unfold journalCommit
      rw [if_neg (by simpa using hnumbered)]
      exact if_neg hwaits
    dsimp only
    rw [hnext]
    exact hp

/-! An entry that reads back well -/

theorem answers_commits {s : State} {reads : CommitReads} {e : Entry} {n : Nat} {p : Page} (hopen : journalOpen s = true) (hstore : storeOn s = true)
    (hport : stnumNext s = none) (hnumbered : s.pair.numbered = []) (hactive : s.pair.state = .active → s.pair.pairEntries = [])
    (hfirst : firstEntry (committable s) = some e) (hpage : s.journal.opens.getD e.sev none = some n) (hget : pageGet s n = some p)
    (hfits : p.used + entrySize e ≤ 4096) (hreads : reads.first = true) : Answers (.journalCommit reads) s (fun t =>
      t.journal.jseq = s.journal.jseq + 1 ∧ t.journal.stalled = false
      ∧ t.journal.lastCrc = BitVec.ofNat 32 (entryCrc (s.journal.jseq + 1) s.journal.lastCrc.toNat e)
      ∧ ∃ x ∈ t.journal.pages, x.1 = n ∧ x.2.used = p.used + entrySize e ∧ x.2.entries = p.entries ++
          [{ jseq := s.journal.jseq + 1, prevCrc := s.journal.lastCrc, ecrc := t.journal.lastCrc, entry := e }]) := by
  refine answers_commitNext hopen hstore hport hnumbered hactive ?_
  let u : State := { s with out := [] }
  have hplaced : placeCommit (withoutEntry e u) e reads = .done (writeEntry (withoutEntry e u) n e) := by
    unfold placeCommit
    rw [roomFor_open (s := withoutEntry e u) hpage hget hfits]
    exact if_pos hreads
  have hcommit : commitNext u reads = journalFaults (drainHolds 64 (sendNumbered (writeEntry (withoutEntry e u) n e) u e)) := by
    rw [commitNext_eq (s := u) reads hfirst, hplaced]
  have hsent (v : State) : (sendNumbered v u e).sansRecords = v.sansRecords := by
    unfold sendNumbered
    split
    · exact carrySend_sansRecords _ _ _
    · rfl
  have hchain : (judgeSummary (commitNext u reads)).chain = (writeEntry (withoutEntry e u) n e).chain := by
    rw [chain_of_reports (judgeSummary_sansReports _), hcommit, chain_of_records (journalFaults_sansRecords _),
      chain_of_records (drainHolds_sansRecords _ _).1, chain_of_records (hsent _)]
  rw [writeEntry_chain] at hchain
  generalize judgeSummary (commitNext u reads) = t at hchain ⊢
  simp only [State.chain, Prod.mk.injEq] at hchain
  obtain ⟨hjseq, hcrc, hstalled, hpages⟩ := hchain
  refine ⟨hjseq, hstalled, hcrc, ?_⟩
  obtain ⟨x, hfind, hxp⟩ := Option.map_eq_some_iff.mp hget
  have hkey : x.1 = n := by simpa using List.find?_some hfind
  have hmem : pageWritten (withoutEntry e u) n e x ∈ t.journal.pages.map (fun p => (p.1, p.2.used, p.2.entries)) := by
    rw [hpages]
    exact List.mem_map_of_mem (List.mem_of_find?_eq_some hfind)
  obtain ⟨y, hy, hyx⟩ := List.mem_map.mp hmem
  rw [pageWritten, if_pos hkey, hxp] at hyx
  simp only [Prod.mk.injEq] at hyx
  obtain ⟨hn, hused, hentries⟩ := hyx
  exact ⟨y, hy, hn, hused, by rw [hentries, hcrc]; rfl⟩

/-! An entry that fails twice (R688) -/

theorem answers_commitFails {s : State} {reads : CommitReads} {e : Entry} {n : Nat} {p : Page} (hopen : journalOpen s = true) (hstore : storeOn s = true)
    (hport : stnumNext s = none) (hnumbered : s.pair.numbered = []) (hactive : s.pair.state = .active → s.pair.pairEntries = [])
    (hfirst : firstEntry (committable s) = some e) (hpage : s.journal.opens.getD e.sev none = some n) (hget : pageGet s n = some p)
    (hfits : p.used + 2 * entrySize e ≤ 4096) (hreads : reads.first = false) (hreads2 : reads.second = false)
    (hclear : faultGet s (keyU 0x4600) = none) : Answers (.journalCommit reads) s (fun t =>
      t.journal.jseq = s.journal.jseq ∧ t.power.engine = .withdrawn ∧ Reacts t (keyU 0x4600) 4) := by
  refine answers_commitNext hopen hstore hport hnumbered hactive ?_
  let u : State := { s with out := [] }
  let v := skipOffset (skipOffset (withoutEntry e u) n (entrySize e)) n (entrySize e)
  have hagain : roomFor (skipOffset (withoutEntry e u) n (entrySize e)) e.sev (entrySize e)
      = some (skipOffset (withoutEntry e u) n (entrySize e), n) :=
    roomFor_open hpage (pageGet_skipOffset (s := withoutEntry e u) hget) (by dsimp only; omega)
  have hplaced : placeCommit (withoutEntry e u) e reads = .failed v := by
    unfold placeCommit
    rw [roomFor_open (s := withoutEntry e u) hpage hget (by omega)]
    dsimp only
    rw [hreads, hagain, hreads2]
    rfl
  have hcommit : commitNext u reads = drainHolds 64 (commitFailed v e) := by
    rw [commitNext_eq (s := u) reads hfirst, hplaced]
  have hrun : coreRuns v = true := by
    have hrunS : coreRuns s = true := by
      simp only [journalOpen, Bool.and_eq_true] at hopen
      exact hopen.1
    exact hrunS
  have hclear' : faultGet v (keyU 0x4600) = none := hclear
  have hlevel : raiseLevel v (keyU 0x4600).code = 4 := raiseLevel_row v _ (by decide) (by decide)
  have hpower : (commitFailed v e).power = { v.power with engine := .withdrawn } := arise_withdraws v (keyU 0x4600) _ _ _ hclear' hlevel hrun
  have hraised : Reacts (commitFailed v e) (keyU 0x4600) 4 := reacts_arise_row hclear' (by decide) _ _ _
  have hcourse : (commitFailed v e).sansCourse = v.sansCourse := arise_sansCourse v _ _ _ _
  obtain ⟨hdrained, hfaults⟩ := drainHolds_sansRecords 64 (commitFailed v e)
  have hjseq : (judgeSummary (commitNext u reads)).chain = v.chain := by
    rw [chain_of_reports (judgeSummary_sansReports _), hcommit, chain_of_records hdrained, chain_of_course hcourse]
  have hengine : (judgeSummary (commitNext u reads)).power.engine = .withdrawn := by
    rw [judgeSummary_power, hcommit]
    exact (congrArg (fun x : State => x.power.engine) hdrained :).trans (congrArg Power.engine hpower)
  have hreacts : Reacts (judgeSummary (commitNext u reads)) (keyU 0x4600) 4 := by
    refine reacts_judgeSummary (by decide) ?_
    rw [hcommit]
    exact reacts_congr (faultGet_congr (congrArg Faults.recs hfaults) _) hraised
  exact ⟨(congrArg (fun c : Nat × BitVec 32 × Bool × List (Nat × Nat × List Committed) => c.1) hjseq :), hengine, hreacts⟩

/-! The stopped path (R689) -/

theorem findPage_of_takePage {s : State} {sev : Nat} (h : takePage s sev = none) : findPage s sev = none := by
  unfold takePage at h
  generalize findPage s sev = found at h ⊢
  cases found with
  | none => rfl
  | some x => cases h

theorem takePage_of_findPage {s : State} {sev : Nat} (h : findPage s sev = none) : takePage s sev = none := by
  unfold takePage
  rw [h]

/-- An entry of severity `sev` fits on the open page. -/
def fitsOpen (s : State) (sev size : Nat) : Bool :=
  match (s.journal.opens.getD sev none).bind (pageGet s) with
  | some p => decide (p.used + size ≤ 4096)
  | none => false

theorem roomFor_none_iff (s : State) (sev size : Nat) : roomFor s sev size = none ↔ fitsOpen s sev size = false ∧ findPage s sev = none := by
  have he : roomFor s sev size = if fitsOpen s sev size then some (s, (s.journal.opens.getD sev none).getD 0)
      else (takePage s sev).map (fun t => (t, (t.journal.opens.getD sev none).getD 0)) := by
    unfold roomFor fitsOpen
    generalize takePage s sev = taken
    cases taken <;> rfl
  rw [he]
  cases fitsOpen s sev size with
  | true => simp
  | false =>
    simp only [Bool.false_eq_true, if_false, Option.map_eq_none_iff, true_and]
    exact ⟨findPage_of_takePage, takePage_of_findPage⟩

/-- Where a page is found depends on the pages, on those that are open, and on the image in force. -/
theorem findPage_congr {s t : State} (hpages : t.journal.pages = s.journal.pages) (hopens : t.journal.opens = s.journal.opens) (hplug : t.plug = s.plug)
    (sev : Nat) : findPage t sev = findPage s sev := by
  have hfree : freePages t = freePages s := by rw [freePages, freePages, hpages]
  have hrods : rods t = rods s := by rw [rods, rods, hplug]
  have hreclaim : (fun p : Nat × Page => reclaimable t sev p.1 p.2) = fun p => reclaimable s sev p.1 p.2 := by
    funext p
    rw [reclaimable, reclaimable, released, released, hopens, hrods]
  unfold findPage
  rw [hfree, hpages, hreclaim]

theorem roomFor_congr {s t : State} {sev size : Nat} (hpages : t.journal.pages = s.journal.pages) (hopens : t.journal.opens = s.journal.opens)
    (hplug : t.plug = s.plug) (h : roomFor s sev size = none) : roomFor t sev size = none := by
  rw [roomFor_none_iff] at h ⊢
  obtain ⟨hfits, hfind⟩ := h
  refine ⟨?_, (findPage_congr hpages hopens hplug sev).trans hfind⟩
  have hget : pageGet t = pageGet s := by
    funext n
    rw [pageGet, pageGet, hpages]
  rw [fitsOpen, hopens, hget]
  exact hfits

theorem answers_commitStops {s : State} {reads : CommitReads} {e : Entry} (hopen : journalOpen s = true) (hstore : storeOn s = true)
    (hport : stnumNext s = none) (hnumbered : s.pair.numbered = []) (hactive : s.pair.state = .active → s.pair.pairEntries = [])
    (hfirst : firstEntry (committable s) = some e) (hsev : e.sev = 3) (hfull : roomFor s 3 (entrySize e) = none)
    (hclear : faultGet s (keyU 0x4580) = none) : Answers (.journalCommit reads) s (fun t =>
      t.journal.jseq = s.journal.jseq ∧ t.journal.stalled = true ∧ t.journal.pages = s.journal.pages ∧ Reacts t (keyU 0x4580) 2) := by
  refine answers_commitNext hopen hstore hport hnumbered hactive ?_
  let u : State := { s with out := [] }
  let v : State := { u with journal := { u.journal with stalled := true } }
  have hplaced : placeCommit (withoutEntry e u) e reads = .noPage := by
    unfold placeCommit
    rw [hsev, roomFor_congr (s := s) (t := withoutEntry e u) rfl rfl rfl hfull]
  have hcommit : commitNext u reads = journalFaults v := by
    rw [commitNext_eq (s := u) reads hfirst, hplaced]
    exact if_pos hsev
  let w := judgeFault v (keyU 0x4540) 0 none16 (freePages v ≤ 820)
  have hw : w.sansRecords = v.sansRecords := judgeFault_sansRecords v _ _ _ _ (by decide)
  have hnone : findPage w 3 = none := by
    have hpages : w.journal.pages = s.journal.pages := (congrArg (fun x : State => x.journal.pages) hw :)
    have hopens : w.journal.opens = s.journal.opens := (congrArg (fun x : State => x.journal.opens) hw :)
    have hplug : w.plug = s.plug := (congrArg State.plug hw :)
    rw [findPage_congr hpages hopens hplug]
    exact ((roomFor_none_iff s 3 _).mp hfull).2
  have hclear' : faultGet w (keyU 0x4580) = none := (judgeFault_other v _ _ (by decide) (by decide) _ _ _).trans hclear
  have hfaults : journalFaults v = syncGuarantee (judgeFault w (keyU 0x4580) 0 none16 true) := by
    show syncGuarantee (judgeFault w (keyU 0x4580) 0 none16 (findPage w 3).isNone) = _
    rw [hnone]
    rfl
  have hframe : (judgeSummary (commitNext u reads)).sansReports = v.sansReports := by
    rw [judgeSummary_sansReports, hcommit]
    exact sansReports_of _ _ (journalFaults_sansRecords v)
  have hreacts : Reacts (judgeSummary (commitNext u reads)) (keyU 0x4580) 2 := by
    refine reacts_judgeSummary (by decide) ?_
    rw [hcommit, hfaults]
    exact reacts_congr (faultGet_congr (congrArg Faults.recs (syncGuarantee_faults _)) _) (reacts_judgeFault hclear' (by decide) 0 none16)
  exact ⟨(congrArg (fun x : State => x.journal.jseq) hframe :), (congrArg (fun x : State => x.journal.stalled) hframe :),
    (congrArg (fun x : State => x.journal.pages) hframe :), hreacts⟩

/-- Settles O42: the first entry that may commit takes the next number, CRC and place; one that fails twice withdraws the unit; one that finds no page
stops the path. -/
theorem journalCommits : Obligations.JournalCommits := by
  unfold Obligations.JournalCommits
  exact ⟨fun s reads e n p ⟨hopen, hstore, hport, hnumbered, hactive, hfirst⟩ => answers_commits hopen hstore hport hnumbered hactive hfirst,
    fun s reads e n p ⟨hopen, hstore, hport, hnumbered, hactive, hfirst⟩ => answers_commitFails hopen hstore hport hnumbered hactive hfirst,
    fun s reads e ⟨hopen, hstore, hport, hnumbered, hactive, hfirst⟩ => answers_commitStops hopen hstore hport hnumbered hactive hfirst⟩

end Sys2Proof.Machine
end

section
/-! Token refill, suppression summaries, marks entries and periodic snapshots (R666, R667, R672, R703). -/
namespace Sys2Proof.Machine

/-! Tokens and summaries (R666, R667) -/

theorem answers_tokenRefill {s : State} (hrun : coreRuns s = true) : Answers .tokenRefill s (fun t =>
    t = { s with out := [], journal := { s.journal with buckets := t.journal.buckets } }
      ∧ (∀ x ∈ t.journal.buckets, x.2.used ≠ 0 ∨ x.2.suppressed ≠ 0)
      ∧ ∀ k b, (k, b) ∈ s.journal.buckets → 2 ≤ b.used ∨ b.suppressed ≠ 0 → (k, { b with used := b.used - 1 }) ∈ t.journal.buckets) := by
  refine answers_of_guard (b := coreRuns) (execTokenRefill.eq_def s) hrun ⟨rfl, fun x hx => ?_, fun k b hb hkept => ?_⟩
  · obtain ⟨-, hx⟩ := List.mem_filter.mp hx
    simpa using hx
  · refine List.mem_filter.mpr ⟨List.mem_map.mpr ⟨(k, b), hb, rfl⟩, ?_⟩
    simp only [Bool.or_eq_true, bne_iff_ne]
    omega

/-- A summary is never limited. -/
theorem submitEntry_summary {s u : State} {code zone : Nat} {b : Bucket} (hengine : u.power.engine ≠ .withdrawn) :
    submitEntry u (summaryEntry s code zone b) = queueEntry u (summaryEntry s code zone b) := by
  have hwithdrawn : (u.power.engine == .withdrawn) = false := beq_eq_false_iff_ne.mpr hengine
  have hfree : unlimited u (summaryEntry s code zone b) = true := by
    simp [unlimited, summaryEntry, unitEntry]
  have hunit : (summaryEntry s code zone b).pair = false := rfl
  unfold submitEntry limitEntry
  rw [hwithdrawn, hunit, hfree]
  rfl

/-- The buckets stay when a summary is submitted. -/
theorem submitEntry_summary_buckets (s u : State) (code zone : Nat) (b : Bucket) :
    (submitEntry u (summaryEntry s code zone b)).journal.buckets = u.journal.buckets := by
  have placed (v : State) (e : Entry) : (placeEntry v e).journal.buckets = v.journal.buckets := by
    unfold placeEntry
    split
    · exact (congrArg Journal.buckets (carrySend_journal _ _ _) :)
    · rfl
  have queued (v : State) (e : Entry) : (queueEntry v e).journal.buckets = v.journal.buckets := by
    unfold queueEntry
    dsimp only
    split_ifs
    · rfl
    · exact placed v e
    · rfl
    · rfl
    · exact placed v e
  by_cases hengine : u.power.engine = .withdrawn
  · have hdropped : submitEntry u (summaryEntry s code zone b) = u := by
      have hguard : (u.power.engine == .withdrawn && !(blockOf (summaryEntry s code zone b).code == 1 || blockOf (summaryEntry s code zone b).code == 2)) = true := by
        rw [hengine, show (summaryEntry s code zone b).code = 0x4480 from rfl]
        decide
      exact if_pos hguard
    rw [hdropped]
  · rw [submitEntry_summary hengine, queued]

/-- A summary enters a queue that has room for it. -/
theorem queueEntry_room {u : State} {e : Entry} (hnumbers : numberedByPartner u = false) (hroom : (queueLoad u).length < 48) :
    (queueEntry u e).journal.queue = u.journal.queue ++ [e] := by
  have hplaced : placeEntry u e = { u with journal := { u.journal with queue := u.journal.queue ++ [e] } } := by
    unfold placeEntry
    rw [hnumbers]
    rfl
  have hlow : ((queueLoad u).filter (fun x => x.sev < 3)).length < 48 := (List.length_filter_le _ _).trans_lt hroom
  have hfull : ¬ 64 ≤ (queueLoad u).length := by omega
  have hshare : ¬ (64 ≤ (queueLoad u).length || 48 ≤ ((queueLoad u).filter (fun x => x.sev < 3)).length) = true := by
    simp only [Bool.or_eq_true, decide_eq_true_eq, not_or]
    omega
  unfold queueEntry
  dsimp only
  rw [if_neg hshare, if_neg hfull, ite_self, hplaced]

/-- A bucket whose summary goes out. -/
def bucketFlushed (s : State) (code zone : Nat) : State :=
  let k := code * 65536 + zone
  let b := Tab.get {} s.journal.buckets k
  { s with journal := { s.journal with buckets := Tab.put {} s.journal.buckets k (if b.used = 0 then {} else { used := b.used, sev := b.sev }) } }

theorem flushBucket_eq {s : State} {code zone : Nat} (h : (Tab.get {} s.journal.buckets (code * 65536 + zone)).suppressed ≠ 0) :
    flushBucket s code zone
      = submitEntry (bucketFlushed s code zone) (summaryEntry s code zone (Tab.get {} s.journal.buckets (code * 65536 + zone))) :=
  if_neg h

theorem bucketFlushed_get (s : State) (code zone : Nat) :
    (Tab.get {} (bucketFlushed s code zone).journal.buckets (code * 65536 + zone)).suppressed = 0
      ∧ (Tab.get {} (bucketFlushed s code zone).journal.buckets (code * 65536 + zone)).used
        = (Tab.get {} s.journal.buckets (code * 65536 + zone)).used := by
  have hget : Tab.get {} (bucketFlushed s code zone).journal.buckets (code * 65536 + zone)
      = if (Tab.get {} s.journal.buckets (code * 65536 + zone)).used = 0 then {} else
        { used := (Tab.get {} s.journal.buckets (code * 65536 + zone)).used, sev := (Tab.get {} s.journal.buckets (code * 65536 + zone)).sev } :=
    (Tab.get_put _ _ _ _ _).trans (if_pos rfl)
  rw [hget]
  split
  next h => exact ⟨rfl, h.symm⟩
  · exact ⟨rfl, rfl⟩

theorem answers_suppressionSummary {s : State} {code zone : Nat} (hrun : coreRuns s = true)
    (hcounted : (Tab.get {} s.journal.buckets (code * 65536 + zone)).suppressed ≠ 0) : Answers (.suppressionSummary code zone) s (fun t =>
      t.sansRecords = s.sansRecords ∧ t.faults = s.faults ∧ (Tab.get {} t.journal.buckets (code * 65536 + zone)).suppressed = 0
      ∧ (Tab.get {} t.journal.buckets (code * 65536 + zone)).used = (Tab.get {} s.journal.buckets (code * 65536 + zone)).used
      ∧ (s.power.engine ≠ .withdrawn → numberedByPartner s = false → (queueLoad s).length < 48 →
          t.journal.queue = s.journal.queue ++ [summaryEntry s code zone (Tab.get {} s.journal.buckets (code * 65536 + zone))])) := by
  refine answers_of_guard (b := coreRuns) (execSuppressionSummary.eq_def code zone s) hrun ?_
  let u : State := { s with out := [] }
  let e := summaryEntry s code zone (Tab.get {} s.journal.buckets (code * 65536 + zone))
  have hflush : flushBucket u code zone = submitEntry (bucketFlushed u code zone) e := flushBucket_eq (s := u) hcounted
  have hbuckets : (flushBucket u code zone).journal.buckets = (bucketFlushed u code zone).journal.buckets := by
    rw [hflush]
    exact submitEntry_summary_buckets s _ code zone _
  obtain ⟨hsuppressed, hused⟩ := bucketFlushed_get u code zone
  rw [← hbuckets] at hsuppressed hused
  refine ⟨?_, ?_, hsuppressed, hused, fun hengine hnumbers hroom => ?_⟩
  · have hframe : (flushBucket u code zone).sansRecords = s.sansRecords := by
      rw [hflush]
      exact (submitEntry_sansRecords _ e).trans rfl
    exact (congrArg (fun w : State => { w with pending := s.pending }) hframe :)
  · have hfaults : (flushBucket u code zone).faults = s.faults := by
      rw [hflush]
      exact (submitEntry_faults _ e).trans rfl
    exact hfaults
  · have hqueue : (flushBucket u code zone).journal.queue = s.journal.queue ++ [e] := by
      rw [hflush, submitEntry_summary (u := bucketFlushed u code zone) hengine]
      exact queueEntry_room (u := bucketFlushed u code zone) hnumbers hroom
    exact hqueue

/-! Marks (R703) -/

theorem answers_marksEntry {s : State} (hrun : coreRuns s = true) (hwaiting : s.recallSvc.waiting ≠ []) : Answers .marksEntry s (fun t =>
    t.sansRecords = { s.sansRecords with recallSvc := { s.recallSvc with waiting := s.recallSvc.waiting.drop 60 } }) := by
  refine answers_of_run (execMarksEntry.eq_def s) ?_
  have hrun' : coreRuns { s with out := [] } = true := hrun
  have hguard : ¬ (!coreRuns { s with out := [] } || decide (s.recallSvc.waiting = [])) = true := by
    rw [hrun', decide_eq_false hwaiting]
    decide
  dsimp only
  rw [if_neg hguard]
  exact (congrArg (fun u : State => { u with pending := s.pending }) (journalEntry_sansRecords
    { s with out := [], recallSvc := { s.recallSvc with waiting := s.recallSvc.waiting.drop 60 } } _) :)

/-! Periodic snapshots (R672) -/

/-- What a snapshot leaves: all but records and the zone snapshots that wait, and the triggers that have been taken. -/
def State.untaken (s : State) : State × List (Nat × SIndex) :=
  ({ s.sansRecords with journal := { s.sansRecords.journal with snapDue := [] } }, s.journal.snapAt)

theorem submitEntry_untaken (s : State) (e : Entry) : (submitEntry s e).untaken = s.untaken := by
  have hframe := submitEntry_sansRecords s e
  have placed (u : State) (e : Entry) : (placeEntry u e).journal.snapAt = u.journal.snapAt := by
    unfold placeEntry
    split
    · exact (congrArg Journal.snapAt (carrySend_journal _ _ _) :)
    · rfl
  have queued (u : State) (e : Entry) : (queueEntry u e).journal.snapAt = u.journal.snapAt := by
    unfold queueEntry
    dsimp only
    split_ifs
    · rfl
    · exact placed u e
    · rfl
    · rfl
    · exact placed u e
  have limited : (limitEntry s e).journal.snapAt = s.journal.snapAt := by
    unfold limitEntry
    dsimp only
    split_ifs
    · exact queued s e
    · rfl
    · rfl
    · exact (queued _ e).trans rfl
    · exact (queued _ e).trans ((queued _ _).trans rfl)
  have hsnapAt : (submitEntry s e).journal.snapAt = s.journal.snapAt := by
    unfold submitEntry
    split_ifs
    · rfl
    · rfl
    · exact limited
  unfold State.untaken
  rw [hframe, hsnapAt]

theorem zoneSnapshotsAt_untaken (s : State) (z t : Nat) (i : SIndex) : (zoneSnapshotsAt s z t i).untaken = s.untaken := by
  unfold zoneSnapshotsAt
  exact foldl_keeps State.untaken _ (fun u _ => submitEntry_untaken u _) _ s

theorem zoneSnapshotsWhen_untaken (s : State) (t : Nat) (i : SIndex) (z : Nat) : (zoneSnapshotsWhen s t i z).untaken = s.untaken := by
  have seen (pos : Nat) (r : PastRec) : (atSample s pos r (fun u => zoneSnapshotsAt u z t i)).untaken = s.untaken := by
    have hput (u : State) (p : Tab Pipe) : ({ u with pipes := p } : State).untaken = ({ u.untaken.1 with pipes := p }, u.untaken.2) := rfl
    rw [atSample, hput, zoneSnapshotsAt_untaken]
    rfl
  -- whichever sample is found: the kernel must not search for it
  obtain ⟨found, hfound⟩ : ∃ f, sampleFrom s = f := ⟨_, rfl⟩
  unfold zoneSnapshotsWhen
  rw [hfound]
  split
  · exact zoneSnapshotsAt_untaken s z t i
  · dsimp only
    split
    · split
      · rfl
      · exact seen _ _
    · rfl

/-- The unit snapshots of a trigger at an index are taken once. -/
theorem unitSnapshots_taken (s : State) (t : Nat) (i : SIndex) : (t, i) ∈ (unitSnapshots s t i).journal.snapAt := by
  unfold unitSnapshots
  split
  next h => exact List.contains_iff_mem.mp h
  · have hmarked : (t, i) ∈ ((t, i) :: s.journal.snapAt).take 64 := by simp
    refine (congrArg (fun l : List (Nat × SIndex) => (t, i) ∈ l) (?_ : _ = ((t, i) :: s.journal.snapAt).take 64)).mpr hmarked
    exact (congrArg Prod.snd (foldl_keeps State.untaken _ (fun u x => submitEntry_untaken u _) _ _) :)

theorem unitSnapshots_due (s : State) (t : Nat) (i : SIndex) : (unitSnapshots s t i).untaken.1 = s.untaken.1 :=
  (congrArg (fun u : State => { u with journal := { u.journal with snapDue := [] } }) (unitSnapshots_sansRecords s t i) :)

/-- The zones of which a trigger that names none takes snapshots (R672). -/
def snapshotZones (s : State) : List Nat :=
  match s.plug.image with
  | some r => enabledZones (adcInputs s) r
  | none => []

theorem allSnapshots_eq (s : State) (t : Nat) (i : SIndex) :
    allSnapshots s t i = unitSnapshots ((snapshotZones s).foldl (fun s z => zoneSnapshotsWhen s t i z) s) t i := rfl

theorem allSnapshots_leaves (s : State) (t : Nat) (i : SIndex) : (t, i) ∈ (allSnapshots s t i).journal.snapAt
    ∧ (allSnapshots s t i).sansRecords
      = { s.sansRecords with journal := { s.sansRecords.journal with snapDue := (allSnapshots s t i).journal.snapDue } } := by
  have hzones (l : List Nat) : (l.foldl (fun s z => zoneSnapshotsWhen s t i z) s).untaken = s.untaken :=
    foldl_keeps State.untaken _ (fun u z => zoneSnapshotsWhen_untaken u t i z) l s
  rw [allSnapshots_eq]
  generalize snapshotZones s = zones
  have hdue := (unitSnapshots_due (zones.foldl (fun s z => zoneSnapshotsWhen s t i z) s) t i).trans (congrArg Prod.fst (hzones zones))
  have htaken := unitSnapshots_taken (zones.foldl (fun s z => zoneSnapshotsWhen s t i z) s) t i
  generalize unitSnapshots (zones.foldl (fun s z => zoneSnapshotsWhen s t i z) s) t i = u at hdue htaken ⊢
  exact ⟨htaken, (congrArg (fun w : State => { w with journal := { w.journal with snapDue := u.journal.snapDue } }) hdue :)⟩

/-- The periodic snapshot is due: it has not been taken at the second released. -/
def snapshotDue (s : State) : Bool :=
  s.journal.latest.sec % (60 * gSnapPeriod (rods s)) = 0 && !s.journal.snapAt.contains (4, ⟨s.journal.latest.sec, 0⟩)

theorem periodicSnapshot_eq (s : State) : periodicSnapshot s = if snapshotDue s then allSnapshots s 4 ⟨s.journal.latest.sec, 0⟩ else s := rfl

theorem snapshotDue_iff (s : State) : snapshotDue s = true ↔ s.journal.latest.sec % (60 * gSnapPeriod (rods s)) = 0
    ∧ (4, (⟨s.journal.latest.sec, 0⟩ : SIndex)) ∉ s.journal.snapAt := by
  simp [snapshotDue]

theorem answers_snapshotTaken {s : State} (hrun : coreRuns s = true) (hsecond : s.journal.latest.sec % (60 * gSnapPeriod (rods s)) = 0)
    (hfresh : (4, ⟨s.journal.latest.sec, 0⟩) ∉ s.journal.snapAt) : Answers .periodicSnapshot s (fun t =>
      (4, ⟨s.journal.latest.sec, 0⟩) ∈ t.journal.snapAt
        ∧ t.sansRecords = { s.sansRecords with journal := { s.sansRecords.journal with snapDue := t.journal.snapDue } }) := by
  refine answers_of_guard (b := coreRuns) (execPeriodicSnapshot.eq_def s) hrun ?_
  let u : State := { s with out := [] }
  have hdue : snapshotDue u = true := (snapshotDue_iff u).mpr ⟨hsecond, hfresh⟩
  have hsnapshot : periodicSnapshot u = allSnapshots u 4 ⟨s.journal.latest.sec, 0⟩ := by
    rw [periodicSnapshot_eq, hdue]
    rfl
  obtain ⟨htaken, hframe⟩ := allSnapshots_leaves u 4 ⟨s.journal.latest.sec, 0⟩
  rw [← hsnapshot] at htaken hframe
  exact ⟨htaken, (congrArg (fun w : State => { w with pending := s.pending }) hframe :)⟩

theorem answers_snapshotNone {s : State}
    (h : s.journal.latest.sec % (60 * gSnapPeriod (rods s)) ≠ 0 ∨ (4, ⟨s.journal.latest.sec, 0⟩) ∈ s.journal.snapAt) :
    Answers .periodicSnapshot s (fun t => t = { s with out := [] }) := by
  refine answers_of_run (execPeriodicSnapshot.eq_def s) ?_
  let u : State := { s with out := [] }
  have hnone : snapshotDue u = false := by
    rw [Bool.eq_false_iff, Ne, snapshotDue_iff]
    rintro ⟨hsecond, hfresh⟩
    exact h.elim (absurd hsecond) (fun htaken => hfresh htaken)
  have hsame : (if coreRuns u then periodicSnapshot u else u) = u := by
    rw [periodicSnapshot_eq, hnone]
    simp
  exact (congrArg (fun w : State => { w with pending := s.pending }) hsame :)

/-- Settles O43: a refill gives every bucket a token; a key's summary goes out and its count starts again; up to 60 marks leave in one entry; the
periodic snapshot is taken once at its second. -/
theorem journalUpkeep : Obligations.JournalUpkeep := by
  unfold Obligations.JournalUpkeep
  exact ⟨fun s => answers_tokenRefill, fun s code zone => answers_suppressionSummary, fun s => answers_marksEntry, fun s => answers_snapshotTaken,
    fun s => answers_snapshotNone⟩

end Sys2Proof.Machine
end

section
/-! Records close into the store or are lost; writes complete or fail (R676, R679, R680, R691). -/
namespace Sys2Proof.Machine

/-! Blocks for a body (R680) -/

theorem takeBlocks_room {s : State} {fuel sev n : Nat} (h : 3276 + n ≤ freeBlocks s) : takeBlocks (fuel + 1) s sev n = some s := by
  have hroom : (decide (3276 + n ≤ freeBlocks s) || (decide (sev = 3) && decide (n ≤ freeBlocks s))) = true := by
    rw [decide_eq_true h]
    rfl
  unfold takeBlocks
  exact if_pos hroom

theorem takeBlocks_full {s : State} {fuel sev n : Nat} (h : freeBlocks s < n) (hnone : s.journal.store.filter (recordReclaimable s sev) = []) :
    takeBlocks (fuel + 1) s sev n = none := by
  have hfull : ¬ (decide (3276 + n ≤ freeBlocks s) || (decide (sev = 3) && decide (n ≤ freeBlocks s))) = true := by
    simp only [Bool.or_eq_true, Bool.and_eq_true, decide_eq_true_eq, not_or, not_and, not_le]
    omega
  unfold takeBlocks
  dsimp only
  rw [if_neg hfull, hnone]
  rfl

theorem writeBody_room {s : State} {recno sev : Nat} {body : List Byte} (h : 3276 + ceilDiv body.length 262144 ≤ freeBlocks s) :
    writeBody s recno sev body = some (writtenBody s.journal.jseq recno sev (ceilDiv body.length 262144) body s) := by
  rw [writeBody_eq, takeBlocks_room h]
  rfl

theorem writeBody_full {s : State} {recno sev : Nat} {body : List Byte} (h : freeBlocks s < ceilDiv body.length 262144)
    (hnone : s.journal.store.filter (recordReclaimable s sev) = []) : writeBody s recno sev body = none := by
  rw [writeBody_eq, takeBlocks_full h hnone]
  rfl

theorem storeBody_none {s : State} {recno sev : Nat} {body : List Byte} (index : Nat → Entry) (h : writeBody s recno sev body = none) :
    storeBody s recno sev body index = bodyLost s recno := by
  have e : @storeBody = @storeBody := rfl
  conv at e => rhs; delta storeBody
  rw [e]
  beta_reduce
  rw [h]

theorem storeBody_some {s : State} {recno sev : Nat} {body : List Byte} {p : State × Nat} (index : Nat → Entry)
    (h : writeBody s recno sev body = some p) :
    storeBody s recno sev body index = journalEntry (judgeFault p.1 (keyU 0x4940) 0 none16 false) (index p.2) := by
  have e : @storeBody = @storeBody := rfl
  conv at e => rhs; delta storeBody
  rw [e]
  beta_reduce
  rw [h]

/-- The open record of a number closes: its body goes to the store (R679). -/
theorem closeRecord_eq {s : State} {recno extra : Nat} {r : DrRecord} (h : s.journal.records.find? (fun x => x.recno == recno && !x.closed) = some r) :
    closeRecord s recno extra = storeBody (putRecord s (closedRecord s r extra)) recno (closedRecord s r extra).sev
      (recordBody (putRecord s (closedRecord s r extra)) (closedRecord s r extra))
      (recordIndex (putRecord s (closedRecord s r extra)) (closedRecord s r extra)
        (recordBody (putRecord s (closedRecord s r extra)) (closedRecord s r extra))) := by
  unfold closeRecord
  rw [h]

/-! A record closes (R676, R679) -/

/-- The record as it closes, kept in its place. -/
def recordKept (s : State) (r : DrRecord) : State := putRecord s (closedRecord s r 0)

theorem recordKept_body (s : State) (r : DrRecord) :
    recordBody (recordKept s r) (closedRecord s r 0) = recordBody s (closedRecord s r 0) := rfl

/-- Whatever has the record's number is closed. -/
theorem recordKept_closed {s : State} {r : DrRecord} {recno : Nat} (hr : r.recno = recno) :
    ∀ x ∈ (recordKept s r).journal.records, x.recno = recno → x.closed = true := by
  intro x hx hnumber
  have hsame : (closedRecord s r 0).recno = recno := hr
  obtain ⟨y, -, hy⟩ := List.mem_map.mp hx
  split at hy
  · rw [← hy]
    rfl
  next hother =>
    rw [← hy, ← hsame] at hnumber
    exact absurd hnumber hother

theorem recno_of_open {s : State} {recno : Nat} {r : DrRecord} (h : s.journal.records.find? (fun x => x.recno == recno && !x.closed) = some r) :
    r.recno = recno := by
  have hmatch := List.find?_some h
  simp only [Bool.and_eq_true, beq_iff_eq] at hmatch
  exact hmatch.1

/-- A record with room closes into the store. -/
theorem closeRecord_stored {s : State} {recno : Nat} {r : DrRecord} (h : s.journal.records.find? (fun x => x.recno == recno && !x.closed) = some r)
    (hroom : 3276 + ceilDiv (recordBody s (closedRecord s r 0)).length 262144 ≤ freeBlocks s) :
    (∀ x ∈ (closeRecord s recno 0).journal.records, x.recno = recno → x.closed = true)
      ∧ ∃ x ∈ (closeRecord s recno 0).journal.store, x.recno = recno ∧ x.body = recordBody s (closedRecord s r 0) ∧ x.sev = recordSev s r
        ∧ x.written = false ∧ x.jseq = 0 := by
  let v := recordKept s r
  let body := recordBody s (closedRecord s r 0)
  have hwritten : writeBody v recno (recordSev s r) body = some (writtenBody v.journal.jseq recno (recordSev s r) (ceilDiv body.length 262144) body v) :=
    writeBody_room (s := v) hroom
  have hframe : (closeRecord s recno 0).sansRecords
      = (writtenBody v.journal.jseq recno (recordSev s r) (ceilDiv body.length 262144) body v).1.sansRecords := by
    have hclosed : ∃ e, closeRecord s recno 0 = journalEntry (judgeFault
        (writtenBody v.journal.jseq recno (recordSev s r) (ceilDiv body.length 262144) body v).1 (keyU 0x4940) 0 none16 false) e := by
      rw [closeRecord_eq h]
      exact ⟨_, storeBody_some _ hwritten⟩
    obtain ⟨e, he⟩ := hclosed
    rw [he, journalEntry_sansRecords, judgeFault_sansRecords _ _ _ _ _ (by decide)]
  generalize closeRecord s recno 0 = t at hframe ⊢
  have hrecords : t.journal.records = v.journal.records := (congrArg (fun u : State => u.journal.records) hframe :)
  have hstore : t.journal.store = v.journal.store ++ [_] := (congrArg (fun u : State => u.journal.store) hframe :)
  refine ⟨?_, ?_⟩
  · rw [hrecords]
    exact recordKept_closed (recno_of_open h)
  · rw [hstore]
    exact ⟨_, List.mem_append_right _ (List.mem_singleton_self _), rfl, rfl, rfl, rfl, rfl⟩

/-- A record without a block to free is lost (Table 17.12). -/
theorem closeRecord_lost {s : State} {recno : Nat} {r : DrRecord} (h : s.journal.records.find? (fun x => x.recno == recno && !x.closed) = some r)
    (hfull : freeBlocks s < ceilDiv (recordBody s (closedRecord s r 0)).length 262144)
    (hnone : s.journal.store.filter (recordReclaimable s (recordSev s r)) = []) (hclear : faultGet s (keyU 0x4900) = none) :
    (∀ x ∈ (closeRecord s recno 0).journal.records, x.recno ≠ recno) ∧ (closeRecord s recno 0).journal.store = s.journal.store
      ∧ Reacts (closeRecord s recno 0) (keyU 0x4900) 2 := by
  let v := recordKept s r
  have hunwritten : writeBody v recno (recordSev s r) (recordBody s (closedRecord s r 0)) = none := writeBody_full (s := v) hfull hnone
  have hlost : closeRecord s recno 0 = bodyLost v recno := by
    rw [closeRecord_eq h]
    exact storeBody_none _ hunwritten
  let w := judgeFault v (keyU 0x4940) 0 none16 true
  let y : State := { w with journal := { w.journal with records := w.journal.records.filter (fun r => r.recno != recno) } }
  have hbody : bodyLost v recno = arise y (keyU 0x4900) 0 none16 [] := rfl
  have hw : w.sansRecords = v.sansRecords := judgeFault_sansRecords v _ _ _ _ (by decide)
  have hy : (bodyLost v recno).sansRecords = y.sansRecords := by
    rw [hbody]
    exact arise_sansRecords y _ _ _ _ (by decide)
  have hclear' : faultGet y (keyU 0x4900) = none := (judgeFault_other v _ _ (by decide) (by decide) _ _ _).trans hclear
  have hreacts : Reacts (bodyLost v recno) (keyU 0x4900) 2 := by
    rw [hbody]
    exact reacts_arise_row hclear' (by decide) _ _ _
  rw [hlost]
  generalize bodyLost v recno = t at hy hreacts ⊢
  have hrecords : t.journal.records = w.journal.records.filter (fun r => r.recno != recno) := (congrArg (fun u : State => u.journal.records) hy :)
  have hstore : t.journal.store = v.journal.store := (congrArg (fun u : State => u.journal.store) hy :).trans (congrArg (fun u : State => u.journal.store) hw :)
  refine ⟨fun x hx => ?_, hstore, hreacts⟩
  rw [hrecords] at hx
  simpa using (List.mem_filter.mp hx).2

/-! A write ends (R680, R691) -/

/-- A body that could not be written leaves the store, and a block is retired. -/
def writeFailed (s : State) (rec : Nat) : State :=
  { s with journal := { s.journal with store := s.journal.store.filter (fun r => r.recno != rec), retired := s.journal.retired + 1 } }

theorem nandDone_eq {s : State} {rec : Nat} (h : ((s.journal.store.filter (fun r => !r.written)).take 4).any (fun r => r.recno == rec) = true)
    (ok : Bool) : nandDone s rec ok =
      if ok then { s with journal := { s.journal with store := s.journal.store.map (fun r => if r.recno = rec then { r with written := true } else r) } }
      else judgeFault (arise (writeFailed s rec) (keyU 0x4900) 0 none16 []) (keyU 0x4980) 0 none16
        (decide (655 < (arise (writeFailed s rec) (keyU 0x4900) 0 none16 []).journal.retired)) :=
  if_neg (by rw [h]; nofun)

/-- Settles O44: a record that closes has its body in the store, or is lost where no block is free; a write completes its body, or retires a block and
loses the record. -/
theorem disturbanceRecords : Obligations.DisturbanceRecords := by
  unfold Obligations.DisturbanceRecords
  refine ⟨fun s rec r hrun hopen hroom => ?_, fun s rec r hrun hopen hfull hnone hclear => ?_, fun s rec hrun hflight => ?_,
    fun s rec hrun hflight hclear => ?_⟩
  · exact answers_of_guard (b := coreRuns) (execRecordClose.eq_def rec s) hrun (closeRecord_stored (s := { s with out := [] }) hopen hroom)
  · exact answers_of_guard (b := coreRuns) (execRecordClose.eq_def rec s) hrun (closeRecord_lost (s := { s with out := [] }) hopen hfull hnone hclear)
  · refine answers_of_guard (b := coreRuns) (execNandWriteComplete.eq_def rec true s) hrun ?_
    dsimp only
    rw [nandDone_eq (s := { s with out := [] }) hflight]
    rfl
  · refine answers_of_guard (b := coreRuns) (execNandWriteComplete.eq_def rec false s) hrun ?_
    let u : State := { s with out := [] }
    let v := arise (writeFailed u rec) (keyU 0x4900) 0 none16 []
    have hdone : nandDone u rec false = judgeFault v (keyU 0x4980) 0 none16 (decide (655 < v.journal.retired)) := nandDone_eq (s := u) hflight false
    have hclear' : faultGet (writeFailed u rec) (keyU 0x4900) = none := hclear
    have hraised : Reacts v (keyU 0x4900) 2 := reacts_arise_row hclear' (by decide) _ _ _
    have hframe : (nandDone u rec false).sansRecords = (writeFailed u rec).sansRecords := by
      rw [hdone, judgeFault_sansRecords _ _ _ _ _ (by decide)]
      exact arise_sansRecords _ _ _ _ _ (by decide)
    have hreacts : Reacts (nandDone u rec false) (keyU 0x4900) 2 := by
      rw [hdone]
      exact reacts_congr (judgeFault_other v _ _ (by decide) (by decide) _ _ _) hraised
    exact ⟨(congrArg (fun w : State => w.journal.store) hframe :), (congrArg (fun w : State => w.journal.retired) hframe :), hreacts⟩

end Sys2Proof.Machine
end


section
/-! Recall within 1.0 s of a session parity error: no response leaves (Table 18.9), and O45 and O46 ask for one. -/
namespace Sys2Proof.Machine

/-- The summary that stands makes no state change (R600). -/
theorem judgeSummary_standing {s : State} (h : summaryData s = s.pub.summary) : judgeSummary s = s := by
  simp [judgeSummary, h]

/-- The summary tells nothing of the tallies, the recall service and what is published. -/
theorem summaryData_unread (s : State) (p : Publisher) (r : Recall) (w : Tab Tally) :
    summaryData { s with pub := p, recallSvc := r, tally := w } = summaryData s := rfl

/-- No response leaves within 1.0 s of a session parity error (Table 18.9). -/
theorem respond_muted {s : State} (h : s.now < s.recallSvc.mutedTo) (dst : Mac) (a : Answer) : respond s dst a = s := if_pos h

/-- The unit of `sRecall` within 1.0 s of a session parity error, its summary sent. -/
def sMuted (x : Session) : State :=
  { sRecall x with
    pub := { (sRecall x).pub with summary := summaryData (sRecall x) }
    recallSvc := { sessions := [(0, x)], mutedTo := (sRecall x).now + 1 } }

/-- An OPEN repeated within 1.0 s is counted and, muted, not answered. -/
theorem hostRequest_muted : hostRequest (sMuted (aSession .idle)) 0 (aRequest 1) = tallyAdd (sMuted (aSession .idle)) 1 29 1 := by
  have hform : malformed (aRequest 1) = false := by decide
  have hstay : redirects (tallyAdd (sMuted (aSession .idle)) 1 29 1) = false := by decide
  have hopened : openedBy (tallyAdd (sMuted (aSession .idle)) 1 29 1) (aRequest 1) = some 0 := by decide
  unfold hostRequest
  simp only [hform, hstay, Bool.false_eq_true, if_false]
  rw [if_pos (by decide)]
  unfold openSession
  rw [hopened]
  exact respond_muted (by decide) _ _

/-- A request of a listed host is taken, and the summary judged (R694, R600). -/
theorem recallRequest_heard {s : State} {p : Port} {r : RecallReq} {n : Nat} (hopen : recallOpen s p = true) (hhost : hostOf s r.src = some n) :
    recallRequest p r s = judgeSummary (hostRequest s n r) := by
  simp [recallRequest, hopen, hhost]

theorem judgeSummary_muted (w : Tab Tally) (x : Session) : judgeSummary { sMuted x with tally := w } = { sMuted x with tally := w } :=
  judgeSummary_standing (summaryData_unread (sRecall x) _ _ w)

/-- The repeated OPEN leaves nothing on the station ports. -/
theorem recallRequest_muted_out : (recallRequest .s0 (aRequest 1) (sMuted (aSession .idle))).out = [] := by
  have hopen : recallOpen (sMuted (aSession .idle)) .s0 = true := by decide
  have hhost : hostOf (sMuted (aSession .idle)) (aRequest 1).src = some 0 := by decide +kernel
  rw [recallRequest_heard hopen hhost, hostRequest_muted, tallyAdd, judgeSummary_muted]
  rfl

/-- A state that has sent nothing yet. -/
theorem State.without_out {s : State} (h : s.out = []) : ({ s with out := [] } : State) = s := by rw [← h]

/-- A repeated OPEN is run, and nothing leaves. -/
theorem opOpen_silent {s : State} {p : Port} {r : RecallReq} (hs : s.out = []) (hwf : WellFormed.request 0x01 r = true)
    (hout : (recallRequest p r s).out = []) : Answers (.opOpen p r) s (fun t => t.out = []) :=
  answers_of_runIf (execOpOpen.eq_def p r s) hwf (by rw [State.without_out hs]; exact hout)

/-- An answer to a request would leave on S0. -/
theorem not_responds_of_silent {s t : State} {r : RecallReq} {op : Nat} (hsend : canSend s .s0 = true) (hgood : s.ports.s0.txBad = false)
    (hout : t.out = []) : ¬ responds s t r op := fun h => by
  obtain ⟨n, l, hframe, -⟩ := h hsend hgood
  rw [hout] at hframe
  exact List.not_mem_nil hframe

/-- Refutes O45: within 1.0 s of a session parity error an OPEN repeated by its host gets no OPENED (Table 18.9). -/
theorem not_recallRequests : ¬ Obligations.RecallRequests := by
  rintro ⟨-, hrepeated, -⟩
  obtain ⟨t, -, ⟨-, hresponds⟩, hout⟩ := (hrepeated (sMuted (aSession .idle)) .s0 (aRequest 1) 0
    ⟨by decide, by decide, by decide +kernel, by decide, by decide⟩ (by decide)).and (opOpen_silent rfl (by decide) recallRequest_muted_out)
  exact not_responds_of_silent (by decide) (by decide) hout hresponds

/-- A session of the host whose ENTRIES request waits. -/
def mutedQueued : Session := { aSession .queued with request := some (aRequest 0x10) }

/-- The session chosen is served once what its request reads is at hand (R705, R792). -/
theorem answers_recallServe {s : State} {ok : Bool} {i : Nat} {r : RecallReq} {p : State → Prop} (hports : portsDone s = true)
    (hstay : redirects s = false) (hnext : nextSession s = some i) (hreq : (sessionGet s i).request = some r) (hready : readReady s r = true)
    (h : p { judgeSummary (serveRequest { s with out := [] } i ok) with pending := s.pending }) : Answers (.recallServe ok) s p := by
  have hserve : (portsDone { s with out := [] } && !redirects { s with out := [] }) = true := by
    rw [Bool.and_eq_true, Bool.not_eq_true']; exact ⟨hports, hstay⟩
  have hnext' : nextSession { s with out := [] } = some i := hnext
  have hready' : ((sessionGet { s with out := [] } i).request.map (readReady { s with out := [] })).getD true = true := by
    rw [show (sessionGet { s with out := [] } i).request = some r from hreq]; exact hready
  refine answers_of_run (execRecallServe.eq_def ok s) ?_
  rw [if_pos hserve, hnext']
  dsimp only
  rw [if_pos hready']
  exact h

/-- The session with its request taken, and the token behind it (R705, Table 18.5). -/
def takenSession (s : State) (i : Nat) : State :=
  let s := sessionPut s i { sessionGet s i with state := .idle, request := none }
  { s with recallSvc := { s.recallSvc with token := (i + 1) % 8 } }

theorem serveRequest_entries {s : State} {i : Nat} {r : RecallReq} (ok : Bool) (hreq : (sessionGet s i).request = some r) (hop : r.op = 0x10) :
    serveRequest s i ok = serveEntries (takenSession s i) r i ok := by
  simp [serveRequest, takenSession, hreq, hop]

theorem serveRequest_ack {s : State} {i : Nat} {r : RecallReq} (ok : Bool) (hreq : (sessionGet s i).request = some r) (hop : r.op = 0x11) :
    serveRequest s i ok = serveAck (takenSession s i) r i := by
  simp [serveRequest, takenSession, hreq, hop]

/-- ENTRIES while responses are muted changes nothing where the read is good. -/
theorem serveEntries_muted {s : State} (h : s.now < s.recallSvc.mutedTo) (r : RecallReq) (i : Nat) : serveEntries s r i true = s := by
  unfold serveEntries respondError
  simp only [respond_muted h]
  simp

/-- The session is served and, muted, not answered. -/
theorem serveRequest_muted_out : (judgeSummary (serveRequest (sMuted mutedQueued) 0 true)).out = [] := by
  have hmuted : (takenSession (sMuted mutedQueued) 0).now < (takenSession (sMuted mutedQueued) 0).recallSvc.mutedTo := by decide
  rw [serveRequest_entries true (r := aRequest 0x10) rfl rfl, serveEntries_muted hmuted,
    judgeSummary_standing (summaryData_unread (sRecall mutedQueued) _ _ _)]
  rfl

/-- The queued request is served, and nothing leaves. -/
theorem recallServe_silent {s : State} {i : Nat} {r : RecallReq} (hs : s.out = []) (hports : portsDone s = true)
    (hstay : redirects s = false) (hnext : nextSession s = some i) (hreq : (sessionGet s i).request = some r) (hready : readReady s r = true)
    (hout : (judgeSummary (serveRequest s i true)).out = []) : Answers (.recallServe true) s (fun t => t.out = []) :=
  answers_recallServe hports hstay hnext hreq hready (by rw [State.without_out hs]; exact hout)

/-- Refutes O46: within 1.0 s of a session parity error a session that is served gets no answer (Table 18.9). -/
theorem not_recallServes : ¬ Obligations.RecallServes := by
  rintro ⟨-, hserved, -⟩
  obtain ⟨t, -, ⟨-, -, -, -, -, hentries, -⟩, hout⟩ := (hserved (sMuted mutedQueued) true 0 (aRequest 0x10)
    ⟨by decide, by decide, by decide, by decide, by decide⟩).and
    (recallServe_silent rfl (by decide) (by decide) (by decide) (r := aRequest 0x10) rfl (by decide) serveRequest_muted_out)
  exact not_responds_of_silent (by decide) (by decide) hout (hentries (by decide) (by decide)).2

end Sys2Proof.Machine
end


section
/-! An ACK: the cursor and the acknowledged ranges (R701). -/
namespace Sys2Proof.Machine

/-- A response changes nothing of the recall service. -/
@[simp] theorem respond_recallSvc (s : State) (dst : Mac) (a : Answer) : (respond s dst a).recallSvc = s.recallSvc := by
  unfold respond
  split
  · rfl
  · exact (keeps_recallSvc (sendStation_sansReports _ _) :)

@[simp] theorem waitPages_sessions (s : State) (h : Nat) : (waitPages s h).recallSvc.sessions = s.recallSvc.sessions := rfl
@[simp] theorem waitPages_acks (s : State) (h : Nat) : (waitPages s h).recallSvc.acks = s.recallSvc.acks := rfl

theorem foldl_min_le {α : Type} (f : α → Nat) : ∀ (l : List α) (a : Nat), l.foldl (fun x m => min x (f m)) a ≤ a
  | [], a => Nat.le_refl a
  | m :: l, a => (foldl_min_le f l _).trans (Nat.min_le_left a (f m))

theorem le_foldl_max {α : Type} (f : α → Nat) : ∀ (l : List α) (a : Nat), a ≤ l.foldl (fun x m => max x (f m)) a
  | [], a => Nat.le_refl a
  | m :: l, a => (Nat.le_max_left a (f m)).trans (le_foldl_max f l _)

/-- A merged range is its host's and holds the range it was merged from. -/
theorem mergeAck_covers (h a b : Nat) (l : List (Nat × Nat × Nat)) :
    (mergeAck h a b l).1.1 = h ∧ (mergeAck h a b l).1.2.1 ≤ a ∧ b ≤ (mergeAck h a b l).1.2.2 :=
  ⟨rfl, foldl_min_le _ _ a, le_foldl_max _ _ b⟩

/-- The session's cursor after an ACK whose range is held. -/
theorem serveAck_cursor {s : State} {r : RecallReq} {i : Nat} (hb : param r 8 8 ≤ s.journal.jseq) (ha : param r 0 8 ≤ param r 8 8) :
    (sessionGet (serveAck s r i) i).cursor = max (sessionGet s i).cursor (param r 8 8 + 1) := by
  have hheld : ¬ ((s.journal.jseq < param r 8 8 || param r 8 8 < param r 0 8) = true) := by simp; omega
  unfold serveAck
  rw [if_neg hheld, sessionGet_congr (respond_recallSvc _ _ _)]
  exact congrArg Session.cursor ((sessionGet_sessionPut _ i i _).trans (if_pos rfl))

/-- The ranges acknowledged after an ACK whose range is held: the merged one is among them. -/
theorem serveAck_acks {s : State} {r : RecallReq} {i : Nat} (hb : param r 8 8 ≤ s.journal.jseq) (ha : param r 0 8 ≤ param r 8 8) :
    (mergeAck (sessionGet s i).host (param r 0 8) (param r 8 8) s.recallSvc.acks).1 ∈ (serveAck s r i).recallSvc.acks := by
  have hheld : ¬ ((s.journal.jseq < param r 8 8 || param r 8 8 < param r 0 8) = true) := by simp; omega
  unfold serveAck
  rw [if_neg hheld, respond_recallSvc]
  exact List.mem_append_right _ (List.mem_singleton.mpr rfl)

/-- An ACK reads nothing that a write could hold back (R707). -/
theorem readReady_ack (s : State) {r : RecallReq} (hop : r.op = 0x11) : readReady s r = true := if_pos hop

/-- A session whose request is taken keeps its cursor and its host. -/
theorem takenSession_kept (s : State) (i : Nat) : (sessionGet (takenSession s i) i).cursor = (sessionGet s i).cursor
    ∧ (sessionGet (takenSession s i) i).host = (sessionGet s i).host := by
  let x : Session := { sessionGet s i with state := .idle, request := none }
  have hget : sessionGet (takenSession s i) i = x := by
    change sessionGet (sessionPut s i x) i = x
    rw [sessionGet_sessionPut, if_pos rfl]
  rw [hget]
  exact ⟨rfl, rfl⟩

/-- Settles O59: the ACK's own effect stands under its response and the summary, and a merged range holds the range of the ACK. -/
theorem ackAcknowledges : Obligations.AckAcknowledges := by
  unfold Obligations.AckAcknowledges
  intro s ok i r hports hstay hnext hreq hop ha hb
  let u : State := takenSession { s with out := [] } i
  obtain ⟨hcursor, hhost⟩ := takenSession_kept { s with out := [] } i
  refine answers_recallServe hports hstay hnext hreq (readReady_ack s hop) ?_
  rw [serveRequest_ack (s := { s with out := [] }) (r := r) ok hreq hop]
  have hkept : (judgeSummary (serveAck u r i)).recallSvc = (serveAck u r i).recallSvc := judgeSummary_recallSvc _
  refine ⟨?_, fun j hj hj' => ?_⟩
  · have hmoved : (sessionGet (judgeSummary (serveAck u r i)) i).cursor = max (sessionGet s i).cursor (param r 8 8 + 1) :=
      (congrArg Session.cursor (sessionGet_congr hkept i)).trans
        ((serveAck_cursor (s := u) hb ha).trans (congrArg (max · (param r 8 8 + 1)) hcursor))
    refine Eq.trans (b := max (sessionGet s i).cursor (param r 8 8 + 1)) hmoved ?_
    split <;> omega
  · have hmem := serveAck_acks (s := u) (i := i) hb ha
    obtain ⟨hm, hlow, hhigh⟩ := mergeAck_covers (sessionGet u i).host (param r 0 8) (param r 8 8) u.recallSvc.acks
    rw [← hkept] at hmem
    exact ⟨_, hmem, hm.trans hhost, hlow.trans hj, hj'.trans hhigh⟩

end Sys2Proof.Machine
end


section
/-! What an operation leaves of the seal: the seal as it stands, for all that read no key. -/
namespace Sys2Proof.Machine

/-- A fold of steps that keep the seal keeps it. -/
@[simp] theorem foldl_sealSt {α : Type} {f : State → α → State} (h : ∀ s x, (f s x).sealSt = s.sealSt) (l : List α) (s : State) :
    (l.foldl f s).sealSt = s.sealSt := foldl_keeps State.sealSt f h l s

@[simp] theorem sealSt_ite (c : Prop) [Decidable c] (a b : State) : (if c then a else b).sealSt = if c then a.sealSt else b.sealSt :=
  apply_ite State.sealSt c a b

/-! Machine/Ops -/

@[simp] theorem noteAgreed_sealSt (s : State) (i : SIndex) (o : Byte) : (noteAgreed s i o).sealSt = s.sealSt := by
  simp [noteAgreed]
@[simp] theorem carrySend_sealSt (s : State) (lane : Fin 2) (m : CarryMsg) :
    (carrySend s lane m).sealSt = s.sealSt := keeps_sealSt (carrySend_sansRecords s lane m)
@[simp] theorem placeEntry_sealSt (s : State) (e : Entry) : (placeEntry s e).sealSt = s.sealSt := keeps_sealSt (placeEntry_sansRecords s e)
@[simp] theorem limitEntry_sealSt (s : State) (e : Entry) : (limitEntry s e).sealSt = s.sealSt := keeps_sealSt (limitEntry_sansRecords s e)
@[simp] theorem submitEntry_sealSt (s : State) (e : Entry) : (submitEntry s e).sealSt = s.sealSt := keeps_sealSt (submitEntry_sansRecords s e)
@[simp] theorem unitSnapshots_sealSt (s : State) (t : Nat) (i : SIndex) :
    (unitSnapshots s t i).sealSt = s.sealSt := keeps_sealSt (unitSnapshots_sansRecords s t i)
@[simp] theorem reclaimEntries_sealSt (s : State) : (reclaimEntries s).sealSt = s.sealSt := keeps_sealSt (reclaimEntries_sansRecords s)
@[simp] theorem reactPlain_sealSt (s : State) (k : FaultKey) (r : FaultRec) (event : Nat) (data : List Byte) :
    (reactPlain s k r event data).sealSt = s.sealSt := keeps_sealSt (reactPlain_sansRecords s k r event data)
theorem ariseWith_sealSt {re : State → FaultKey → FaultRec → Nat → List Byte → State} (hre : ∀ s k r n d, (re s k r n d).sealSt = s.sealSt)
    (s : State) (k : FaultKey) (detail handle : Nat) (data : List Byte) : (ariseWith re s k detail handle data).sealSt = s.sealSt := by
  unfold ariseWith
  dsimp only
  (repeat' split) <;> simp [hre]
@[simp] theorem journalEntry_sealSt (s : State) (e : Entry) : (journalEntry s e).sealSt = s.sealSt := keeps_sealSt (journalEntry_sansRecords s e)
@[simp] theorem causeGone_sealSt (s : State) (k : FaultKey) : (causeGone s k).sealSt = s.sealSt := keeps_sealSt (causeGone_sansRecords s k)
@[simp] theorem causeGoneU_sealSt (s : State) (code : Nat) : (causeGoneU s code).sealSt = s.sealSt := keeps_sealSt (causeGoneU_sansRecords s code)
@[simp] theorem coilIdle_sealSt (s : State) (cc : Nat) : (coilIdle s cc).sealSt = s.sealSt := by
  simp [coilIdle]
@[simp] theorem twinStopped_sealSt (s : State) (handover : Bool) : (twinStopped s handover).sealSt = s.sealSt := by
  simp [twinStopped]
@[simp] theorem react_sealSt (s : State) (k : FaultKey) (r : FaultRec) (event : Nat) (data : List Byte) :
    (react s k r event data).sealSt = s.sealSt := by
  unfold react
  split
  · dsimp only
    split <;> simp [withdraw_sealSt]
  · simp
@[simp] theorem arise_sealSt (s : State) (k : FaultKey) (detail handle : Nat) (data : List Byte) :
    (arise s k detail handle data).sealSt = s.sealSt := ariseWith_sealSt react_sealSt s k detail handle data
@[simp] theorem ariseU_sealSt (s : State) (code detail : Nat) : (ariseU s code detail).sealSt = s.sealSt := by
  simp [ariseU]
@[simp] theorem judgeFault_sealSt (s : State) (k : FaultKey) (detail handle : Nat) (present : Bool) :
    (judgeFault s k detail handle present).sealSt = s.sealSt := by simp [judgeFault]
@[simp] theorem ariseAndGone_sealSt (s : State) (k : FaultKey) (detail : Nat) (data : List Byte) :
    (ariseAndGone s k detail data).sealSt = s.sealSt := by
  unfold ariseAndGone
  dsimp only
  split <;> simp
@[simp] theorem reactionComplete_sealSt (s : State) (k : FaultKey) :
    (reactionComplete s k).sealSt = s.sealSt := keeps_sealSt (reactionComplete_sansRecords s k)
@[simp] theorem ackFault_sealSt (s : State) (k : FaultKey) : (ackFault s k).sealSt = s.sealSt := keeps_sealSt (ackFault_sansRecords s k)
@[simp] theorem acceptAck_sealSt (s : State) (source : Nat) : (acceptAck s source).sealSt = s.sealSt := by
  unfold acceptAck
  split <;> simp
@[simp] theorem syncGuarantee_sealSt (s : State) : (syncGuarantee s).sealSt = s.sealSt := keeps_sealSt (syncGuarantee_sansRecords s)
@[simp] theorem startCore_sealSt (s : State) : (startCore s).sealSt = s.sealSt := by
  simp [startCore]
@[simp] theorem judgeFuses_sealSt (s : State) : (judgeFuses s).sealSt = s.sealSt := by
  unfold judgeFuses
  (repeat' split) <;> simp

@[simp] theorem enterStarting_keepsSeal (s : State) (cause : StartCause) (domains : List Nat) :
    (enterStarting s cause domains).sealSt = s.sealSt := by
  simp [enterStarting]
@[simp] theorem holdAfterStarting_sealSt (s : State) : (holdAfterStarting s).sealSt = s.sealSt := by
  unfold holdAfterStarting
  split <;> rfl
@[simp] theorem enterWithheld_sealSt (s : State) (c : WithheldCause) : (enterWithheld s c).sealSt = s.sealSt := by
  simp [enterWithheld]

/-! Machine/Words -/

theorem atSample_sealSt {f : State → State} (hf : ∀ s, (f s).sealSt = s.sealSt) (s : State) (pos : Nat) (r : PastRec) :
    (atSample s pos r f).sealSt = s.sealSt := hf _
@[simp] theorem zoneSnapshotsAt_sealSt (s : State) (z t : Nat) (i : SIndex) : (zoneSnapshotsAt s z t i).sealSt = s.sealSt := by
  simp [zoneSnapshotsAt]
@[simp] theorem zoneSnapshots_sealSt (s : State) (z t : Nat) (idx : SIndex) : (zoneSnapshots s z t idx).sealSt = s.sealSt := by
  simp [zoneSnapshots]
@[simp] theorem zoneSnapshotsWhen_sealSt (s : State) (t : Nat) (i : SIndex) (z : Nat) : (zoneSnapshotsWhen s t i z).sealSt = s.sealSt := by
  -- whichever sample is found: the kernel must not search for it
  obtain ⟨found, hfound⟩ : ∃ f, sampleFrom s = f := ⟨_, rfl⟩
  unfold zoneSnapshotsWhen
  rw [hfound]
  split
  · exact zoneSnapshotsAt_sealSt s z t i
  · dsimp only
    split
    · split
      · rfl
      · exact atSample_sealSt (zoneSnapshotsAt_sealSt · z t i) s _ _
    · rfl
@[simp] theorem dueSnapshots_sealSt (s : State) (z : Nat) (i : SIndex) : (dueSnapshots s z i).sealSt = s.sealSt := by
  simp [dueSnapshots]
@[simp] theorem allSnapshots_sealSt (s : State) (t : Nat) (i : SIndex) : (allSnapshots s t i).sealSt = s.sealSt := by
  simp [allSnapshots]

/-! Machine/Pipeline -/

@[simp] theorem ringPut_sealSt (s : State) (pos : Nat) (i : SIndex) (x : RingRec) : (ringPut s pos i x).sealSt = s.sealSt := by
  simp [ringPut]
@[simp] theorem ringWrite_sealSt (s : State) (smp : Sample) : (ringWrite s smp).sealSt = s.sealSt := by
  simp [ringWrite]
@[simp] theorem saturation_sealSt (s : State) (pos : Nat) (sat : Bool) : (saturation s pos sat).sealSt = s.sealSt := by
  simp [saturation]
@[simp] theorem saturationQuiet_sealSt (s : State) : (saturationQuiet s).sealSt = s.sealSt := by
  simp [saturationQuiet]

/-! Machine/Journal -/

@[simp] theorem journalFaults_sealSt (s : State) : (journalFaults s).sealSt = s.sealSt := keeps_sealSt (journalFaults_sansRecords s)
@[simp] theorem commitFailed_sealSt (s : State) (e : Entry) : (commitFailed s e).sealSt = s.sealSt := by
  simp [commitFailed]
@[simp] theorem drainHolds_sealSt (n : Nat) (s : State) : (drainHolds n s).sealSt = s.sealSt := sealSt_of_journal (drainHolds_sansJournal n s)
@[simp] theorem sendNumbered_sealSt (s : State) (before : State) (e : Entry) : (sendNumbered s before e).sealSt = s.sealSt := by
  simp [sendNumbered]
theorem roomFor_sealSt {s t : State} {sev size n : Nat} (h : roomFor s sev size = some (t, n)) : t.sealSt = s.sealSt :=
  sealSt_of_journal (roomFor_sansJournal h)

/-- An entry's place, found or lost, changes the journal alone. -/
theorem placeCommit_sealSt {s t : State} {e : Entry} {reads : CommitReads} (h : placeCommit s e reads = .done t ∨ placeCommit s e reads = .failed t) :
    t.sealSt = s.sealSt := by
  have skipped (u : State) (n size : Nat) : (skipOffset u n size).sealSt = u.sealSt := rfl
  unfold placeCommit at h
  split at h
  · simp at h
  next u n hu =>
    have hroom := roomFor_sealSt hu
    split at h
    · obtain rfl : writeEntry u n e = t := by simpa using h
      exact (sealSt_of_journal (writeEntry_sansJournal u n e)).trans hroom
    · split at h
      · simp at h
      next v m hv =>
        have hroom' : v.sealSt = s.sealSt := (roomFor_sealSt hv).trans ((skipped u n _).trans hroom)
        split at h
        · obtain rfl : writeEntry v m e = t := by simpa using h
          exact (sealSt_of_journal (writeEntry_sansJournal v m e)).trans hroom'
        · obtain rfl : skipOffset v m (entrySize e) = t := by simpa using h
          exact (skipped v m _).trans hroom'

@[simp] theorem commitNext_sealSt (s : State) (reads : CommitReads) : (commitNext s reads).sealSt = s.sealSt := by
  unfold commitNext
  split
  · rfl
  · dsimp only
    split
    next h => simpa using placeCommit_sealSt (.inl h)
    next h => simpa using placeCommit_sealSt (.inr h)
    · split <;> simp
theorem comparePair_sealSt {s t : State} {e : Entry} (h : comparePair s e = some t) : t.sealSt = s.sealSt := sealSt_of_journal
    (comparePair_sansJournal h)
theorem checkBack_sealSt (s : State) (j crc : Nat) : (checkBack s j crc).sealSt = s.sealSt := by
  simp [checkBack]

theorem commitNumbered_sealSt {s t : State} {reads : CommitReads} (h : commitNumbered s reads = some t) : t.sealSt = s.sealSt := by
  unfold commitNumbered at h
  split at h
  · cases h; rfl
  next j e ok rest _ =>
    split at h
    · cases h; rfl
    · split at h
      · cases h
      next u hu =>
        have hfrom : u.sealSt = s.sealSt := by
          split at hu
          · cases hu; rfl
          · obtain ⟨v, hv, rfl⟩ := Option.map_eq_some_iff.mp hu
            simpa [checkBack_sealSt] using comparePair_sealSt hv
        split at h
        · cases h
        · split at h
          next hplaced => cases h; simpa using (placeCommit_sealSt (.inl hplaced)).trans hfrom
          next hplaced => cases h; simpa using (placeCommit_sealSt (.inr hplaced)).trans hfrom
          · cases h; simpa using hfrom
@[simp] theorem refillBuckets_sealSt (s : State) : (refillBuckets s).sealSt = s.sealSt := by
  simp [refillBuckets]
@[simp] theorem flushBucket_sealSt (s : State) (code zone : Nat) : (flushBucket s code zone).sealSt = s.sealSt := by
  simp [flushBucket]
@[simp] theorem storeBody_sealSt (s : State) (recno sev : Nat) (body : List Byte) (index : Nat → Entry) :
    (storeBody s recno sev body index).sealSt = s.sealSt := sealSt_of_journal (storeBody_sansJournal s recno sev body index)
@[simp] theorem closeRecord_sealSt (s : State) (recno extra : Nat) :
    (closeRecord s recno extra).sealSt = s.sealSt := sealSt_of_journal (closeRecord_sansJournal s recno extra)
@[simp] theorem cutRecords_sealSt (s : State) : (cutRecords s).sealSt = s.sealSt := sealSt_of_journal (cutRecords_sansJournal s)
@[simp] theorem indexBody_sealSt (s : State) (x : Stored) : (indexBody s x).sealSt = s.sealSt := by
  unfold indexBody
  split <;> simp
@[simp] theorem indexPending_sealSt (s : State) : (indexPending s).sealSt = s.sealSt := by
  simp [indexPending]
@[simp] theorem nandDone_sealSt (s : State) (rec : Nat) (ok : Bool) : (nandDone s rec ok).sealSt = s.sealSt := by
  simp [nandDone]
@[simp] theorem splitBranch_sealSt (s : State) (common : Nat) :
    (splitBranch s common).sealSt = s.sealSt := sealSt_of_journal (splitBranch_sansJournal s common)
@[simp] theorem partnerBranch_sealSt (s : State) (l : List CarriedEntry) : (partnerBranch s l).sealSt = s.sealSt := by
  simp [partnerBranch]
@[simp] theorem keepEntries_sealSt (s : State) (keep : Nat → Bool) : (keepEntries s keep).sealSt = s.sealSt := by
  simp [keepEntries]
@[simp] theorem readCopies_sealSt (s : State) (f : JournalFind) : (readCopies s f).sealSt = s.sealSt := by
  simp [readCopies]
@[simp] theorem indexAgain_sealSt (s : State) (gone : List Committed) : (indexAgain s gone).sealSt = s.sealSt := by
  simp [indexAgain]
@[simp] theorem scanJournal_sealSt (s : State) (was found : List Committed) : (scanJournal s was found).sealSt = s.sealSt := by
  unfold scanJournal
  split <;> simp
@[simp] theorem checkTail_sealSt (s : State) (f : JournalFind) : (checkTail s f).sealSt = s.sealSt := by
  unfold checkTail
  dsimp only
  split <;> simp

/-! Machine/Frames -/

@[simp] theorem portTally_sealSt (s : State) (p : Port) (w : Nat) : (portTally s p w).sealSt = s.sealSt := by
  simp [portTally]
@[simp] theorem sendUnit_sealSt (s : State) (p : Port) (o : Output) : (sendUnit s p o).sealSt = s.sealSt := by
  simp [sendUnit]
@[simp] theorem sendProcess_sealSt (s : State) (frame : List Byte) : (sendProcess s frame).sealSt = s.sealSt := by
  simp [sendProcess, sendCopy_sealSt]
@[simp] theorem sendPairNode_sealSt (s : State) (seq : BitVec 16) (frame : List Byte) : (sendPairNode s seq frame).sealSt = s.sealSt := by
  simp [sendPairNode, sendCopy_sealSt]

/-! Machine/Publish -/

@[simp] theorem refill_sealSt (s : State) : (refill s).sealSt = s.sealSt := by
  unfold refill
  split <;> simp [numbered_sealSt]
theorem withNow_sealSt {f : State → State} (hf : ∀ s, (f s).sealSt = s.sealSt) (s : State) : (withNow s f).sealSt = s.sealSt := by
  unfold withNow
  split <;> exact hf _
@[simp] theorem supervisionDue_sealSt (s : State) : (supervisionDue s).sealSt = s.sealSt := by
  simp [supervisionDue, enqueue_sealSt]
@[simp] theorem hsrAbort_sealSt (s : State) (p : Port) : (hsrAbort s p).sealSt = s.sealSt := by
  simp [hsrAbort]
@[simp] theorem readAckIn_sealSt (s : State) : (readAckIn s).sealSt = s.sealSt := by
  simp [readAckIn]
@[simp] theorem sendStatus_sealSt (s : State) : (sendStatus s).sealSt = s.sealSt := by
  simp [sendStatus, sendStation_sealSt]

/-! Machine/Reckoner -/

@[simp] theorem clkUpdate_sealSt (s : State) (e : Int) : (clkUpdate s e).sealSt = s.sealSt := by
  simp [clkUpdate]
@[simp] theorem coilPick_sealSt (s : State) (cc : Nat) : (coilPick s cc).sealSt = s.sealSt := by
  simp [coilPick]
@[simp] theorem coilCommand_sealSt (s : State) (cc : Nat) (on : Bool) : (coilCommand s cc on).sealSt = s.sealSt := by
  simp [coilCommand]
@[simp] theorem coilLatched_sealSt (s : State) (cc : Nat) (off : Bool) : (coilLatched s cc off).sealSt = s.sealSt := by
  simp [coilLatched]
@[simp] theorem pickEnd_sealSt (s : State) (cc : Nat) : (pickEnd s cc).sealSt = s.sealSt := by
  simp [pickEnd]
@[simp] theorem coilUpdate_sealSt (s : State) (cc : Nat) : (coilUpdate s cc).sealSt = s.sealSt := by
  unfold coilUpdate
  dsimp only
  split <;> simp
@[simp] theorem slotParity_sealSt (s : State) (n : Nat) : (slotParity s n).sealSt = s.sealSt := by
  simp [slotParity]

/-! Machine/Zones -/

@[simp] theorem coilsFollow_sealSt (before : List Nat) (s : State) : (coilsFollow before s).sealSt = s.sealSt := by
  simp [coilsFollow]
@[simp] theorem reopenRecord_sealSt (s : State) (o : DrRecord) : (reopenRecord s o).sealSt = s.sealSt := by
  simp [reopenRecord]
@[simp] theorem recordUpd_sealSt (s : State) (recno : Nat) (f : DrRecord → DrRecord) : (recordUpd s recno f).sealSt = s.sealSt := by
  simp [recordUpd]
@[simp] theorem recordTrigger_sealSt (s : State) (z fired : Nat) (idx : SIndex) : (recordTrigger s z fired idx).sealSt = s.sealSt := by
  unfold recordTrigger
  (repeat' split) <;> simp
@[simp] theorem recordTrace_sealSt (s : State) (z : Nat) (idx : SIndex) : (recordTrace s z idx).sealSt = s.sealSt := by
  simp [recordTrace]
@[simp] theorem requestCheck_sealSt (s : State) (i : Nat) : (requestCheck s i).sealSt = s.sealSt := by
  simp [requestCheck]
@[simp] theorem requestUrgent_sealSt (s : State) (z : Nat) : (requestUrgent s z).sealSt = s.sealSt := by
  unfold requestUrgent
  dsimp only
  (repeat' split) <;> simp
@[simp] theorem zoneRestart_sealSt (s : State) (z : Nat) (x : Zone) : (zoneRestart s z x).sealSt = s.sealSt := by
  simp [zoneRestart]
@[simp] theorem presentDataset_sealSt (s : State) (z : Nat) : (presentDataset s z).sealSt = s.sealSt := by
  simp [presentDataset]
@[simp] theorem enterTest_sealSt (s : State) (z : Nat) : (enterTest s z).sealSt = s.sealSt := by
  simp [enterTest]
@[simp] theorem leaveTest_sealSt (s : State) (z : Nat) : (leaveTest s z).sealSt = s.sealSt := by
  simp [leaveTest]
@[simp] theorem testStep_sealSt (s : State) (z : Nat) : (testStep s z).sealSt = s.sealSt := by
  simp [testStep]
@[simp] theorem runFault_sealSt (s : State) (z code detail limit run : Nat) (gone : Bool) :
    (runFault s z code detail limit run gone).sealSt = s.sealSt := by simp [runFault]
@[simp] theorem zoneFaults_sealSt (s : State) (z : Nat) : (zoneFaults s z).sealSt = s.sealSt := by
  simp [zoneFaults]
@[simp] theorem testEntry_sealSt (s : State) (z : Nat) : (testEntry s z).sealSt = s.sealSt := by
  simp [testEntry]
@[simp] theorem testExit_sealSt (s : State) (z : Nat) : (testExit s z).sealSt = s.sealSt := by
  simp [testExit]
@[simp] theorem persistTheta_sealSt (s : State) : (persistTheta s).sealSt = s.sealSt := by
  simp [persistTheta]

/-! Machine/Stage6 -/

@[simp] theorem pushIntake_sealSt (s : State) (x : Sample) : (pushIntake s x).sealSt = s.sealSt := by
  simp [pushIntake]
@[simp] theorem updateDue_sealSt (s : State) (n : Nat) : (updateDue s n).sealSt = s.sealSt := by
  simp [updateDue]
@[simp] theorem abandonSwap_sealSt (s : State) : (abandonSwap s).sealSt = s.sealSt := by
  unfold abandonSwap
  split <;> simp
@[simp] theorem abandonBoth_sealSt (s : State) : (abandonBoth s).sealSt = s.sealSt := by
  unfold abandonBoth
  split <;> simp
@[simp] theorem proposeSwap_sealSt (s : State) (i : SIndex) : (proposeSwap s i).sealSt = s.sealSt := by
  simp [proposeSwap]
@[simp] theorem pairBoundary_sealSt (s : State) (i : SIndex) : (pairBoundary s i).sealSt = s.sealSt := by
  unfold pairBoundary
  dsimp only
  (repeat' split) <;> simp
@[simp] theorem sendInputs_sealSt (s : State) : (sendInputs s).sealSt = s.sealSt := by
  simp [sendInputs]
@[simp] theorem agreeIndex_sealSt (s : State) (i : SIndex) : (agreeIndex s i).sealSt = s.sealSt := by
  simp [agreeIndex]
@[simp] theorem inputTakes_sealSt (s : State) (cc : Nat) (st valid : Bool) (i : SIndex) : (inputTakes s cc st valid i).sealSt = s.sealSt := by
  simp [inputTakes]
@[simp] theorem applyInputs_sealSt (s : State) (i : SIndex) : (applyInputs s i).sealSt = s.sealSt := by
  simp [applyInputs]
@[simp] theorem commitRestart_sealSt (s : State) (z : Nat) : (commitRestart s z).sealSt = s.sealSt := by
  simp [commitRestart]
@[simp] theorem streamBack_sealSt (s : State) (pos : Nat) : (streamBack s pos).sealSt = s.sealSt := by
  simp [streamBack]

/-! Machine/Agree -/

@[simp] theorem passMissing_sealSt (s : State) (n : Nat) (i : SIndex) : (passMissing s n i).sealSt = s.sealSt := by
  unfold passMissing
  dsimp only
  split <;> simp
@[simp] theorem passReceived_sealSt (s : State) (smp : Sample) : (passReceived s smp).sealSt = s.sealSt := by
  simp [passReceived]
@[simp] theorem setHeld_sealSt (s : State) (l : List Held) : (setHeld s l).sealSt = s.sealSt := by
  simp [setHeld]
@[simp] theorem mapHeld_sealSt (s : State) (n : Nat) (i : SIndex) (f : Held → Held) : (mapHeld s n i f).sealSt = s.sealSt := by
  simp [mapHeld]
@[simp] theorem followNext_sealSt (s : State) (n : Nat) (i : SIndex) : (followNext s n i).sealSt = s.sealSt := by
  unfold followNext
  dsimp only
  split <;> simp
@[simp] theorem advance_sealSt : ∀ (fuel : Nat) (s : State) (n : Nat), (advance fuel s n).sealSt = s.sealSt
  | 0, _, _ => rfl
  | fuel + 1, s, n => by
    unfold advance
    split
    · rfl
    · split
      · rfl
      · dsimp only
        rw [advance_sealSt fuel]
        (repeat' split) <;> simp
@[simp] theorem advanceSlot_sealSt (s : State) (n : Nat) : (advanceSlot s n).sealSt = s.sealSt := by
  simp [advanceSlot]
@[simp] theorem dropReceipt_sealSt (s : State) (n : Nat) (i : SIndex) : (dropReceipt s n i).sealSt = s.sealSt := by
  simp [dropReceipt]
@[simp] theorem digestMismatch_sealSt (s : State) : (digestMismatch s).sealSt = s.sealSt := by
  simp [digestMismatch]
@[simp] theorem orderLane_sealSt (s : State) (n : Fin 2) : (orderLane s n).sealSt = s.sealSt := by
  simp [orderLane]
@[simp] theorem sendOrdered_sealSt (s : State) (m : CarryMsg) : (sendOrdered s m).sealSt = s.sealSt := by
  simp [sendOrdered]
@[simp] theorem lendHeld_sealSt (s : State) (h : Held) : (lendHeld s h).sealSt = s.sealSt := by
  simp [lendHeld]
@[simp] theorem confirmHeld_sealSt (s : State) (h : Held) (digest : BitVec 16) : (confirmHeld s h digest).sealSt = s.sealSt := by
  simp [confirmHeld]
@[simp] theorem addHeld_sealSt (s : State) (h : Held) : (addHeld s h).sealSt = s.sealSt := by
  unfold addHeld
  split <;> simp
@[simp] theorem decide_sealSt (s : State) (ds : List DecisionRec) : (decide_ s ds).sealSt = s.sealSt := by
  simp [decide_]
@[simp] theorem assignInput_sealSt (s : State) (ch : Fin 32) (st valid : Bool) (i : SIndex) : (assignInput s ch st valid i).sealSt = s.sealSt := by
  simp [assignInput]
@[simp] theorem readInput_sealSt (s : State) (ch : Fin 32) (st : Bool) : (readInput s ch st).sealSt = s.sealSt := by
  simp [readInput]
@[simp] theorem judgeInputs_sealSt (s : State) (i : SIndex) : (judgeInputs s i).sealSt = s.sealSt := by
  simp [judgeInputs]
@[simp] theorem declareMissing_sealSt (s : State) (n : Nat) : (declareMissing s n).sealSt = s.sealSt := by
  simp [declareMissing]
@[simp] theorem declareRun_sealSt : ∀ (k : Nat) (s : State) (n : Nat), (declareRun k s n).sealSt = s.sealSt
  | 0, _, _ => rfl
  | k + 1, s, n => by
    unfold declareRun
    rw [declareRun_sealSt k, declareMissing_sealSt]
@[simp] theorem accept_sealSt (s : State) (h : Held) : (accept s h).sealSt = s.sealSt := by
  simp [accept]
@[simp] theorem dropAwaited_sealSt (s : State) : (dropAwaited s).sealSt = s.sealSt := by
  simp [dropAwaited]
@[simp] theorem formedNow_sealSt (s : State) : (formedNow s).sealSt = s.sealSt := by
  simp [formedNow]
@[simp] theorem startDeciding_sealSt (s : State) : (startDeciding s).sealSt = s.sealSt := by
  unfold startDeciding
  refine (foldl_sealSt (fun s p => ?_) _ _).trans (setHeld_sealSt s _)
  split <;> simp
@[simp] theorem startFollowing_sealSt (s : State) : (startFollowing s).sealSt = s.sealSt := by
  simp [startFollowing]

/-! Machine/Time -/

@[simp] theorem counterTick_sealSt (s : State) : (counterTick s).sealSt = s.sealSt := by
  simp [counterTick]
@[simp] theorem ncoTick_sealSt (s : State) : (ncoTick s).sealSt = s.sealSt := by simp [ncoTick]
@[simp] theorem tick_sealSt (s : State) : (tick s).sealSt = s.sealSt := by simp [tick]
@[simp] theorem withTwin_sealSt (f : State → State) (s : State) : (withTwin f s).sealSt = (f s).sealSt := by
  unfold withTwin
  dsimp only
  split <;> simp
@[simp] theorem enterTime_sealSt (s : State) (t : TimeState) :
    (enterTime s t).sealSt = s.sealSt := (congrArg State.sealSt (enterTime_sansTimeState s t) :)
@[simp] theorem loseMaster_sealSt (s : State) : (loseMaster s).sealSt = s.sealSt := by
  unfold loseMaster
  split <;> simp
@[simp] theorem applyAnnounce_sealSt (s : State) (m : PtpAnnounce) : (applyAnnounce s m).sealSt = s.sealSt := by
  unfold applyAnnounce
  dsimp only
  split <;> simp
@[simp] theorem lanSplit_sealSt (s : State) : (lanSplit s).sealSt = s.sealSt := by simp [lanSplit]
@[simp] theorem reselect_sealSt (s : State) : (reselect s).sealSt = s.sealSt := by
  unfold reselect
  dsimp only
  (repeat' split) <;> simp
@[simp] theorem bestChanged_sealSt (s : State) (p1 : Bool) (before : Option Master) : (bestChanged s p1 before).sealSt = s.sealSt := by
  simp [bestChanged]
@[simp] theorem timeFaults_sealSt (s : State) : (timeFaults s).sealSt = s.sealSt := (congrArg State.sealSt (timeFaults_sansExchanges s) :)
@[simp] theorem applyLeap_sealSt (s : State) : (applyLeap s).sealSt = s.sealSt := by
  unfold applyLeap
  split <;> simp
theorem leapStepped_sealSt (first : Bool) (s : State) : (leapStepped first s).sealSt = s.sealSt := by
  unfold leapStepped
  split
  · rfl
  · dsimp only
    (repeat' split) <;> simp

@[simp] theorem stepCounter_sealSt (s : State) (off : Int) (source : Nat) : (stepCounter s off source).sealSt = s.sealSt := by
  have stepped (b : Bool) (u : State) : (refixStreams (leapStepped b u)).sealSt = u.sealSt := leapStepped_sealSt b u
  unfold stepCounter
  dsimp only
  split <;> simp [stepped]
@[simp] theorem lanCompare_sealSt (s : State) : (lanCompare s).sealSt = s.sealSt := by
  unfold lanCompare
  split <;> simp
@[simp] theorem clkUsed_sealSt (s : State) : (clkUsed s).sealSt = s.sealSt := by simp [clkUsed]
@[simp] theorem steer_sealSt (s : State) (p1 : Bool) (off : Int) : (steer s p1 off).sealSt = s.sealSt := by
  unfold steer
  extract_lets n _ u v
  have hkept : v.sealSt = s.sealSt := by simp [v, u]
  clear_value v
  split
  · simp [u]
  · split <;> simp [hkept]
@[simp] theorem offsetFormed_sealSt (s : State) (p1 : Bool) (src : PortId) (off : Int) : (offsetFormed s p1 src off).sealSt = s.sealSt := by
  simp [offsetFormed]
@[simp] theorem ptpDiscard_sealSt (s : State) (p1 : Bool) : (ptpDiscard s p1).sealSt = s.sealSt := by
  simp [ptpDiscard]
theorem ptpReceive_sealSt {f : Bool → State → State} (hf : ∀ p1 s, (f p1 s).sealSt = s.sealSt) (p : Port) (h : PtpHdr) (s : State) :
    (ptpReceive f p h s).sealSt = s.sealSt := by
  unfold ptpReceive
  split
  · simp [hf]
  · rfl
@[simp] theorem syncArrived_sealSt (s : State) (p : Port) (p1 : Bool) (m : PtpSync) : (syncArrived s p p1 m).sealSt = s.sealSt := by
  simp [syncArrived]
@[simp] theorem followUpArrived_sealSt (s : State) (p : Port) (p1 : Bool) (m : PtpFollowUp) : (followUpArrived s p p1 m).sealSt = s.sealSt := by
  unfold followUpArrived
  dsimp only
  split <;> simp
@[simp] theorem announceArrived_sealSt (s : State) (p1 : Bool) (m : PtpAnnounce) : (announceArrived s p1 m).sealSt = s.sealSt := by
  simp [announceArrived]
@[simp] theorem dropMaster_sealSt (s : State) (p1 : Bool) (src : PortId) : (dropMaster s p1 src).sealSt = s.sealSt := by
  simp [dropMaster]
@[simp] theorem syncTimeout_sealSt (s : State) (p1 : Bool) : (syncTimeout s p1).sealSt = s.sealSt := by
  simp [syncTimeout]
@[simp] theorem sendPtp_sealSt (s : State) (p : Port) (p1 : Bool) (kind : Nat) (seq : BitVec 16) (stamp : Int) (requesting : Option PortId) :
    (sendPtp s p p1 kind seq stamp requesting).sealSt = s.sealSt := by simp [sendPtp]
@[simp] theorem pdelayResponse_sealSt (s : State) (p1 : Bool) (m : PtpPdelay) : (pdelayResponse s p1 m).sealSt = s.sealSt := by
  simp [pdelayResponse]
@[simp] theorem pdelayDone_sealSt (s : State) (p : Port) (p1 : Bool) (m : PtpPdelay) : (pdelayDone s p p1 m).sealSt = s.sealSt := by
  unfold pdelayDone
  dsimp only
  split <;> simp
@[simp] theorem ovenUpdate_sealSt (s : State) (err : Int) :
    (ovenUpdate s err).sealSt = s.sealSt := (congrArg State.sealSt (ovenUpdate_sansTimeState s err) :)
@[simp] theorem twinUpdate_sealSt (s : State) : (twinUpdate s).sealSt = s.sealSt := by
  unfold twinUpdate
  split <;> simp
@[simp] theorem followingError_sealSt (s : State) (slot : Nat) : (followingError s slot).sealSt = s.sealSt := by
  simp [followingError]

/-! Machine/Adc -/

@[simp] theorem adcInPut_sealSt (s : State) (i : Nat) (x : AdcIn) : (adcInPut s i x).sealSt = s.sealSt := by
  simp [adcInPut]
@[simp] theorem countCompare_sealSt (s : State) (i : Nat) (yK yP : Int) : (countCompare s i yK yP).sealSt = s.sealSt := by
  simp [countCompare]
@[simp] theorem compareSets_sealSt (s : State) (i k : Nat) (chk : Nat × ConvSet) (prim : Nat × ConvSet) :
    (compareSets s i k chk prim).sealSt = s.sealSt := by
  unfold compareSets
  split <;> simp
@[simp] theorem noteConverter_sealSt (s : State) (c : Nat) (x : ConvSet) : (noteConverter s c x).sealSt = s.sealSt := by
  simp [noteConverter]
@[simp] theorem localSample_sealSt (s : State) (idx : SIndex) (ls : Nat) (chans : List ChanSample) :
    (localSample s idx ls chans).sealSt = s.sealSt := by simp [localSample]
@[simp] theorem adcConvert_sealSt (s : State) (idx : SIndex) (prim : List ConvSet) (k0 k1 : ConvSet) :
    (adcConvert s idx prim k0 k1).sealSt = s.sealSt := by
  have ranged (l : List Nat) (u : State) : (l.foldl (fun s p =>
      match (primarySet s prim p).2 with
      | some l => if overRange l then tallyAdd s 2 (32 + p) 1 else s
      | none => s) u).sealSt = u.sealSt := by
    refine foldl_sealSt (fun s p => ?_) l u
    (repeat' split) <;> rfl
  unfold adcConvert
  extract_lets adc inputs noted checked inRange cmp compared regs
  have hinRange : inRange.sealSt = s.sealSt := (ranged inputs checked).trans (by simp [checked, noted])
  simp [compared, cmp, hinRange]
@[simp] theorem sequenceChange_sealSt (s : State) (old new : Rods) (first : SIndex) : (sequenceChange s old new first).sealSt = s.sealSt := by
  simp [sequenceChange]
@[simp] theorem rowAtTrigger_sealSt (s : State) (idx : SIndex) : (rowAtTrigger s idx).sealSt = s.sealSt := by
  unfold rowAtTrigger
  split <;> simp
theorem withImageAt_sealSt {f : State → State} (hf : ∀ s, (f s).sealSt = s.sealSt) (s : State) (idx : SIndex) :
    (withImageAt s idx f).sealSt = s.sealSt := by
  unfold withImageAt
  split
  · exact hf _
  · split <;> exact hf _
  · exact hf _

@[simp] theorem adcTrigger_sealSt (s : State) (idx : SIndex) (prim : List ConvSet) (k0 k1 : ConvSet) :
    (adcTrigger s idx prim k0 k1).sealSt = s.sealSt := by
  unfold adcTrigger
  extract_lets _ row t chans _ u
  have hrow : row.sealSt = s.sealSt := rowAtTrigger_sealSt _ idx
  have hformed : u.sealSt = s.sealSt := (withImageAt_sealSt (adcConvert_sealSt · idx prim k0 k1) row idx).trans hrow
  clear_value u
  split <;> simp [hformed]
@[simp] theorem urgentDrop_sealSt (s : State) (c : Nat) : (urgentDrop s c).sealSt = s.sealSt := by
  simp [urgentDrop]
@[simp] theorem urgentCheck_sealSt (s : State) (i start : Nat) (prim chk : ConvSet) : (urgentCheck s i start prim chk).sealSt = s.sealSt := by
  simp [urgentCheck]
@[simp] theorem judgeReference_sealSt (s : State) : (judgeReference s).sealSt = s.sealSt := by
  simp [judgeReference]
@[simp] theorem referenceMonitor_sealSt (s : State) (v : Nat) : (referenceMonitor s v).sealSt = s.sealSt := by
  simp [referenceMonitor]
@[simp] theorem adcStartFaults_sealSt (s : State) : (adcStartFaults s).sealSt = s.sealSt := keeps_sealSt (adcStartFaults_sansRecords s)
@[simp] theorem judgeSequence_sealSt (s : State) : (judgeSequence s).sealSt = s.sealSt := by
  simp [judgeSequence]

/-! Machine/Ports -/

@[simp] theorem prpPut_sealSt (s : State) (p : Port) (t : Tab PrpEntry) : (prpPut s p t).sealSt = s.sealSt := by
  simp [prpPut]
@[simp] theorem prpCheck_sealSt (s : State) (p : Port) (f : RxFrame) : (prpCheck s p f).1.sealSt = s.sealSt := by
  unfold prpCheck
  dsimp only
  (repeat' split) <;> simp
@[simp] theorem hsrForward_sealSt (s : State) (p : Port) (f : RxFrame) : (hsrForward s p f).sealSt = s.sealSt := by
  simp [hsrForward]
@[simp] theorem hsrTest_sealSt (s : State) (p : Port) (f : RxFrame) : (hsrTest s p f).1.sealSt = s.sealSt := by
  unfold hsrTest
  split <;> simp
@[simp] theorem ringClosed_sealSt (s : State) (p : Port) (f : RxFrame) : (ringClosed s p f).sealSt = s.sealSt := by
  simp [ringClosed]
@[simp] theorem deliver_sealSt (s : State) (p : Port) (f : RxFrame) : (deliver s p f).sealSt = s.sealSt := by
  simp [deliver]
@[simp] theorem typeCheck_sealSt (s : State) (p : Port) (f : RxFrame) : (typeCheck s p f).sealSt = s.sealSt := by
  simp [typeCheck]
@[simp] theorem hsrReceived_sealSt (s : State) (p : Port) (f : RxFrame) : (hsrReceived s p f).sealSt = s.sealSt := by
  simp [hsrReceived]
@[simp] theorem frameReceived_sealSt (s : State) (p : Port) (f : RxFrame) : (frameReceived s p f).sealSt = s.sealSt := by
  simp [frameReceived]
@[simp] theorem linkLost_sealSt (s : State) (p : Port) : (linkLost s p).sealSt = s.sealSt := by
  simp [linkLost]
@[simp] theorem linkGained_sealSt (s : State) (p : Port) : (linkGained s p).sealSt = s.sealSt := by
  simp [linkGained]
@[simp] theorem moduleRemoved_sealSt (s : State) (p : Port) : (moduleRemoved s p).sealSt = s.sealSt := by
  simp [moduleRemoved]
@[simp] theorem busRecovery_sealSt (s : State) (p : Port) (t : I2c) :
    (busRecovery s p t).sealSt = s.sealSt := keeps_sealSt (busRecovery_sansRecords s p t)
@[simp] theorem judgeBus_sealSt (s : State) (p : Port) : (judgeBus s p).sealSt = s.sealSt := by
  simp [judgeBus]
@[simp] theorem readA0h_sealSt (s : State) (p : Port) (t : I2c) : (readA0h s p t).sealSt = s.sealSt := by
  simp [readA0h]
@[simp] theorem moduleInserted_sealSt (s : State) (p : Port) (t : I2c) : (moduleInserted s p t).sealSt = s.sealSt := by
  simp [moduleInserted]
@[simp] theorem judgeDiag_sealSt (s : State) (code : Nat) (p : Port) (before after : List Bool) :
    (judgeDiag s code p before after).sealSt = s.sealSt := by
  unfold judgeDiag
  split <;> simp
@[simp] theorem readA2h_sealSt (s : State) (p : Port) (t : I2c) : (readA2h s p t).sealSt = s.sealSt := by
  unfold readA2h
  split <;> simp
@[simp] theorem pollCage_sealSt (s : State) (p : Port) (retry read : I2c) : (pollCage s p retry read).sealSt = s.sealSt := by
  simp [pollCage]

/-! Machine/Field -/

@[simp] theorem conductNow_sealSt (s : State) (o : Nat) : (conductNow s o).sealSt = s.sealSt := by
  simp [conductNow]
@[simp] theorem openOutput_sealSt (s : State) (o : Nat) (slow : Bool) : (openOutput s o slow).sealSt = s.sealSt := by
  simp [openOutput]
@[simp] theorem turnOn_sealSt (s : State) (o : Nat) : (turnOn s o).sealSt = s.sealSt := by
  simp [turnOn]
@[simp] theorem followCommand_sealSt (s : State) (o : Nat) : (followCommand s o).sealSt = s.sealSt := by
  simp [followCommand]
@[simp] theorem openOther_sealSt (s : State) (cc : Nat) (was : Nat) (wasOn slow : Bool) : (openOther s cc was wasOn slow).sealSt = s.sealSt := by
  simp [openOther]
@[simp] theorem applyDown_sealSt (s : State) (cc : Nat) (w : CouplerWord) : (applyDown s cc w).sealSt = s.sealSt := by
  simp [applyDown]
@[simp] theorem missDown_sealSt (s : State) (cc : Nat) : (missDown s cc).sealSt = s.sealSt := by
  simp [missDown]
@[simp] theorem sendDown_sealSt (s : State) (corrupted : List (Fin 32)) (cc : Nat) (cmd : Bool) :
    (sendDown s corrupted cc cmd).sealSt = s.sealSt := by simp [sendDown]
@[simp] theorem frameStart_sealSt (s : State) (corrupted : List (Fin 32)) (cc : Nat) : (frameStart s corrupted cc).sealSt = s.sealSt := by
  simp [frameStart]
@[simp] theorem commandOff_sealSt (s : State) (cc : Nat) : (commandOff s cc).sealSt = s.sealSt := by
  simp [commandOff]
@[simp] theorem measureSupply_sealSt (s : State) (g : Group) (vf : Nat) : (measureSupply s g vf).sealSt = s.sealSt := by
  unfold measureSupply
  (repeat' split) <;> simp
@[simp] theorem inputSample_sealSt (s : State) (cc mv vf : Nat) : (inputSample s cc mv vf).sealSt = s.sealSt := by
  simp [inputSample]
@[simp] theorem shortDecision_sealSt (s : State) (cc : Nat) (bothLegs : Bool) : (shortDecision s cc bothLegs).sealSt = s.sealSt := by
  simp [shortDecision]
@[simp] theorem tcsJudge_sealSt (s : State) (cc mv vf : Nat) : (tcsJudge s cc mv vf).sealSt = s.sealSt := by
  simp [tcsJudge]
@[simp] theorem latchUp_sealSt (s : State) (cc : Nat) : (latchUp s cc).sealSt = s.sealSt := by
  simp [latchUp]
@[simp] theorem clearAfter_sealSt (s : State) (k : FaultKey) (bit : Bool) (since : Nat) : (clearAfter s k bit since).sealSt = s.sealSt := by
  simp [clearAfter]
@[simp] theorem channelFaults_sealSt (s : State) (cc : Nat) (w : CouplerWord) : (channelFaults s cc w).sealSt = s.sealSt := by
  simp [channelFaults]
@[simp] theorem takeUpstream_sealSt (s : State) (ch : Fin 32) (w : CouplerWord) : (takeUpstream s ch w).sealSt = s.sealSt := by
  simp [takeUpstream]
@[simp] theorem judgeAgreement_sealSt (s : State) : (judgeAgreement s).sealSt = s.sealSt := by
  simp [judgeAgreement]
@[simp] theorem noteInputs_sealSt (s : State) : (noteInputs s).sealSt = s.sealSt := by
  simp [noteInputs]
@[simp] theorem mapGroup_sealSt (s : State) (g : Group) (f : Nat → Channel → Channel) : (mapGroup s g f).sealSt = s.sealSt :=
  foldl_sealSt (fun s cc => chPut_sealSt s cc _) _ s
@[simp] theorem fieldLost_sealSt (s : State) (g : Group) : (fieldLost s g).sealSt = s.sealSt := by
  simp [fieldLost]
@[simp] theorem judgeChannels_sealSt (s : State) : (judgeChannels s).sealSt = s.sealSt := by
  simp [judgeChannels]
@[simp] theorem coilCommit_sealSt (s : State) (cc : Nat) : (coilCommit s cc).sealSt = s.sealSt := by
  simp [coilCommit]

/-! Machine/Streams -/

@[simp] theorem admitSlot_sealSt (s : State) (n gen : Nat) (d : StreamIdent) (sec : Nat) (first : SIndex) :
    (admitSlot s n gen d sec first).sealSt = s.sealSt := by simp [admitSlot]
@[simp] theorem streamLost_sealSt (s : State) (n : Nat) : (streamLost s n).sealSt = s.sealSt := by
  simp [streamLost]
@[simp] theorem alignAsdu_sealSt (s : State) (n : Nat) (h : Held) : (alignAsdu s n h).sealSt = s.sealSt := by
  unfold alignAsdu
  dsimp only
  split
  · simp
  · simp
  · (repeat' split) <;> simp
  · simp
  · split <;> simp
@[simp] theorem refixSlot_sealSt (s : State) (n : Nat) (i : SIndex) : (refixSlot s n i).sealSt = s.sealSt := by
  simp [refixSlot]
@[simp] theorem noteFrame_sealSt (s : State) (n : Nat) (f : SvFrame) : (noteFrame s n f).sealSt = s.sealSt := by
  simp [noteFrame]
@[simp] theorem noteCandidate_sealSt (s : State) (n : Nat) (f : SvFrame) : (noteCandidate s n f).sealSt = s.sealSt := by
  unfold noteCandidate
  refine foldl_sealSt (fun s h => ?_) _ s
  split <;> simp
@[simp] theorem useFrame_sealSt (s : State) (n : Nat) (f : SvFrame) : (useFrame s n f).sealSt = s.sealSt := by
  simp [useFrame]
@[simp] theorem newCandidate_sealSt (s : State) (n : Nat) (f : SvFrame) : (newCandidate s n f).sealSt = s.sealSt := by
  simp [newCandidate]
@[simp] theorem firstCandidate_sealSt (s : State) (n : Nat) (f : SvFrame) : (firstCandidate s n f).sealSt = s.sealSt := by
  simp [firstCandidate]
@[simp] theorem candidateFrame_sealSt (s : State) (n run last : Nat) (f : SvFrame) : (candidateFrame s n run last f).sealSt = s.sealSt := by
  unfold candidateFrame
  dsimp only
  (repeat' split) <;> simp
@[simp] theorem decideFrame_sealSt (s : State) (n : Nat) (f : SvFrame) : (decideFrame s n f).sealSt = s.sealSt := by
  unfold decideFrame
  dsimp only
  split <;> simp
@[simp] theorem followSample_sealSt (s : State) (h : Held) : (followSample s h).sealSt = s.sealSt := by
  unfold followSample
  dsimp only
  split <;> simp
@[simp] theorem followFrame_sealSt (s : State) (n : Nat) (f : SvFrame) : (followFrame s n f).sealSt = s.sealSt := by
  simp [followFrame]
@[simp] theorem frameOverdue_sealSt (s : State) (n : Nat) : (frameOverdue s n).sealSt = s.sealSt := by
  unfold frameOverdue
  dsimp only
  (repeat' split) <;> simp
@[simp] theorem brkEntry_sealSt (s : State) (code n : Nat) (i : SIndex) (payload : List Byte) : (brkEntry s code n i payload).sealSt = s.sealSt := by
  simp [brkEntry]
@[simp] theorem brkAdmit_sealSt (s : State) (n : Nat) (m : BrkMsg) (i : SIndex) : (brkAdmit s n m i).sealSt = s.sealSt := by
  simp [brkAdmit]
@[simp] theorem brkUse_sealSt (s : State) (n : Nat) (m : BrkMsg) : (brkUse s n m).sealSt = s.sealSt := by
  simp [brkUse]
@[simp] theorem brkApply_sealSt (s : State) (n : Nat) (m : BrkMsg) (tick : Nat) (i : SIndex) : (brkApply s n m tick i).sealSt = s.sealSt := by
  unfold brkApply
  dsimp only
  split <;> simp
@[simp] theorem brkExpire_sealSt (s : State) (n : Nat) : (brkExpire s n).sealSt = s.sealSt := by
  simp [brkExpire]
@[simp] theorem brkDestroy_sealSt (s : State) (n : Nat) (i : SIndex) : (brkDestroy s n i).sealSt = s.sealSt := by
  simp [brkDestroy]
@[simp] theorem brkEnd_sealSt (s : State) (n : Nat) (i : SIndex) : (brkEnd s n i).sealSt = s.sealSt := by
  simp [brkEnd]
@[simp] theorem brkAct_sealSt (s : State) (n : Nat) (a : BrkAct) (i : SIndex) : (brkAct s n a i).sealSt = s.sealSt := by
  unfold brkAct
  split <;> simp
@[simp] theorem applyBreakers_sealSt (s : State) (i : SIndex) : (applyBreakers s i).sealSt = s.sealSt := by
  simp [applyBreakers]
@[simp] theorem brkDecide_sealSt (s : State) (n : Nat) (a : BrkAct) : (brkDecide s n a).sealSt = s.sealSt := by
  simp [brkDecide]
@[simp] theorem brkAdvance_sealSt (s : State) : (brkAdvance s).sealSt = s.sealSt := by
  simp [brkAdvance]
@[simp] theorem brkHold_sealSt (s : State) (n : Nat) (m : BrkMsg) (confirmed : Bool) : (brkHold s n m confirmed).sealSt = s.sealSt := by
  simp [brkHold]
@[simp] theorem breakerMessage_sealSt (s : State) (m : BrkMsg) : (breakerMessage s m).sealSt = s.sealSt := by
  unfold breakerMessage
  split <;> simp
@[simp] theorem notAdmitted_sealSt (s : State) (n : Nat) : (notAdmitted s n).sealSt = s.sealSt := by
  simp [notAdmitted]

/-! Machine/Service -/

@[simp] theorem judgeZone_sealSt (s : State) (z : Nat) : (judgeZone s z).sealSt = s.sealSt := by
  simp [judgeZone]
@[simp] theorem adoptTheta_sealSt (s : State) : (adoptTheta s).sealSt = s.sealSt := by
  unfold adoptTheta
  split <;> simp
@[simp] theorem fillBank_sealSt (s : State) (r : Rods) : (fillBank s r).sealSt = s.sealSt := by
  simp [fillBank]
@[simp] theorem switchBank_sealSt (s : State) : (switchBank s).sealSt = s.sealSt := by
  simp [switchBank]
@[simp] theorem startZones_sealSt (s : State) : (startZones s).sealSt = s.sealSt := by
  unfold startZones
  split <;> simp
@[simp] theorem takeValidity_sealSt (s : State) : (takeValidity s).sealSt = s.sealSt := by
  simp [takeValidity]

/-! Machine/Sessions -/

@[simp] theorem closeSessions_sealSt (s : State) (cause : Nat) (p : Session → Bool) : (closeSessions s cause p).sealSt = s.sealSt := by
  simp [closeSessions, closeSession_sealSt]
@[simp] theorem hostsCommit_sealSt (s : State) (old new : Rods) : (hostsCommit s old new).sealSt = s.sealSt := by
  simp [hostsCommit]

/-! Machine/Roles -/

@[simp] theorem endAgreement_sealSt (s : State) : (endAgreement s).sealSt = s.sealSt := by
  simp [endAgreement]
@[simp] theorem standAlone_sealSt (s : State) (st : PairState) : (standAlone s st).sealSt = s.sealSt := by
  simp [standAlone]
@[simp] theorem toShadow_sealSt (s : State) : (toShadow s).sealSt = s.sealSt := by simp [toShadow]
@[simp] theorem toRejoining_sealSt (s : State) : (toRejoining s).sealSt = s.sealSt := by
  simp [toRejoining]
@[simp] theorem toRejoinOrShadow_sealSt (s : State) : (toRejoinOrShadow s).sealSt = s.sealSt := by
  simp [toRejoinOrShadow]
@[simp] theorem rejoinPartner_sealSt (s : State) : (rejoinPartner s).sealSt = s.sealSt := by
  simp [rejoinPartner]
@[simp] theorem loseStandby_sealSt (s : State) (p : Nat) : (loseStandby s p).sealSt = s.sealSt := by
  simp [loseStandby]
@[simp] theorem partnerGone_sealSt (s : State) (detail : Nat) : (partnerGone s detail).sealSt = s.sealSt := by
  simp [partnerGone]
@[simp] theorem resolveDual_sealSt (s : State) (partnerRestarted : Bool) (partnerJseq : Nat) :
    (resolveDual s partnerRestarted partnerJseq).sealSt = s.sealSt := by simp [resolveDual]
@[simp] theorem splitBegins_sealSt (s : State) : (splitBegins s).sealSt = s.sealSt := by
  simp [splitBegins]
@[simp] theorem splitEnds_sealSt (s : State) : (splitEnds s).sealSt = s.sealSt := by
  simp [splitEnds]
@[simp] theorem judgeSplit_sealSt (s : State) : (judgeSplit s).sealSt = s.sealSt := by
  simp [judgeSplit]
@[simp] theorem activeHears_sealSt (s : State) (p : Nat) : (activeHears s p).sealSt = s.sealSt := by
  unfold activeHears
  (repeat' split) <;> simp
@[simp] theorem heartbeatSays_sealSt (s : State) (b : HeartbeatBody) : (heartbeatSays s b).sealSt = s.sealSt := by
  simp [heartbeatSays]
@[simp] theorem pathsHeard_sealSt (s : State) : (pathsHeard s).sealSt = s.sealSt := by
  simp [pathsHeard]
@[simp] theorem pathSilent_sealSt (s : State) (p : Path) : (pathSilent s p).sealSt = s.sealSt := by
  unfold pathSilent
  split <;> simp

/-! Machine/Carry -/

@[simp] theorem pumpLane_sealSt (fuel : Nat) (s : State) (n : Fin 2) : (pumpLane fuel s n).sealSt = s.sealSt := keeps_sealSt
    (pumpLane_sansRecords fuel s n)
@[simp] theorem carryTake_sealSt (s : State) (h : CarryHdr) : (carryTake s h).1.sealSt = s.sealSt := by
  unfold carryTake
  dsimp only
  (repeat' split) <;> simp
@[simp] theorem judgeLanes_sealSt (s : State) : (judgeLanes s).sealSt = s.sealSt := by
  unfold judgeLanes
  split <;> simp
@[simp] theorem laneUp_sealSt (s : State) (n : Fin 2) : (laneUp s n).sealSt = s.sealSt := by
  simp [laneUp]
@[simp] theorem carryLost_sealSt (s : State) : (carryLost s).sealSt = s.sealSt := by
  unfold carryLost
  dsimp only
  split <;> simp
@[simp] theorem laneDown_sealSt (s : State) (n : Fin 2) : (laneDown s n).sealSt = s.sealSt := by
  simp [laneDown]
@[simp] theorem helloArrived_sealSt (s : State) (b : HelloBody) : (helloArrived s b).sealSt = s.sealSt := by
  simp [helloArrived]
@[simp] theorem takeStnums_sealSt (s : State) (l : List (Nat × Nat)) : (takeStnums s l).sealSt = s.sealSt := by
  simp [takeStnums]
@[simp] theorem forwardQueue_sealSt (s : State) : (forwardQueue s).sealSt = s.sealSt := by
  simp [forwardQueue]
@[simp] theorem takeJournal_sealSt (s : State) (before : Nat) (journal : List CarriedEntry) : (takeJournal s before journal).sealSt = s.sealSt := by
  simp [takeJournal]
@[simp] theorem takeBranch_sealSt (s : State) (before : Nat) (journal : List CarriedEntry) : (takeBranch s before journal).sealSt = s.sealSt := by
  simp [takeBranch]
@[simp] theorem judgeSwap_sealSt (s : State) : (judgeSwap s).sealSt = s.sealSt := keeps_sealSt (judgeSwap_sansRecords s)
@[simp] theorem busHeard_sealSt (s : State) (p : Port) : (busHeard s p).sealSt = s.sealSt := by
  simp [busHeard]
@[simp] theorem lanSilent_sealSt (s : State) (p : Port) : (lanSilent s p).sealSt = s.sealSt := by
  simp [lanSilent]
@[simp] theorem judgeTwin_sealSt (s : State) (off : Int) : (judgeTwin s off).sealSt = s.sealSt := by
  simp [judgeTwin]
@[simp] theorem timeExchange_sealSt (s : State) (b : TimeBody) : (timeExchange s b).sealSt = s.sealSt := by
  simp [timeExchange]

/-! Machine/Faults -/

@[simp] theorem retestFault_sealSt (s : State) (k : FaultKey) : (retestFault s k).sealSt = s.sealSt := by
  unfold retestFault
  split <;> simp
@[simp] theorem judgeRise_sealSt (s : State) (k : FaultKey) (detail handle : Nat) (r : Rise) : (judgeRise s k detail handle r).sealSt = s.sealSt := by
  simp [judgeRise]
@[simp] theorem intervalPort_sealSt (s : State) (p : Port) : (intervalPort s p).sealSt = s.sealSt := by
  simp [intervalPort]
@[simp] theorem intervalSv_sealSt (s : State) (n : Nat) : (intervalSv s n).sealSt = s.sealSt := by
  simp [intervalSv]
@[simp] theorem intervalBrk_sealSt (s : State) (n : Nat) : (intervalBrk s n).sealSt = s.sealSt := by
  simp [intervalBrk]
@[simp] theorem intervalConverter_sealSt (s : State) (c : Nat) : (intervalConverter s c).sealSt = s.sealSt := by
  simp [intervalConverter]
@[simp] theorem intervalUnit_sealSt (s : State) : (intervalUnit s).sealSt = s.sealSt := by
  simp [intervalUnit]
@[simp] theorem intervalCarry_sealSt (s : State) : (intervalCarry s).sealSt = s.sealSt := by
  simp [intervalCarry]
@[simp] theorem quietSecond_sealSt (s : State) (k : FaultKey) (last : Option Nat) : (quietSecond s k last).sealSt = s.sealSt := by
  unfold quietSecond
  split <;> simp
@[simp] theorem intervalParity_sealSt (s : State) : (intervalParity s).sealSt = s.sealSt := by
  simp [intervalParity]
@[simp] theorem tallyInterval_sealSt (s : State) : (tallyInterval s).sealSt = s.sealSt := by
  simp [tallyInterval]
@[simp] theorem periodicSnapshot_sealSt (s : State) : (periodicSnapshot s).sealSt = s.sealSt := by
  simp [periodicSnapshot]

/-! Machine/Lend -/

@[simp] theorem takeReceipt_sealSt (s : State) (r : ReceiptRec) : (takeReceipt s r).sealSt = s.sealSt := by
  unfold takeReceipt
  split <;> simp
@[simp] theorem takeBrkReceipt_sealSt (s : State) (r : ReceiptRec) : (takeBrkReceipt s r).sealSt = s.sealSt := by
  unfold takeBrkReceipt
  dsimp only
  split <;> simp
@[simp] theorem receiptArrived_sealSt (s : State) (rs : List ReceiptRec) : (receiptArrived s rs).sealSt = s.sealSt := by
  simp [receiptArrived]
@[simp] theorem answerLend_sealSt (s : State) (r : ReceiptRec) (kind : Fin 4) : (answerLend s r kind).sealSt = s.sealSt := by
  simp [answerLend]
@[simp] theorem lentLate_sealSt (s : State) (n : Nat) (i : SIndex) : (lentLate s n i).sealSt = s.sealSt := by
  simp [lentLate]
@[simp] theorem noteLent_sealSt (s : State) (n : Nat) (a : LentAsdu) : (noteLent s n a).sealSt = s.sealSt := by
  simp [noteLent]
@[simp] theorem takeLent_sealSt (s : State) (r : ReceiptRec) (a : LentAsdu) : (takeLent s r a).sealSt = s.sealSt := by
  unfold takeLent
  dsimp only
  split <;> simp
@[simp] theorem takeLentFrame_sealSt (s : State) (r : ReceiptRec) (f : SvFrame) : (takeLentFrame s r f).sealSt = s.sealSt := by
  have followed (l : List Held) (n : Nat) (u : State) : (l.foldl (fun s h =>
      match findHeld s n h.sample.idx with
      | some _ => s
      | none => followSample s h) u).sealSt = u.sealSt := by
    refine foldl_sealSt (fun s h => ?_) l u
    split <;> simp
  unfold takeLentFrame
  dsimp only
  split
  · (repeat' split) <;> simp
  · rw [advanceSlot_sealSt]
    exact (followed _ _ _).trans (answerLend_sealSt s r 1)
@[simp] theorem takeLentBrk_sealSt (s : State) (r : ReceiptRec) (m : BrkMsg) : (takeLentBrk s r m).sealSt = s.sealSt := by
  simp [takeLentBrk]
@[simp] theorem lendArrived_sealSt (s : State) (b : LendBody) : (lendArrived s b).sealSt = s.sealSt := by
  unfold lendArrived
  split <;> simp
@[simp] theorem lendTimeout_sealSt (s : State) (n : Nat) (i : SIndex) : (lendTimeout s n i).sealSt = s.sealSt := by
  unfold lendTimeout
  (repeat' split) <;> simp
@[simp] theorem unagreed_sealSt (s : State) : (unagreed s).sealSt = s.sealSt := by simp [unagreed]
@[simp] theorem unagreedRelease_sealSt (s : State) (n : Nat) (i : SIndex) : (unagreedRelease s n i).sealSt = s.sealSt := by
  unfold unagreedRelease
  (repeat' split) <;> simp
@[simp] theorem meetReceipts_sealSt (s : State) (n : Nat) : (meetReceipts s n).sealSt = s.sealSt := by
  unfold meetReceipts
  refine foldl_sealSt (fun s h => ?_) _ s
  split <;> simp
@[simp] theorem noteHeld_sealSt (s : State) (n : Nat) (d : StreamIdent) : (noteHeld s n d).sealSt = s.sealSt := by
  unfold noteHeld
  split <;> simp
@[simp] theorem tallyOthers_sealSt (s : State) (n : Nat) (d : StreamIdent) (first : SIndex) : (tallyOthers s n d first).sealSt = s.sealSt := by
  simp [tallyOthers]
@[simp] theorem applyAdmit_sealSt (s : State) (n gen : Nat) (d : StreamIdent) (sec : Nat) (first : SIndex) :
    (applyAdmit s n gen d sec first).sealSt = s.sealSt := by simp [applyAdmit]
@[simp] theorem applyMissing_sealSt (s : State) (n : Nat) (i : SIndex) : (applyMissing s n i).sealSt = s.sealSt := by
  unfold applyMissing
  split <;> simp
@[simp] theorem applyJump_sealSt (s : State) (n : Nat) (first : SIndex) : (applyJump s n first).sealSt = s.sealSt := by
  simp [applyJump]
@[simp] theorem applyRefix_sealSt (s : State) (n : Nat) (first : SIndex) : (applyRefix s n first).sealSt = s.sealSt :=
  (meetReceipts_sealSt _ n).trans ((setHeld_sealSt _ _).trans (svPut_sealSt s n _))
@[simp] theorem dueBreaker_sealSt (s : State) (n : Nat) (a : BrkAct) (i : SIndex) : (dueBreaker s n a i).sealSt = s.sealSt := by
  simp [dueBreaker]
@[simp] theorem namedBreaker_sealSt (s : State) (n stNum sqNum tick : Nat) (i : SIndex) :
    (namedBreaker s n stNum sqNum tick i).sealSt = s.sealSt := by
  unfold namedBreaker
  split <;> simp

/-! Machine/Release -/

@[simp] theorem applySnapshot_sealSt (s : State) (b : SnapBody) : (applySnapshot s b).sealSt = s.sealSt := by
  have zoned (l : List (Nat × Zone)) (u : State) : (l.foldl (fun s p => zonePut s p.1 p.2) u).sealSt = u.sealSt := foldl_sealSt (by intros; rfl) l u
  have numbered (l : List (Nat × Publication)) (u : State) : (l.foldl (fun s p => pubPut s p.1 p.2) u).sealSt = u.sealSt :=
    foldl_sealSt (by intros; rfl) l u
  simp [applySnapshot, zoned, numbered]
@[simp] theorem snapshotAt_sealSt (s : State) (i : SIndex) : (snapshotAt s i).sealSt = s.sealSt := by
  unfold snapshotAt
  split <;> simp
@[simp] theorem beforeSample_sealSt (s : State) (x : Sample) : (beforeSample s x).sealSt = s.sealSt := by
  simp [beforeSample]
@[simp] theorem laneFailure_sealSt (s : State) (x : Sample) (differ : Option (Nat × Nat × Nat)) (parityOk : Bool) :
    (laneFailure s x differ parityOk).sealSt = s.sealSt := by
  unfold laneFailure
  split <;> simp
@[simp] theorem popIntake_sealSt (s : State) : (popIntake s).sealSt = s.sealSt := by
  simp [popIntake]
@[simp] theorem checkPattern_sealSt (s : State) (p : PatternRun) : (checkPattern s p).sealSt = s.sealSt := by
  simp [checkPattern]

/-! Machine/PairJournal -/

@[simp] theorem checkFails_sealSt (s : State) : (checkFails s).sealSt = s.sealSt := by
  simp [checkFails]
@[simp] theorem joinNumbered_sealSt (s : State) (j : Nat) (e : Entry) (compared : Bool) : (joinNumbered s j e compared).sealSt = s.sealSt := by
  simp [joinNumbered]
@[simp] theorem numberedArrived_sealSt (s : State) (c : CarriedEntry) : (numberedArrived s c).sealSt = s.sealSt := by
  unfold numberedArrived
  dsimp only
  split
  · rfl
  · split
    · simp
    · split
      · simp
      · split
        next h => simpa using comparePair_sealSt h
        · split <;> simp
@[simp] theorem jentryArrived_sealSt (s : State) (c : CarriedEntry) : (jentryArrived s c).sealSt = s.sealSt := by
  simp [jentryArrived]
@[simp] theorem jcheckArrived_sealSt (s : State) (jseq : Nat) (ecrc : BitVec 32) : (jcheckArrived s jseq ecrc).sealSt = s.sealSt := by
  unfold jcheckArrived
  split <;> simp
@[simp] theorem takeSlot_sealSt (s : State) (n gen : Nat) (d : StreamIdent) (next : SIndex) : (takeSlot s n gen d next).sealSt = s.sealSt := by
  simp [takeSlot]
@[simp] theorem takeTable_sealSt (s : State) (slots : List (Nat × Nat × StreamIdent × SIndex)) (brks : List (Nat × BrkSlot)) :
    (takeTable s slots brks).sealSt = s.sealSt := by
  unfold takeTable
  extract_lets gone freed taken keep _ held
  have hfreed : freed.sealSt = s.sealSt := foldl_sealSt (by intros; rfl) gone s
  have hheld : held.sealSt = s.sealSt := Eq.trans (by simp [held, taken]) hfreed
  clear_value held
  simp [hheld]
@[simp] theorem sendState_sealSt (s : State) (last : Nat) (n0 : SIndex) : (sendState s last n0).sealSt = s.sealSt := by
  simp [sendState]
@[simp] theorem resyncArrived_sealSt (s : State) (last : Nat) (journal : List CarriedEntry) (slots : List (Nat × Nat × StreamIdent × SIndex))
    (brks : List (Nat × BrkSlot)) (stnums : List (Nat × Nat)) (n0 : SIndex) :
    (resyncArrived s last journal slots brks stnums n0).sealSt = s.sealSt := by
  unfold resyncArrived
  split <;> simp
@[simp] theorem snapshotArrived_sealSt (s : State) (b : SnapBody) : (snapshotArrived s b).sealSt = s.sealSt := by
  unfold snapshotArrived
  split <;> simp
@[simp] theorem rejoinTimeout_sealSt (s : State) : (rejoinTimeout s).sealSt = s.sealSt := by
  unfold rejoinTimeout
  split <;> simp

/-! Machine/Plug -/

@[simp] theorem holdInvalid_sealSt (s : State) : (holdInvalid s).sealSt = s.sealSt := by
  unfold holdInvalid
  split <;> simp
@[simp] theorem frameOn_sealSt (s : State) : (frameOn s).sealSt = s.sealSt := by simp [frameOn]
@[simp] theorem frameOff_sealSt (s : State) : (frameOff s).sealSt = s.sealSt := by simp [frameOff]
@[simp] theorem presenceGained_sealSt (s : State) : (presenceGained s).sealSt = s.sealSt := by
  simp [presenceGained]
@[simp] theorem presenceLost_sealSt (s : State) (broken : Bool) : (presenceLost s broken).sealSt = s.sealSt := by
  simp [presenceLost]
@[simp] theorem presenceCheck_sealSt (s : State) (det1 det2 : Option Nat) (type : List Nat) : (presenceCheck s det1 det2 type).sealSt = s.sealSt := by
  simp [presenceCheck]
@[simp] theorem comparePlug_sealSt (s : State) : (comparePlug s).sealSt = s.sealSt := keeps_sealSt (comparePlug_sansRecords s)
@[simp] theorem stableRead_sealSt (s : State) (img : Image) : (stableRead s img).sealSt = s.sealSt := by
  simp [stableRead]
@[simp] theorem holdRescan_sealSt (s : State) (img : Image) : (holdRescan s img).sealSt = s.sealSt := by
  unfold holdRescan
  split <;> simp
@[simp] theorem rescanned_sealSt (s : State) (img : Image) : (rescanned s img).sealSt = s.sealSt := by
  simp [rescanned]
@[simp] theorem referenceFailed_sealSt (s : State) : (referenceFailed s).sealSt = s.sealSt := by
  simp [referenceFailed]
@[simp] theorem scanEnd_sealSt (s : State) (r : ScanReadings) : (scanEnd s r).sealSt = s.sealSt := by
  simp [scanEnd]
@[simp] theorem quiescenceMet_sealSt (s : State) (img : Image) : (quiescenceMet s img).sealSt = s.sealSt := by
  simp [quiescenceMet]
@[simp] theorem judgeHold_sealSt (s : State) (img : Image) : (judgeHold s img).sealSt = s.sealSt := by
  simp [judgeHold]
@[simp] theorem quiescenceTimeout_sealSt (s : State) (img : Image) : (quiescenceTimeout s img).sealSt = s.sealSt := by
  simp [quiescenceTimeout]
@[simp] theorem depthCommit_sealSt (s : State) (old new : Rods) : (depthCommit s old new).sealSt = s.sealSt := by
  simp [depthCommit]
@[simp] theorem coilsCommit_sealSt (s : State) (old : Rods) : (coilsCommit s old).sealSt = s.sealSt := by
  simp [coilsCommit]
@[simp] theorem instancesCommit_sealSt (s : State) : (instancesCommit s).sealSt = s.sealSt := by
  simp [instancesCommit]
@[simp] theorem holdoverCommit_sealSt (s : State) : (holdoverCommit s).sealSt = s.sealSt := by
  simp [holdoverCommit]
@[simp] theorem thetaCommit_sealSt (s : State) (old new : Rods) : (thetaCommit s old new).sealSt = s.sealSt :=
  foldl_sealSt (fun s z => zonePut_sealSt s z _) _ s
@[simp] theorem zonesCommit_sealSt (s : State) (old new : Rods) : (zonesCommit s old new).sealSt = s.sealSt := by
  simp [zonesCommit]
@[simp] theorem newInForce_sealSt (s : State) (new : Rods) (i : SIndex) : (newInForce s new i).sealSt = s.sealSt := by
  simp [newInForce]

/-! Machine/Seal -/

@[simp] theorem cleanRead_sealSt (s : State) : (cleanRead s).sealSt = s.sealSt := by
  simp [cleanRead]
@[simp] theorem eraseEntry_sealSt (s : State) (d : Nat) : (eraseEntry s d).sealSt = s.sealSt := by
  simp [eraseEntry]
@[simp] theorem portStops_sealSt (s : State) : (portStops s).sealSt = s.sealSt := keeps_sealSt (portStops_sansRecords s)
@[simp] theorem shiftOut_sealSt (s : State) (t : KlTransaction) : (shiftOut s t).sealSt = s.sealSt := by
  simp [shiftOut]

/-! Machine/Power -/

@[simp] theorem persistAll_sealSt (s : State) : (persistAll s).sealSt = s.sealSt := by
  simp [persistAll]
@[simp] theorem commitEverything_sealSt (s : State) : (commitEverything s).sealSt = s.sealSt := sealSt_of_journal (commitEverything_sansJournal s)
@[simp] theorem flushRecords_sealSt (s : State) : (flushRecords s).sealSt = s.sealSt := sealSt_of_journal (flushRecords_sansJournal s)
@[simp] theorem flushDone_sealSt (s : State) : (flushDone s).sealSt = s.sealSt := by
  simp [flushDone]
@[simp] theorem outputsOff_sealSt (s : State) : (outputsOff s).sealSt = s.sealSt := by
  simp [outputsOff]
@[simp] theorem measureStore_sealSt (s : State) : (measureStore s).sealSt = s.sealSt := by
  simp [measureStore]
@[simp] theorem commitEntryKept_sealSt (s : State) : (commitEntryKept s).sealSt = s.sealSt := sealSt_of_journal (commitEntryKept_sansJournal s)
@[simp] theorem finishWrite_sealSt (s : State) : (finishWrite s).sealSt = s.sealSt := by
  unfold finishWrite
  split <;> simp
@[simp] theorem internalRestart_sealSt (s : State) : (internalRestart s).sealSt = s.sealSt := by
  simp [internalRestart]
@[simp] theorem toStep_sealSt (s : State) (t : StartStep) : (toStep s t).sealSt = s.sealSt := by
  simp [toStep]
@[simp] theorem withhold_sealSt (s : State) (c : WithheldCause) : (withhold s c).sealSt = s.sealSt := by
  simp [withhold]
@[simp] theorem strapsDecided_sealSt (s : State) (readings : List (List Nat)) : (strapsDecided s readings).sealSt = s.sealSt := by
  unfold strapsDecided
  dsimp only
  split <;> simp
@[simp] theorem startEntry_sealSt (s : State) : (startEntry s).sealSt = s.sealSt := by
  unfold startEntry
  dsimp only
  split
  next h => exact placeCommit_sealSt (.inl h)
  · rfl
@[simp] theorem compareStraps_sealSt (s : State) : (compareStraps s).sealSt = s.sealSt := by
  unfold compareStraps
  dsimp only
  split <;> simp
@[simp] theorem readNvm_sealSt (s : State) (f : JournalFind) : (readNvm s f).sealSt = s.sealSt :=
  foldl_sealSt (f := fun s (p : Nat × Nat) => pubPut s p.1 { pubGet s p.1 with stNum := p.2 }) (fun _ _ => rfl) s.nvm.stNum s
@[simp] theorem bankPut_sealSt (s : State) (r : Option Rods) : (bankPut s r).sealSt = s.sealSt := by
  simp [bankPut]
@[simp] theorem checkBank_sealSt (s : State) (f : JournalFind) : (checkBank s f).sealSt = s.sealSt := by
  -- whichever CRC the image has: the kernel must not compute it
  obtain ⟨crc, hcrc⟩ : ∃ c, imageCrc = c := ⟨_, rfl⟩
  unfold checkBank
  rw [hcrc]
  split
  · rfl
  · simp
@[simp] theorem cageStart_sealSt (s : State) (p : Port) (c : CageRead) : (cageStart s p c).sealSt = s.sealSt := by
  simp [cageStart]
@[simp] theorem coreLost_sealSt (s : State) : (coreLost s).sealSt = s.sealSt := by simp [coreLost]
@[simp] theorem vbatCheck_sealSt (s : State) (mv : Option Nat) : (vbatCheck s mv).sealSt = s.sealSt := by
  unfold vbatCheck
  split <;> simp
@[simp] theorem portParity_sealSt (s : State) (p : Port) : (portParity s p).sealSt = s.sealSt := by
  simp [portParity]
@[simp] theorem carryParity_sealSt (s : State) : (carryParity s).sealSt = s.sealSt := by
  simp [carryParity]
@[simp] theorem ringParity_sealSt (s : State) (slot sec cnt : Nat) : (ringParity s slot sec cnt).sealSt = s.sealSt := by
  simp [ringParity]
@[simp] theorem retentionParity_sealSt (s : State) : (retentionParity s).sealSt = s.sealSt := by
  simp [retentionParity]
@[simp] theorem sessionParity_sealSt (s : State) : (sessionParity s).sealSt = s.sealSt := by
  simp [sessionParity]
@[simp] theorem memoryParity_sealSt (s : State) (m : StateMemory) : (memoryParity s m).sealSt = s.sealSt := by
  unfold memoryParity
  split <;> simp
@[simp] theorem crossingParity_sealSt (s : State) (x : Crossing) : (crossingParity s x).sealSt = s.sealSt := by
  unfold crossingParity
  split <;> simp

/-! Machine/Recall -/

@[simp] theorem respond_sealSt (s : State) (dst : Mac) (a : Answer) : (respond s dst a).sealSt = s.sealSt := by
  simp [respond, sendStation_sealSt]
@[simp] theorem respondError_sealSt (s : State) (r : RecallReq) (result : Nat) : (respondError s r result).sealSt = s.sealSt := by
  simp [respondError]
@[simp] theorem redirectTo_sealSt (s : State) (r : RecallReq) : (redirectTo s r).sealSt = s.sealSt := by
  simp [redirectTo]
@[simp] theorem respondOpened_sealSt (s : State) (r : RecallReq) (i : Nat) : (respondOpened s r i).sealSt = s.sealSt := by
  simp [respondOpened]
@[simp] theorem openSession_sealSt (s : State) (h : Nat) (r : RecallReq) : (openSession s h r).sealSt = s.sealSt := by
  unfold openSession
  (repeat' split) <;> simp
@[simp] theorem recallClose_sealSt (s : State) (r : RecallReq) (i : Nat) : (recallClose s r i).sealSt = s.sealSt := by
  simp [recallClose, closeSession_sealSt]
@[simp] theorem queueRequest_sealSt (s : State) (r : RecallReq) (i : Nat) : (queueRequest s r i).sealSt = s.sealSt := by
  simp [queueRequest]
@[simp] theorem hostRequest_sealSt (s : State) (h : Nat) (r : RecallReq) : (hostRequest s h r).sealSt = s.sealSt := by
  unfold hostRequest
  dsimp only
  (repeat' split) <;> simp
@[simp] theorem readError_sealSt (s : State) : (readError s).sealSt = s.sealSt := by
  simp [readError]
@[simp] theorem serveEntries_sealSt (s : State) (r : RecallReq) (i : Nat) (readOk : Bool) : (serveEntries s r i readOk).sealSt = s.sealSt := by
  simp [serveEntries]
@[simp] theorem waitPages_sealSt (s : State) (h : Nat) : (waitPages s h).sealSt = s.sealSt := by
  simp [waitPages]
@[simp] theorem serveAck_sealSt (s : State) (r : RecallReq) (i : Nat) : (serveAck s r i).sealSt = s.sealSt := by
  simp [serveAck]
@[simp] theorem serveRecord_sealSt (s : State) (r : RecallReq) (i : Nat) (readOk : Bool) : (serveRecord s r i readOk).sealSt = s.sealSt := by
  unfold serveRecord
  dsimp only
  (repeat' split) <;> simp
@[simp] theorem serveDone_sealSt (s : State) (r : RecallReq) (i : Nat) (readOk : Bool) : (serveDone s r i readOk).sealSt = s.sealSt := by
  unfold serveDone
  dsimp only
  split <;> simp
@[simp] theorem serveRequest_sealSt (s : State) (i : Nat) (readOk : Bool) : (serveRequest s i readOk).sealSt = s.sealSt := by
  unfold serveRequest
  dsimp only
  split
  · rfl
  · simp

/-! Machine/Swap -/

@[simp] theorem trySwap_sealSt (s : State) : (trySwap s).sealSt = s.sealSt := by simp [trySwap]
@[simp] theorem swapProposed_sealSt (s : State) (ns : SIndex) : (swapProposed s ns).sealSt = s.sealSt := by
  simp [swapProposed]
@[simp] theorem numberBefore_sealSt : ∀ (fuel : Nat) (s : State) (ns : SIndex), (numberBefore fuel s ns).sealSt = s.sealSt
  | 0, _, _ => rfl
  | fuel + 1, s, ns => by
    unfold numberBefore
    split
    · rfl
    · dsimp only
      split
      next h => simpa [numberBefore_sealSt fuel] using placeCommit_sealSt (.inl h)
      · rw [numberBefore_sealSt fuel]
@[simp] theorem swapToStandby_sealSt (s : State) (ns : SIndex) : (swapToStandby s ns).sealSt = s.sealSt := by
  simp [swapToStandby]
@[simp] theorem swapToActive_sealSt (s : State) (ns : SIndex) : (swapToActive s ns).sealSt = s.sealSt := by
  simp [swapToActive]
@[simp] theorem swapRoles_sealSt (s : State) (ns : SIndex) : (swapRoles s ns).sealSt = s.sealSt := by
  unfold swapRoles
  simp

end Sys2Proof.Machine
end


section
/-! What an operation that reads keys leaves of the seal: empty at most some slots; and what a command leaves of it. -/
namespace Sys2Proof.Machine

/-! What reads a key can empty slots -/

/-- From the seal `x` to `y` it stays but for key slots that a read found corrupt and emptied (R750, R783). -/
structure Seal.Kept (x y : Seal) : Prop where
  rest : { y with keys := [] } = { x with keys := [] }
  keys : y.keys.Sublist x.keys

namespace Seal.Kept

variable {sl x y z : Seal} {s t : State}

@[simp] theorem refl (x : Seal) : Seal.Kept x x := ⟨rfl, .refl _⟩
theorem trans (h : x.Kept y) (k : y.Kept z) : x.Kept z := ⟨k.rest.trans h.rest, k.keys.trans h.keys⟩
theorem of_sealKept (h : SealKept s t) : s.sealSt.Kept t.sealSt := ⟨h.rest, h.keys⟩
theorem after (h : sl.Kept s.sealSt) (k : SealKept s t) : sl.Kept t.sealSt := h.trans (of_sealKept k)

@[simp] theorem ite_iff (c : Prop) [Decidable c] : sl.Kept (if c then y else z) ↔ (c → sl.Kept y) ∧ (¬ c → sl.Kept z) := by
  split <;> simp [*]

/-- A fold keeps what each of its steps keeps. -/
@[simp] theorem foldl {α : Type} {f : State → α → State} (hf : ∀ (s : State) a, s.sealSt.Kept (f s a).sealSt) :
    ∀ (l : List α) {s : State}, sl.Kept s.sealSt → sl.Kept (l.foldl f s).sealSt
  | [], _, h => h
  | a :: l, s, h => foldl hf l (h.trans (hf s a))

end Seal.Kept

open Seal

/-! Machine/Keys -/

@[simp] theorem readKey_kept {sl : Seal} {s : State} (h : sl.Kept s.sealSt) (n : Nat) : sl.Kept (readKey s n).1.sealSt :=
  h.after (.of_reports (readKey_sansReports s n) (readKey_empties s n))
@[simp] theorem gooseKey_kept {sl : Seal} {s : State} (h : sl.Kept s.sealSt) (zoneFrame : Bool) : sl.Kept (gooseKey s zoneFrame).1.sealSt := by
  unfold gooseKey
  split
  · exact h
  · dsimp only
    split <;> simp [h]

/-! Machine/Publish -/

@[simp] theorem releaseSummary_kept {sl : Seal} {s : State} (h : sl.Kept s.sealSt) :
    sl.Kept (releaseSummary s).sealSt := h.after (.of_reports (releaseSummary_sansReports s) (releaseSummary_empties s))
@[simp] theorem handGoose_kept {sl : Seal} {s : State} (h : sl.Kept s.sealSt) (p st : Nat) (change : Bool) (pdu : List Byte) :
    sl.Kept (handGoose s p st change pdu).sealSt := by simp [handGoose, h, enqueue_sealSt]
@[simp] theorem handChange_kept {sl : Seal} {s : State} (h : sl.Kept s.sealSt) (p : Nat) : sl.Kept (handChange s p).sealSt :=
  handGoose_kept h p _ true _
@[simp] theorem zoneChangeAt_kept {sl : Seal} {s : State} (h : sl.Kept s.sealSt) (z : Nat) (idx : SIndex) (time : Nat × Nat) :
    sl.Kept (zoneChangeAt s z idx time).sealSt := by simp [zoneChangeAt, h, pubSet_sealSt]
@[simp] theorem withNow_kept {sl : Seal} {s : State} {f : State → State} (hf : ∀ s : State, s.sealSt.Kept (f s).sealSt) (h : sl.Kept s.sealSt) :
    sl.Kept (withNow s f).sealSt := by
  unfold withNow
  split
  · exact h.trans (hf s)
  next r _ => exact h.trans (hf { s with plug := { s.plug with image := some r } })

@[simp] theorem zoneChange_kept {sl : Seal} {s : State} (h : sl.Kept s.sealSt) (z : Nat) (idx : SIndex) : sl.Kept (zoneChange s z idx).sealSt := by
  simp [zoneChange, h]
@[simp] theorem zoneChangeNow_kept {sl : Seal} {s : State} (h : sl.Kept s.sealSt) (z : Nat) :
    sl.Kept (zoneChangeNow s z).sealSt := h.after (.of_reports (zoneChangeNow_sansReports s z) (zoneChangeNow_empties s z))
@[simp] theorem judgeSummary_kept {sl : Seal} {s : State} (h : sl.Kept s.sealSt) : sl.Kept (judgeSummary s).sealSt := h.after (judgeSummary_sealKept s)
@[simp] theorem keysChanged_kept {sl : Seal} {s : State} (h : sl.Kept s.sealSt) : sl.Kept (keysChanged s).sealSt := h.after (keysChanged_sealKept s)
@[simp] theorem authChanged_kept {sl : Seal} {s : State} (h : sl.Kept s.sealSt) :
    sl.Kept (authChanged s).sealSt := h.after (.of_reports (authChanged_sansReports s) (authChanged_empties s))
@[simp] theorem startPublishing_kept {sl : Seal} {s : State} (h : sl.Kept s.sealSt) (zones : List Nat) : sl.Kept (startPublishing s zones).sealSt := by
  simp [startPublishing, h]
@[simp] theorem stnumPersisted_kept {sl : Seal} {s : State} (h : sl.Kept s.sealSt) (p : Nat) (ok : Bool) :
    sl.Kept (stnumPersisted s p ok).sealSt := by simp [stnumPersisted, h]
@[simp] theorem retransmit_kept {sl : Seal} {s : State} (h : sl.Kept s.sealSt) (p : Nat) : sl.Kept (retransmit s p).sealSt := by
  unfold retransmit
  dsimp only
  split
  · exact h
  · exact handGoose_kept (s := pubPut s p _) h p _ false _
@[simp] theorem enterDue_kept {sl : Seal} {s : State} (h : sl.Kept s.sealSt) : sl.Kept (enterDue s).sealSt := by
  refine Seal.Kept.foldl (fun s d => ?_) _ (by exact h)
  split <;> simp
@[simp] theorem placeDue_kept {sl : Seal} {s : State} (h : sl.Kept s.sealSt) (i : SIndex) (p : Nat) : sl.Kept (placeDue s i p).sealSt := by
  simp [placeDue, h]
@[simp] theorem retransmissionDue_kept {sl : Seal} {s : State} (h : sl.Kept s.sealSt) (p : Nat) : sl.Kept (retransmissionDue s p).sealSt := by
  simp [retransmissionDue, h]
@[simp] theorem transmit_kept {sl : Seal} {s : State} (h : sl.Kept s.sealSt) (f : TxFrame) : sl.Kept (transmit s f).sealSt := by
  unfold transmit
  split
  · dsimp only
    split
    · simp [h]
    · split <;> split <;> simp [h]
  · simp [h]
  · simp [h]
@[simp] theorem transmitNext_kept {sl : Seal} {s : State} (h : sl.Kept s.sealSt) : sl.Kept (transmitNext s).sealSt := by
  unfold transmitNext
  split <;> simp [h]
@[simp] theorem transmitAll_kept {sl : Seal} : ∀ (n : Nat) {s : State}, sl.Kept s.sealSt → sl.Kept (transmitAll n s).sealSt
  | 0, _, h => h
  | n + 1, s, h => by
    unfold transmitAll
    split
    · exact h
    · exact transmitAll_kept n (transmitNext_kept h)
@[simp] theorem transmitReady_kept {sl : Seal} {s : State} (h : sl.Kept s.sealSt) : sl.Kept (transmitReady s).sealSt := by
  simp [transmitReady, h]
@[simp] theorem statusOnChange_kept {sl : Seal} {s : State} (h : sl.Kept s.sealSt) : sl.Kept (statusOnChange s).sealSt := by
  simp [statusOnChange, h]

/-! Machine/Zones -/

@[simp] theorem verdictChange_kept {sl : Seal} {s : State} (h : sl.Kept s.sealSt) (z : Nat) (idx : SIndex) (before : List Nat) (old new : Dataset) :
    sl.Kept (verdictChange s z idx before old new).sealSt := by simp [verdictChange, h]
@[simp] theorem settle_kept {sl : Seal} {s : State} (h : sl.Kept s.sealSt) (z n : Nat) (idx : SIndex) (blockChange : Bool) :
    sl.Kept (settle s z n idx blockChange).sealSt := by
  unfold settle
  extract_lets r old before t a c d _ put judged fault traced
  have hput : sl.Kept put.sealSt := h
  clear_value put
  have hjudged : sl.Kept judged.sealSt := by
    simp only [judged]
    split <;> simp [hput]
  simp [traced, fault, hjudged]
@[simp] theorem evalZone_kept {sl : Seal} {s : State} (h : sl.Kept s.sealSt) (z : Nat) (idx : SIndex) : sl.Kept (evalZone s z idx).sealSt := by
  unfold evalZone
  extract_lets old cold blocked y settled
  have hsettled : sl.Kept settled.sealSt := settle_kept (s := zonePut s z y) h z 1 idx _
  simp [hsettled]
@[simp] theorem evalSample_kept {sl : Seal} {s : State} (h : sl.Kept s.sealSt) (z : Nat) (idx : SIndex) : sl.Kept (evalSample s z idx).sealSt := by
  simp [evalSample, h]
theorem evalWait_kept {sl : Seal} {s : State} (h : sl.Kept s.sealSt) (w : ZoneWait) : sl.Kept (evalWait s w).sealSt := by
  unfold evalWait
  extract_lets _ t u
  have hu : sl.Kept u.sealSt := evalSample_kept (s := { t with pipes := _ }) h w.zone _
  split
  · exact h
  · exact hu
@[simp] theorem evalWaits_kept {sl : Seal} {s : State} (h : sl.Kept s.sealSt) (p : ZoneWait → Bool) : sl.Kept (evalWaits s p).sealSt :=
  Seal.Kept.foldl (fun s w => evalWait_kept (.refl s.sealSt) w) _ (by exact h)
@[simp] theorem evalStream_kept {sl : Seal} {s : State} (h : sl.Kept s.sealSt) (pos : Nat) (idx : SIndex) : sl.Kept (evalStream s pos idx).sealSt := by
  unfold evalStream
  split
  · exact h
  · split
    · exact h
    · refine Seal.Kept.foldl (fun s z => ?_) _ h
      split <;> simp
@[simp] theorem voltageFormed_kept {sl : Seal} {s : State} (h : sl.Kept s.sealSt) (pos : Nat) (idx : SIndex) :
    sl.Kept (voltageFormed s pos idx).sealSt := by simp [voltageFormed, h]
@[simp] theorem zoneLost_kept {sl : Seal} {s : State} (h : sl.Kept s.sealSt) (z : Nat) (idx : SIndex) : sl.Kept (zoneLost s z idx).sealSt := by
  simp [zoneLost, h]
@[simp] theorem zoneEvent_kept {sl : Seal} {s : State} (h : sl.Kept s.sealSt) (z : Nat) (f : State → Zone → Zone) : sl.Kept (zoneEvent z f s).sealSt := by
  unfold zoneEvent
  split
  · exact judgeSummary_kept (settle_kept (s := zonePut s z _) h z 0 _ false)
  · exact h

/-! Machine/Stage6 -/

theorem restartDue_kept {sl : Seal} {s : State} (h : sl.Kept s.sealSt) (pos : Nat) : sl.Kept (restartDue s pos).sealSt :=
  Seal.Kept.foldl (fun s z => by simp) _ (by exact h)
@[simp] theorem evalIndexed_kept {sl : Seal} {s : State} (h : sl.Kept s.sealSt) (pos : Nat) (idx : SIndex) : sl.Kept (evalIndexed s pos idx).sealSt := by
  have hformed : sl.Kept (voltageFormed s pos idx).sealSt := voltageFormed_kept h pos idx
  unfold evalIndexed
  dsimp only
  split
  · split
    · exact evalStream_kept (by exact hformed) pos idx
    · exact evalStream_kept (restartDue_kept hformed pos) pos idx
  · exact evalStream_kept hformed pos idx

/-! Machine/Time -/

@[simp] theorem sendPdelayReq_kept {sl : Seal} {s : State} (h : sl.Kept s.sealSt) (p : Port) (p1 : Bool) : sl.Kept (sendPdelayReq s p p1).sealSt := by
  simp [sendPdelayReq, h]
@[simp] theorem answerPdelayReq_kept {sl : Seal} {s : State} (h : sl.Kept s.sealSt) (p : Port) (p1 : Bool) (hdr : PtpHdr) (rx : Nat) :
    sl.Kept (answerPdelayReq s p p1 hdr rx).sealSt := by simp [answerPdelayReq, h]

/-! Machine/Ports -/

@[simp] theorem supervisionSend_kept {sl : Seal} {s : State} (h : sl.Kept s.sealSt) : sl.Kept (supervisionSend s).sealSt := by
  unfold supervisionSend
  dsimp only
  (repeat' split) <;> simp [h, sendStation_sealSt, enqueue_sealSt]

/-! Machine/Streams -/

@[simp] theorem authSv_kept {sl : Seal} {s : State} (h : sl.Kept s.sealSt) (f : SvFrame) : sl.Kept (authSv s f).1.sealSt := by
  unfold authSv
  dsimp only
  (repeat' split) <;> simp [h]
@[simp] theorem destroySlot_kept {sl : Seal} {s : State} (h : sl.Kept s.sealSt) (n : Nat) (i : SIndex) : sl.Kept (destroySlot s n i).sealSt := by
  unfold destroySlot
  extract_lets slot hdl noted freed _ cut held last cleared lost
  have hlost : sl.Kept lost.sealSt := by simp [lost, cleared, held, cut, freed, noted, h]
  clear_value lost
  split
  · exact Seal.Kept.foldl (fun s z => by simp) _ hlost
  · exact hlost
@[simp] theorem streamDestroyed_kept {sl : Seal} {s : State} (h : sl.Kept s.sealSt) (n : Nat) : sl.Kept (streamDestroyed s n).sealSt := by
  simp [streamDestroyed, h]
@[simp] theorem svFrame_kept {sl : Seal} {s : State} (h : sl.Kept s.sealSt) (f : SvFrame) : sl.Kept (svFrame s f).sealSt := by
  unfold svFrame
  dsimp only
  (repeat' split) <;> simp [h]
@[simp] theorem applyDestroys_kept {sl : Seal} {s : State} (h : sl.Kept s.sealSt) : sl.Kept (applyDestroys s).sealSt := by
  refine Seal.Kept.foldl (fun s d => ?_) _ (by exact h)
  split <;> simp

/-! Machine/Service -/

@[simp] theorem judgeImage_kept {sl : Seal} {s : State} (h : sl.Kept s.sealSt) : sl.Kept (judgeImage s).sealSt := by
  simp [judgeImage, h]
@[simp] theorem adoptImage_kept {sl : Seal} {s : State} (h : sl.Kept s.sealSt) (img : Image) : sl.Kept (adoptImage s img).sealSt := by
  simp [adoptImage, h]
@[simp] theorem enterServing_kept {sl : Seal} {s : State} (h : sl.Kept s.sealSt) : sl.Kept (enterServing s).sealSt := by
  simp [enterServing, h]
@[simp] theorem finishStarting_kept {sl : Seal} {s : State} (h : sl.Kept s.sealSt) : sl.Kept (finishStarting s).sealSt := by
  unfold finishStarting
  split <;> simp [h]

/-! Machine/Roles -/

@[simp] theorem settlePair_kept {sl : Seal} {s : State} (h : sl.Kept s.sealSt) : sl.Kept (settlePair s).sealSt :=
  h.after ⟨by have e := congrArg State.sealSt (settlePair_sansSettled s); exact e, settlePair_empties s⟩
@[simp] theorem ensureServing_kept {sl : Seal} {s : State} (h : sl.Kept s.sealSt) : sl.Kept (ensureServing s).sealSt := by
  simp [ensureServing, h]
@[simp] theorem pairingRefused_kept {sl : Seal} {s : State} (h : sl.Kept s.sealSt) (code : Nat) : sl.Kept (pairingRefused s code).sealSt := by
  simp [pairingRefused, h]

/-! Machine/Carry -/

@[simp] theorem onCarry_kept {sl : Seal} {s : State} {f : State → State} (hf : ∀ s : State, s.sealSt.Kept (f s).sealSt) (h : sl.Kept s.sealSt)
    (hdr : CarryHdr) : sl.Kept (onCarry hdr f s).sealSt := by
  have htaken : sl.Kept (carryTake s hdr).1.sealSt := by simp [h]
  have hanswered : sl.Kept (withTwin f (carryTake s hdr).1).sealSt := by simpa using htaken.trans (hf _)
  unfold onCarry
  dsimp only
  split
  · exact h
  · split
    · exact settlePair_kept hanswered
    · exact htaken
@[simp] theorem pairingAccepted_kept {sl : Seal} {s : State} (h : sl.Kept s.sealSt) (f : AcceptFrame) (journal : List CarriedEntry) (stnums : List (Nat × Nat)) :
    sl.Kept (pairingAccepted s f journal stnums).sealSt := by
  unfold pairingAccepted
  dsimp only
  (repeat' split) <;> simp [h]
@[simp] theorem partnerAbsent_kept {sl : Seal} {s : State} (h : sl.Kept s.sealSt) : sl.Kept (partnerAbsent s).sealSt := by
  simp [partnerAbsent, h]
@[simp] theorem busHeartbeatSend_kept {sl : Seal} {s : State} (h : sl.Kept s.sealSt) : sl.Kept (busHeartbeatSend s).sealSt := by
  unfold busHeartbeatSend
  split
  · exact h
  · simp [h, sendCopy_sealSt]

/-! Machine/Lend -/

@[simp] theorem applyDecision_kept {sl : Seal} {s : State} (h : sl.Kept s.sealSt) (d : DecisionRec) : sl.Kept (applyDecision s d).sealSt := by
  unfold applyDecision
  split <;> simp [h]

/-! Machine/Release -/

@[simp] theorem processSample_kept {sl : Seal} {s : State} (h : sl.Kept s.sealSt) (x : Sample) (o y : LaneOut) (formed : Bool) :
    sl.Kept (processSample s x o y formed).sealSt := by
  unfold processSample
  dsimp only
  split
  · split <;> simp [h]
  · split
    · have hsampled : sl.Kept (saturation (lanesPut (ringWrite s x) x.slot o.pipe y.pipe) x.slot o.sat).sealSt := by simpa using h
      simpa using evalIndexed_kept hsampled x.slot _
    · simpa using h
@[simp] theorem takeSample_kept {sl : Seal} {s : State} (h : sl.Kept s.sealSt) (x : Sample) (lanes : Lanes) : sl.Kept (takeSample s x lanes).sealSt := by
  unfold takeSample
  dsimp only
  split <;> simp [h]
@[simp] theorem releaseNext_kept {sl : Seal} {s : State} (h : sl.Kept s.sealSt) (lanes : Lanes) : sl.Kept (releaseNext s lanes).sealSt := by
  unfold releaseNext
  split
  · exact h
  next x _ _ =>
    split
    · exact h
    · refine enterDue_kept (applyDestroys_kept ?_)
      rw [updateDue_sealSt]
      exact takeSample_kept (s := popIntake s) h x lanes

/-! Machine/PairJournal -/

@[simp] theorem journalCommit_kept {sl : Seal} {s : State} (h : sl.Kept s.sealSt) (reads : CommitReads) : sl.Kept (journalCommit s reads).sealSt := by
  unfold journalCommit
  split
  · split
    next hplaced => rw [commitNumbered_sealSt hplaced]; exact h
    · simp [h]
  · split <;> simp [h]

/-! Machine/Plug -/

@[simp] theorem windowCommit_kept {sl : Seal} {s : State} (h : sl.Kept s.sealSt) (old new : Rods) (i : SIndex) :
    sl.Kept (windowCommit s old new i).sealSt := by
  refine Seal.Kept.foldl (fun s n => ?_) _ (Seal.Kept.foldl (fun s n => ?_) _ h)
  · split <;> simp
  · dsimp only
    split <;> simp
@[simp] theorem publishCommit_kept {sl : Seal} {s : State} (h : sl.Kept s.sealSt) (old new : Rods) : sl.Kept (publishCommit s old new).sealSt := by
  simp [publishCommit, h]
@[simp] theorem globalsCommit_kept {sl : Seal} {s : State} (h : sl.Kept s.sealSt) (old new : Rods) (i : SIndex) :
    sl.Kept (globalsCommit s old new i).sealSt := by simp [globalsCommit, h]
@[simp] theorem withheldCommit_kept {sl : Seal} {s : State} (h : sl.Kept s.sealSt) : sl.Kept (withheldCommit s).sealSt := by
  simp [withheldCommit, h]
@[simp] theorem commitBoundary_kept {sl : Seal} {s : State} (h : sl.Kept s.sealSt) (new : Rods) : sl.Kept (commitBoundary s new).sealSt := by
  unfold commitBoundary
  extract_lets old i before served forced shared warmed zoned judged compared split noted published
  have hforced : sl.Kept forced.sealSt := by simp [forced, h]
  clear_value forced
  have hwarmed : sl.Kept warmed.sealSt := by simp [warmed, shared, hforced]
  clear_value warmed
  have hcompared : sl.Kept compared.sealSt := by simp [compared, judged, zoned, hwarmed]
  clear_value compared
  have hnoted : sl.Kept noted.sealSt := by simp [noted, split, hcompared]
  clear_value noted
  have hpublished : sl.Kept published.sealSt := by simp [published, hnoted]
  simp [hpublished]

/-! Machine/Power -/

@[simp] theorem flush_kept {sl : Seal} {s : State} (h : sl.Kept s.sealSt) : sl.Kept (flush s).sealSt := by
  simp [flush, h]
@[simp] theorem resetAccepted_kept {sl : Seal} {s : State} (h : sl.Kept s.sealSt) : sl.Kept (resetAccepted s).sealSt := by
  simp [resetAccepted, h]
@[simp] theorem plugRead_kept {sl : Seal} {s : State} (h : sl.Kept s.sealSt) (scans : List (Option ScanReadings)) :
    sl.Kept (plugRead s scans).sealSt := by
  unfold plugRead
  dsimp only
  split <;> simp [h]
@[simp] theorem portsStep_kept {sl : Seal} {s : State} (h : sl.Kept s.sealSt) (cages : List CageRead) : sl.Kept (portsStep s cages).sealSt := by
  simp [portsStep, h]

/-! Machine/Recall -/

@[simp] theorem recallRequest_kept {sl : Seal} {s : State} (h : sl.Kept s.sealSt) (p : Port) (r : RecallReq) :
    sl.Kept (recallRequest p r s).sealSt := by
  unfold recallRequest
  (repeat' split) <;> simp [h]

/-! A command -/

/-- Whatever state the command gives from `s`, the seal is kept. -/
def KeepsSeal (s : State) (o : Host.Outcome State Fault Refusal) : Prop := ∀ t, o = .next t → s.sealSt.Kept t.sealSt

@[simp] theorem keepsSeal_run (f : State → State) (s : State) : KeepsSeal s (run f s) ↔ s.sealSt.Kept (f { s with out := [] }).sealSt :=
  ⟨fun h => h { f { s with out := [] } with pending := s.pending } rfl, fun h t ht => by cases ht; exact h⟩

@[simp] theorem keepsSeal_runIf (f : State → State) (s : State) (b : Bool) :
    KeepsSeal s (runIf b f s) ↔ (b = true → s.sealSt.Kept (f { s with out := [] }).sealSt) := by
  unfold runIf
  cases b with
  | false => simp [KeepsSeal]
  | true => simp

/-! Commands of Machine/Journal -/

@[simp] theorem execTokenRefill_keepsSeal (s : State) : KeepsSeal s (execTokenRefill s) := by
  simp [execTokenRefill]
@[simp] theorem execSuppressionSummary_keepsSeal (code zone : Nat) (s : State) : KeepsSeal s (execSuppressionSummary code zone s) := by
  simp [execSuppressionSummary]
@[simp] theorem execMarksEntry_keepsSeal (s : State) : KeepsSeal s (execMarksEntry s) := by
  simp [execMarksEntry]
@[simp] theorem execRecordClose_keepsSeal (rec : Nat) (s : State) : KeepsSeal s (execRecordClose rec s) := by
  simp [execRecordClose]
@[simp] theorem execNandWriteComplete_keepsSeal (rec : Nat) (ok : Bool) (s : State) : KeepsSeal s (execNandWriteComplete rec ok s) := by
  simp [execNandWriteComplete]

/-! Commands of Machine/Publish -/

@[simp] theorem execStnumPersisted_keepsSeal (pub : Fin 257) (ok : Bool) (s : State) : KeepsSeal s (execStnumPersisted pub ok s) := by
  simp [execStnumPersisted]
@[simp] theorem execRetransmissionDue_keepsSeal (pub : Fin 257) (s : State) : KeepsSeal s (execRetransmissionDue pub s) := by
  simp [execRetransmissionDue]
@[simp] theorem execProcessTransmit_keepsSeal (s : State) : KeepsSeal s (execProcessTransmit s) := by
  simp [execProcessTransmit]
@[simp] theorem execStatusFramePeriodic_keepsSeal (s : State) : KeepsSeal s (execStatusFramePeriodic s) := by
  simp [execStatusFramePeriodic]
@[simp] theorem execStatusFrameOnChange_keepsSeal (s : State) : KeepsSeal s (execStatusFrameOnChange s) := by
  simp [execStatusFrameOnChange]

/-! Commands of Machine/Reckoner -/

@[simp] theorem execPickEnd_keepsSeal (ch : Fin 32) (s : State) : KeepsSeal s (execPickEnd ch s) := by
  simp [execPickEnd]

/-! Commands of Machine/Zones -/

@[simp] theorem execDirectionConfirmed_keepsSeal (z : Fin 256) (d : DirDec) (s : State) : KeepsSeal s (execDirectionConfirmed z d s) := by
  simp [execDirectionConfirmed]
@[simp] theorem execMemoryExpiry_keepsSeal (z : Fin 256) (d : DirDec) (s : State) : KeepsSeal s (execMemoryExpiry z d s) := by
  simp [execMemoryExpiry]
@[simp] theorem execFreezeLimit_keepsSeal (z : Fin 256) (e : Elem) (s : State) : KeepsSeal s (execFreezeLimit z e s) := by
  simp [execFreezeLimit]
@[simp] theorem execDefiniteDelayExpiry_keepsSeal (z : Fin 256) (e : Elem) (s : State) : KeepsSeal s (execDefiniteDelayExpiry z e s) := by
  simp [execDefiniteDelayExpiry]
@[simp] theorem execDefiniteResetExpiry_keepsSeal (z : Fin 256) (e : Elem) (s : State) : KeepsSeal s (execDefiniteResetExpiry z e s) := by
  simp [execDefiniteResetExpiry]
@[simp] theorem execIntermediateTimeout_keepsSeal (z : Fin 256) (s : State) : KeepsSeal s (execIntermediateTimeout z s) := by
  simp [execIntermediateTimeout]
@[simp] theorem execTripMinimumExpiry_keepsSeal (z : Fin 256) (s : State) : KeepsSeal s (execTripMinimumExpiry z s) := by
  simp [execTripMinimumExpiry]
@[simp] theorem execBfTimerExpiry_keepsSeal (z : Fin 256) (s : State) : KeepsSeal s (execBfTimerExpiry z s) := by
  simp [execBfTimerExpiry]
@[simp] theorem execDeadTimeExpiry_keepsSeal (z : Fin 256) (s : State) : KeepsSeal s (execDeadTimeExpiry z s) := by
  simp [execDeadTimeExpiry]
@[simp] theorem execReclaimExpiry_keepsSeal (z : Fin 256) (s : State) : KeepsSeal s (execReclaimExpiry z s) := by
  simp [execReclaimExpiry]
@[simp] theorem execOpenTimerExpiry_keepsSeal (z : Fin 256) (s : State) : KeepsSeal s (execOpenTimerExpiry z s) := by
  simp [execOpenTimerExpiry]
@[simp] theorem execClosePulseEnd_keepsSeal (z : Fin 256) (s : State) : KeepsSeal s (execClosePulseEnd z s) := by
  simp [execClosePulseEnd]
@[simp] theorem execCloseFailure_keepsSeal (z : Fin 256) (s : State) : KeepsSeal s (execCloseFailure z s) := by
  simp [execCloseFailure]
@[simp] theorem execColdLoadArmed_keepsSeal (z : Fin 256) (s : State) : KeepsSeal s (execColdLoadArmed z s) := by
  simp [execColdLoadArmed]
@[simp] theorem execColdLoadEnd_keepsSeal (z : Fin 256) (s : State) : KeepsSeal s (execColdLoadEnd z s) := by
  simp [execColdLoadEnd]
@[simp] theorem execTestModeEntry_keepsSeal (z : Fin 256) (s : State) : KeepsSeal s (execTestModeEntry z s) := by
  simp [execTestModeEntry]
@[simp] theorem execTestModeExit_keepsSeal (z : Fin 256) (s : State) : KeepsSeal s (execTestModeExit z s) := by
  simp [execTestModeExit]
@[simp] theorem execThermalPersist_keepsSeal (s : State) : KeepsSeal s (execThermalPersist s) := by
  simp [execThermalPersist]

/-! Commands of Machine/Time -/

@[simp] theorem execSync_keepsSeal (p : Port) (m : PtpSync) (s : State) : KeepsSeal s (execSync p m s) := by
  rw [execSync, keepsSeal_run, ptpReceive_sealSt (by simp)]
  exact .refl _
@[simp] theorem execFollowUp_keepsSeal (p : Port) (m : PtpFollowUp) (s : State) : KeepsSeal s (execFollowUp p m s) := by
  rw [execFollowUp, keepsSeal_run, ptpReceive_sealSt (by simp)]
  exact .refl _
@[simp] theorem execFollowUpTimeout_keepsSeal (p : Port) (s : State) : KeepsSeal s (execFollowUpTimeout p s) := by
  simp only [execFollowUpTimeout, keepsSeal_run]
  split <;> simp
@[simp] theorem execAnnounce_keepsSeal (p : Port) (m : PtpAnnounce) (s : State) : KeepsSeal s (execAnnounce p m s) := by
  rw [execAnnounce, keepsSeal_run, ptpReceive_sealSt (by simp)]
  exact .refl _
@[simp] theorem execMasterLost_keepsSeal (p : Port) (src : PortId) (s : State) : KeepsSeal s (execMasterLost p src s) := by
  simp only [execMasterLost, keepsSeal_run]
  split <;> simp
@[simp] theorem execSyncReceiptTimeout_keepsSeal (p : Port) (s : State) : KeepsSeal s (execSyncReceiptTimeout p s) := by
  simp only [execSyncReceiptTimeout, keepsSeal_run]
  split <;> simp
@[simp] theorem execPdelayReqSend_keepsSeal (p : Port) (s : State) : KeepsSeal s (execPdelayReqSend p s) := by
  simp only [execPdelayReqSend, keepsSeal_run]
  split <;> simp
theorem ptpReceive_kept {sl : Seal} {s : State} {f : Bool → State → State} (hf : ∀ p1 (s : State), s.sealSt.Kept (f p1 s).sealSt) (p : Port)
    (hdr : PtpHdr) (h : sl.Kept s.sealSt) : sl.Kept (ptpReceive f p hdr s).sealSt := by
  unfold ptpReceive
  split
  next p1 _ =>
    split
    · split
      · exact h.trans (hf p1 s)
      · exact h.trans (by rw [ptpDiscard_sealSt]; exact .refl _)
    · exact h
  · exact h

@[simp] theorem execPdelayReq_keepsSeal (p : Port) (h : PtpHdr) (rx : Nat) (half : Bool) (s : State) : KeepsSeal s (execPdelayReq p h rx half s) := by
  rw [execPdelayReq, keepsSeal_run]
  exact ptpReceive_kept (fun p1 s => by simp) p h (.refl _)
@[simp] theorem execPdelayResp_keepsSeal (p : Port) (m : PtpPdelay) (s : State) : KeepsSeal s (execPdelayResp p m s) := by
  rw [execPdelayResp, keepsSeal_run, ptpReceive_sealSt (by simp)]
  exact .refl _
@[simp] theorem execPdelayRespFollowUp_keepsSeal (p : Port) (m : PtpPdelay) (s : State) : KeepsSeal s (execPdelayRespFollowUp p m s) := by
  rw [execPdelayRespFollowUp, keepsSeal_run, ptpReceive_sealSt (by simp)]
  exact .refl _
@[simp] theorem execPtpDiscarded_keepsSeal (p : Port) (s : State) : KeepsSeal s (execPtpDiscarded p s) := by
  simp only [execPtpDiscarded, keepsSeal_run]
  split <;> simp
@[simp] theorem execHoldoverExpiry_keepsSeal (s : State) : KeepsSeal s (execHoldoverExpiry s) := by
  simp [execHoldoverExpiry]
@[simp] theorem execLeapSecond_keepsSeal (s : State) : KeepsSeal s (execLeapSecond s) := by
  simp [execLeapSecond]
@[simp] theorem execPpsEdge_keepsSeal (s : State) : KeepsSeal s (execPpsEdge s) := by
  simp [execPpsEdge]
@[simp] theorem execOvenUpdate_keepsSeal (err : Int) (s : State) : KeepsSeal s (execOvenUpdate err s) := by
  simp [execOvenUpdate]
@[simp] theorem execOvenInSpec_keepsSeal (s : State) : KeepsSeal s (execOvenInSpec s) := by
  simp [execOvenInSpec]
@[simp] theorem execTwinUpdate_keepsSeal (s : State) : KeepsSeal s (execTwinUpdate s) := by
  simp [execTwinUpdate]
@[simp] theorem execFollowingError_keepsSeal (slot : Fin 36) (s : State) : KeepsSeal s (execFollowingError slot s) := by
  simp [execFollowingError]

/-! Commands of Machine/Adc -/

@[simp] theorem execAdcTrigger_keepsSeal (idx : SIndex) (prim : List ConvSet) (k0 k1 : ConvSet) (s : State) :
    KeepsSeal s (execAdcTrigger idx prim k0 k1 s) := by simp [execAdcTrigger]
@[simp] theorem execUrgentCheck_keepsSeal (input : Fin 16) (start : Nat) (primDone chkDone : Bool) (prim chk : Int) (s : State) :
    KeepsSeal s (execUrgentCheck input start primDone chkDone prim chk s) := by simp [execUrgentCheck]
@[simp] theorem execReferenceMonitor_keepsSeal (v : Nat) (s : State) : KeepsSeal s (execReferenceMonitor v s) := by
  simp [execReferenceMonitor]

/-! Commands of Machine/Ports -/

@[simp] theorem execFrameReceived_keepsSeal (p : Port) (f : RxFrame) (s : State) : KeepsSeal s (execFrameReceived p f s) := by
  simp [execFrameReceived]
@[simp] theorem execPrpEntryForgotten_keepsSeal (station : Bool) (src : Mac) (s : State) : KeepsSeal s (execPrpEntryForgotten station src s) := by
  simp [execPrpEntryForgotten]
@[simp] theorem execLinkDown_keepsSeal (loss : PortLoss) (s : State) : KeepsSeal s (execLinkDown loss s) := by
  simp [execLinkDown]
@[simp] theorem execLinkUp_keepsSeal (gain : PortGain) (s : State) : KeepsSeal s (execLinkUp gain s) := by
  simp [execLinkUp]
@[simp] theorem execModuleRemoved_keepsSeal (p : Port) (s : State) : KeepsSeal s (execModuleRemoved p s) := by
  simp [execModuleRemoved]
@[simp] theorem execModuleInserted_keepsSeal (p : Port) (read : I2c) (s : State) : KeepsSeal s (execModuleInserted p read s) := by
  simp [execModuleInserted]
@[simp] theorem execTransmitterFault_keepsSeal (p : Port) (s : State) : KeepsSeal s (execTransmitterFault p s) := by
  simp [execTransmitterFault]
@[simp] theorem execA2hPoll_keepsSeal (p : Port) (retry read : I2c) (s : State) : KeepsSeal s (execA2hPoll p retry read s) := by
  simp [execA2hPoll]
@[simp] theorem execPrpSupervisionSend_keepsSeal (s : State) : KeepsSeal s (execPrpSupervisionSend s) := by
  simp [execPrpSupervisionSend]
@[simp] theorem execRingOpen_keepsSeal (p : Port) (s : State) : KeepsSeal s (execRingOpen p s) := by
  simp [execRingOpen]

/-! Commands of Machine/Field -/

@[simp] theorem execDownstreamFrameLoss_keepsSeal (ch : Fin 32) (s : State) : KeepsSeal s (execDownstreamFrameLoss ch s) := by
  simp [execDownstreamFrameLoss]
@[simp] theorem execInputSample_keepsSeal (ch : Fin 32) (mv vf : Nat) (s : State) : KeepsSeal s (execInputSample ch mv vf s) := by
  simp [execInputSample]
@[simp] theorem execChatterEnd_keepsSeal (ch : Fin 32) (s : State) : KeepsSeal s (execChatterEnd ch s) := by
  simp [execChatterEnd]
@[simp] theorem execOpenWireInput_keepsSeal (ch : Fin 32) (below : Bool) (s : State) : KeepsSeal s (execOpenWireInput ch below s) := by
  simp [execOpenWireInput]
@[simp] theorem execShortDecision_keepsSeal (ch : Fin 32) (bothLegs : Bool) (s : State) : KeepsSeal s (execShortDecision ch bothLegs s) := by
  simp [execShortDecision]
@[simp] theorem execHardShort_keepsSeal (ch : Fin 32) (bothLegs : Bool) (s : State) : KeepsSeal s (execHardShort ch bothLegs s) := by
  simp [execHardShort]
@[simp] theorem execRetry_keepsSeal (ch : Fin 32) (s : State) : KeepsSeal s (execRetry ch s) := by
  simp [execRetry]
@[simp] theorem execOverTemperature_keepsSeal (ch : Fin 32) (s : State) : KeepsSeal s (execOverTemperature ch s) := by
  simp [execOverTemperature]
@[simp] theorem execOverTemperatureRestart_keepsSeal (ch : Fin 32) (s : State) : KeepsSeal s (execOverTemperatureRestart ch s) := by
  simp [execOverTemperatureRestart]
@[simp] theorem execDemagEnd_keepsSeal (ch : Fin 32) (s : State) : KeepsSeal s (execDemagEnd ch s) := by
  simp [execDemagEnd]
@[simp] theorem execTcsPulse_keepsSeal (ch : Fin 32) (s : State) : KeepsSeal s (execTcsPulse ch s) := by
  simp [execTcsPulse]
@[simp] theorem execTcsPulseEnd_keepsSeal (ch : Fin 32) (mv vf : Nat) (s : State) : KeepsSeal s (execTcsPulseEnd ch mv vf s) := by
  simp [execTcsPulseEnd]
@[simp] theorem execOutputDiagnostic_keepsSeal (ch : Fin 32) (d : OutDiag) (present : Bool) (s : State) :
    KeepsSeal s (execOutputDiagnostic ch d present s) := by
  simp only [execOutputDiagnostic, keepsSeal_run]
  (repeat' split) <;> simp
@[simp] theorem execPwmPeriodStart_keepsSeal (ch : Fin 32) (mean : Nat) (s : State) : KeepsSeal s (execPwmPeriodStart ch mean s) := by
  simp [execPwmPeriodStart]
@[simp] theorem execCouplerFrameStart_keepsSeal (g : Group) (corrupted : List (Fin 32)) (s : State) :
    KeepsSeal s (execCouplerFrameStart g corrupted s) := by simp [execCouplerFrameStart]
@[simp] theorem execUpstreamFrameReceived_keepsSeal (ch : Fin 32) (errors : CouplerWord) (s : State) :
    KeepsSeal s (execUpstreamFrameReceived ch errors s) := by simp [execUpstreamFrameReceived]
@[simp] theorem execCouplerFault_keepsSeal (ch : Fin 32) (s : State) : KeepsSeal s (execCouplerFault ch s) := by
  simp [execCouplerFault]
@[simp] theorem execFieldSideStart_keepsSeal (g : Group) (s : State) : KeepsSeal s (execFieldSideStart g s) := by
  simp [execFieldSideStart]
@[simp] theorem execClockCouplerStop_keepsSeal (g : Group) (s : State) : KeepsSeal s (execClockCouplerStop g s) := by
  simp [execClockCouplerStop]
@[simp] theorem execFieldSupplyLost_keepsSeal (g : Group) (s : State) : KeepsSeal s (execFieldSupplyLost g s) := by
  simp [execFieldSupplyLost]
@[simp] theorem execFieldSupplyRestored_keepsSeal (g : Group) (s : State) : KeepsSeal s (execFieldSupplyRestored g s) := by
  simp [execFieldSupplyRestored]
@[simp] theorem execCoilUpdate_keepsSeal (ch : Fin 32) (s : State) : KeepsSeal s (execCoilUpdate ch s) := by
  simp [execCoilUpdate]

/-! Commands of Machine/Streams -/

@[simp] theorem execSvFrame_keepsSeal (p : Port) (f : SvFrame) (s : State) : KeepsSeal s (execSvFrame p f s) := by
  simp [execSvFrame]
@[simp] theorem execFrameOverdue_keepsSeal (slot : Fin 1026) (s : State) : KeepsSeal s (execFrameOverdue slot s) := by
  simp [execFrameOverdue]
@[simp] theorem execStreamDestroyed_keepsSeal (slot : Fin 1024) (s : State) : KeepsSeal s (execStreamDestroyed slot s) := by
  simp [execStreamDestroyed]
@[simp] theorem execBreakerMessage_keepsSeal (p : Port) (m : BrkMsg) (s : State) : KeepsSeal s (execBreakerMessage p m s) := by
  simp [execBreakerMessage]
@[simp] theorem execBreakerStatusExpired_keepsSeal (slot : Fin 256) (s : State) : KeepsSeal s (execBreakerStatusExpired slot s) := by
  simp [execBreakerStatusExpired]
@[simp] theorem execBreakerDestroyed_keepsSeal (slot : Fin 256) (s : State) : KeepsSeal s (execBreakerDestroyed slot s) := by
  simp [execBreakerDestroyed]
@[simp] theorem execStreamNotAdmitted_keepsSeal (slot : Fin 1024) (s : State) : KeepsSeal s (execStreamNotAdmitted slot s) := by
  simp [execStreamNotAdmitted]

/-! Commands of Machine/Carry -/

@[simp] theorem execCarryRetransmit_keepsSeal (lane : Fin 2) (s : State) : KeepsSeal s (execCarryRetransmit lane s) := by
  simp only [execCarryRetransmit, keepsSeal_run]
  split
  · refine Seal.Kept.foldl (fun t f => ?_) _ ?_
    · exact .refl _
    · rw [lanePut_sealSt]
      exact .refl _
  · exact .refl _
@[simp] theorem execCarryLaneUp_keepsSeal (lane : Fin 2) (s : State) : KeepsSeal s (execCarryLaneUp lane s) := by
  simp [execCarryLaneUp]
@[simp] theorem execCarryLinkLost_keepsSeal (s : State) : KeepsSeal s (execCarryLinkLost s) := by
  simp [execCarryLinkLost]
@[simp] theorem execCarryLaneDown_keepsSeal (lane : Fin 2) (s : State) : KeepsSeal s (execCarryLaneDown lane s) := by
  simp [execCarryLaneDown]
@[simp] theorem execHelloSend_keepsSeal (s : State) : KeepsSeal s (execHelloSend s) := by
  simp [execHelloSend]
@[simp] theorem execHello_keepsSeal (h : CarryHdr) (b : HelloBody) (s : State) : KeepsSeal s (execHello h b s) := by
  simp [execHello]
@[simp] theorem execAccept_keepsSeal (f : AcceptFrame) (journal : List CarriedEntry) (stnums : List (Nat × Nat)) (s : State) :
    KeepsSeal s (execAccept f journal stnums s) := by simp [execAccept]
@[simp] theorem execRefuse_keepsSeal (f : RefuseFrame) (s : State) : KeepsSeal s (execRefuse f s) := by
  simp [execRefuse]
@[simp] theorem execPartnerAbsent_keepsSeal (s : State) : KeepsSeal s (execPartnerAbsent s) := by
  simp [execPartnerAbsent]
@[simp] theorem execCarryHeartbeatSend_keepsSeal (s : State) : KeepsSeal s (execCarryHeartbeatSend s) := by
  simp [execCarryHeartbeatSend]
@[simp] theorem execBusHeartbeatSend_keepsSeal (s : State) : KeepsSeal s (execBusHeartbeatSend s) := by
  simp [execBusHeartbeatSend]
@[simp] theorem execHeartbeat_keepsSeal (h : CarryHdr) (b : HeartbeatBody) (s : State) : KeepsSeal s (execHeartbeat h b s) := by
  simp [execHeartbeat]
@[simp] theorem execBusHeartbeat_keepsSeal (p : Port) (dst : Mac) (b : HeartbeatBody) (s : State) : KeepsSeal s (execBusHeartbeat p dst b s) := by
  simp [execBusHeartbeat]
@[simp] theorem execPathSilent_keepsSeal (p : Path) (s : State) : KeepsSeal s (execPathSilent p s) := by
  simp [execPathSilent]
@[simp] theorem execHeartbeatLanSilent_keepsSeal (p : Port) (s : State) : KeepsSeal s (execHeartbeatLanSilent p s) := by
  simp [execHeartbeatLanSilent]
@[simp] theorem execTimeExchange_keepsSeal (h : CarryHdr) (b : TimeBody) (s : State) : KeepsSeal s (execTimeExchange h b s) := by
  simp [execTimeExchange]

/-! Commands of Machine/Faults -/

@[simp] theorem execAckInAccepted_keepsSeal (s : State) : KeepsSeal s (execAckInAccepted s) := by
  simp [execAckInAccepted]
@[simp] theorem execAckInputAccepted_keepsSeal (s : State) : KeepsSeal s (execAckInputAccepted s) := by
  simp only [execAckInputAccepted, keepsSeal_run]
  (repeat' split) <;> simp
@[simp] theorem execFaultReactionComplete_keepsSeal (k : FaultKey) (s : State) : KeepsSeal s (execFaultReactionComplete k s) := by
  simp [execFaultReactionComplete]
@[simp] theorem execCauseGoneRetest_keepsSeal (k : FaultKey) (s : State) : KeepsSeal s (execCauseGoneRetest k s) := by
  simp [execCauseGoneRetest]
@[simp] theorem execTallyInterval_keepsSeal (s : State) : KeepsSeal s (execTallyInterval s) := by
  simp [execTallyInterval]
@[simp] theorem execPeriodicSnapshot_keepsSeal (s : State) : KeepsSeal s (execPeriodicSnapshot s) := by
  simp [execPeriodicSnapshot]

/-! Commands of Machine/Lend -/

@[simp] theorem execReceipt_keepsSeal (h : CarryHdr) (rs : List ReceiptRec) (s : State) : KeepsSeal s (execReceipt h rs s) := by
  simp [execReceipt]
@[simp] theorem execLend_keepsSeal (h : CarryHdr) (b : LendBody) (s : State) : KeepsSeal s (execLend h b s) := by
  simp [execLend]
@[simp] theorem execLendTimeout_keepsSeal (slot : Fin 1024) (idx : SIndex) (s : State) : KeepsSeal s (execLendTimeout slot idx s) := by
  simp [execLendTimeout]
@[simp] theorem execUnagreedRelease_keepsSeal (slot : Fin 1024) (idx : SIndex) (s : State) : KeepsSeal s (execUnagreedRelease slot idx s) := by
  simp [execUnagreedRelease]
@[simp] theorem execDecision_keepsSeal (h : CarryHdr) (ds : List DecisionRec) (s : State) : KeepsSeal s (execDecision h ds s) := by
  rw [execDecision, keepsSeal_run]
  refine onCarry_kept (sl := s.sealSt) (s := { s with out := [] }) (fun s => ?_) (.refl _) h
  split
  · rw [noteInputs_sealSt]
    exact Seal.Kept.foldl (fun s d => by simp) ds (.refl _)
  · exact .refl _

/-! Commands of Machine/Release -/

@[simp] theorem execSampleRelease_keepsSeal (lanes : Lanes) (s : State) : KeepsSeal s (execSampleRelease lanes s) := by
  simp [execSampleRelease]
@[simp] theorem execCheckPattern_keepsSeal (lanes : Nat × Nat) (signature : Option Nat) (parityOk : Bool) (s : State) :
    KeepsSeal s (execCheckPattern lanes signature parityOk s) := by simp [execCheckPattern]

/-! Commands of Machine/PairJournal -/

@[simp] theorem execJournalCommit_keepsSeal (reads : CommitReads) (s : State) : KeepsSeal s (execJournalCommit reads s) := by
  simp [execJournalCommit]
@[simp] theorem execJentry_keepsSeal (h : CarryHdr) (e : CarriedEntry) (s : State) : KeepsSeal s (execJentry h e s) := by
  simp [execJentry]
@[simp] theorem execJcheck_keepsSeal (h : CarryHdr) (jseq : Nat) (ecrc : BitVec 32) (s : State) : KeepsSeal s (execJcheck h jseq ecrc s) := by
  simp [execJcheck]
@[simp] theorem execResync_keepsSeal (h : CarryHdr) (last : Nat) (journal : List CarriedEntry) (slots : List (Nat × Nat × StreamIdent × SIndex)) (brks : List (Nat × BrkSlot)) (stnums : List (Nat × Nat)) (n0 : SIndex) (s : State) :
    KeepsSeal s (execResync h last journal slots brks stnums n0 s) := by simp [execResync]
@[simp] theorem execSnapshot_keepsSeal (h : CarryHdr) (zones : List (Nat × Zone)) (pubs : List (Nat × Publication)) (pairSeq : BitVec 16) (n1 : SIndex) (s : State) :
    KeepsSeal s (execSnapshot h zones pubs pairSeq n1 s) := by simp [execSnapshot]
@[simp] theorem execRejoinTimeout_keepsSeal (s : State) : KeepsSeal s (execRejoinTimeout s) := by
  simp [execRejoinTimeout]

/-! Commands of Machine/Plug -/

@[simp] theorem execPresenceCheck_keepsSeal (det1 det2 : Option Nat) (type : List Nat) (s : State) :
    KeepsSeal s (execPresenceCheck det1 det2 type s) := by simp [execPresenceCheck]
@[simp] theorem execPlugScanStart_keepsSeal (s : State) : KeepsSeal s (execPlugScanStart s) := by
  simp [execPlugScanStart]
@[simp] theorem execScanEnd_keepsSeal (r : ScanReadings) (s : State) : KeepsSeal s (execScanEnd r s) := by
  simp [execScanEnd]
@[simp] theorem execCommitInAsserted_keepsSeal (s : State) : KeepsSeal s (execCommitInAsserted s) := by
  simp [execCommitInAsserted]
@[simp] theorem execCommitInReleased_keepsSeal (s : State) : KeepsSeal s (execCommitInReleased s) := by
  simp [execCommitInReleased]
@[simp] theorem execHoldComplete_keepsSeal (s : State) : KeepsSeal s (execHoldComplete s) := by
  simp only [execHoldComplete, keepsSeal_run]
  split <;> simp
@[simp] theorem execQuiescenceMet_keepsSeal (s : State) : KeepsSeal s (execQuiescenceMet s) := by
  simp only [execQuiescenceMet, keepsSeal_run]
  split <;> simp
@[simp] theorem execQuiescenceTimeout_keepsSeal (s : State) : KeepsSeal s (execQuiescenceTimeout s) := by
  simp only [execQuiescenceTimeout, keepsSeal_run]
  split <;> simp
@[simp] theorem execCommitDecision_keepsSeal (s : State) : KeepsSeal s (execCommitDecision s) := by
  simp only [execCommitDecision, keepsSeal_run]
  split <;> simp
@[simp] theorem execCommitBoundary_keepsSeal (s : State) : KeepsSeal s (execCommitBoundary s) := by
  simp only [execCommitBoundary, keepsSeal_run]
  split <;> simp

/-! Commands of Machine/Power -/

@[simp] theorem execVinLow_keepsSeal (s : State) : KeepsSeal s (execVinLow s) := by
  simp [execVinLow]
@[simp] theorem execNresetInAccepted_keepsSeal (s : State) : KeepsSeal s (execNresetInAccepted s) := by
  simp [execNresetInAccepted]
@[simp] theorem execNresetInReleased_keepsSeal (s : State) : KeepsSeal s (execNresetInReleased s) := by
  simp [execNresetInReleased]
@[simp] theorem execStrapsDecided_keepsSeal (readings : List (List Nat)) (s : State) : KeepsSeal s (execStrapsDecided readings s) := by
  simp [execStrapsDecided]
@[simp] theorem execLaneSelfTestDone_keepsSeal (run_ : PatternRun) (s : State) : KeepsSeal s (execLaneSelfTestDone run_ s) := by
  simp [execLaneSelfTestDone]
@[simp] theorem execStartUpPlugRead_keepsSeal (scans : List (Option ScanReadings)) (s : State) : KeepsSeal s (execStartUpPlugRead scans s) := by
  simp [execStartUpPlugRead]
@[simp] theorem execPortsStep_keepsSeal (cages : List CageRead) (s : State) : KeepsSeal s (execPortsStep cages s) := by
  simp [execPortsStep]
@[simp] theorem execCorePllUnlock_keepsSeal (s : State) : KeepsSeal s (execCorePllUnlock s) := by
  simp [execCorePllUnlock]
@[simp] theorem execVbatCheck_keepsSeal (mv : Option Nat) (s : State) : KeepsSeal s (execVbatCheck mv s) := by
  simp [execVbatCheck]
@[simp] theorem execStatusPinCurrentLimit_keepsSeal (pin : StatusPin) (s : State) : KeepsSeal s (execStatusPinCurrentLimit pin s) := by
  simp [execStatusPinCurrentLimit]
@[simp] theorem execCrossingQueueParity_keepsSeal (x : Crossing) (s : State) : KeepsSeal s (execCrossingQueueParity x s) := by
  simp [execCrossingQueueParity]

/-! Commands of Machine/Recall -/

@[simp] theorem execOpOpen_keepsSeal (p : Port) (r : RecallReq) (s : State) : KeepsSeal s (execOpOpen p r s) := by
  simp [execOpOpen]
@[simp] theorem execOpClose_keepsSeal (p : Port) (r : RecallReq) (s : State) : KeepsSeal s (execOpClose p r s) := by
  simp [execOpClose]
@[simp] theorem execOpEntries_keepsSeal (p : Port) (r : RecallReq) (s : State) : KeepsSeal s (execOpEntries p r s) := by
  simp [execOpEntries]
@[simp] theorem execOpAck_keepsSeal (p : Port) (r : RecallReq) (s : State) : KeepsSeal s (execOpAck p r s) := by
  simp [execOpAck]
@[simp] theorem execOpRecord_keepsSeal (p : Port) (r : RecallReq) (s : State) : KeepsSeal s (execOpRecord p r s) := by
  simp [execOpRecord]
@[simp] theorem execOpDone_keepsSeal (p : Port) (r : RecallReq) (s : State) : KeepsSeal s (execOpDone p r s) := by
  simp [execOpDone]
@[simp] theorem execMalformedRequest_keepsSeal (p : Port) (r : RecallReq) (s : State) : KeepsSeal s (execMalformedRequest p r s) := by
  simp [execMalformedRequest]
@[simp] theorem execUnlistedRequest_keepsSeal (p : Port) (r : RecallReq) (s : State) : KeepsSeal s (execUnlistedRequest p r s) := by
  simp [execUnlistedRequest]
@[simp] theorem execRecallServe_keepsSeal (readOk : Bool) (s : State) : KeepsSeal s (execRecallServe readOk s) := by
  simp only [execRecallServe, keepsSeal_run]
  (repeat' split) <;> simp
@[simp] theorem execSessionIdleTimeout_keepsSeal (sess : Fin 8) (s : State) : KeepsSeal s (execSessionIdleTimeout sess s) := by
  simp [execSessionIdleTimeout, closeSession_sealSt]

/-! Commands of Machine/Swap -/

@[simp] theorem execSwapTimer_keepsSeal (s : State) : KeepsSeal s (execSwapTimer s) := by
  simp [execSwapTimer]
@[simp] theorem execSwapRetry_keepsSeal (s : State) : KeepsSeal s (execSwapRetry s) := by
  simp [execSwapRetry]
@[simp] theorem execSwapPropose_keepsSeal (h : CarryHdr) (ns : SIndex) (s : State) : KeepsSeal s (execSwapPropose h ns s) := by
  simp [execSwapPropose]
@[simp] theorem execSwapAgree_keepsSeal (h : CarryHdr) (ns : SIndex) (s : State) : KeepsSeal s (execSwapAgree h ns s) := by
  simp [execSwapAgree]
@[simp] theorem execSwapDecline_keepsSeal (h : CarryHdr) (s : State) : KeepsSeal s (execSwapDecline h s) := by
  simp [execSwapDecline]
@[simp] theorem execSwapAtIndex_keepsSeal (s : State) : KeepsSeal s (execSwapAtIndex s) := by
  simp only [execSwapAtIndex, keepsSeal_run]
  (repeat' split) <;> simp

/-- The commands that act on the seal: on the power of D0, on the hatch and the mesh, through the key loader port, and on the event register
(chapter 20, R752, R753, R787). -/
def actsOnSeal : Instr → Bool
  | .vbatApplied | .vinGood _ | .vinFailed | .vbatBelowRetentionMin | .vbatLowErase | .domainLost _ | .journalCheck _ | .hatchOpened | .meshEvent
  | .meshMonitorTest _ | .eraseReadbackFailure | .hatchReport _ | .portLive _ | .load _ | .eraseCommand _ | .check _ | .transactionDiscarded _
  | .transactionTimeout | .portBusyEnd => true
  | _ => false

/-- Every other command keeps the seal. -/
theorem exec_keepsSeal (s : State) (c : Instr) (hc : actsOnSeal c = false) : KeepsSeal s (exec c s) := by
  revert hc
  cases c <;> simp [actsOnSeal, exec]

/-- A step without a command keeps the seal. -/
theorem idle_keepsSeal (s : State) : KeepsSeal s (idle s) := by simp [idle]

end Sys2Proof.Machine
end


section
/-! The invariant of the seal and the tamper latch, through the commands that act on the seal (R752, R757, R759, R785). -/
namespace Sys2Proof.Machine

namespace Seal

/-- A live port has its hatch open, an erase behind it, the mesh intact, and no failed erase (R759, R785). -/
def Guarded (x : Seal) : Prop := x.live = true → x.hatchOpen = true ∧ x.erased = true ∧ x.meshOk = true ∧ x.heldOff = false

/-- The port is guarded, and a broken mesh leaves no loaded slot (R757). -/
def Holds (x : Seal) : Prop := x.Guarded ∧ (x.meshOk = false → x.keys = [])

/-- What may clear the latch: D0 that is powered from none, or a LOAD that succeeds while the mesh is intact (R752, R757). -/
def Cleared (x y : Seal) : Prop :=
  (y.keys = [] ∧ y.evRestart = true)
    ∨ (x.live = true ∧ x.meshOk = true ∧ ∃ t, klFails t = none ∧ klCode t = 1 ∧ y.result = klResult 1 (klSlot t) (kcvOf (klKey t)).toNat)

/-- From `x` to `y` the invariant is kept, and the latch clears only so. -/
structure Step (x y : Seal) : Prop where
  holds : x.Holds → y.Holds
  cleared : x.latch = true → y.latch = false → x.Cleared y

variable {x y z : Seal}

/-- What is read of a seal beside its slots stays. -/
theorem Kept.read {α : Type} (k : x.Kept y) (f : Seal → α) (hf : ∀ z : Seal, f { z with keys := [] } = f z) : f y = f x := by
  rw [← hf y, k.rest, hf]

theorem Kept.holds (k : x.Kept y) (h : x.Holds) : y.Holds := by
  obtain ⟨hguarded, hmesh⟩ := h
  have hbroken : y.meshOk = x.meshOk := k.read Seal.meshOk fun _ => rfl
  refine ⟨(k.read Guarded fun _ => rfl).mpr hguarded, fun hm => ?_⟩
  have hkeys := k.keys
  rw [hmesh (hbroken.symm.trans hm)] at hkeys
  exact List.sublist_nil.mp hkeys

theorem Kept.latch (k : x.Kept y) : y.latch = x.latch := k.read Seal.latch fun _ => rfl

/-- A latch that stays set is not cleared. -/
theorem Step.of_latch (hholds : x.Holds → y.Holds) (hlatch : x.latch = true → y.latch = true) : x.Step y :=
  ⟨hholds, fun hset hclear => by rw [hlatch hset] at hclear; cases hclear⟩

theorem Kept.step (k : x.Kept y) : x.Step y := .of_latch k.holds (fun h => k.latch.trans h)

theorem Step.kept (h : x.Step y) (k : y.Kept z) : x.Step z := by
  refine ⟨fun hx => k.holds (h.holds hx), fun hset hclear => ?_⟩
  rcases h.cleared hset (k.latch.symm.trans hclear) with ⟨hkeys, hrestart⟩ | ⟨hlive, hmesh, t, hpassed, hcode, hresult⟩
  · have hempty := k.keys
    rw [hkeys] at hempty
    exact .inl ⟨List.sublist_nil.mp hempty, (k.read Seal.evRestart fun _ => rfl).trans hrestart⟩
  · exact .inr ⟨hlive, hmesh, t, hpassed, hcode, (k.read Seal.result fun _ => rfl).trans hresult⟩

theorem Kept.trans_step (k : x.Kept y) (h : y.Step z) : x.Step z := by
  refine ⟨fun hx => h.holds (k.holds hx), fun hset hclear => ?_⟩
  rcases h.cleared (k.latch.trans hset) hclear with hpowered | ⟨hlive, hmesh, hload⟩
  · exact .inl hpowered
  · exact .inr ⟨(k.read Seal.live fun _ => rfl).symm.trans hlive, (k.read Seal.meshOk fun _ => rfl).symm.trans hmesh, hload⟩

/-- A port that is not live, its mesh as it was, no slot loaded. -/
theorem Step.of_emptied (hlive : y.live = false) (hkeys : y.keys = []) (hlatch : x.latch = true → y.latch = true) : x.Step y :=
  .of_latch (fun _ => ⟨fun h => absurd h (by simp [hlive]), fun _ => hkeys⟩) hlatch

/-- D0 that is powered from none (R752). -/
theorem Step.of_fresh (hlive : y.live = false) (hkeys : y.keys = []) (hrestart : y.evRestart = true) : x.Step y :=
  ⟨fun _ => ⟨fun h => absurd h (by simp [hlive]), fun _ => hkeys⟩, fun _ _ => .inl ⟨hkeys, hrestart⟩⟩

end Seal

open Seal

/-! The hatch, the mesh, and a failed erase -/

theorem hatchOpened_step (s : State) : s.sealSt.Step (judgeSummary (hatchOpened s)).sealSt := by
  rw [hatchOpened_sealSt]
  exact .of_emptied rfl rfl id

theorem meshEvent_step (s : State) : s.sealSt.Step (judgeSummary (meshEvent s)).sealSt := by
  rw [meshEvent_sealSt]
  exact .of_emptied rfl rfl (fun _ => rfl)

theorem reportSeal_step (s : State) (isOpen : Bool) : s.sealSt.Step (reportSeal s isOpen) := by
  refine .of_latch (fun ⟨hguarded, hmesh⟩ => ⟨?_, hmesh⟩) id
  cases isOpen with
  | false => simp [Guarded, reportSeal]
  | true =>
    intro hlive
    obtain ⟨-, herased, hmeshOk, hheld⟩ := hguarded (by simpa [reportSeal] using hlive)
    exact ⟨rfl, by simp [reportSeal, herased], hmeshOk, hheld⟩

/-! Transactions -/

/-- A seal whose latch, slots and port stand, whatever the result and the event register say. -/
theorem Seal.Step.of_port {x y : Seal} (h : { x with result := y.result, staging := y.staging, busy := y.busy, ignoring := y.ignoring, discards := y.discards } = y) :
    x.Step y := by
  rw [← h]
  exact .of_latch id id

theorem discardTransaction_step (s : State) (r : Option (BitVec 32)) : s.sealSt.Step (judgeSummary (discardTransaction s r)).sealSt :=
  (Seal.Step.of_port (y := discardSeal s r) rfl).kept (.of_sealKept (discardTransaction_sealKept s r))

theorem loadSeal_meshOk (s : State) (x : KlTransaction) : (loadSeal s x).meshOk = s.sealSt.meshOk := rfl
theorem loadSeal_latch (s : State) (x : KlTransaction) : (loadSeal s x).latch = (s.sealSt.latch && !(s.sealSt.latch && s.sealSt.meshOk)) := rfl
theorem loadSeal_guarded (s : State) (x : KlTransaction) : (loadSeal s x).Guarded = s.sealSt.Guarded := rfl

theorem loadSeal_step {s : State} {x : KlTransaction} (hlive : s.sealSt.live = true) (hpassed : klFails x = none) (hcode : klCode x = 1) :
    s.sealSt.Step (loadSeal s x) := by
  refine ⟨fun ⟨hguarded, _⟩ => ?_, fun hset hclear => ?_⟩
  · obtain ⟨-, -, hmesh, -⟩ := hguarded hlive
    exact ⟨(loadSeal_guarded s x).mpr hguarded, fun hbroken => absurd hbroken (by simp [loadSeal_meshOk, hmesh])⟩
  · rw [loadSeal_latch] at hclear
    exact .inr ⟨hlive, by simpa [hset] using hclear, x, hpassed, hcode, rfl⟩

theorem withResult_step (s : State) (r : BitVec 32) : s.sealSt.Step (withResult s r).sealSt := .of_port rfl

theorem emptySlot_sealKept (s : State) (n : Nat) : s.sealSt.Kept (emptySlot s n).sealSt := ⟨rfl, erase_sublist n s.sealSt.keys⟩

theorem erased_step (s : State) (x : KlTransaction) : s.sealSt.Step (erased s x).sealSt := (withResult_step s _).kept (emptySlot_sealKept _ _)

/-- A transaction that passes every check, in a live port that is not busy. -/
theorem passed_step {s : State} {x : KlTransaction} (hlive : s.sealSt.live = true) (hpassed : klFails x = none) :
    s.sealSt.Step (judgeSummary (if klCode x = 1 then applyLoad s x else if klCode x = 2 then applyErase s x else applyCheck s x)).sealSt := by
  split
  next hcode => exact (loadSeal_step hlive hpassed hcode).kept (.of_sealKept (applyLoad_sealKept s x))
  · split
    · exact (erased_step s x).kept (.of_sealKept (applyErase_sealKept s x))
    · exact (Seal.Step.of_port (y := (applyCheck s x).sealSt) rfl).kept (judgeSummary_kept (.refl _))

/-- The port busy, and its clock heard again, count for nothing. -/
theorem Seal.Step.of_clocked {x y : Seal} {b i : Bool} (h : Seal.Step { x with busy := b, ignoring := i } y) : x.Step y := ⟨h.holds, h.cleared⟩

theorem clocked_sealSt (s : State) (x : KlTransaction) : (clocked s x).sealSt = { s.sealSt with busy := true, ignoring := false } := rfl

theorem transaction_step (s : State) (x : KlTransaction) : s.sealSt.Step (judgeSummary (transaction s x)).sealSt := by
  cases hlive : s.sealSt.live with
  | false =>
    have hidle : transaction s x = s := by simp [transaction, hlive]
    rw [hidle]
    exact (judgeSummary_kept (.refl _)).step
  | true =>
    cases hbusy : s.sealSt.busy with
    | true =>
      rw [transaction_busy hlive hbusy]
      exact discardTransaction_step (shiftOut s x) _
    | false =>
      cases hfails : klFails x with
      | some f =>
        rw [transaction_failed hlive hbusy hfails]
        exact .of_clocked (discardTransaction_step (clocked s x) _)
      | none =>
        rw [transaction_passed hlive hbusy hfails]
        exact .of_clocked (passed_step (s := clocked s x) hlive hfails)

end Sys2Proof.Machine
end


section
/-! Each command that acts on the seal. -/
namespace Sys2Proof.Machine

open Seal

/-- Whatever state the command gives from `s`, the seal makes a step of the invariant. -/
def StepsSeal (s : State) (o : Host.Outcome State Fault Refusal) : Prop := ∀ t, o = .next t → s.sealSt.Step t.sealSt

theorem stepsSeal_run {f : State → State} {s : State} (h : s.sealSt.Step (f { s with out := [] }).sealSt) : StepsSeal s (run f s) := by
  intro t ht
  cases ht
  exact h

theorem KeepsSeal.steps {s : State} {o : Host.Outcome State Fault Refusal} (h : KeepsSeal s o) : StepsSeal s o := fun t ht => (h t ht).step

@[simp] theorem Seal.Step.refl (x : Seal) : x.Step x := (Seal.Kept.refl x).step

theorem execHatchOpened_steps (s : State) : StepsSeal s (execHatchOpened s) := by
  refine stepsSeal_run ?_
  split
  · exact hatchOpened_step (cleanRead { s with out := [] })
  · exact .refl _

theorem execMeshEvent_steps (s : State) : StepsSeal s (execMeshEvent s) := by
  refine stepsSeal_run ?_
  split
  · exact meshEvent_step (cleanRead { s with out := [] })
  · exact .refl _

theorem execMeshMonitorTest_steps (follows : Bool) (s : State) : StepsSeal s (execMeshMonitorTest follows s) := by
  refine stepsSeal_run ?_
  split
  · exact meshEvent_step { s with out := [] }
  · exact .refl _

theorem execEraseReadbackFailure_steps (s : State) : StepsSeal s (execEraseReadbackFailure s) := by
  refine stepsSeal_run ?_
  split
  · exact .refl _
  · have hkept := ((readbackFault_sealKept { s with out := [], sealSt := unerasedSeal s }).trans (keysChanged_sealKept _)).trans (judgeSummary_sealKept _)
    exact (Seal.Step.of_emptied (y := unerasedSeal s) rfl rfl (fun _ => rfl)).kept (.of_sealKept hkept)

theorem execHatchReport_steps (isOpen : Bool) (s : State) : StepsSeal s (execHatchReport isOpen s) := by
  refine stepsSeal_run ?_
  split
  · exact .refl _
  · let u : State := { cleanRead { s with out := [] } with sealSt := reportSeal s isOpen }
    have hkept := ((hatchFault_sealKept u isOpen).trans (portStops_sealKept _)).trans (judgeSummary_sealKept _)
    exact (reportSeal_step s isOpen).kept (.of_sealKept hkept)

theorem execPortLive_steps (supplyOk : Bool) (s : State) : StepsSeal s (execPortLive supplyOk s) := by
  refine stepsSeal_run ?_
  dsimp only
  split
  · exact .refl _
  · split
    · split
      next hready =>
        simp only [Bool.and_eq_true, Bool.not_eq_true'] at hready
        obtain ⟨⟨⟨hopen, herased⟩, hheld⟩, -⟩ := hready
        exact .of_latch (fun _ => ⟨fun _ => ⟨hopen, herased, rfl, hheld⟩, fun h => by cases h⟩) id
      · exact .refl _
    · let u : State := { s with out := [], sealSt := { s.sealSt with live := false, busy := false, staging := 0 } }
      have hoff : s.sealSt.Step u.sealSt := .of_latch (fun h => ⟨fun hlive => absurd hlive Bool.false_ne_true, h.2⟩) id
      exact hoff.kept (.of_sealKept ((portStops_sealKept u).trans (judgeSummary_sealKept _)))

theorem execTransactionDiscarded_steps (x : KlTransaction) (s : State) : StepsSeal s (execTransactionDiscarded x s) := by
  refine stepsSeal_run ?_
  split
  · exact .refl _
  · split
    · exact transaction_step { s with out := [] } x
    · exact discardTransaction_step (shiftOut { s with out := [] } x) none

theorem execTransactionTimeout_steps (s : State) : StepsSeal s (execTransactionTimeout s) := by
  refine stepsSeal_run ?_
  split
  · exact .refl _
  · exact .of_clocked (discardTransaction_step { s with out := [], sealSt := { s.sealSt with ignoring := true } } _)

theorem execPortBusyEnd_steps (s : State) : StepsSeal s (execPortBusyEnd s) := stepsSeal_run (.of_port rfl)

theorem execVbatLowErase_steps (s : State) : StepsSeal s (execVbatLowErase s) := by
  refine stepsSeal_run ?_
  split
  · exact .refl _
  · exact .of_emptied rfl rfl id

/-! D0 powered from none -/

theorem freshD0_step (s : State) : s.sealSt.Step (freshD0 s).sealSt := .of_fresh rfl rfl rfl

theorem execVbatApplied_steps (s : State) : StepsSeal s (execVbatApplied s) := by
  refine stepsSeal_run ?_
  unfold vbatApplied
  dsimp only
  split
  · exact freshD0_step s
  · exact .refl _

theorem execVbatBelowRetentionMin_steps (s : State) : StepsSeal s (execVbatBelowRetentionMin s) := by
  refine stepsSeal_run ?_
  dsimp only
  split
  · exact freshD0_step s
  · exact .refl _

theorem execVinGood_steps (holdUpOk : Bool) (s : State) : StepsSeal s (execVinGood holdUpOk s) := by
  refine stepsSeal_run ?_
  split
  · unfold vinGood
    simp only [enterStarting_keepsSeal, sealSt_ite]
    split
    · exact freshD0_step s
    · exact .refl _
  · exact .refl _

theorem powerDown_step (s : State) : s.sealSt.Step (powerDown s).sealSt := by
  unfold powerDown
  simp only [sealSt_ite, startCore_sealSt]
  split
  · exact .refl _
  · exact freshD0_step s

theorem execVinFailed_steps (s : State) : StepsSeal s (execVinFailed s) := by
  refine stepsSeal_run ?_
  split
  · split
    · exact (flush_kept (s := { s with out := [] }) (.refl s.sealSt)).trans_step (powerDown_step (flush { s with out := [] }))
    · exact powerDown_step { s with out := [] }
  · exact .refl _

/-! The event register (R787) -/

theorem eventEntries_sealSt (s : State) : (eventEntries s).sealSt = s.sealSt := by
  simp [eventEntries]

theorem eventFaults_sealSt (x : Seal) (s : State) : (eventFaults x s).sealSt = s.sealSt := by
  simp [eventFaults]

theorem readEvents_step (s : State) : s.sealSt.Step (readEvents s).sealSt := by
  rw [readEvents_eq, eventFaults_sealSt, eventEntries_sealSt]
  exact .of_latch id id

theorem execJournalCheck_steps (find : JournalFind) (s : State) : StepsSeal s (execJournalCheck find s) := by
  refine stepsSeal_run ?_
  split
  · refine Seal.Step.kept ?_ (judgeSummary_kept (.refl _))
    have hread (u : State) (hu : u.sealSt = s.sealSt) : s.sealSt.Step (readEvents u).sealSt := hu ▸ readEvents_step u
    simp only [journalCheck, sealSt_ite, toStep_sealSt, journalFaults_sealSt, indexPending_sealSt, checkBank_sealSt, readNvm_sealSt, ite_self]
    split
    · exact hread _ (by simp)
    · exact hread _ (by simp)
  · exact .refl _

/-- LOAD, ERASE_COMMAND and CHECK (R763 to R769). -/
theorem transacted_steps (x : KlTransaction) (s : State) : StepsSeal s (run (fun s => judgeSummary (transaction s x)) s) :=
  stepsSeal_run (f := fun s => judgeSummary (transaction s x)) (transaction_step { s with out := [] } x)

/-! Every command but the loss of a domain -/

theorem exec_stepsSeal (s : State) {c : Instr} (hc : ∀ d, c ≠ .domainLost d) : StepsSeal s (exec c s) := by
  cases hacts : actsOnSeal c with
  | false => exact (exec_keepsSeal s c hacts).steps
  | true =>
    cases c with
    | vbatApplied => exact execVbatApplied_steps s
    | vinGood holdUpOk => exact execVinGood_steps holdUpOk s
    | vinFailed => exact execVinFailed_steps s
    | vbatBelowRetentionMin => exact execVbatBelowRetentionMin_steps s
    | vbatLowErase => exact execVbatLowErase_steps s
    | domainLost d => exact absurd rfl (hc d)
    | journalCheck find => exact execJournalCheck_steps find s
    | hatchOpened => exact execHatchOpened_steps s
    | meshEvent => exact execMeshEvent_steps s
    | meshMonitorTest follows => exact execMeshMonitorTest_steps follows s
    | eraseReadbackFailure => exact execEraseReadbackFailure_steps s
    | hatchReport isOpen => exact execHatchReport_steps isOpen s
    | portLive supplyOk => exact execPortLive_steps supplyOk s
    | load x => exact transacted_steps x s
    | eraseCommand x => exact transacted_steps x s
    | check x => exact transacted_steps x s
    | transactionDiscarded x => exact execTransactionDiscarded_steps x s
    | transactionTimeout => exact execTransactionTimeout_steps s
    | portBusyEnd => exact execPortBusyEnd_steps s
    | _ => cases hacts

/-! The loss of D0 (Table 3.2) -/

/-- The loss of D0 changes no domain further. -/
theorem retentionLost_domainGood (s : State) (d : Nat) : domainGood (retentionLost s) d = domainGood s d := by
  have hread : (readD0 (resetD0 s)).power = s.power := by have e := congrArg State.power (readD0_leaves (resetD0 s)).1; exact e
  have hjudged := judgeFault_sansCourse (readD0 (resetD0 s)) (keyU 0x0900) 0 none16 true
  have hkeys := keysChanged_sansReports (judgeFault (readD0 (resetD0 s)) (keyU 0x0900) 0 none16 true)
  rw [retentionLost_eq]
  generalize keysChanged _ = v at hkeys ⊢
  generalize judgeFault _ _ _ _ _ = u at hjudged hkeys
  have hon : v.power.domOn = (readD0 (resetD0 s)).power.domOn := Eq.trans (b := u.power.domOn)
    (congrArg (fun w : State => w.power.domOn) hkeys :) (congrArg (fun w : State => w.power.domOn) hjudged :)
  have hlost : v.power.domLost = (readD0 (resetD0 s)).power.domLost := Eq.trans (b := u.power.domLost)
    (congrArg (fun w : State => w.power.domLost) hkeys :) (congrArg (fun w : State => w.power.domLost) hjudged :)
  rw [domainGood, hon, hlost, hread, domainGood]

/-- The reset that the loss of D0 brings leaves no loaded slot, no live port, and no latch (R752). -/
theorem retentionLost_sealSt (s : State) : ∃ x : Seal, x.keys = [] ∧ x.live = false ∧ x.Kept (retentionLost s).sealSt := by
  have hread := congrArg State.sealSt (readD0_leaves (resetD0 s)).1
  refine ⟨(readD0 (resetD0 s)).sealSt, (congrArg Seal.keys hread :), (congrArg Seal.live hread :), ?_⟩
  rw [retentionLost_eq]
  exact keysChanged_kept (by simp)

theorem domainReaction_sealSt {d : Nat} (hd : d ≠ 0) (s : State) : (domainReaction s d).sealSt = s.sealSt := by
  unfold domainReaction
  split
  · exact absurd rfl hd
  all_goals simp

end Sys2Proof.Machine
end


section
/-! O54: the invariant of the seal, and what clears the tamper latch. -/
namespace Sys2Proof.Machine

open Seal

/-- A domain that is lost reads as lost. -/
theorem domainGood_lost (s : State) (d : Nat) : domainGood { s with power := { s.power with domLost := addDomain s.power.domLost d } } d = false := by
  simp [domainGood, addDomain]

theorem domainLost_kept {d : Nat} (hd : d ≠ 0) (s : State) : s.sealSt.Kept (domainLost s d).sealSt := by
  unfold domainLost
  split
  · rw [coreLost_sealSt]
    exact .refl _
  · refine settlePair_kept ?_
    rw [domainReaction_sealSt hd]
    exact .refl _

/-- The loss of D0 leaves no loaded slot and no live port, and D0 reads as lost. -/
theorem domainLost_d0 (s : State) : ∃ x : Seal, x.keys = [] ∧ x.live = false ∧ x.Kept (domainLost s 0).sealSt ∧ domainGood (domainLost s 0) 0 = false := by
  let u : State := { s with power := { s.power with domLost := addDomain s.power.domLost 0 } }
  obtain ⟨x, hkeys, hlive, hkept⟩ := retentionLost_sealSt u
  have hpower : (settlePair (retentionLost u)).power = (retentionLost u).power := settlePair_power _
  refine ⟨x, hkeys, hlive, settlePair_kept hkept, ?_⟩
  calc domainGood (settlePair (retentionLost u)) 0 = domainGood (retentionLost u) 0 := by rw [domainGood, hpower, domainGood]
    _ = domainGood u 0 := retentionLost_domainGood u 0
    _ = false := domainGood_lost s 0

/-- From `s` to `t` the invariant is kept, and the latch clears only with the loss of D0 or at a LOAD that succeeds (R752, R757). -/
structure SealStep (s t : State) : Prop where
  holds : s.sealSt.Holds → t.sealSt.Holds
  cleared : s.sealSt.latch = true → t.sealSt.latch = false →
    (t.sealSt.keys = [] ∧ (t.sealSt.evRestart = true ∨ domainGood s 0 = true ∧ domainGood t 0 = false))
      ∨ (s.sealSt.live = true ∧ s.sealSt.meshOk = true
        ∧ ∃ x, klFails x = none ∧ klCode x = 1 ∧ t.sealSt.result = klResult 1 (klSlot x) (kcvOf (klKey x)).toNat)

theorem SealStep.of_step {s t : State} (h : s.sealSt.Step t.sealSt) : SealStep s t := by
  refine ⟨h.holds, fun hset hclear => ?_⟩
  rcases h.cleared hset hclear with ⟨hkeys, hrestart⟩ | hload
  · exact .inl ⟨hkeys, .inl hrestart⟩
  · exact .inr hload

theorem sealStep_run {f : State → State} {s t : State} (h : SealStep s (f { s with out := [] })) (hrun : run f s = .next t) : SealStep s t := by
  cases hrun
  exact ⟨h.holds, h.cleared⟩

/-- The loss of a good domain, the TWIN slot judged behind it. -/
theorem domainLost_sealStep {s : State} {d : Nat} (hgood : domainGood s d = true) : SealStep s (withTwin (fun s => domainLost s d) s) := by
  have hseal : (withTwin (fun s => domainLost s d) s).sealSt = (domainLost s d).sealSt := withTwin_sealSt _ s
  have hpower : (withTwin (fun s => domainLost s d) s).power = (domainLost s d).power := withTwin_power _ s
  by_cases hd : d = 0
  · subst hd
    obtain ⟨x, hkeys, hlive, hkept, hlost⟩ := domainLost_d0 s
    have hempty : (domainLost s 0).sealSt.keys = [] := by
      have hsub := hkept.keys
      rw [hkeys] at hsub
      exact List.sublist_nil.mp hsub
    have hdead : (domainLost s 0).sealSt.live = false := (hkept.read Seal.live fun _ => rfl).trans hlive
    refine ⟨fun _ => ⟨fun h => ?_, fun _ => hseal ▸ hempty⟩, fun _ _ => .inl ⟨hseal ▸ hempty, .inr ⟨hgood, ?_⟩⟩⟩
    · rw [hseal, hdead] at h
      cases h
    · rw [domainGood, hpower]
      exact hlost
  · exact .of_step (hseal ▸ (domainLost_kept hd s).step)

theorem execDomainLost_sealStep {s t : State} {d : Fin 11} (h : execDomainLost d s = .next t) : SealStep s t := by
  refine sealStep_run ?_ h
  dsimp only
  split
  next hguard =>
    have hgood : domainGood s d.val = true := by
      simp only [Bool.and_eq_true] at hguard
      exact hguard.2
    obtain ⟨hholds, hcleared⟩ := domainLost_sealStep (s := { s with out := [] }) hgood
    exact ⟨hholds, hcleared⟩
  · exact .of_step (.refl _)

/-- Every step keeps the invariant, and clears the latch only so. -/
theorem step_sealStep {s t : State} (h : step s = .next t) : SealStep s t := by
  unfold step at h
  split at h
  · exact .of_step (idle_keepsSeal s t h).step
  next c rest _ =>
    by_cases hc : ∃ d, c = .domainLost d
    · obtain ⟨d, rfl⟩ := hc
      obtain ⟨hholds, hcleared⟩ := execDomainLost_sealStep h
      exact ⟨hholds, hcleared⟩
    · exact .of_step (exec_stepsSeal { s with pending := rest } (fun d hd => hc ⟨d, hd⟩) t h)

/-- Settles O54: at reset the seal is empty, and every step is a `SealStep`. -/
theorem sealHolds : Obligations.SealHolds := by
  unfold Obligations.SealHolds
  refine ⟨?_, fun s t hholds hstep => (step_sealStep hstep).holds hholds, fun s t hstep => (step_sealStep hstep).cleared⟩
  exact ⟨fun h => absurd h Bool.false_ne_true, fun _ => rfl⟩

end Sys2Proof.Machine
end
